-- ==== Sys2Proof/Word.lean ====
section
/-! DEFINITION. The word types of the model (Scope and conventions, R7, R8). -/
namespace Sys2Proof

/-- A byte of memory, of a scratchpad, of a register file image. -/
abbrev Byte := BitVec 8

/-- A 32-bit word: a register of BAR0, a general register of a cell thread. -/
abbrev Word := BitVec 32

/-- A sparse table: key and value pairs, keys strictly rising. -/
abbrev Tab (α : Type) := List (Nat × α)

/-- A list of bytes, lowest address first. -/
abbrev Bytes := List Byte

end Sys2Proof
end

