-- ==== Sys2Proof/Machine/Bits.lean ====
section
/-! DEFINITION. Bit fields, little-endian fields (R8), sparse tables, and the comparison of sequence numbers (R11, R12). -/
namespace Sys2Proof.Machine

/-! ### Sparse tables -/

/-- What a table holds under a key, if anything. -/
def tget? {α : Type} : Tab α → Nat → Option α
  | [], _ => none
  | (j, w) :: r, k => if j = k then some w else tget? r k

/-- What a table holds under a key; `d` where it lists nothing. -/
def tget {α : Type} (t : Tab α) (k : Nat) (d : α) : α := (tget? t k).getD d

/-- Write under a key, keeping the keys in rising order. -/
def tset {α : Type} : Tab α → Nat → α → Tab α
  | [], k, v => [(k, v)]
  | (j, w) :: r, k, v =>
    if k < j then (k, v) :: (j, w) :: r
    else if k = j then (k, v) :: r
    else (j, w) :: tset r k v

/-- Remove what stands under a key. -/
def tdel {α : Type} : Tab α → Nat → Tab α
  | [], _ => []
  | (j, w) :: r, k => if j = k then r else (j, w) :: tdel r k

/-- Change what stands under a key (`d` where nothing does). -/
def tmod {α : Type} (t : Tab α) (k : Nat) (d : α) (f : α → α) : Tab α := tset t k (f (tget t k d))

/-- Keys strictly rising. -/
def Tab.sorted {α : Type} : Tab α → Bool
  | [] => true
  | [_] => true
  | (j, _) :: (k, w) :: r => decide (j < k) && Tab.sorted ((k, w) :: r)

/-! ### Byte memory in canonical form: an unlisted address reads as zero -/

/-- The byte at an address. -/
def bget (m : Tab Byte) (a : Nat) : Byte := tget m a 0

/-- Write one byte; writing the value an unlisted address reads as removes the entry. -/
def bset (m : Tab Byte) (a : Nat) (b : Byte) : Tab Byte := if b = 0 then tdel m a else tset m a b

/-- Write a run of bytes, the first at the lowest address. -/
def bwrite : Tab Byte → Nat → Bytes → Tab Byte
  | m, _, [] => m
  | m, a, b :: bs => bwrite (bset m a b) (a + 1) bs

/-- Read `n` bytes, the lowest address first. -/
def bread (m : Tab Byte) (a : Nat) : Nat → Bytes
  | 0 => []
  | n + 1 => bget m a :: bread m (a + 1) n

/-- Zero a run of bytes: drop every entry inside it. -/
def bzero (m : Tab Byte) (a n : Nat) : Tab Byte := m.filter fun e => decide (e.1 < a) || decide (a + n ≤ e.1)

/-- The canonical form: keys strictly rising, no entry equal to what an unlisted address reads as. -/
def bytesWf (m : Tab Byte) : Bool := Tab.sorted m && m.all fun e => e.2 != 0

/-! ### Little-endian fields -/

/-- The number that little-endian bytes spell (R8). -/
def leNat : Bytes → Nat
  | [] => 0
  | b :: bs => b.toNat + 256 * leNat bs

/-- `n` little-endian bytes of a number (R8). -/
def natLE : Nat → Nat → Bytes
  | 0, _ => []
  | n + 1, v => BitVec.ofNat 8 v :: natLE n (v / 256)

/-- `n` bytes from offset `o` of a structure; bytes past its end read as zero. -/
def sliceB (bs : Bytes) (o n : Nat) : Bytes := ((bs.drop o).take n) ++ List.replicate (n - (bs.drop o).length) 0

/-- The little-endian field of `n` bytes at offset `o`. -/
def leField (bs : Bytes) (o n : Nat) : Nat := leNat (sliceB bs o n)

/-- Exactly `n` bytes: cut, or filled with zeros. -/
def fitB (bs : Bytes) (n : Nat) : Bytes := sliceB bs 0 n

/-- Bits [hi:lo] of a number. -/
def bitsN (v hi lo : Nat) : Nat := (v / 2 ^ lo) % 2 ^ (hi + 1 - lo)

/-- One bit of a number. -/
def bitN (v i : Nat) : Bool := (v / 2 ^ i) % 2 == 1

/-- Replace bits [hi:lo] of a number. -/
def setBitsN (v hi lo x : Nat) : Nat :=
  v - (v / 2 ^ lo) % 2 ^ (hi + 1 - lo) * 2 ^ lo + (x % 2 ^ (hi + 1 - lo)) * 2 ^ lo

/-- A Bool as a bit. -/
def b2n (b : Bool) : Nat := if b then 1 else 0

/-- The signed value of the low `n` bits. -/
def sgnN (n v : Nat) : Int := if v % 2 ^ n < 2 ^ (n - 1) then (v % 2 ^ n : Nat) else ((v % 2 ^ n : Nat) : Int) - (2 ^ n : Nat)

/-- The low `n` bits of a signed number. -/
def unsN (n : Nat) (v : Int) : Nat := (v % ((2 ^ n : Nat) : Int)).toNat

/-- Reverse the low `n` bits. -/
def reflectN : Nat → Nat → Nat
  | 0, _ => 0
  | n + 1, v => (v % 2) * 2 ^ n + reflectN n (v / 2)

/-! ### Sequence numbers (R11, R12) -/

/-- `d = (a − b) mod 2^n` of R12. -/
def seqDiff (n a b : Nat) : Nat := (a % 2 ^ n + 2 ^ n - b % 2 ^ n) % 2 ^ n

/-- R12: a is newer than b when 1 ≤ d ≤ 2^(n−1) − 1. -/
def seqNewer (n a b : Nat) : Bool := decide (1 ≤ seqDiff n a b) && decide (seqDiff n a b ≤ 2 ^ (n - 1) - 1)

/-- R12: equal, or newer. -/
def seqEqOrNewer (n a b : Nat) : Bool := seqDiff n a b == 0 || seqNewer n a b

/-- R12: a is older than b when 2^(n−1) + 1 ≤ d ≤ 2^n − 1. -/
def seqOlder (n a b : Nat) : Bool := decide (2 ^ (n - 1) + 1 ≤ seqDiff n a b)

/-- R459 and every saturating count: add, never past the largest value. -/
def satAdd (w a b : Nat) : Nat := min (a + b) (2 ^ w - 1)

/-! ### Lists -/

/-- Change the entry at an index. -/
def lmod {α : Type} : List α → Nat → (α → α) → List α
  | [], _, _ => []
  | x :: xs, 0, f => f x :: xs
  | x :: xs, n + 1, f => x :: lmod xs n f

/-- Drop the entry at an index. -/
def ldel {α : Type} : List α → Nat → List α
  | [], _ => []
  | _ :: xs, 0 => xs
  | x :: xs, n + 1 => x :: ldel xs n

/-- Put a number in a list without repeats. -/
def addN (l : List Nat) (n : Nat) : List Nat := if l.contains n then l else l ++ [n]

/-- Take a number out of a list. -/
def delN (l : List Nat) (n : Nat) : List Nat := l.filter (· != n)

/-- Byte-wise exclusive or. -/
def xorB : Bytes → Bytes → Bytes
  | a :: as, b :: bs => (a ^^^ b) :: xorB as bs
  | _, _ => []

end Sys2Proof.Machine
end

