-- ==== Sys2Proof/Machine/Checks.lean ====
section
/-! DEFINITION. Check values: the CRC of R153, the linear checksums of R139 and R155, SHAKE256 (R236, R407). -/
namespace Sys2Proof.Machine

/-! ### CRC mode (R153) -/

/-- A check profile (R157): width, polynomial, initial value, reflections, final inversion, linear mode, valid. -/
structure Profile where
  width : Nat
  poly : Nat
  init : Nat
  refin : Bool
  refout : Bool
  xorout : Bool
  linear : Bool
  valid : Bool
  deriving DecidableEq, Repr

/-- One shift of the running value (R153). -/
def crcShift (w poly crc : Nat) : Nat :=
  if (crc >>> (w - 1)) % 2 == 1 then ((crc <<< 1) ^^^ poly) % 2 ^ w else (crc <<< 1) % 2 ^ w

/-- Eight shifts. -/
def crcShifts (w poly : Nat) : Nat → Nat → Nat
  | 0, crc => crc
  | n + 1, crc => crcShifts w poly n (crcShift w poly crc)

/-- The running value after one byte (R153). -/
def crcByte (p : Profile) (crc : Nat) (b : Byte) : Nat :=
  let v := if p.refin then reflectN 8 b.toNat else b.toNat
  crcShifts p.width p.poly 8 (crc ^^^ (v <<< (p.width - 8)))

/-- The running value after a run of bytes, from a given running value. -/
def crcRun (p : Profile) (crc : Nat) (bs : Bytes) : Nat := bs.foldl (crcByte p) crc

/-- Output processing (R153). -/
def crcOut (p : Profile) (crc : Nat) : Nat :=
  let out := if p.refout then reflectN p.width crc else crc
  if p.xorout then out ^^^ (2 ^ p.width - 1) else out

/-- The check of a whole record (R153). -/
def crcOf (p : Profile) (bs : Bytes) : Nat := crcOut p (crcRun p p.init bs)

/-- Profile 0, CRC-32C, fixed (R157). -/
def profile0 : Profile :=
  { width := 32, poly := 0x1EDC6F41, init := 0xFFFFFFFF, refin := true, refout := true, xorout := true, linear := false, valid := true }

/-- The CRC-64/XZ parameters (R157, R366, R394). -/
def profileXZ : Profile :=
  { width := 64, poly := 0x42F0E1EBA9EA3693, init := 0xFFFFFFFFFFFFFFFF, refin := true, refout := true, xorout := true, linear := false, valid := true }

/-- The CRC-16/IBM-3740 parameters (R157, R369). -/
def profile3740 : Profile :=
  { width := 16, poly := 0x1021, init := 0xFFFF, refin := false, refout := false, xorout := false, linear := false, valid := true }

/-! ### Linear checksums (R139, R155) -/

/-- The modulus p = 2^61 − 1 of R139. -/
def lsumP : Nat := 2 ^ 61 - 1

/-- R139: the payload's little-endian 32-bit integers summed modulo p; a negative one contributes p + v when read as signed. -/
def lsumWords (signed : Bool) : Nat → Bytes → Nat
  | 0, _ => 0
  | n + 1, bs =>
    let v := leField bs 0 4
    let c := if signed && decide (2 ^ 31 ≤ v) then lsumP + v - 2 ^ 32 else v
    (c + lsumWords signed n (bs.drop 4)) % lsumP

/-- The linear checksum of a tile payload (R139): signed for element codes 0x30 and 0x31. -/
def lsumTile (elemCode : Nat) (payload : Bytes) : Nat :=
  lsumWords (elemCode == 0x30 || elemCode == 0x31) 512 payload

/-- Linear mode of a check-value unit (R155): unsigned words, a final partial word padded with zero bytes. -/
def lsumRecord (bs : Bytes) : Nat := lsumWords false ((bs.length + 3) / 4) bs

/-- The running value of a profile after more bytes of a record, `done` bytes being processed (R153, R155). -/
def chkRun (p : Profile) (run done : Nat) : Bytes → Nat
  | [] => run
  | b :: bs =>
    if p.linear then chkRun p ((run + b.toNat * 256 ^ (done % 4)) % lsumP) (done + 1) bs
    else chkRun p (crcByte p run b) (done + 1) bs

/-- The running value a record starts from. -/
def chkInit (p : Profile) : Nat := if p.linear then 0 else p.init

/-- The check from a running value. -/
def chkOut (p : Profile) (run : Nat) : Nat := if p.linear then run else crcOut p run

/-- Bytes of the check a profile appends (R154, R155). -/
def checkBytes (p : Profile) : Nat := if p.linear then 8 else (p.width + 7) / 8

/-- The check that a profile computes over a record (R154, R155). -/
def checkOf (p : Profile) (bs : Bytes) : Nat := if p.linear then lsumRecord bs else crcOf p bs

/-! ### SHAKE256 (R236, R407), to its published definition: the constants are computed, the state is five planes of lanes -/

/-- The state of the permutation: plane y is the list of its five lanes. -/
abbrev Planes := List (List (BitVec 64))

/-- The lane in sheet x of plane y. -/
def laneAt (st : Planes) (x y : Nat) : BitVec 64 := (st.getD (y % 5) []).getD (x % 5) 0

/-- A state given lane by lane. -/
def planesOf (f : Nat → Nat → BitVec 64) : Planes := (List.range 5).map fun y => (List.range 5).map fun x => f x y

/-- The walk (x, y) → (y, 2x + 3y) from (1, 0): each lane met after `t` steps turns by the triangular number of t + 1. -/
def turnWalk : Nat → Nat → Nat → Nat → List (Nat × Nat)
  | 0, _, _, _ => []
  | fuel + 1, t, x, y => (x + 5 * y, (t + 1) * (t + 2) / 2 % 64) :: turnWalk fuel (t + 1) y ((2 * x + 3 * y) % 5)

/-- How far each lane turns. -/
def laneTurns : List (Nat × Nat) := turnWalk 24 0 1 0

/-- The turn of the lane in sheet x of plane y; the lane at the origin stands. -/
def laneTurn (x y : Nat) : Nat := ((laneTurns.find? fun e => e.1 == x % 5 + 5 * (y % 5)).map (·.2)).getD 0

/-- The feedback register x^8 + x^6 + x^5 + x^4 + 1 after `n` shifts from 1. -/
def feedback : Nat → Nat
  | 0 => 1
  | n + 1 => let v := feedback n * 2; if 256 ≤ v then v - 256 ^^^ 0x71 else v

/-- The constant of round `i`: bit 2^j − 1 is the low bit of the register after j + 7i shifts. -/
def roundWord (i : Nat) : BitVec 64 :=
  (List.range 7).foldl (fun w j => if feedback (j + 7 * i) % 2 == 1 then w ||| BitVec.ofNat 64 (2 ^ (2 ^ j - 1)) else w) 0

/-- The parity that a sheet's neighbours add to each of its lanes. -/
def sheetMix (st : Planes) (x : Nat) : BitVec 64 :=
  let sheet (x : Nat) : BitVec 64 := st.foldl (fun v plane => v ^^^ plane.getD (x % 5) 0) 0
  sheet (x + 4) ^^^ (sheet (x + 1)).rotateLeft 1

/-- One round: parities in, lanes turned and moved, each plane mixed along itself, the round's constant into the origin. -/
def permRound (st : Planes) (i : Nat) : Planes :=
  let mix := (List.range 5).map (sheetMix st)
  let moved := planesOf fun x y => (laneAt st (x + 3 * y) x ^^^ mix.getD ((x + 3 * y) % 5) 0).rotateLeft (laneTurn (x + 3 * y) x)
  planesOf fun x y =>
    let v := laneAt moved x y ^^^ (~~~(laneAt moved (x + 1) y) &&& laneAt moved (x + 2) y)
    if x + y == 0 then v ^^^ roundWord i else v

/-- The permutation of 24 rounds. -/
def permute (st : Planes) : Planes := (List.range 24).foldl permRound st

/-- The first 136 bytes of a state, its rate. -/
def rateBytes (st : Planes) : Bytes := (st.flatten.take 17).flatMap fun v => natLE 8 v.toNat

/-- A block of 136 bytes enters the state. -/
def soak (st : Planes) (blk : Bytes) : Planes :=
  permute (planesOf fun x y => if x + 5 * y < 17 then laneAt st x y ^^^ BitVec.ofNat 64 (leField blk (8 * (x + 5 * y)) 8) else laneAt st x y)

/-- The state after a message in whole blocks. -/
def soakAll : Nat → Planes → Bytes → Planes
  | 0, st, _ => st
  | n + 1, st, bs => soakAll n (soak st bs) (bs.drop 136)

/-- The output stream, as many blocks as asked. -/
def drip : Nat → Planes → Bytes
  | 0, _ => []
  | n + 1, st => rateBytes st ++ drip n (permute st)

/-- SHAKE256 with `n` bytes of output: the suffix 1111, then the padding 10…01. -/
def shake256 (msg : Bytes) (n : Nat) : Bytes :=
  let blocks := msg.length / 136 + 1
  let room := 136 * blocks - msg.length
  let tail := if room == 1 then [0x9F] else natLE room (0x1F + 0x80 * 256 ^ (room - 1))
  fitB (drip (n / 136 + 1) (soakAll blocks (planesOf fun _ _ => 0) (msg ++ tail))) n

/-- The first 32 bytes of SHAKE256: the digest used throughout (R236, R414). -/
def digest32 (msg : Bytes) : Bytes := shake256 msg 32

end Sys2Proof.Machine
end

