-- ==== Sys2Proof/Config.lean ====
section
/-! DEFINITION. What the spec leaves open: free values, with no body, so that nothing can lean on one. -/
namespace Sys2Proof.Config

/-- Which admissible FP32 result e^x takes, within the 2 ulp of R121, by operand code. -/
opaque expPick : Nat → Nat

/-- Which admissible FP32 result the reciprocal square root takes, within the 1 ulp of R121, by operand code. -/
opaque rsqPick : Nat → Nat

/-- The lane result of a vector compare on two operand codes (R94 names the operation and gives it no result). -/
opaque cmpResult : Nat → Nat → Word

/-- Lanes 1 to 15 of a cross-lane reduction's destination, by free counter and lane. -/
opaque laneRest : Nat → Nat → Word

/-- The result of a scalar integer instruction, by operation code, operands and immediate (R105 gives its latency). -/
opaque aluResult : Nat → Nat → Nat → Nat → Word

/-- Which non-finite value an element of a non-finite SW12 or MX block has, by format code and element code: 0 NaN, 1 and 2 an infinity (R108 and
R109 say that the block is non-finite, and define no element of it). -/
opaque openKind : Nat → Nat → Fin 3

/-- The element code that goes into an MX block written with scale 0xFF, by format and the FP32 code of the value (R119 gives the scale alone). -/
opaque openCode : Nat → Nat → Nat

/-- A 64-bit value of Headwater's random source, by draw number (R187, R407). -/
opaque random : Nat → BitVec 64

/-- A state line that an Estuary engine writes to a collect range: its layout is not part of the interface (R260). -/
opaque stateLine : Nat → BitVec 512

/-- Outstanding requests that QUERY_DATA says this module accepts as a target (R208 names the field and gives it no value). -/
opaque queryOutstanding : Word

/-- Which of an edge's 40 ports a packet crosses by, by source, destination die, class and edge (R30 gives the ports, not the choice). -/
opaque stitchPort : Nat → Nat → Nat → Nat → Nat

/-- The fused module serial and silicon stepping, and the count of power-ons before State.reset (R341, R472). -/
opaque serial : BitVec 64
opaque stepping : BitVec 8
opaque powerOns : Word

/-- Contents of a CDAT answer on the DOE mailbox, by request (R350 names the protocol). -/
opaque cdat : Nat → Bytes

/-- SHAKE256 digests of the four vendor public keys, in the ROM (R408). -/
opaque vendorDigest : Nat → Bytes

/-- XMSS-SHAKE256_20_256 as RFC 8391 and SP 800-208 define it (R408), which the spec does not restate: whether a signature verifies
over a message under a public key; the signature of the identity key of a generation under an index; its public key. -/
opaque xmssVerify : Bytes → Bytes → Bytes → Bool
opaque xmssSign : Nat → Nat → Bytes → Bytes
opaque identityKey : Nat → Bytes

/-- Digest of the ROM version and the OTP settings, by revocations and minima (R412): the spec gives it no layout. -/
opaque romDigest : List Nat → List (Nat × Nat) → Bytes

/-- Images in the banks A, and the factory licence, as at manufacture (R3, R413). -/
opaque factoryImage : Nat → Bytes
opaque factoryLicence : Bytes

/-- Latencies that the module states in its capability record, in units of 0.1 ns (R380, R381). -/
opaque txLatency : BitVec 16
opaque rxLatency : BitVec 16

/-- How long after tick 4,096 the first bit of a lane's TIDE flit leaves, in 2^-16 tick, by free counter, engine and lane (R378). -/
opaque flitDelay : Nat → Nat → Nat → Nat

/-- Where in the fast tier Watershed puts the export region (R302). -/
opaque exportBase : BitVec 37

/-- Capability registers of the CXL component block, by offset (R482 names CXL 3.1, which it does not restate). -/
opaque cxlComponent : Nat → Word

/-- Data bits of an idle block, by number, and of an alignment block (R364 gives them no value). -/
opaque idleBlock : Nat → BitVec 256
opaque alignBlock : BitVec 256

end Sys2Proof.Config
end

