-- ==== Sys2Proof/Machine/Numerics.lean ====
section
/-! DEFINITION. Exact values and the two roundings of Training numerics (R107, R114, R116, R119, R121). -/
namespace Sys2Proof.Machine

/-- A decoded floating-point value: (−1)^neg × m × 2^e, an infinity, or a NaN. -/
inductive FVal where
  | fin (neg : Bool) (m : Nat) (e : Int)
  | inf (neg : Bool)
  | nan
  deriving DecidableEq, Repr

/-- A binary format: mantissa bits, exponent bits, bias, largest finite magnitude code, and whether it has infinities (R107). -/
structure FFmt where
  mb : Nat
  eb : Nat
  bias : Nat
  maxCode : Nat
  hasInf : Bool
  deriving DecidableEq, Repr

/-- The exponent of one step of the smallest binade: 1 − bias − mb. -/
def FFmt.qmin (f : FFmt) : Int := 1 - (f.bias : Int) - (f.mb : Int)

/-- FP32 (R107). -/
def fp32 : FFmt := { mb := 23, eb := 8, bias := 127, maxCode := 0x7F7FFFFF, hasInf := true }
/-- BF16 (R107). -/
def bf16 : FFmt := { mb := 7, eb := 8, bias := 127, maxCode := 0x7F7F, hasInf := true }
/-- FP8 E4M3 (R107). -/
def e4m3 : FFmt := { mb := 3, eb := 4, bias := 7, maxCode := 0x7E, hasInf := false }
/-- FP8 E5M2 (R107). -/
def e5m2 : FFmt := { mb := 2, eb := 5, bias := 15, maxCode := 0x7B, hasInf := true }
/-- MX element E2M3 (R107). -/
def e2m3 : FFmt := { mb := 3, eb := 2, bias := 1, maxCode := 0x1F, hasInf := false }
/-- MX element E3M2 (R107). -/
def e3m2 : FFmt := { mb := 2, eb := 3, bias := 3, maxCode := 0x1F, hasInf := false }
/-- MX element E2M1 (R107). -/
def e2m1 : FFmt := { mb := 1, eb := 2, bias := 1, maxCode := 0x7, hasInf := false }
/-- IEEE 754 binary64, the width of totals and of the loss (R121, R129). -/
def fp64 : FFmt := { mb := 52, eb := 11, bias := 1023, maxCode := 0x7FEFFFFFFFFFFFFF, hasInf := true }

/-- Bits of a format. -/
def FFmt.width (f : FFmt) : Nat := 1 + f.eb + f.mb

/-- The magnitude that a code names: m × 2^q. -/
def codeMag (f : FFmt) (code : Nat) : Nat × Int :=
  let ex := code / 2 ^ f.mb
  let fr := code % 2 ^ f.mb
  if ex == 0 then (fr, f.qmin) else (fr + 2 ^ f.mb, f.qmin + (ex - 1 : Nat))

/-- Decode a value of a format (R107). -/
def decodeF (f : FFmt) (v : Nat) : FVal :=
  let neg := bitN v (f.eb + f.mb)
  let code := v % 2 ^ (f.eb + f.mb)
  if f.hasInf && code / 2 ^ f.mb == 2 ^ f.eb - 1 then
    if code % 2 ^ f.mb == 0 then .inf neg else .nan
  else if !f.hasInf && f.eb == 4 && code == 0x7F then .nan
  else
    let (m, e) := codeMag f code
    .fin neg m e

/-! ### Exact arithmetic -/

/-- The length of a number in bits. -/
def bitLen (n : Nat) : Nat := if n = 0 then 0 else Nat.log2 n + 1

/-- The signed mantissa of m × 2^e at the exponent q ≤ e. -/
def alignTo (neg : Bool) (m : Nat) (e q : Int) : Int :=
  let v : Int := ((m * 2 ^ (e - q).toNat : Nat) : Int)
  if neg then -v else v

/-- Exact sum. Zeros of unlike sign, and exact cancellation, give +0. -/
def addV : FVal → FVal → FVal
  | .nan, _ => .nan
  | _, .nan => .nan
  | .inf a, .inf b => if a == b then .inf a else .nan
  | .inf a, _ => .inf a
  | _, .inf b => .inf b
  | .fin n1 m1 e1, .fin n2 m2 e2 =>
    if m1 == 0 && m2 == 0 then .fin (n1 && n2) 0 0
    else
      let q := min e1 e2
      let s := alignTo n1 m1 e1 q + alignTo n2 m2 e2 q
      if s == 0 then .fin false 0 0 else .fin (decide (s < 0)) s.natAbs q

/-- Change of sign. -/
def negV : FVal → FVal
  | .fin n m e => .fin (!n) m e
  | .inf n => .inf (!n)
  | .nan => .nan

/-- Sign cleared. -/
def absV : FVal → FVal
  | .fin _ m e => .fin false m e
  | .inf _ => .inf false
  | .nan => .nan

/-- Exact product. -/
def mulV : FVal → FVal → FVal
  | .nan, _ => .nan
  | _, .nan => .nan
  | .inf a, .inf b => .inf (xor a b)
  | .inf a, .fin b m _ => if m == 0 then .nan else .inf (xor a b)
  | .fin a m _, .inf b => if m == 0 then .nan else .inf (xor a b)
  | .fin a m1 e1, .fin b m2 e2 => .fin (xor a b) (m1 * m2) (e1 + e2)

/-- A value times a power of two. -/
def scaleV (v : FVal) (k : Int) : FVal :=
  match v with
  | .fin n m e => .fin n m (e + k)
  | w => w

/-- Finite. -/
def finV : FVal → Bool
  | .fin _ _ _ => true
  | _ => false

/-- NaN. -/
def isNan : FVal → Bool
  | .nan => true
  | _ => false

/-- Zero of either sign. -/
def zeroV : FVal → Bool
  | .fin _ m _ => m == 0
  | _ => false

/-- Exact order: a < b; false when either is NaN. -/
def ltV : FVal → FVal → Bool
  | .nan, _ => false
  | _, .nan => false
  | .inf a, .inf b => a && !b
  | .inf a, .fin _ _ _ => a
  | .fin _ _ _, .inf b => !b
  | .fin n1 m1 e1, .fin n2 m2 e2 =>
    let q := min e1 e2
    decide (alignTo n1 m1 e1 q < alignTo n2 m2 e2 q)

/-- The integer square root by its bits, from bit `i` down. -/
def isqrtGo (n : Nat) : Nat → Nat → Nat
  | 0, acc => if (acc + 1) * (acc + 1) ≤ n then acc + 1 else acc
  | i + 1, acc =>
    let t := acc + 2 ^ (i + 1)
    isqrtGo n i (if t * t ≤ n then t else acc)

/-- ⌊√n⌋. -/
def isqrt (n : Nat) : Nat := isqrtGo n (bitLen n / 2 + 1) 0

/-- Quotient with a sticky last bit, good for one rounding to `p` bits or fewer. -/
def divV (p : Nat) : FVal → FVal → FVal
  | .nan, _ => .nan
  | _, .nan => .nan
  | .inf _, .inf _ => .nan
  | .inf a, .fin b _ _ => .inf (xor a b)
  | .fin a _ _, .inf b => .fin (xor a b) 0 0
  | .fin a m1 e1, .fin b m2 e2 =>
    if m2 == 0 then (if m1 == 0 then .nan else .inf (xor a b))
    else if m1 == 0 then .fin (xor a b) 0 0
    else
      let k := p + 3 + bitLen m2
      let q := m1 * 2 ^ k / m2
      let r := m1 * 2 ^ k % m2
      .fin (xor a b) (2 * q + (if r == 0 then 0 else 1)) (e1 - e2 - k - 1)

/-- Square root with a sticky last bit. −0 gives −0, a negative number NaN. -/
def sqrtV (p : Nat) : FVal → FVal
  | .nan => .nan
  | .inf n => if n then .nan else .inf false
  | .fin n m e =>
    if m == 0 then .fin n 0 0
    else if n then .nan
    else
      let m1 := if e % 2 == 0 then m else 2 * m
      let e1 := if e % 2 == 0 then e else e - 1
      let k := p + 3
      let z := m1 * 2 ^ (2 * k)
      let s := isqrt z
      .fin false (2 * s + (if s * s == z then 0 else 1)) (e1 / 2 - k - 1)

/-! ### Rounding -/

/-- How a value narrows: round to nearest even, or stochastically with the 24-bit draw r (R114). -/
inductive Rnd where
  | rne
  | sr (r : Nat)
  deriving DecidableEq, Repr

/-- Round the magnitude m × 2^e of a value of sign `neg` to a multiple of 2^q, q > e given by `s = q − e` (R114). -/
def roundShift (rnd : Rnd) (neg : Bool) (m s : Nat) : Nat :=
  let lo := m / 2 ^ s
  let rem := m % 2 ^ s
  if rem == 0 then lo
  else match rnd with
    | .rne => if 2 * rem > 2 ^ s || (2 * rem == 2 ^ s && lo % 2 == 1) then lo + 1 else lo
    | .sr r =>
      if neg then (if r < 2 ^ 24 * (2 ^ s - rem) / 2 ^ s then lo else lo + 1)
      else (if r < 2 ^ 24 * rem / 2 ^ s then lo + 1 else lo)

/-- The magnitude code, unbounded above, of m × 2^e rounded to `mb` mantissa bits with least step 2^qmin. -/
def roundCode (rnd : Rnd) (mb : Nat) (qmin : Int) (neg : Bool) (m : Nat) (e : Int) : Nat :=
  if m == 0 then 0
  else
    let q := max (e + (bitLen m : Int) - (mb + 1 : Nat)) qmin
    let m' := if q ≤ e then m * 2 ^ (e - q).toNat else roundShift rnd neg m (q - e).toNat
    (q - qmin).toNat * 2 ^ mb + m'

/-- Sign and magnitude code as the bits of a format. -/
def packF (f : FFmt) (neg : Bool) (code : Nat) : Nat := b2n neg * 2 ^ (f.eb + f.mb) + code

/-- The code of infinity in a format that has one. -/
def infCode (f : FFmt) : Nat := (2 ^ f.eb - 1) * 2 ^ f.mb

/-- The canonical quiet NaN of FP32, BF16 and FP64 (R119, R121). -/
def nanCode (f : FFmt) : Nat := infCode f + 2 ^ (f.mb - 1)

/-- Arithmetic rounding by RNE under IEEE 754 (R121): overflow gives infinity, NaN the canonical one. -/
def roundF (f : FFmt) : FVal → Nat
  | .nan => nanCode f
  | .inf n => packF f n (infCode f)
  | .fin n m e =>
    let c := roundCode .rne f.mb f.qmin n m e
    packF f n (if c > f.maxCode then infCode f else c)

/-- Whether the magnitude m × 2^e exceeds the format's largest finite value. -/
def aboveMax (f : FFmt) (m : Nat) (e : Int) : Bool :=
  let (mm, me) := codeMag f f.maxCode
  ltV (.fin false mm me) (.fin false m e)

/-- What narrowing found: a saturation, a non-finite result (R119). -/
structure NarrowNote where
  sat : Bool
  nonfin : Bool
  deriving DecidableEq, Repr

/-- Narrowing to BF16, E4M3, E5M2 or an FP32 target under R119: saturation to the largest finite, specials by the table. -/
def narrowF (f : FFmt) (rnd : Rnd) (v : FVal) : Nat × NarrowNote :=
  match v with
  | .nan => (if f.width == 8 then 0x7F else nanCode f, { sat := false, nonfin := true })
  | .inf n => (if f.hasInf then packF f n (infCode f) else packF f n 0x7F, { sat := false, nonfin := true })
  | .fin n m e =>
    if aboveMax f m e then (packF f n f.maxCode, { sat := true, nonfin := false })
    else (packF f n (min (roundCode rnd f.mb f.qmin n m e) f.maxCode), { sat := false, nonfin := false })

/-- ⌊log2 x⌋ of a nonzero magnitude m × 2^e. -/
def log2V (m : Nat) (e : Int) : Int := (Nat.log2 m : Int) + e

/-! ### FP32 and FP64 operations (R121): exact, then one rounding -/

/-- FP64 addition. -/
def add64 (a b : Nat) : Nat := roundF fp64 (addV (decodeF fp64 a) (decodeF fp64 b))
/-- FP64 subtraction. -/
def sub64 (a b : Nat) : Nat := roundF fp64 (addV (decodeF fp64 a) (negV (decodeF fp64 b)))
/-- FP64 multiplication. -/
def mul64 (a b : Nat) : Nat := roundF fp64 (mulV (decodeF fp64 a) (decodeF fp64 b))
/-- An integer as an exact value. -/
def intV (i : Int) : FVal := .fin (decide (i < 0)) i.natAbs 0

/-- Reciprocal square root to within 1 ulp (R121): `pick` chooses among the representable values within the bound. -/
def rsqrt32 (pick : Nat) (a : FVal) : Nat :=
  match a with
  | .nan => nanCode fp32
  | .inf n => if n then nanCode fp32 else 0
  | .fin n m e =>
    if m == 0 then packF fp32 n (infCode fp32)
    else if n then nanCode fp32
    else
      let m1 := if e % 2 == 0 then m else 2 * m
      let e1 := if e % 2 == 0 then e else e - 1
      -- 1/√(m1 × 2^e1) = √(2^(2k) / m1) × 2^(−k − e1/2), with at least 24 bits of quotient
      let k := 30 + bitLen m1
      let s := isqrt (2 ^ (2 * k) / m1)
      let exact := s * s * m1 == 2 ^ (2 * k) && s % 2 ^ (bitLen s - 24) == 0
      let lo := s / 2 ^ (bitLen s - 24)
      let code := roundCode .rne 23 fp32.qmin false lo ((bitLen s - 24 : Nat) - (k : Int) - e1 / 2)
      if exact then code + pick % 3 - 1 else code + pick % 2

/-- ln 2 × 2^160, rounded down. -/
def ln2Fix : Nat := 0xB17217F7D1CF79ABC9E3B39803F2F6AF40F34326

/-- The Taylor sum of e^r for 0 ≤ r < 1 held as r × 2^160: `n` more terms from the term t_i. -/
def expTaylor (r : Nat) : Nat → Nat → Nat → Nat → Nat
  | 0, _, _, acc => acc
  | n + 1, i, t, acc =>
    let t' := t * r / 2 ^ 160 / i
    expTaylor r n (i + 1) t' (acc + t')

/-- e^x to within 2 ulp (R121): `pick` chooses among the representable values within the bound. -/
def exp32 (pick : Nat) (a : FVal) : Nat :=
  match a with
  | .nan => nanCode fp32
  | .inf n => if n then 0 else packF fp32 false (infCode fp32)
  | .fin n m e =>
    if m == 0 then 0x3F800000 + pick % 5 - 2
    else if ltV (.fin false 89 0) (.fin n m e) then packF fp32 false (infCode fp32)
    else if ltV (.fin n m e) (.fin true 104 0) then 0
    else
      -- x × 2^160 as an integer; every |x| below 2^−120 is taken as its sign in the last place
      let x : Int := if e + 160 ≥ 0 then alignTo n m e (-160) else (let t := m / 2 ^ (-(e + 160)).toNat; if n then -(t : Int) - 1 else (t : Int))
      let k : Int := x / (ln2Fix : Int)
      let r : Nat := (x % (ln2Fix : Int)).toNat
      let y := expTaylor r 48 1 (2 ^ 160) (2 ^ 160)
      -- e^x = y × 2^(k − 160)
      if k < -149 then 0
      else
        let q := max (k - 23) fp32.qmin
        let lo := y / 2 ^ (160 - k + q).toNat
        let code := (q - fp32.qmin).toNat * 2 ^ 23 + lo
        let c := code + pick % 4 - 1
        if c > fp32.maxCode then infCode fp32 else c

/-! ### The random source (R116, R117) -/

/-- R116 mix64. -/
def mix64 (z : Nat) : Nat :=
  let z1 := ((z ^^^ (z >>> 30)) * 0xBF58476D1CE4E5B9) % 2 ^ 64
  let z2 := ((z1 ^^^ (z1 >>> 27)) * 0x94D049BB133111EB) % 2 ^ 64
  z2 ^^^ (z2 >>> 31)

/-- R116 sr_key. -/
def srKey (tide unit ctx : Nat) : Nat := mix64 ((tide % 2 ^ 64) ^^^ mix64 (((unit <<< 10) ||| ctx) % 2 ^ 64))

/-- R116 sr_draw: a 24-bit draw. -/
def srDraw (key thread n lane : Nat) : Nat :=
  let c := ((thread <<< 56) ||| (n <<< 6) ||| lane) % 2 ^ 64
  mix64 ((key + c * 0x9E3779B97F4A7C15) % 2 ^ 64) % 2 ^ 24

end Sys2Proof.Machine
end

