-- ==== Sys2Proof/Machine/Formats.lean ====
section
/-! DEFINITION. Block formats and conversions: SW12, MX, DBI32, format codes (R108 to R113, R119, R120, R123). -/
namespace Sys2Proof.Machine

/-! ### Format codes (R113) -/

/-- The element formats of R113. -/
inductive Elem where
  | raw | fp32 | bf16 | e4m3 | e5m2 | mx8e4 | mx8e5 | mx6e2 | mx6e3 | mx4 | sw12 | dbi | dbiHealth
  deriving DecidableEq, Repr

/-- The element code of R113; codes not in its table name nothing. -/
def elemOf (code : Nat) : Option Elem :=
  match code with
  | 0x00 => some .raw | 0x01 => some .fp32 | 0x02 => some .bf16 | 0x03 => some .e4m3 | 0x04 => some .e5m2
  | 0x10 => some .mx8e4 | 0x11 => some .mx8e5 | 0x12 => some .mx6e2 | 0x13 => some .mx6e3 | 0x14 => some .mx4
  | 0x20 => some .sw12 | 0x30 => some .dbi | 0x31 => some .dbiHealth
  | _ => none

/-- Elements of a tile in layout 0 (R113); MX codes as the R97 panel of R163, raw bytes none. -/
def elemCount (code : Nat) : Nat :=
  match code with
  | 0x01 => 512 | 0x02 => 1024 | 0x03 => 2048 | 0x04 => 2048 | 0x20 => 1280 | 0x30 => 512 | 0x31 => 512
  | 0x10 => 1280 | 0x11 => 1280 | 0x12 => 1280 | 0x13 => 1280 | 0x14 => 1280
  | _ => 0

/-- The scalar format of an element code, where its elements decode alone. -/
def elemFmt (e : Elem) : Option FFmt :=
  match e with
  | .fp32 => some Machine.fp32 | .bf16 => some Machine.bf16 | .e4m3 => some Machine.e4m3 | .e5m2 => some Machine.e5m2
  | .mx8e4 => some Machine.e4m3 | .mx8e5 => some Machine.e5m2 | .mx6e2 => some e2m3 | .mx6e3 => some e3m2 | .mx4 => some e2m1
  | _ => none

/-- Whether an element code is an MX code. -/
def isMx (code : Nat) : Bool := decide (0x10 ≤ code) && decide (code ≤ 0x14)

/-! ### SW12 (R109 to R111) -/

/-- The value of an element of a non-finite block: which non-finite value it is, R108 and R109 do not say (a free value, log 185). -/
def openVal (format code : Nat) : FVal :=
  match Config.openKind format code with
  | 0 => .nan
  | 1 => .inf false
  | _ => .inf true

/-- The value of a 12-bit element field under the block exponent E (R109). -/
def sw12Val (E field : Nat) : FVal :=
  if E == 0xFF then openVal 0x20 field
  else
    let s := bitN field 11
    let o := bitsN field 10 8
    let m := bitsN field 7 0
    if o == 0 then .fin s m ((E : Int) - 133 - 8)
    else .fin s (256 + m) ((E : Int) - 127 - (7 - o : Nat) - 8)

/-- The larger of two magnitudes. -/
def maxMag (a b : FVal) : FVal := if ltV (absV a) (absV b) then absV b else absV a

/-- The largest magnitude of a block. -/
def blockMax (vs : List FVal) : FVal := vs.foldl maxMag (.fin false 0 0)

/-- An encoded SW12 block (R111): exponent, fields, saturations and whether it is non-finite. -/
structure Sw12Block where
  exp : Nat
  fields : List Nat
  sats : Nat
  nonfin : Bool
  deriving DecidableEq, Repr

/-- One element rounded into a block of exponent E < 0xFF (R111, R119). -/
def sw12Elem (rnd : Rnd) (E : Nat) (v : FVal) : Nat × Bool :=
  match v with
  | .fin n m e =>
    let qmin : Int := (E : Int) - 141
    let largest : FVal := .fin false 511 ((E : Int) - 127 - 8)
    if ltV largest (.fin false m e) then (b2n n * 2048 + 0x7FF, true)
    else (b2n n * 2048 + min (roundCode rnd 8 qmin n m e) 0x7FF, false)
  | _ => (0, false)

/-- Encode a block of 16 values (R111), the draw of element i being `draw i`. -/
def sw12Encode (sr : Bool) (draw : Nat → Nat) (vs : List FVal) : Sw12Block :=
  if vs.any (fun v => !finV v) then { exp := 0xFF, fields := vs.map fun _ => 0, sats := 0, nonfin := true }
  else
    let E : Nat := match blockMax vs with
      | .fin _ m e => if m == 0 then 0 else (min (max (log2V m e + 127) 0) 254).toNat
      | _ => 0
    let fs := (List.range vs.length).map fun i => sw12Elem (if sr then .sr (draw i) else .rne) E (vs.getD i (.fin false 0 0))
    { exp := E, fields := fs.map (·.1), sats := (fs.filter (·.2)).length, nonfin := false }

/-- R110: where element j of a tile's SW12 payload stands: block exponent and field. -/
def sw12At (payload : Bytes) (j : Nat) : FVal :=
  let g := j / 128
  let k := j % 128
  let E := leField payload (200 * g + k / 16) 1
  let bit := 12 * k
  let w := leField payload (200 * g + 8 + bit / 8) 2
  sw12Val E (bitsN w (bit % 8 + 11) (bit % 8))

/-! ### MX blocks (R108, R120) -/

/-- emax of R120. -/
def mxEmax (e : Elem) : Int :=
  match e with
  | .mx8e4 => 8 | .mx8e5 => 15 | .mx6e2 => 2 | .mx6e3 => 4 | .mx4 => 2 | _ => 0

/-- The scale the vector unit and Freshet give a block (R120): 0xFF for a block with a non-finite value (R119). -/
def mxScale (e : Elem) (vs : List FVal) : Nat :=
  if vs.any (fun v => !finV v) then 0xFF
  else match blockMax vs with
    | .fin _ m x => if m == 0 then 0 else (min (max (log2V m x - mxEmax e + 127) 0) 254).toNat
    | _ => 0

/-- One element at a block's scale (R119, R120); in a block with scale 0xFF its code is a free value (log 185). -/
def mxElem (e : Elem) (rnd : Rnd) (scale : Nat) (v : FVal) : Nat × Bool :=
  match elemFmt e, scaleV v (127 - (scale : Int)) with
  | some f, .fin n m x =>
    if scale == 0xFF then (Config.openCode (16 * f.eb + f.mb) (roundF fp32 v) % 2 ^ f.width, false)
    else if aboveMax f m x then (packF f n f.maxCode, true)
    else (packF f n (min (roundCode rnd f.mb f.qmin n m x) f.maxCode), false)
  | some f, _ => (Config.openCode (16 * f.eb + f.mb) (roundF fp32 v) % 2 ^ f.width, false)
  | none, _ => (0, false)

/-- The value of an MX element under its scale (R108). -/
def mxVal (e : Elem) (scale code : Nat) : FVal :=
  match elemFmt e with
  | some f => if scale == 0xFF then openVal (16 * f.eb + f.mb) code else scaleV (decodeF f code) ((scale : Int) - 127)
  | none => .nan

/-! ### Panels (R97) -/

/-- Bytes of a k-step's group for one operand (R96). -/
def panelGroup (e : Elem) : Nat :=
  match e with
  | .mx6e2 => 6 | .mx6e3 => 6 | .mx4 => 4 | .bf16 => 16 | .fp32 => 32 | _ => 8

/-- The first 64-byte boundary at or after the end of the element bytes of a panel of K k-steps (R97). -/
def scaleBase (e : Elem) (K : Nat) : Nat := (K * panelGroup e + 63) / 64 * 64

/-- Bytes a panel of K k-steps takes, its scale area included (R97). -/
def panelBytes (code : Nat) (K : Nat) : Nat :=
  match elemOf code with
  | some e => if isMx code then scaleBase e K + 8 * (K / 32) else K * panelGroup e
  | none => 0

/-- The code of element m of k-step k in a panel (R97). -/
def panelCode (e : Elem) (panel : Bytes) (k m : Nat) : Nat :=
  let g := k * panelGroup e
  match e with
  | .bf16 => leField panel (g + 2 * m) 2
  | .fp32 => leField panel (g + 4 * m) 4
  | .mx6e2 => bitsN (leField panel g 6) (6 * m + 5) (6 * m)
  | .mx6e3 => bitsN (leField panel g 6) (6 * m + 5) (6 * m)
  | .mx4 => bitsN (leField panel g 4) (4 * m + 3) (4 * m)
  | _ => leField panel (g + m) 1

/-- The scale of element m of k-step k (R97). -/
def panelScale (e : Elem) (K : Nat) (panel : Bytes) (k m : Nat) : Nat :=
  leField panel (scaleBase e K + 8 * (k / 32) + m) 1

/-- The exact value of element m of k-step k of a panel (R97, R108). -/
def panelVal (code : Nat) (K : Nat) (panel : Bytes) (k m : Nat) : FVal :=
  match elemOf code with
  | some e =>
    if isMx code then mxVal e (panelScale e K panel k m) (panelCode e panel k m)
    else match elemFmt e with
      | some f => decodeF f (panelCode e panel k m)
      | none => .nan
  | none => .nan

/-- Lay codes out as one k-step's group (R97). -/
def groupBytes (e : Elem) (codes : List Nat) : Bytes :=
  match e with
  | .bf16 => codes.flatMap (natLE 2)
  | .fp32 => codes.flatMap (natLE 4)
  | .mx6e2 => natLE 6 (codes.foldr (fun c acc => c % 64 + 64 * acc) 0)
  | .mx6e3 => natLE 6 (codes.foldr (fun c acc => c % 64 + 64 * acc) 0)
  | .mx4 => natLE 4 (codes.foldr (fun c acc => c % 16 + 16 * acc) 0)
  | _ => codes.flatMap (natLE 1)

/-! ### DBI32 (R112, R123) -/

/-- A contributed integer with its block bits (R123). -/
structure DbiElem where
  q : Int
  ovf : Bool
  hot : Bool
  nf : Bool
  deriving DecidableEq, Repr

/-- The contribution limit Lim = 2^(31 − h) − 1 (R123). -/
def dbiLim (h : Nat) : Int := ((2 ^ (31 - h) : Nat) : Int) - 1

/-- Clip an integer at Lim and find its bits (R123). -/
def dbiClip (h : Nat) (q : Int) : DbiElem :=
  let ovf := decide ((dbiLim h).toNat < q.natAbs)
  let q' := if ovf then (if q < 0 then - dbiLim h else dbiLim h) else q
  { q := q', ovf := ovf, hot := decide (2 ^ (29 - h) ≤ q'.natAbs), nf := false }

/-- Convert one FP32 value at scale exponent e with headroom h and draw r (R123): y = x × 2^(−e) exactly, q = SR(y). -/
def dbiConvert (h : Nat) (e : Int) (r : Nat) (x : FVal) : DbiElem :=
  match scaleV x (-e) with
  | .fin n m x' =>
    let mag := if x' ≥ 0 then m * 2 ^ x'.toNat else roundShift (.sr r) n m (-x').toNat
    dbiClip h (if n then -(mag : Int) else (mag : Int))
  | _ => { q := 0, ovf := false, hot := false, nf := true }

/-- The signed 32-bit integer i of a DBI32 payload (R112). -/
def dbiAt (payload : Bytes) (i : Nat) : Int := sgnN 32 (leField payload (4 * i) 4)

/-- The 512 integers of a DBI32 payload. -/
def dbiInts (payload : Bytes) : List Int := (List.range 512).map (dbiAt payload)

/-- A DBI32 payload from its integers. -/
def dbiBytes (qs : List Int) : Bytes := qs.flatMap fun q => natLE 4 (unsN 32 q)

/-! ### Tile elements in layout 0 -/

/-- Element j of a tile payload of a layout-0 format, as an exact value (R113). -/
def tileVal (code : Nat) (payload : Bytes) (j : Nat) : FVal :=
  match elemOf code with
  | some .fp32 => decodeF fp32 (leField payload (4 * j) 4)
  | some .bf16 => decodeF bf16 (leField payload (2 * j) 2)
  | some .e4m3 => decodeF e4m3 (leField payload j 1)
  | some .e5m2 => decodeF e5m2 (leField payload j 1)
  | some .sw12 => sw12At payload j
  | some .dbi => intV (dbiAt payload j)
  | some .dbiHealth => intV (dbiAt payload j)
  | _ => .nan

/-! ### Scale-table entries (R122, R125) -/

/-- A scale-table entry (R122). -/
structure ScaleEntry where
  exp : Int
  ovf : Bool
  hot : Bool
  nf : Bool
  quiet : Nat
  deriving DecidableEq, Repr

/-- Decode an entry; an unset one (−128) reads as init_exp with every flag clear (R122). -/
def scaleOf (initExp : Int) (w : Nat) : ScaleEntry :=
  let e := sgnN 8 w
  if e == -128 then { exp := initExp, ovf := false, hot := false, nf := false, quiet := 0 }
  else { exp := e, ovf := bitN w 8, hot := bitN w 9, nf := bitN w 10, quiet := bitsN w 15 11 }

/-- Encode an entry (R122). -/
def scaleBits (s : ScaleEntry) : Nat :=
  unsN 8 s.exp + 256 * b2n s.ovf + 512 * b2n s.hot + 1024 * b2n s.nf + 2048 * (s.quiet % 32)

/-- The owner's update of an entry from the reduced flags (R125). The Bool says that ovf met an exponent already at +127. -/
def scaleStep (quietSteps : Nat) (ovf hot nf : Bool) (s : ScaleEntry) : ScaleEntry × Bool :=
  if nf then ({ s with ovf := ovf, hot := hot, nf := nf }, false)
  else if ovf then
    if s.exp == 127 then ({ s with ovf := ovf, hot := hot, nf := nf, quiet := 0 }, true)
    else ({ s with exp := s.exp + 1, ovf := ovf, hot := hot, nf := nf, quiet := 0 }, false)
  else if hot then ({ s with ovf := ovf, hot := hot, nf := nf, quiet := 0 }, false)
  else if quietSteps == 0 then ({ s with ovf := ovf, hot := hot, nf := nf }, false)
  else if s.quiet + 1 ≥ quietSteps then
    ({ s with exp := max (s.exp - 1) (-127), ovf := ovf, hot := hot, nf := nf, quiet := 0 }, false)
  else ({ s with ovf := ovf, hot := hot, nf := nf, quiet := s.quiet + 1 }, false)

end Sys2Proof.Machine
end

