-- ==== Sys2Proof/Machine/TypesCore.lean ====
section
/-! DEFINITION. State of what every block shares: masters, outputs, error records (R446), error queues (R449 to R452),
telemetry (R459), the register file of BAR0 (R453, R469, R471). -/
namespace Sys2Proof.Machine

/-- The three masters (R354, R466). -/
inductive Master where
  | host | bmc | fleet
  deriving DecidableEq, Repr

/-- The master ID fixed by the path (R354). -/
def Master.id : Master → Nat
  | .host => 1 | .bmc => 2 | .fleet => 3

/-- What the function's configuration space holds (R341, R342), by item: a host that walks the lists finds where each stands. -/
inductive CfgItem where
  | vendor | device | subVendor | subsystem | classCode | revision | headerType | intPin | command
  | bar (k : Fin 6)
  /-- PCI Express: what the endpoint supports, and the sizes set. -/
  | mpsMax | mrrsMax | tag10 | tag14 | flrCap | mps | mrrs
  /-- Power management: state D0 (0) or D3hot (3), No_Soft_Reset. -/
  | power | noSoftReset
  /-- MSI-X: vectors; BAR and offset of table and PBA. -/
  | msixVectors | msixTable | msixPba
  | aer | serial | doe
  /-- DVSECs 0x0000, 0x0005, 0x0007, 0x0008. -/
  | cacheCapable | memCapable | hdmCount | gpfPhase2 | flit256 | flit68 | locatorBar | locatorId | locatorOff
  deriving DecidableEq, Repr

/-- What leaves the block, newest first in `State.out`. -/
inductive Out where
  /-- A write to host memory. -/
  | hostWrite (addr : Nat) (data : Bytes)
  /-- A read the module sends to host memory. -/
  | hostRead (addr len : Nat)
  /-- An MSI-X vector signalled. -/
  | msix (vec : Nat)
  /-- A message or event over MCTP to the board management controller: command or event code, body. -/
  | mctp (cmd : Nat) (body : Bytes)
  /-- A flit put on a lane of an optical engine. -/
  | flit (eng lane : Nat) (data : Bytes)
  /-- A codeword of 5,440 bits on a lane's line (R364). -/
  | line (eng lane word : Nat)
  /-- A Rill message: destination unit, priority, kind, words. -/
  | rill (dst pri kind : Nat) (words : List Nat)
  /-- A packet that leaves a die by an edge, or reaches a cell, a half-link: die, place, header fields. -/
  | packet (die place : Nat) (hdr : List Nat)
  /-- A mesh message from a cell or ring block: kind, fields, payload. -/
  | mesh (kind : Nat) (fields : List Nat) (data : Bytes)
  /-- REG_DATA: master, tag, status, values (R377, R467). -/
  | regData (m : Master) (tag status : Nat) (vals : List Nat)
  /-- A register read over BAR0. -/
  | regRead (m : Master) (off val : Nat)
  /-- An item of the configuration space, read by the host. -/
  | cfgRead (item : CfgItem) (val : Nat)
  /-- A word of the MSI-X table or PBA, read over BAR2. -/
  | bar2Read (off val : Nat)
  /-- An answer on the ownership path (R354): master and the 16-byte response. -/
  | ownAnswer (m : Master) (body : Bytes)
  /-- An answer on the host link: kind, fields, data. -/
  | hostLink (kind : Nat) (fields : List Nat) (data : Bytes)
  /-- An object on the DOE mailbox or an attestation path. -/
  | doe (path : Nat) (body : Bytes)
  /-- A pin or hardware control driven: pin code, value. -/
  | pin (code val : Nat)
  deriving DecidableEq, Repr

/-- An error record (R446) without its check word. -/
structure ErrRec where
  seq : Nat := 0
  sev : Nat
  ctx : Option Nat := none
  transient : Bool := false
  loss : Bool := false
  evicted : Bool := false
  block : Nat
  cls : Nat
  unit : Nat
  count : Nat := 1
  first : Nat := 0
  last : Nat := 0
  loc0 : Nat := 0
  loc1 : Nat := 0
  detail : Nat := 0
  deriving DecidableEq, Repr

/-- A record of the module queue: whether it stands in the host ring, whether it has been delivered (R452). -/
structure ErrEnt where
  r : ErrRec
  ringed : Bool := false
  delivered : Bool := false
  deriving DecidableEq, Repr

/-- A unit queue (R450): oldest record first, sticky overflow, whether the next accepted record carries loss. -/
structure UnitQ where
  q : List ErrRec := []
  overflow : Bool := false
  lossNext : Bool := false
  deriving DecidableEq, Repr

/-- The ERR engine: unit queues, module queue in sequence order, next sequence, overflow, ring in effect (R451, R452). -/
structure Err where
  units : Tab UnitQ := []
  q : List ErrEnt := []
  nextSeq : Nat := 0
  overflow : Bool := false
  ringBase : Nat := 0
  ringLog2 : Nat := 10
  deriving DecidableEq, Repr

/-- Telemetry (R459 to R461): counters by key, the dump in progress. -/
structure Tel where
  vals : Tab Nat := []
  dumpArmed : Bool := false
  dumpBnd : Nat := 0
  dumpAddr : Nat := 0
  snap : Option (Nat × Tab Nat) := none
  /-- Slot programs started, by cell (R87). -/
  started : Tab Nat := []
  deriving DecidableEq, Repr

/-- The register file: last value written, value in effect, class H values written since the last boundary and those
waiting for the latch of this boundary, view registers by master, latched halves by master (R453, R469, R471). -/
structure Regs where
  written : Tab Nat := []
  live : Tab Nat := []
  dirty : Tab Nat := []
  latch : Tab Nat := []
  view : Tab Nat := []
  tidHi : Tab Nat := []
  telHi : Tab Nat := []
  deriving DecidableEq, Repr

end Sys2Proof.Machine
end

