-- ==== Sys2Proof/Machine/TypesNet.lean ====
section
/-! DEFINITION. State of the carrier: hole map, availability, logical-die map, routers, stitch, Rill (R13 to R39), and of
Tide (R40 to R65, R496). -/
namespace Sys2Proof.Machine

/-- Why a site is unavailable (R26). -/
inductive OutWhy where
  | heat | command | isolated | pll | dieTest | bringup | cutOff | oxbowIdle | leaving
  deriving DecidableEq, Repr

/-- A route table of one die (R31): for each of the 88 sites an output edge (0 up, 1 right, 2 down, 3 left, 4 here,
5 none) and a virtual network. -/
structure RouteTable where
  ver : Nat
  hops : List (Nat × Nat)
  deriving DecidableEq, Repr

/-- A route commit issued and not yet in effect (R31, R55). -/
structure Commit where
  slot : Nat
  ver : Nat
  confirmed : List Nat
  leave : List (Nat × OutWhy)
  join : List Nat
  deriving DecidableEq, Repr

/-- How a die that leaves service stands (R63). -/
inductive Leaving where
  /-- Removed from the routes; its routers drain. -/
  | draining
  /-- Reported empty; CCLK and SCLK gated at this local tick. -/
  | gated (at_ : Nat)
  deriving DecidableEq, Repr

/-- How a die that returns stands (R64). -/
structure Rejoin where
  slot : Nat
  started : Bool
  misses : Nat
  relocked : Bool
  deriving DecidableEq, Repr

/-- A Rill message as sent: source unit, destination unit, priority, kind, payload words (R38). -/
structure RillMsg where
  src : Nat
  dst : Nat
  pri : Nat
  kind : Nat
  words : List Nat
  deriving DecidableEq, Repr

/-- A packet on its way (R28): order of acceptance, source and traffic class of its header, destination die with the rows and
columns of its rectangle, payload words, the number of commits before its header was accepted (R31), the router it is at. -/
structure Packet where
  seq : Nat
  src : Nat
  cls : Nat
  die : Nat
  row0 : Nat
  row1 : Nat
  col0 : Nat
  col1 : Nat
  words : List Nat
  gen : Nat
  site : Nat
  row : Nat
  col : Nat
  deriving DecidableEq, Repr

/-- What PACKET_ARRIVAL reports: a packet enters the mesh at a router, with the source and the two corner cells that its header names,
or one in flight moves on from the router it is at. -/
inductive PktIn where
  | new (site : Fin 88) (row : Fin 100) (col : Fin 128) (src lo hi : BitVec 32) (cls : Fin 3) (words : List Word)
  | hop (m : Nat)
  deriving DecidableEq, Repr

/-- The carrier. -/
structure Net where
  /-- Site that backs a logical die, key 10 × reach + ldie, where it is not site ldie (R24, R34). -/
  dieMap : Tab Nat := []
  /-- Hole cells, by physical cell address (R26). -/
  holes : List Nat := []
  /-- Sites all of whose cells are holes. -/
  dieHoles : List Nat := []
  /-- Reasons for unavailability, by site index 11 × reach + site (R26). -/
  out : Tab (List OutWhy) := []
  /-- Boundary count when a site last left service. -/
  outBnd : Tab Nat := []
  /-- Heat level of a site as Levee last reported it (R432). -/
  heat : Tab Nat := []
  /-- Ring chiplets out of service. -/
  chipOut : List Nat := []
  /-- Stacks unavailable. -/
  stackOut : List Nat := []
  /-- Optical engines out of service. -/
  engOut : List Nat := []
  /-- Half-links out of service: 3 × chiplet + link (R17); 192 and 193 the host port's two (R18, R20). -/
  halfOut : List Nat := []
  /-- Chiplets whose half-link to their oxbow is enabled (R17, R34). -/
  oxLinks : List Nat := []
  /-- Stitch edges out of service. -/
  edgeOut : List Nat := []
  /-- Reach controllers lost, and reaches lost with their controller or for want of a Rill path (R22, R39). -/
  ctlOut : List Nat := []
  reachOut : List Nat := []
  /-- Rill messages held at their source beyond the four that may be outstanding (R39). -/
  rillHeld : Tab (List RillMsg) := []
  /-- Active and shadow route tables by die (R31). -/
  active : Tab RouteTable := []
  shadow : Tab RouteTable := []
  /-- The tables that the latest commit replaced, and the number of commits so far: a packet accepted before it finishes on them (R31). -/
  prev : Tab RouteTable := []
  gen : Nat := 0
  commit : Option Commit := none
  /-- Route tables wanted after a change of available sites (R281). -/
  routesDue : Bool := false
  /-- Sites to leave with the next commit, with their cause; sites relocked and to rejoin (R63, R64). -/
  toLeave : List (Nat × OutWhy) := []
  toJoin : List Nat := []
  nextVer : Nat := 1
  leaving : Tab Leaving := []
  rejoin : Tab Rejoin := []
  deriving DecidableEq, Repr

/-- States of the tide unit, coded as TID_STATUS.state (R47, R65). -/
inductive TideSt where
  | acquire | locked | holdover | slew | free
  deriving DecidableEq, Repr

/-- One tide input with the running checks of R46. No frequency window having been measured, the frequency check stands as passed
(DESIGN CHOICE, log 174). -/
structure TideIn where
  /-- Consecutive slots that passed every check. -/
  qual : Nat := 0
  /-- Module count minus input count, in ticks. -/
  off : Int := 0
  /-- Number of the last slot announced. -/
  last : Option Nat := none
  badFrame : Nat := 0
  badCont : Nat := 0
  badPhase : Nat := 0
  /-- The latest frequency window passed. -/
  freqOk : Bool := true
  deriving DecidableEq, Repr

/-- An endpoint (R53): the number and length of its slot, its 14-bit tick counter, and the number and length announced for the next. -/
structure Endpoint where
  slot : Nat
  len : Nat := 16384
  tick : Nat := 0
  next : Option (Nat × Nat)
  deriving DecidableEq, Repr

/-- A symbol of the TIDE_IN pair (R43): no pulse in the tick, a bit, idle. -/
inductive TideSym where
  | marker | zero | one | idle
  deriving DecidableEq, Repr

/-- Tide. -/
structure Tide where
  /-- The 64-bit tide count (R40). -/
  count : Nat := 0
  st : TideSt := .acquire
  /-- Boundaries passed since power-on, and the local tick of the last one. -/
  bnd : Nat := 0
  slotAt : Nat := 0
  /-- Length of the slot in progress (R40, R49). -/
  len : Nat := 16384
  /-- Source in effect (R65): 0 TIDE_IN, 1 Cisan, 2 automatic, 3 none. -/
  src : Nat := 2
  useTidein : Bool := true
  tin : TideIn := {}
  csn : TideIn := {}
  /-- Ticks still to remove; positive when the module is ahead. -/
  offset : Int := 0
  mismatch : Bool := false
  /-- HOLDOVER after a count mismatch: only a TID_REBASE leads out (R50). -/
  stuck : Bool := false
  /-- The ACQUIRE in progress is the one that follows power-on (R496). -/
  powerOnAcquire : Bool := true
  /-- Local tick of entry to ACQUIRE, of entry to HOLDOVER, and from which h of R49 counts. -/
  acqAt : Nat := 0
  holdAt : Nat := 0
  hAt : Nat := 0
  /-- src_sel written, with the boundary count at the write. -/
  srcPend : Option (Nat × Nat) := none
  rebaseLo : Nat := 0
  rebasePend : Option (Nat × Nat) := none
  /-- Adoption from FREE waits for a boundary (R51). -/
  adopt : Bool := false
  markerSent : Bool := false
  /-- The TIDE flits of this slot have been sent (R378). -/
  flitSent : Bool := false
  eps : Tab Endpoint := []
  /-- Local tick of the latest Cisan tide message. -/
  csnAt : Nat := 0
  deriving DecidableEq, Repr

end Sys2Proof.Machine
end

