-- ==== Sys2Proof/Machine/TypesCell.lean ====
section
/-! DEFINITION. State of a cell (R66 to R106) and of the check-value units (R152 to R158), and the Sirdor instructions as
plain data, so that an instruction that waits on a tag can be held (R75, R90). -/
namespace Sys2Proof.Machine

/-- Slot states (R71). -/
inductive TagSt where
  | empty | full | resident | poison | scrub
  deriving DecidableEq, Repr

/-- Owner codes of R71. -/
def ownerModule : Nat := 0x7FD
def ownerNone : Nat := 0x7FE
def ownerPass : Nat := 0x7FF

/-- A tag word (R71). -/
structure Tag where
  st : TagSt := .empty
  pend : Bool := false
  cnt : Nat := 0
  tile : Bool := false
  retried : Bool := false
  wasres : Bool := false
  owner : Nat := 0x7FE
  deriving DecidableEq, Repr

/-- What the read of a protected word finds (R83): nothing; a corrected or an uncorrectable error in data, in the trailer entry, in the tag
word, in the block-flag word; one in the instruction's own word, or in its slot's tag word (`bad`: uncorrectable). -/
inductive Ecc where
  | clean | corrected | double | trailerCorrected | trailer | tagCorrected | tagDouble | flagCorrected | flagDouble
  | fetch (bad : Bool) | fetchTag (bad : Bool)
  deriving DecidableEq, Repr

/-- Trap causes (R89). -/
inductive Cause where
  | illegal | alignment | address | ownership | tagProtocol | poison | waitLimit | gang | fetch | remoteRefused
  deriving DecidableEq, Repr

/-- The code of a trap cause (R89). -/
def Cause.code : Cause → Nat
  | .illegal => 1 | .alignment => 2 | .address => 3 | .ownership => 4 | .tagProtocol => 5
  | .poison => 6 | .waitLimit => 7 | .gang => 8 | .fetch => 9 | .remoteRefused => 10

/-- Vector arithmetic operations (R94). -/
inductive VOp where
  | fma | add | mul | min | max | cmp | exp | rsqrt
  /-- Lane i takes the source lane of nibble i. -/
  | shuffle (perm : BitVec 64)
  | reduceAdd | reduceMax | reduceMin
  deriving DecidableEq, Repr

/-- Targets of vector conversions (R94, R95, R110, R115, R120, R123, R128). -/
inductive VConv where
  /-- 16 FP32 values to BF16, E4M3 or E5M2. -/
  | narrow (code : Nat)
  /-- 32 BF16 or 16 narrow values to FP32, exact. -/
  | widen (code : Nat)
  /-- 32 FP32 values of two registers to one MX block: elements, scale. -/
  | mx (code : Nat)
  /-- 16 FP32 values to one SW12 block. -/
  | sw12
  /-- One SW12 block to 16 FP32 values. -/
  | unsw12
  /-- One SW12 block to 16 BF16 or FP8 codes, or two to one MX block, by RNE (R115). -/
  | fromSw12 (code : Nat)
  /-- 16 FP32 values to DBI32 at a scale exponent with a headroom, for a scratchpad row. -/
  | dbi (exp : Int) (h : Nat) (row : Nat)
  /-- The five integer and FP32 elements of a health block (R128). -/
  | health (exp : Int) (h : Nat) (row : Nat)
  deriving DecidableEq, Repr

/-- Sirdor instructions (R101 to R104, and the classes described by their behaviour). -/
inductive Sir where
  | ldn (rt rb : Fin 32) (sz : Fin 4) (sx : Bool) (off : BitVec 12)
  | stn (rt rb : Fin 32) (sz : Fin 4) (off : BitVec 12)
  | vld (vt : Fin 8) (rb : Fin 32) (rel : Bool) (off : BitVec 10)
  | vst (vt : Fin 8) (rb : Fin 32) (off : BitVec 10)
  | fetch (ra rl : Fin 32) (len : Fin 8) (cnt : Fin 16)
  | send (ra rl : Fin 32) (len : Fin 8) (cnt : Fin 16) (rel : Bool)
  | ldx (rt ra : Fin 32)
  | tag (op : Fin 16) (rs rc : Fin 32) (n : Fin 16) (slot : BitVec 8)
  | amm (ra rb rk : Fin 32) (fmt : Fin 8) (acc : Bool) (bank : Fin 2) (relA relB : Bool)
  | aout (rd rc : Fin 32) (ofmt : Fin 4) (pub : Bool) (bank : Fin 2)
  deriving DecidableEq, Repr

/-- How a thread stands (R88 to R90). -/
inductive ThSt where
  | idle
  | run
  /-- Waiting to perform an instruction since a boundary count (R75, R77). -/
  | wait (i : Sir) (bnd : Nat)
  /-- Waiting for an LDX's data: the operation's number. -/
  | ldx (op : Nat)
  | halted
  | trapped (c : Cause)
  deriving DecidableEq, Repr

/-- A hardware thread (R66, R87, R117, R144). -/
structure Thread where
  st : ThSt := .idle
  pc : Nat := 0
  /-- g1 to g31 by number; g0 is never listed and reads as zero. -/
  g : Tab Nat := []
  /-- v0 to v7 by number, 64 bytes each; unlisted: zeros. -/
  v : Tab Bytes := []
  /-- Trailer template of R144: format, alive, ident. -/
  tmpl : Nat × Nat × Nat := (0, 0, 0)
  /-- SR instructions issued in this slot program (R117). -/
  srN : Nat := 0
  deriving DecidableEq, Repr

/-- Stages of a matrix stream (R98, R99): queued, held at an operand row, run and not yet ready. -/
inductive StrSt where
  | queued | held | running
  deriving DecidableEq, Repr

/-- A matrix stream that holds its bank's queue entry (R99): what issued it, its operands, the rows read so far with their bytes (by source,
A rows 0 to 3, B columns 4 to 7, at 65,536 × source): the group of rows it has reached, those of them read; the boundary count since which it
is held. -/
structure Stream where
  ctx : Nat
  gang : Bool
  prog : Nat
  pc : Nat
  bank : Nat
  a : Nat
  b : Nat
  k : Nat
  fmt : Nat
  acc : Bool
  relA : Bool
  relB : Bool
  th : Nat
  st : StrSt
  pos : Nat := 0
  got : List Nat := []
  buf : Tab Byte := []
  since : Nat := 0
  deriving DecidableEq, Repr

/-- An AOUT that waits for its bank or writes it (R99). -/
structure AoutOp where
  th : Nat
  bank : Nat
  dst : Nat
  ofmt : Nat
  pub : Bool
  cnt : Nat
  srN : Nat
  deriving DecidableEq, Repr

/-- Kinds of remote operation (R92). -/
inductive RemKind where
  | fetch | send | ldx
  deriving DecidableEq, Repr

/-- Stages of a remote operation. -/
inductive RemSt where
  /-- The request has left. -/
  | asked
  /-- A SEND's destination has accepted it; its data is leaving. -/
  | leaving
  deriving DecidableEq, Repr

/-- A remote operation outstanding in a cell's DMA (R66, R91 to R93). -/
structure RemOp where
  id : Nat
  kind : RemKind
  th : Nat
  ctx : Nat
  pc : Nat
  /-- Number of the slot program that issued it. -/
  prog : Nat
  remote : Nat
  loc : Nat
  len : Nat
  cnt : Nat
  rel : Bool
  rt : Nat
  /-- The thread's trailer template at issue (R144). -/
  tmpl : Nat × Nat × Nat := (0, 0, 0)
  st : RemSt
  deriving DecidableEq, Repr

/-- Where a fill comes from (R75, R93, R148, R178). -/
inductive FillKind where
  /-- Reply to a FETCH: operation number. -/
  | fetch (op : Nat)
  /-- A remote SEND: source cell, operation number, thread. -/
  | send (src op th : Nat)
  /-- A Freshet delivery: engine, delivery number. -/
  | delivery (eng did : Nat)
  /-- The refetch of a POISON span: engine for a Freshet refetch, none for a repeated FETCH. -/
  | refetch (eng : Option Nat) (op : Nat)
  /-- A poison notice of R178 in place of a delivery, or of a refetch. -/
  | notice (eng did : Nat) (again : Bool)
  deriving DecidableEq, Repr

/-- A fill on its way to a cell, or held in its DMA. -/
structure Fill where
  kind : FillKind
  cell : Nat
  addr : Nat
  len : Nat
  cnt : Nat
  ctx : Nat
  data : Bytes
  trailer : Bytes
  expIdent : Option Nat := none
  expAlive : Option Nat := none
  expEpoch : Option Nat := none
  /-- A poisoned response (R188). -/
  poisoned : Bool := false
  /-- Boundary count since when it waits. -/
  bnd : Nat := 0
  deriving DecidableEq, Repr

/-- A refetch that a span awaits (R74, R148): what it repeats. -/
inductive RefetchOf where
  | fetch (remote : Nat) (ctx cnt : Nat)
  | delivery (eng did : Nat)
  | ident (id : Nat)
  deriving DecidableEq, Repr

/-- A scrub in progress (R80, R81): slots, new owner, the context whose kill commanded it. -/
structure Scrub where
  slots : List Nat
  owner : Nat
  kill : Option Nat
  deriving DecidableEq, Repr

/-- What waits in a cell and is woken (R75, R98): a thread, a held fill by its place, the array's running stream. -/
inductive Wake where
  | thread (th : Fin 4)
  | fill (i : Nat)
  | array
  deriving DecidableEq, Repr

/-- What reaches the wait limit (R77): a thread, a held fill of a cell, a remote read or SEND at its target, a cell's held stream. -/
inductive Waiter where
  | thread (l : Fin 1024000) (th : Fin 4)
  | fill (l : Fin 1024000) (i : Nat)
  | read (msg : Nat)
  | array (l : Fin 1024000)
  deriving DecidableEq, Repr

/-- A slot program that runs (R58, R85, R87). -/
structure Prog where
  num : Nat
  ctx : Nat
  idx : Nat
  slot : Nat
  gang : Bool
  sortmerge : Bool
  deriving DecidableEq, Repr

/-- Contribution parameters that Sluice loads with a slot's selection (R252). -/
structure Contrib where
  step : Nat
  ctx : Nat
  attempt : Nat
  src : Nat
  backup : Bool
  count : Nat
  deriving DecidableEq, Repr

/-- A cell, by logical index (R24). -/
structure Cell where
  mem : Tab Byte := []
  tags : Tab Tag := []
  trailers : Tab Bytes := []
  flags : Tab Nat := []
  threads : Tab Thread := []
  /-- Accumulator banks: 64 FP32 codes by 64 × bank + 8 × row + column; unlisted: zero. -/
  banks : Tab Nat := []
  /-- The context whose stream each bank last served. -/
  bankOf : Tab Nat := []
  streams : List Stream := []
  aouts : List AoutOp := []
  ops : List RemOp := []
  nextOp : Nat := 0
  /-- Fills that wait (R77). -/
  fills : List Fill := []
  /-- Spans that await a refetch, by span. -/
  refetch : Tab RefetchOf := []
  scrubs : List Scrub := []
  /-- Spans that an ended pass has given up, until they are given to an owner (R170). -/
  reclaimed : List Nat := []
  /-- Corrected words whose write-back is due: byte addresses. -/
  writeback : List Nat := []
  prog : Option Prog := none
  progs : Nat := 0
  /-- Selections received: slot, context, descriptor index (R87). -/
  sel : List (Nat × Nat × Nat) := []
  contrib : List Contrib := []
  /-- Slots whose program must not start: boundaries passed under a trapped program (R89). -/
  noStart : Nat := 0
  patrolRow : Nat := 0
  /-- Handed to the in-service test after a tag-word failure (R83). -/
  suspect : Bool := false
  deriving DecidableEq, Repr

/-- What a check-value unit is doing (R152 to R156): context, profile, append or strip, running value and bytes processed of
the record in progress. -/
structure ChkBind where
  ctx : Nat
  prof : Nat
  append : Bool
  run : Nat
  done : Nat
  /-- Strip mode: bytes of the record in progress, given on once its check agrees (R154). -/
  buf : Bytes := []
  /-- The stream that the module itself bound: none for one that commands name; 0 a difference stream; else 1 + the tag of a Reservoir
  operation. -/
  job : Option Nat := none
  deriving DecidableEq, Repr

/-- The check-value units (R152, R157, R158). -/
structure Chk where
  bound : Tab ChkBind := []
  /-- Running values left in units with no stream. -/
  run : Tab Nat := []
  /-- Strip mode: bytes of records sliced out, by the address of their save record (R156). -/
  held : Tab Bytes := []
  deriving DecidableEq, Repr

end Sys2Proof.Machine
end

