-- ==== Sys2Proof/Machine/TypesJob.lean ====
section
/-! DEFINITION. What an admitted job holds: its graph (R283, R284), its placement (R286 to R292), its shard records (R224), the
decision on its latest window (R129, R131). -/
namespace Sys2Proof.Machine

/-- A rectangle of a logical die, as bits [34:0] of R162. -/
structure Rect where
  die : Nat
  row0 : Nat
  row1 : Nat
  col0 : Nat
  col1 : Nat
  deriving DecidableEq, Repr

/-- A cell-group entry (R284). -/
structure GGroup where
  cells : Nat
  replica : Nat
  kind : Nat
  gang : Bool
  oneDie : Bool
  rows : Nat
  cols : Nat
  streamMb : Nat
  near : Nat
  progBytes : Nat
  progAddr : Nat
  deriving DecidableEq, Repr

/-- A tensor entry (R284). -/
structure GTensor where
  ident : Nat
  elements : Nat
  role : Nat
  residency : Nat
  nstate : Nat
  sfmt : Nat
  layer : Nat
  prog : Nat
  gran : Nat
  deriving DecidableEq, Repr

/-- A stream entry (R284). -/
structure GStream where
  tensor : Nat
  group : Nat
  outFmt : Nat
  tRows : Nat
  cnt : Nat
  span0 : Nat
  nspans : Nat
  phase : Nat
  due0 : Nat
  interval : Nat
  deriving DecidableEq, Repr

/-- A reduction entry (R284). -/
structure GRed where
  tensor : Nat
  group : Nat
  nsteps : Nat
  backup : Bool
  conv : Bool
  deadline : Nat
  fwd : Nat
  deriving DecidableEq, Repr

/-- A relocation entry (R284). -/
structure GReloc where
  group : Nat
  offset : Nat
  kind : Nat
  target : Nat
  addend : Nat
  deriving DecidableEq, Repr

/-- A job graph as Watershed copied it (R282, R283). -/
structure Graph where
  full : Bool := false
  locFirst : Bool := false
  spanOk : Bool := false
  layers : Nat := 1
  replicas : Nat := 1
  fleet : Nat := 1
  index : Nat := 0
  baseTag : Nat := 0
  groups : List GGroup := []
  tensors : List GTensor := []
  streams : List GStream := []
  reds : List GRed := []
  relocs : List GReloc := []
  deriving DecidableEq, Repr

/-- Where a tensor stands (R292): where, copies, shards, first shard record, address. -/
structure TPlace where
  where_ : Nat
  copies : Nat
  shards : Nat
  shard0 : Nat
  addr : Nat
  deriving DecidableEq, Repr

/-- A placement as Watershed chooses it: rectangles of each group, tensors, address of the shard records, areas of the module's
own, by address and length, that only their Estuary engine writes (R249), and what Watershed writes into memory for it: shard
records, window tables, base address pairs. -/
structure Plan where
  rects : List (List Rect) := []
  tensors : List TPlace := []
  shardTab : Nat := 0
  nshards : Nat := 0
  /-- The largest number of cells of one replica that contribute to one gradient block (R290). -/
  blockCells : Nat := 1
  collect : List (Nat × Nat) := []
  /-- The health lead of the context's windows: node, 0 for this module, and engine. -/
  lead : Nat × Nat := (0, 0)
  writes : List (Nat × List (BitVec 8)) := []
  deriving DecidableEq, Repr

/-- How Watershed's placement of a context ends: a code of R291 with the entry that caused it, or a placement. -/
inductive Admission where
  | refuse (code : Fin 16) (detail : BitVec 32)
  | place (p : Plan)
  deriving DecidableEq, Repr

/-- A shard record (R224). -/
structure ShardRec where
  id : Nat
  ctx : Nat
  delta : Bool
  owner : Bool
  layer : Nat
  nstate : Nat
  base : Nat
  elements : Nat
  gblock0 : Nat
  wAddr : Nat
  sAddr : List Nat
  sfmt : Nat
  prog : Nat
  gAddr : Nat
  fpAddr : Nat
  rep0 : Nat
  rep1 : Nat
  mat : Nat
  deriving DecidableEq, Repr

/-- The decision on a window (R131, R271) and what the sweep takes from it. -/
structure Dec where
  step : Nat
  /-- λ as an FP64 code, and whether it is defined (R129). -/
  lam : Nat
  lamDef : Bool
  /-- μ and warm count as they stand once the sweep is complete (R132, R136). -/
  mu : Nat := 0
  warm : Nat := 0
  /-- Reduced token count S1 (R128). -/
  tokens : Int
  skip : Bool
  /-- The window failed: entries of tiles staged short or not staged stay (R271). -/
  failed : Bool
  spike : Bool
  partial_ : Bool := false
  /-- Reduced flags of the health block. -/
  ovf : Bool
  hot : Bool
  nf : Bool
  /-- The slot's boundary count from which the sweep runs, once named (R267); the sweep has begun. -/
  sweepBnd : Option Nat := none
  begun : Bool := false
  /-- Layer facts for the completion (R135). -/
  ratioWarn : Bool := false
  ratioHold : Bool := false
  deriving DecidableEq, Repr

end Sys2Proof.Machine
end

