-- ==== Sys2Proof/Machine/TypesSlc.lean ====
section
/-! DEFINITION. State of contexts and of Sluice (R303 to R338): contexts, their steps, queue pairs, completion records. -/
namespace Sys2Proof.Machine

/-- Context states, in the order of R305. -/
inductive CtxSt where
  | free | admitting | idle | running | held | killing
  deriving DecidableEq, Repr

/-- The state code of R305, reported in detail under R325. -/
def CtxSt.code : CtxSt → Nat
  | .free => 0 | .admitting => 1 | .idle => 2 | .running => 3 | .held => 4 | .killing => 5

/-- A numerics record as in force (R130). -/
structure NumRec where
  scaleTable : Nat := 0
  healthArea : Nat := 0
  ratioWarn : Nat := 0
  ratioHold : Nat := 0
  spikeFactor : Nat := 0
  warmup : Nat := 0
  emaShift : Nat := 1
  lossPolicy : Nat := 0
  nfSkipStep : Bool := false
  ovfApply : Bool := false
  headroom : Nat := 1
  initExp : Int := 0
  quiet : Nat := 0
  layers : Nat := 1
  deriving DecidableEq, Repr

/-- Where an accepted STEP stands (R327). -/
inductive StepSt where
  /-- Accepted; its batch record is being read (R318). -/
  | reading
  | queued
  | running
  /-- Its backward pass has ended. -/
  | reduced
  /-- Decided and swept, or to be swept. -/
  | sweeping
  /-- Completed inside a window that has not ended; kept for a rollback (R330). -/
  | accumulated
  deriving DecidableEq, Repr

/-- An accepted STEP (R317, R319) with what its completion will report (R324). -/
structure Step where
  num : Nat
  st : StepSt
  numChanged : Bool
  updChanged : Bool
  resync : Bool
  hold : Bool
  batch : Nat
  sequences : Nat
  maxLen : Nat
  tokens : Nat
  tag : Nat
  sqHead : Nat
  holdover : Bool := false
  decision : Nat := 0
  spike : Bool := false
  ratioWarn : Bool := false
  ratioHold : Bool := false
  gap : Bool := false
  overrun : Bool := false
  rerun : Bool := false
  held : Bool := false
  /-- Its completion has been posted: a step before the last of its window that runs again posts none (R324). -/
  posted : Bool := false
  attempts : Nat := 0
  startSlot : Nat := 0
  deriving DecidableEq, Repr

/-- A COPY in progress (R320). -/
structure Copy where
  qp : Nat
  tag : Nat
  ctx : Option Nat
  toHost : Bool
  form : Bool
  host : Nat
  mem : Nat
  bytes : Nat
  ident : Nat
  format : Nat
  alive : Nat
  sqHead : Nat
  /-- Steps of its context with lower numbers go first. -/
  after : Nat := 0
  deriving DecidableEq, Repr

/-- A rollback that is due (R330, R331): whether it holds the context. -/
structure Roll where
  hold : Bool
  deriving DecidableEq, Repr

/-- A kill in progress (R332). -/
structure Kill where
  /-- Slot at whose boundary it takes effect. -/
  slot : Nat
  zero : Bool
  tag : Nat
  qp : Nat
  sqHead : Nat
  /-- The boundary has been passed. -/
  started : Bool := false
  /-- Cells that have not reported. -/
  waiting : List Nat := []
  /-- Latest tide count reported (R81). -/
  tide : Nat := 0
  /-- Started by an FLR, which posts no completion (R344). -/
  flr : Bool := false
  deriving DecidableEq, Repr

/-- A delta or full context (R304). -/
structure Ctx where
  st : CtxSt := .free
  full : Bool := false
  priv : Bool := false
  qp : Nat := 0
  graph : Nat := 0
  numAddr : Nat := 0
  updAddr : Nat := 0
  report : Nat := 0
  save : Nat := 0
  firstStep : Nat := 0
  nextStep : Nat := 0
  /-- First step after the last completed window, and last completed step. -/
  winNext : Nat := 0
  lastDone : Nat := 0
  admitTag : Nat := 0
  admitHead : Nat := 0
  num : NumRec := {}
  /-- Graph as copied, placement in force, report version (R282, R292); none until placed. -/
  job : Graph := {}
  plan : Plan := {}
  ver : Nat := 0
  /-- Re-plan causes not yet acted on, bits of R296; a placement computed and waiting for the step boundary (R297). -/
  cause : Nat := 0
  replan : Option Plan := none
  /-- A move's copy runs: the cells left and reached, in order (R297). -/
  moving : Option (List (Nat × Nat)) := none
  /-- Frozen since a boundary count (R299). -/
  frozen : Option Nat := none
  steps : List Step := []
  copies : List Copy := []
  /-- μ as an FP64 code and the warm count (R132). -/
  mu : Nat := 0
  warm : Nat := 0
  kill : Option Kill := none
  roll : Option Roll := none
  /-- The holding causes of R133, R135, R272, R275 for the record, and a hold due at the next step boundary. -/
  holdDue : Nat := 0
  /-- Held by a lowered licence: only KILL is accepted (R337). -/
  licHeld : Bool := false
  /-- First boundary at which a context of the cohort could start (R328). -/
  readyAt : Option Nat := none
  /-- The current round's step has not finished its backward pass. -/
  inRound : Bool := false
  /-- Attempt of the window in progress (R272). -/
  attempt : Nat := 0
  /-- The decision on the latest window, until its step completes. -/
  dec : Option Dec := none
  deriving DecidableEq, Repr

/-- A completion record to post (R324). -/
structure Cpl where
  tag : Nat
  ctx : Nat
  op : Nat
  status : Nat
  detail : Nat
  step : Nat
  tide : Nat
  flags : Nat
  attempts : Nat
  sqHead : Nat
  deriving DecidableEq, Repr

/-- A queue pair (R307 to R311, R335). -/
structure Pair where
  en : Bool := false
  err : Bool := false
  /-- Stopped under R335 until en is written to 0 and then to 1. -/
  halted : Bool := false
  sqBase : Nat := 0
  cqBase : Nat := 0
  sqSize : Nat := 256
  cqSize : Nat := 256
  sqHead : Nat := 0
  sqTail : Nat := 0
  /-- CQ entry to write next, records written in all, and the driver's head. -/
  cqTail : Nat := 0
  cqPass : Nat := 0
  cqHead : Nat := 0
  /-- Descriptors of the fetch in progress. -/
  fetching : Nat := 0
  /-- Local tick at which it was asked for (R335). -/
  fetchAt : Nat := 0
  retried : Bool := false
  /-- Descriptors fetched and not yet dispatched, with the SQ index after each. -/
  fetched : List (Bytes × Nat) := []
  /-- Records posted; records waiting in the completion buffer. -/
  posted : List Cpl := []
  buf : List Cpl := []
  /-- Records written and not signalled; local tick of the first. -/
  unsig : Nat := 0
  unsigAt : Nat := 0
  deriving DecidableEq, Repr

/-- Sluice. -/
structure Slc where
  pairs : Tab Pair := []
  dbBase : Nat := 0
  /-- Boundary count of the last doorbell poll. -/
  pollBnd : Nat := 0
  /-- COPYs with noctx in progress. -/
  copies : List Copy := []
  /-- Boundary count at which a cohort's latest round started, by cohort (R328). -/
  roundAt : Tab Nat := []
  deriving DecidableEq, Repr

end Sys2Proof.Machine
end

