-- ==== Sys2Proof/Machine/TypesFrs.lean ====
section
/-! DEFINITION. State of the Freshet engines and of Confluence (R159 to R181), and messages in flight. -/
namespace Sys2Proof.Machine

/-- A destination group of a pass (R162). -/
structure Grp where
  die : Nat
  row0 : Nat
  row1 : Nat
  col0 : Nat
  col1 : Nat
  span0 : Nat
  nspans : Nat
  ctx : Nat
  all : Bool
  deriving DecidableEq, Repr

/-- A pass record in an engine's queue (R160, R161). -/
structure Pass where
  id : Nat
  start : Nat
  tiles : Nat
  slow : Bool
  ctxOwned : Bool
  ctx : Nat
  srcFmt : Nat
  outFmt : Nat
  alive : Nat
  tRows : Nat
  cnt : Nat
  due0 : Nat
  interval : Nat
  srcPay : Nat
  srcTrl : Nat
  srcIdent : Nat
  grps : List Grp
  /-- Contexts served (R171, R172). -/
  ctxs : List Nat
  active : Bool := false
  /-- Tide count of the start boundary. -/
  startTide : Nat := 0
  startBnd : Nat := 0
  /-- Local tick of the start boundary (R167). -/
  startTick : Nat := 0
  /-- Its last tile landed after its due time (R179). -/
  late : Bool := false
  /-- The next source to read; sources to read again (R176 to R178). -/
  nextSrc : Nat := 0
  again : List Nat := []
  /-- Groups to which no delivery is issued any more, with the boundary count when that was decided (R172). -/
  skip : Tab Nat := []
  /-- Rectangles of killed contexts that it served: not reassigned until it has ended (R172). -/
  lost : List Rect := []
  deriving DecidableEq, Repr

/-- A prefetch entry: one source tile of a pass (R168, R176, R178). -/
structure Entry where
  pass : Nat
  src : Nat
  /-- The tile as read and verified. -/
  tile : Option (Bytes × Bytes) := none
  epoch : Nat := 0
  bnd : Nat := 0
  /-- Read again after a failed verification; failed for good. -/
  reread : Bool := false
  failed : Bool := false
  /-- Stale reads in a row (R150). -/
  stales : Nat := 0
  /-- The merge entry that carries its read; none: read alone. -/
  merge : Option Nat := none
  /-- Delivered to some group already: a report does not invalidate it (R180). -/
  used : Bool := false
  /-- Group copies that its read serves (R174). -/
  copies : Nat := 1
  deriving DecidableEq, Repr

/-- Which delivery a command names: to a group of its pass, or a refetch by number. -/
inductive DelKey where
  | grp (g : Nat) | rf (did : Nat)
  deriving DecidableEq, Repr

/-- An open Confluence entry (R173, R174). -/
structure Merge where
  id : Nat
  slow : Bool
  addr : Nat
  /-- Local tick of the first request. -/
  at_ : Nat
  copies : Nat
  forms : List (Nat × Nat)
  open_ : Bool := true
  /-- The data once returned: payload, trailer, epoch; inner none where the read failed. -/
  data : Option (Option (Bytes × Bytes × Nat)) := none
  deriving DecidableEq, Repr

/-- A delivery of an output tile to a group, or of a refetch to a cell (R169, R177, R178). -/
structure Del where
  did : Nat
  pass : Nat
  out : Nat
  grp : Nat
  /-- Epoch answered by the probe; none before it. -/
  probed : Option Nat := none
  issued : Bool := false
  /-- Cells that have neither landed nor dropped the tile; cells that found it stale. -/
  waiting : List Nat := []
  stale : List Nat := []
  staleRuns : Nat := 0
  /-- A repeated delivery goes to these cells alone. -/
  only : List Nat := []
  acked : Bool := false
  /-- A refetch: the cell and span that asked (R178). -/
  rf : Option (Nat × Nat) := none
  landed : Nat := 0
  /-- Local tick of the latest landing. -/
  landTick : Nat := 0
  deriving DecidableEq, Repr

/-- A Freshet engine (R159). -/
structure Frs where
  passes : List Pass := []
  buf : List Entry := []
  merges : List Merge := []
  dels : List Del := []
  /-- Passes that have ended, kept for the location of their tiles (R178). -/
  past : List Pass := []
  nextId : Nat := 0
  /-- Source tiles read in this slot (R168). -/
  readSlot : Nat := 0
  /-- Pages written since an entry was read are reported by these addresses (R176). -/
  reports : List Nat := []
  deriving DecidableEq, Repr

/-- Messages in flight that an arrival command names by number. -/
inductive Msg where
  /-- A fill to one cell, or a multicast to the cells listed. -/
  | fill (f : Fill) (cells : List Nat)
  /-- A remote read request for a FETCH or LDX at a cell: issuing cell, operation, target cell, byte address, length,
  context, boundary count since when it waits at its target. -/
  | readReq (src op dst addr len ctx : Nat) (since : Option Nat)
  /-- A refusal on its way back: issuing cell, operation. -/
  | refuse (src op : Nat)
  /-- Data of an LDX on its way back; none where the line was poisoned (R188). -/
  | ldxData (src op : Nat) (val : Option Nat)
  /-- A reservation request of a SEND: issuing cell, operation, boundary count since when it waits at its target. -/
  | sendReq (src op : Nat) (since : Option Nat)
  /-- A refetch request over Rill: cell, span, identifier, and the delivery it repeats, by engine and number (R148). -/
  | refetchReq (cell span ident : Nat) (did : Option (Nat × Nat))
  /-- A packet in the mesh (R28). -/
  | packet (p : Packet)
  /-- A Rill message. -/
  | rill (m : RillMsg)
  deriving DecidableEq, Repr

end Sys2Proof.Machine
end

