-- ==== Sys2Proof/Machine/TypesMem.lean ====
section
/-! DEFINITION. State of the fast tier (R182 to R203) and of the slow tier (R204 to R217). -/
namespace Sys2Proof.Machine

/-- Who made a request to a stack. -/
inductive MemFrom where
  /-- A cell's remote operation: cell, operation. -/
  | cell (l op : Nat)
  /-- A CXL.mem access: the host's tag. -/
  | host (tag : Nat)
  /-- A ring block or a peer: engine or node number, its own number of the request. -/
  | unit (n num : Nat)
  deriving DecidableEq, Repr

/-- Source classes of R194, in the order of its table. -/
inductive MemCls where
  | freshet | eddy | estuary | cell | reservoir | host | internal
  deriving DecidableEq, Repr

/-- What a request asks: a read, a write, an epoch probe (R177, R193). -/
inductive MemAct where
  | read | write (data : Bytes) | probe
  deriving DecidableEq, Repr

/-- A read merged into another of the same line (R202). -/
structure MemAlso where
  from_ : MemFrom
  ctx : Option Nat
  addr : Nat
  len : Nat
  data : Bytes := []
  deriving DecidableEq, Repr

/-- A request at a stack (R193 to R196). -/
structure MemReq where
  id : Nat
  cls : MemCls
  from_ : MemFrom
  ctx : Option Nat
  addr : Nat
  len : Nat
  act : MemAct
  sm : Bool
  /-- Local tick of arrival, of acceptance. -/
  at_ : Nat
  accAt : Nat := 0
  /-- Place in acceptance order. -/
  acc : Nat := 0
  /-- The age cap has been reached (R195). -/
  aged : Bool := false
  /-- Data, or epoch, fixed at acceptance (R193). -/
  data : Bytes := []
  /-- Sort-and-merge: data of a write that the buffer held; reads merged into this one (R202). -/
  fwd : Option Bytes := none
  also : List MemAlso := []
  deriving DecidableEq, Repr

/-- What a new request asks of a stack: a cell's remote operation, or a ring block's or peer's own access with its class,
unit, number, context, address, length and act. -/
inductive MemIn where
  | cell (l : Fin 1024000) (op : Nat) (e : Ecc)
  | unit (cls : MemCls) (n num : Nat) (ctx : Option Nat) (addr len : Nat) (act : MemAct)
  deriving DecidableEq, Repr

/-- What an access to a line finds (R188): `onDie`: good data, with a severity report of the stack's on-die ECC (R189). -/
inductive MemEcc where
  | clean | corrected | transient | persistent | onDie
  deriving DecidableEq, Repr

/-- A row's error history (R190). -/
structure RowHist where
  /-- Lines found persistently uncorrectable. -/
  bad : List Nat := []
  /-- Local ticks of corrections in the last 24 hours. -/
  corr : List Nat := []
  deriving DecidableEq, Repr

/-- Stack states of MEM_STATUS (R216). -/
inductive StkSt where
  | ready | retraining | unavailable
  deriving DecidableEq, Repr

/-- A stack controller (R184 to R203). Banks are numbered 64 × pseudo-channel + bank, rows 2^15 × bank + row. -/
structure Stack where
  st : StkSt := .ready
  key : Nat := 0
  /-- Source queues of all sources, in arrival order; the sort buffer; the slots held. -/
  queue : List MemReq := []
  sort : List MemReq := []
  slots : List MemReq := []
  nextId : Nat := 0
  nextAcc : Nat := 0
  /-- Poison map: line numbers, memory-space address over 64. -/
  poison : List Nat := []
  rows : Tab RowHist := []
  /-- Rows whose retirement copy runs, rows retired, remap entries used. -/
  retiring : List Nat := []
  retired : List Nat := []
  remaps : Nat := 0
  patrolLine : Nat := 0
  /-- Local tick of the last patrol read (R191). -/
  patrolAt : Nat := 0
  /-- Pages whose epochs the cache holds, oldest first (R193). -/
  cached : List Nat := []
  /-- Row last opened in each bank; activations since its last RFM (R192, R195). -/
  openRow : Tab Nat := []
  acts : Tab Nat := []
  /-- Requests and bytes accepted in the concentration window: by bank, by bank and context, by bank and page (R200). -/
  concBank : Tab Nat := []
  concCtx : Tab Nat := []
  concPage : Tab Nat := []
  concBytes : Nat := 0
  /-- Concentrated windows in a row, boundary at which the window began, whether retraining overlapped it. -/
  concRun : Nat := 0
  concBnd : Nat := 0
  concSkip : Bool := false
  /-- Retraining asked for (R203). -/
  retrainWant : Bool := false
  deriving DecidableEq, Repr

/-- A concentration report to Watershed (R200). -/
structure ConcRep where
  stack : Nat
  tide : Nat
  pct : Nat
  banks : List (Nat × Nat)
  ctxs : List Nat
  pages : List Nat
  deriving DecidableEq, Repr

/-- The tiers. -/
structure Mem where
  /-- The fast tier's bytes by memory-space address; canonical, unlisted reads as zero. -/
  data : Tab Byte := []
  /-- Write epochs by 4 KiB page (R175). -/
  epochs : Tab Nat := []
  stks : Tab Stack := []
  /-- The snoop filter: window lines the host may cache, by line number; true where granted Any (R348). -/
  filter : Tab Bool := []
  /-- Lines whose BISnp awaits its BIRsp: whether it invalidates, local tick of sending. -/
  snoops : Tab (Bool × Nat) := []
  /-- The host is treated as lost until the decoder is committed anew (R349). -/
  hostLost : Bool := false
  /-- Concentration reports that Watershed has not answered. -/
  conc : List ConcRep := []
  deriving DecidableEq, Repr

/-- What a Reservoir operation asks (R208). -/
inductive RsvAct where
  | read | write (data : Bytes) | flush | query
  deriving DecidableEq, Repr

/-- For whom an agent acts (R206): a cell's remote operation; a Freshet source, by engine and address; another unit, by block
code, instance and a number of its own. -/
inductive RsvBy where
  | cell (l op : Nat)
  | frs (e addr : Nat)
  | unit (block inst num : Nat)
  deriving DecidableEq, Repr

/-- A slow-tier request that waits for its agent. -/
structure RsvWant where
  agent : Nat
  by_ : RsvBy
  ctx : Nat
  addr : Nat
  len : Nat
  act : RsvAct
  ack : Bool := false
  /-- Cisan class of its messages (R371). -/
  cls : Nat := 5
  /-- A READ straight to a node, outside every window (R376). -/
  node : Option Nat := none
  deriving DecidableEq, Repr

/-- A window in use (R205, R217). -/
structure RsvWin where
  base : Nat
  size : Nat
  typ : Nat
  node : Nat
  eng : Nat
  engAlt : Nat
  altEn : Bool
  rbase : Nat
  prof : Nat
  chkEn : Bool
  /-- Boundary count when valid was set; the window is in use from the next boundary. -/
  since : Nat
  /-- valid has been cleared; the window closes at the boundary after this count. -/
  closing : Option Nat := none
  deriving DecidableEq, Repr

/-- A slow-tier operation outstanding at an agent (R206, R209, R211). -/
structure RsvOp where
  w : RsvWant
  slot : Nat
  win : Nat
  eng : Nat
  /-- The window as it was at issue: what has been issued goes on when the window closes (R205). -/
  window : RsvWin
  /-- Local tick of issue; whether it has been issued again; the tick of a busy status it waits after. -/
  at_ : Nat
  reissued : Bool := false
  busy : Option Nat := none
  /-- Bytes received, by offset; whether the part flagged last has come. -/
  got : List (Nat × Bytes) := []
  deriving DecidableEq, Repr

/-- How a slow-tier operation ended, for its requester (R209). -/
structure RsvDone where
  by_ : RsvBy
  ctx : Nat
  addr : Nat
  status : Nat
  data : Bytes := []
  deriving DecidableEq, Repr

/-- An export in use (R213, R217), bounds in GiB. -/
structure RsvExp where
  base : Nat
  size : Nat
  node : Nat
  wr : Bool
  since : Nat
  closing : Option Nat := none
  deriving DecidableEq, Repr

/-- A peer's write being received in parts (R208, R213). -/
structure PeerWrite where
  node : Nat
  tag : Nat
  ctx : Nat
  addr : Nat
  len : Nat
  next : Nat
  ack : Bool
  /-- Aborted or answered with a failure: its later parts are discarded (R208, R210). -/
  dead : Bool := false
  deriving DecidableEq, Repr

/-- The Reservoir agents, windows and exports. -/
structure Rsv where
  wins : Tab RsvWin := []
  exps : Tab RsvExp := []
  want : List RsvWant := []
  ops : List RsvOp := []
  done : List RsvDone := []
  /-- Tags aborted whose late parts are discarded (R208, R215). -/
  aborted : List Nat := []
  peer : List PeerWrite := []
  deriving DecidableEq, Repr

end Sys2Proof.Machine
end

