-- ==== Sys2Proof/Machine/TypesCsn.lean ====
section
/-! DEFINITION. State of Cisan (R362 to R387): engines, lanes, flits kept for replay, streams, messages. -/
namespace Sys2Proof.Machine

/-- Lane states, in the order of CSN_LANE_STATUS.state (R379, R387). -/
inductive LaneSt where
  | disabled | down | detect | train | range | caps | qualify | ready | retrain
  deriving DecidableEq, Repr

/-- The code of a lane state. -/
def LaneSt.code : LaneSt → Nat
  | .disabled => 0 | .down => 1 | .detect => 2 | .train => 3 | .range => 4 | .caps => 5 | .qualify => 6 | .ready => 7 | .retrain => 8

/-- A partner's identity and what it offers (R381). -/
structure Partner where
  node : Nat
  eng : Nat
  typ : Nat
  nonce : Nat
  classes : Nat
  credit : Nat
  maxBody : Nat
  txLat : Nat
  rxLat : Nat
  deriving DecidableEq, Repr

/-- A message (R369): its header's fields and its body. -/
structure CsnMsg where
  num : Nat := 0
  mtype : Nat
  dstEng : Nat
  dstNode : Nat
  srcNode : Nat
  srcEng : Nat
  cls : Nat
  ctx : Nat
  stream : Nat
  body : Bytes
  deriving DecidableEq, Repr

/-- Up to 240 payload bytes of a DATA flit, with the message they belong to (R366, R369). -/
structure Chunk where
  msg : CsnMsg
  off : Nat
  last : Bool
  data : Bytes
  deriving DecidableEq, Repr

/-- A lane (R364 to R368, R379 to R383). -/
structure Lane where
  st : LaneSt := .disabled
  /-- Local tick of entry to the state; ticks of the back-off wait in DOWN. -/
  since : Nat := 0
  wait : Nat := 0
  cause : Nat := 0
  /-- Within a recalibration (R383): the states after RETRAIN keep it. -/
  retrain : Bool := false
  recal : Bool := false
  hold : Bool := false
  lengthDm : Nat := 0
  /-- One-way delay in units of 0.1 ns (R380). -/
  delay : Nat := 0
  rx : Int := 0
  tx : Int := 0
  partner : Option Partner := none
  /-- Last time in READY, with that partner's node and nonce (R382). -/
  wasReady : Option (Nat × Nat × Nat) := none
  /-- The next sequence number to send, flits not acknowledged with local tick of sending, flits not yet sent. -/
  txSeq : Nat := 0
  replay : List (Nat × Nat × Chunk) := []
  txq : List Chunk := []
  /-- Which of the classes 3 to 6 was served latest (R371). -/
  rr : Nat := 6
  resends : Nat := 0
  /-- The next sequence number expected, the last accepted, whether a discard has followed it, nak owed. -/
  rxNext : Nat := 0
  rxLast : Option Nat := none
  rxBad : Bool := false
  nak : Bool := false
  /-- Flits kept when the lane closed, until the closure is exchanged; the sequence number to name in the lane's own
  LANE_CLOSE, while none could be sent (R372). -/
  old : List (Nat × Nat × Chunk) := []
  oldq : List Chunk := []
  closeOwed : Option Nat := none
  /-- The partner's LANE_CLOSE for the last closure has not come. -/
  closing : Bool := false
  /-- Bytes of a message received in part. -/
  part : Bytes := []
  /-- The line (R364, R365): codewords sent, the last 58 line bits each way, data blocks of a flit in progress. -/
  txWords : Nat := 0
  txScr : Nat := 0
  rxScr : Nat := 0
  rxBlk : List Nat := []
  /-- TIDE flits (R378): index and departure (2^-16 tick) of the last sent; index and stamp (2^-16 tick) of the last received. -/
  tidx : Nat := 0
  tideSent : Nat := 0
  tideSeen : Option (Nat × Nat) := none
  deriving DecidableEq, Repr

/-- A stream this module sends on (R370). -/
structure TxStream where
  node : Nat
  eng : Nat
  cls : Nat
  ctx : Nat
  /-- Stream ID and credit once granted. -/
  id : Option Nat := none
  credit : Nat := 0
  sent : Nat := 0
  /-- OPEN sent and not answered; local tick of a refusal. -/
  asked : Bool := false
  refused : Option Nat := none
  lane : Option Nat := none
  queue : List CsnMsg := []
  deriving DecidableEq, Repr

/-- A stream this module receives on (R370). -/
structure RxStream where
  id : Nat
  node : Nat
  eng : Nat
  cls : Nat
  ctx : Nat
  /-- Credit the sender holds; units owed to it. -/
  credit : Nat
  owed : Nat := 0
  deriving DecidableEq, Repr

/-- What FLIT_RECEIVE finds on a lane: a flit, or codewords of 5,440 bits as they come. -/
inductive FlitIn where
  | flit (b : Bytes)
  | line (ws : List Nat)
  deriving DecidableEq, Repr

/-- An optical engine's transport. -/
structure CsnEng where
  lanes : Tab Lane := []
  tx : List TxStream := []
  rx : List RxStream := []
  /-- Messages received and not yet acted on. -/
  inbox : List CsnMsg := []
  /-- Units of receive buffer in use. -/
  bufUsed : Nat := 0
  /-- Local tick at which the link was last found not ready (R373). -/
  downAt : Option Nat := none
  held : Option (Nat × Nat) := none
  nextNum : Nat := 0
  /-- The lane of stream 0; its messages kept while the link is not ready (R370, R373). -/
  ctlLane : Option Nat := none
  ctlq : List CsnMsg := []
  /-- Local tick of the last header record (R385). -/
  recAt : Option Nat := none
  deriving DecidableEq, Repr

/-- Cisan. -/
structure Csn where
  engs : Tab CsnEng := []
  /-- The nonce drawn at power-on (R381). -/
  nonce : Nat := 0
  deriving DecidableEq, Repr

end Sys2Proof.Machine
end

