-- ==== Sys2Proof/Machine/TypesEst.lean ====
section
/-! DEFINITION. State of the Estuary engines and of the windows as the module holds them (R248 to R279), and of the Eddy engines,
their shards and the difference streams (R218 to R247). -/
namespace Sys2Proof.Machine

/-! ### Estuary -/

/-- A tile being summed (R259, R260), or completed. -/
structure EstTile where
  filled : Nat := 0
  sum : List Int := []
  ovf : Nat := 0
  hot : Nat := 0
  nf : Nat := 0
  lsum : Nat := 0
  count : Nat := 0
  /-- An addition wrapped, or the accumulator failed (R264). -/
  corrupt : Bool := false
  conv : Bool := false
  /-- Summed in place in the collect range. -/
  spilled : Bool := false
  done : Bool := false
  deriving DecidableEq, Repr

/-- An armed window at an engine (R254, R255). -/
structure EstWin where
  openSlot : Nat
  step : Nat
  ctx : Nat
  rep : Bool
  attempt : Nat
  nsteps : Nat
  h : Nat
  deadline : Nat
  fwd : Nat
  tiles : Nat
  tileTab : Nat
  collect : Nat
  srcTab : Nat
  fanTab : Nat
  fanCount : Nat
  /-- Slots added by R268, and the tide count of the open boundary, once it has passed. -/
  ext : Option Nat := none
  openTide : Nat := 0
  tab : Tab EstTile := []
  /-- Tiles completed, of them complete, short and corrupt; whether they have been reported (R267). -/
  doneN : Nat := 0
  okN : Nat := 0
  shortN : Nat := 0
  badN : Nat := 0
  reported : Bool := false
  /-- Elements converted so far (R253). -/
  convN : Nat := 0
  deriving DecidableEq, Repr

/-- From where a contribution comes, for what R260 holds. -/
inductive EstFrom where
  | cell (l op : Nat) | engine (node eng : Nat)
  deriving DecidableEq, Repr

/-- A contribution in an engine's input queue, or on its way to it. -/
structure EstIn where
  from_ : EstFrom
  dst : Nat
  payload : Bytes
  trailer : Bytes
  side : Bytes
  deriving DecidableEq, Repr

/-- A health tile or a failure verdict on its way to an engine of this module (R265). -/
structure HealthMsg where
  verdict : Bool
  payload : Bytes
  trailer : Bytes
  side : Bytes
  deriving DecidableEq, Repr

/-- An Estuary engine. -/
structure EstEng where
  wins : List EstWin := []
  inq : List EstIn := []
  /-- Context and step of the windows ended latest (R269); those that a record of an unknown contribution has named. -/
  ended : List (Nat × Nat) := []
  unk : List (Nat × Nat) := []
  /-- Sums of other engines of the module on their way here; health tiles and verdicts on their way here. -/
  mesh : List EstIn := []
  health : List HealthMsg := []
  /-- The context that holds the latest slice of egress and staging, and the boundary count of its slot (R277). -/
  slice : Option (Nat × Nat) := none
  deriving DecidableEq, Repr

/-- A window as the module holds it (R267, R271, R272): what its engines report and what its lead holds. -/
structure WinMod where
  ctx : Nat
  step : Nat
  attempt : Nat
  rep : Bool
  h : Nat
  /-- Deadline slot, as extended. -/
  dl : Nat
  /-- Engines of the module with role 0 entries; engines that have reported complete, short and corrupt tiles. -/
  owners : List Nat := []
  reps : List (Nat × Nat × Nat × Nat) := []
  /-- The lead: engine and window, the completed health tile with flags and count, whether it failed, outcomes received by node and
  engine, boundary count at which the last came, whether the fan-out has been sent. -/
  lead : Option (Nat × EstWin) := none
  leadTile : Option HealthMsg := none
  leadBad : Bool := false
  outs : List (Nat × Nat × Bool) := []
  outsAt : Option Nat := none
  fanned : Bool := false
  /-- The module has its tile or verdict. -/
  decided : Bool := false
  deriving DecidableEq, Repr

/-- Estuary. -/
structure Est where
  engs : Tab EstEng := []
  mods : List WinMod := []
  /-- Contexts whose replica copy failed its check after a pass read it (R274). -/
  diverged : List Nat := []
  deriving DecidableEq, Repr

/-! ### Eddy -/

/-- A fetch of a shard copy in progress (R238). -/
structure Fetch where
  note : Bytes
  node : Nat
  w : Nat
  fp : Nat
  /-- Optical engine on which the notice came. -/
  eng : Nat := 0
  /-- Fingerprints of the tiles fetched, by tile. -/
  got : Tab Bytes := []
  tries : Nat := 0
  deriving DecidableEq, Repr

/-- A replica of an owned shard (R224, R238): whether it is ready, the digest it is known to hold, its fetch where the replica
lies in this module. -/
structure Replica where
  ready : Bool := false
  digest : Option Bytes := none
  fetch : Option Fetch := none
  deriving DecidableEq, Repr

/-- A shard as the module holds it. -/
structure Shard where
  r : ShardRec
  ready : Bool := false
  damaged : Bool := false
  /-- Owner: the digest last published; fetcher: the digest last verified. -/
  digest : Option Bytes := none
  /-- Owner: the replicas of rep0 and rep1. -/
  reps : List Replica := [{}, {}]
  /-- Alive counts of the tiles last written, by quantity × 2^32 + tile. -/
  alive : Tab Nat := []
  fetch : Option Fetch := none
  /-- Fetcher: the digest record last received and where the copy comes from. -/
  src : Option Fetch := none
  /-- Fetcher: node and array from which its digest records come. -/
  from_ : Option (Nat × Nat) := none
  deriving DecidableEq, Repr

/-- A difference-stream record before its sequence (R242). -/
structure SRec where
  typ : Nat
  comp : Nat := 0
  step : Nat
  ident : Nat := 0
  old : Nat := 0
  new : Nat := 0
  format : Nat := 0
  check : Nat := 0
  lsum : Nat := 0
  shard : Nat := 0
  quantity : Nat := 0
  tile : Nat := 0
  payload : Bytes := []
  deriving DecidableEq, Repr

/-- A sweep at an engine (R228 to R235). -/
structure Sweep where
  ctx : Nat
  step : Nat
  /-- Tide count at the start boundary. -/
  tide : Nat
  skip : Bool
  failed : Bool
  /-- Position in the engine's list of the context's owned shards, the oldest granule not processed, granules processed beyond
  it, granules whose slow-tier writes have not been acknowledged with their records. -/
  pos : Nat := 0
  gran : Nat := 0
  ahead : List Nat := []
  unacked : List (Nat × List SRec) := []
  /-- Granules of the shard in progress whose slow-tier reads have been issued. -/
  asked : Nat := 0
  /-- A slow-tier read failed, or a staged tile failed twice: the step is partial (R235). -/
  partial_ : Bool := false
  /-- The engine's part is complete (R232). -/
  closed : Bool := false
  /-- Lane partials by ((layer × 4 + sum) × 512 + lane); counts by layer × 8 + (0 ovf, 1 nf, 2 up, 3 down, 4 params). -/
  norms : Tab Nat := []
  counts : Tab Nat := []
  /-- Records that wait for room in the stream buffer, and the boundary count since when (R245). -/
  wait : List SRec := []
  waitBnd : Nat := 0
  /-- Local tick at which the wait began (R245). -/
  waitAt : Nat := 0
  fin : Bool := false
  /-- Stale readings in a row of slow-tier tiles of the shard in progress, by quantity × 2^32 + tile (R150). -/
  stales : Tab Nat := []
  deriving DecidableEq, Repr

/-- An Eddy engine. -/
structure EdyEng where
  sweeps : List Sweep := []
  /-- Local tick of the last audit. -/
  auditAt : Nat := 0
  deriving DecidableEq, Repr

/-- A context's difference stream (R241 to R245, R334). -/
structure Strm where
  sink : Nat := 0
  prof : Nat := 0
  chkEn : Bool := false
  keyInt : Nat := 0
  sinkAddr : Nat := 0
  sinkBytes : Nat := 0
  bufBytes : Nat := 0
  seq : Nat := 0
  /-- Whole records in the buffer, oldest first, with their type. -/
  buf : List (Nat × Bytes) := []
  produced : Nat := 0
  consumed : Nat := 0
  /-- Records dropped since the last gap record: first and last shard, number. -/
  gap : Option (Nat × Nat × Nat) := none
  gapStep : Bool := false
  /-- Tiles to send whole at their next write: shard, quantity, tile. -/
  whole : List (Nat × Nat × Nat) := []
  first : Bool := true
  resync : Bool := false
  /-- Records of the step in progress; shards swept in it. -/
  stepRecs : Nat := 0
  swept : Nat := 0
  /-- The step's type 2 record waits for room. -/
  tail : Option SRec := none
  deriving DecidableEq, Repr

/-- A digest an auditing fetcher of the module reports (R240): context, shard, replica, digest. -/
structure AuditRep where
  ctx : Nat
  shard : Nat
  rep : Nat
  digest : Bytes
  deriving DecidableEq, Repr

/-- Eddy. -/
structure Edy where
  engs : Tab EdyEng := []
  shards : Tab (List Shard) := []
  streams : Tab Strm := []
  /-- Update records in force (R225). -/
  upd : Tab Bytes := []
  audits : List AuditRep := []
  deriving DecidableEq, Repr

/-! ### Operands of commands -/

/-- What an access to an accumulator finds (R248, R264), or that a bit of its sum turned unseen (R263). -/
inductive AccHit where
  | clean | corrected | double | flip (el : Fin 512) (bit : Fin 32)
  deriving DecidableEq, Repr

/-- What reaches an engine over the mesh: a cell's SEND, or the sum of another engine of the module. -/
inductive EstArr where
  | cell (l : Fin 1024000) (op : Nat) (e : Ecc)
  | mesh (e : Fin 64) (i : Nat)
  deriving DecidableEq, Repr

/-- By which way a health tile or a verdict comes. -/
inductive HealthBy where
  | csn (e : Fin 64) (i : Nat)
  | mesh (e : Fin 64) (i : Nat)
  deriving DecidableEq, Repr

/-- A copy of a tile that a source outside the module gives: quantity, tile, source (0 rep0, 1 rep1, 2 the materialised copy). -/
structure TileFix where
  q : Nat
  i : Nat
  src : Nat
  payload : Bytes
  trailer : Bytes
  deriving DecidableEq, Repr

end Sys2Proof.Machine
end

