-- ==== Sys2Proof/Machine/TypesWsh.lean ====
section
/-! DEFINITION. State of Watershed (R280 to R302): notices, freezes, re-skews, refusals. -/
namespace Sys2Proof.Machine

/-- A die to be cleared (R298): earliest switch-off slot, cause of leaving, boundary count of the notice, whether the die has been
reported clear and at which slot. -/
structure Notice where
  site : Nat
  slot : Nat
  why : OutWhy
  bnd : Nat
  clear : Option Nat := none
  deriving DecidableEq, Repr

/-- A die frozen (R299): boundary count f, the contexts on it. -/
structure Freeze where
  site : Nat
  f : Nat
  ctxs : List Nat
  deriving DecidableEq, Repr

/-- A re-skew in progress (R300): context, tensor, array moved. -/
structure Reskew where
  ctx : Nat
  tensor : Nat
  src : Nat
  dst : Nat
  bytes : Nat
  deriving DecidableEq, Repr

/-- Watershed. -/
structure Wsh where
  /-- Notices and thermal emergencies that Levee has sent and Watershed has not taken, oldest first. -/
  asked : List Notice := []
  emerg : List Nat := []
  notices : List Notice := []
  freezes : List Freeze := []
  /-- Drain areas in use, by reach (R299). -/
  drains : Tab Nat := []
  reskews : List Reskew := []
  /-- Slot of the latest re-skew of a tensor, by context × 2^20 + tensor. -/
  skewAt : Tab Nat := []
  lastRefusal : Nat := 0
  deriving DecidableEq, Repr

end Sys2Proof.Machine
end

