-- ==== Sys2Proof/Machine/TypesHst.lean ====
section
/-! DEFINITION. State of the host port (R339 to R352) and of ownership (R353 to R361). -/
namespace Sys2Proof.Machine

/-- The host link: in Detect, training, or up (R339, R352). -/
inductive LinkSt where
  | detect | train | up
  deriving DecidableEq, Repr

/-- A read or write of the host's own, by its link tag, until it is answered: its line and the state it asks for: none, Shared
(false), Any (true). -/
structure HostReq where
  line : Nat
  grant : Option Bool
  deriving DecidableEq, Repr

/-- What the host sets in configuration space (R341, R342): the command word, the bases of BAR0 and BAR2, the sizes in use as PCI Express
codes them. -/
structure CfgSpace where
  command : Nat := 0
  bar0 : Nat := 0
  bar2 : Nat := 0
  mps : Nat := 0
  mrrs : Nat := 2
  deriving DecidableEq, Repr

/-- The host port. -/
structure Hst where
  link : LinkSt := .detect
  /-- As HST_LINK_STATUS codes them (R361). -/
  rate : Nat := 0
  width : Nat := 0
  lopt : Bool := false
  cxl : Bool := false
  d3 : Bool := false
  cfg : CfgSpace := {}
  /-- Words of the MSI-X table (R342), by offset; unlisted: as at reset. -/
  msixTab : Tab Nat := []
  /-- PERST_N is low (R490). -/
  perst : Bool := false
  /-- The committed HDM decoder: base and size (R346); the error-not-committed indication. -/
  hdm : Option (Nat × Nat) := none
  hdmErr : Bool := false
  /-- Lines of host memory in the device cache, all Shared, by address over 64 (R345). -/
  cache : List Nat := []
  reqs : Tab HostReq := []
  /-- Filter records, oldest first (R348). -/
  order : List Nat := []
  /-- The DOE request in progress: local tick, object (R350). -/
  doe : Option (Nat × Bytes) := none
  /-- MCTP assemblies discarded (R359). -/
  mctpDrop : Nat := 0
  deriving DecidableEq, Repr

/-- A CLAIM in an election window (R355); a fleet claim keeps engine, node, engine there, tag. -/
structure Claim where
  m : Master
  pri : Nat
  token : Nat
  path : Option (Nat × Nat × Nat × Nat) := none
  deriving DecidableEq, Repr

/-- How an ownership request arrives (R354): op, priority and target of HST_OWN_REQ; a body over MCTP; a Cisan message by engine and
place. -/
inductive OwnIn where
  | host (pri : BitVec 8) (target : BitVec 2)
  | mctp (body : Bytes)
  | csn (e : Fin 64) (i : Nat)
  deriving DecidableEq, Repr

/-- How a register access arrives: a load or store on BAR0 with its size in bytes; a MGMT body over MCTP; a Cisan message by engine and
place; an access of the host to configuration space, or to a word of BAR2. -/
inductive RegIn where
  | host (off : BitVec 24) (size : Nat) (val : BitVec 64)
  | mctp (body : Bytes)
  | csn (e : Fin 64) (i : Nat)
  | config (item : CfgItem) (val : BitVec 64)
  | bar2 (off : Fin 16384) (val : Word)
  deriving DecidableEq, Repr

/-- What asks for a die test or a recovery: a register write, or what stands due for a site. -/
inductive TestIn where
  | write (x : RegIn)
  | due (site : Fin 88)
  deriving DecidableEq, Repr

/-- Ownership. -/
structure Own where
  owner : Option Master := none
  token : Nat := 0
  /-- Local tick at which the lease ends. -/
  leaseEnd : Nat := 0
  gen : Nat := 0
  claims : List Claim := []
  windowEnd : Option Nat := none
  /-- Local ticks of the ownership requests of each master in the last second, and of the messages over MCTP (R359, R456). -/
  recent : Tab (List Nat) := []
  /-- HST_OWN_STATUS: status of the host's last request, ownership event seen. -/
  hostStatus : Nat := 0
  changed : Bool := false
  deriving DecidableEq, Repr

end Sys2Proof.Machine
end

