-- ==== Sys2Proof/Machine/TypesSys.lean ====
section
/-! DEFINITION. State of bring-up and self-test (R388 to R406), of Headwater (R407 to R428) and of Levee (R429 to R444). What each keeps
through a power-off is marked "kept". -/
namespace Sys2Proof.Machine

/-! ### Bring-up and self-test -/

/-- Where a cluster slice stands (R401). -/
inductive SliceSt where
  | save | test | restore | restored
  deriving DecidableEq, Repr

/-- A cluster slice (R401): the first cell of its cluster, boundary count of its start, of its restore. What it saved stands in the
cells themselves: nothing reads them until they are restored. -/
structure Slice where
  head : Nat
  bnd : Nat
  st : SliceSt := .save
  back : Nat := 0
  deriving DecidableEq, Repr

/-- Why a die is tested whole (R402), and where the test stands: asked for, being cleared, running. -/
inductive TestSt where
  | queued | clearing | running
  deriving DecidableEq, Repr

/-- An in-service die test (R402). -/
structure DieTest where
  site : Nat
  st : TestSt := .queued
  deriving DecidableEq, Repr

/-- A recovery of a reach (R404): its logical die, step in progress. -/
structure Recovery where
  ldie : Nat
  step : Nat
  deriving DecidableEq, Repr

/-- A copy of the hole map in the non-volatile store (R394): sequence number, cells, whole dies. -/
structure HoleCopy where
  seq : Nat := 0
  cells : List Nat := []
  dies : List Nat := []
  deriving DecidableEq, Repr

/-- What fails, or is left unfinished, in a step of bring-up (R388, R390). -/
structure BringUp where
  /-- Step 1: power regions. -/
  regions : List Nat := []
  /-- Step 2: subsystems whose images were not verified. -/
  images : List Nat := []
  /-- Step 4: sites whose PLL did not lock. -/
  plls : List Nat := []
  /-- Steps 5 and 9: stitch edges by the two sites, with the sites whose port fails its loopback. -/
  edges : List (Nat × Nat × List Nat) := []
  /-- Steps 5 and 9: half-links, 3 × chiplet + link; whether the die's port fails its loopback. -/
  halves : List (Nat × Bool) := []
  /-- Step 6: physical cells, sites with a faulty router or port, first cells of faulty clusters, chiplets. -/
  cells : List Nat := []
  dies : List Nat := []
  clusters : List Nat := []
  chips : List Nat := []
  /-- Steps 8 and 9: stacks. -/
  stks : List Nat := []
  deriving DecidableEq, Repr

/-- Bring-up and self-test. -/
structure Bst where
  /-- Step of R388; 0 before it, 10 once ready or waiting for the optical lanes, 15 FAILED. -/
  step : Nat := 0
  /-- Local tick at which the step began. -/
  at_ : Nat := 0
  ready : Bool := false
  /-- Corners that failed to ramp; sites, stacks and chiplets unavailable for this power-on are in `Net`. -/
  cornerBad : List Nat := []
  edgeLeft : Bool := false
  /-- Oxbow sites that failed their start-up test. -/
  oxbowBad : List Nat := []
  slices : List Slice := []
  /-- Segment next due by first cell of the cluster; local tick at which the pass over the module began. -/
  seg : Tab Nat := []
  passAt : Nat := 0
  /-- Cells that mismatched in the last slice, by cluster, to be tested again. -/
  again : Tab (List Nat) := []
  /-- Suspect clusters by first cell: segments passed since. -/
  suspect : Tab Nat := []
  tests : List DieTest := []
  /-- Recoveries in progress, by reach. -/
  recov : Tab Recovery := []
  /-- Staged boot configuration record, by word. -/
  staged : Tab Nat := []
  /-- Kept: the boot configuration record (four words), the one to replace it at the next power-on, the factory map, the valid copies of
  the hole map with the newest first. -/
  boot : List Nat := [0, 0, 0, 0]
  bootNext : Option (List Nat) := none
  /-- Kept: power-ons since State.reset (R423). -/
  powers : Nat := 0
  factory : HoleCopy := {}
  copies : List HoleCopy := []
  /-- An addition is not yet durable; the last store write failed. -/
  undurable : Bool := false
  storeBad : Bool := false
  deriving DecidableEq, Repr

/-! ### Headwater -/

/-- The object that Headwater verifies (R415, R428). -/
structure ObjOp where
  obj : Bytes
  act : Bool
  slot : Nat
  deriving DecidableEq, Repr

/-- A firmware update past verification (R415): written and waiting for its boundary, or started at a local tick. -/
structure Update where
  bank : Nat
  slot : Nat
  bnd : Nat
  act : Bool
  startAt : Option Nat := none
  deriving DecidableEq, Repr

/-- A re-key (R421): the tree is built, or the signed request is formed. -/
inductive Rekey where
  | building (at_ : Nat)
  | ready
  deriving DecidableEq, Repr

/-- Scan and test mode (R426). -/
inductive Scan where
  | out | clearing (at_ : Nat) | test
  deriving DecidableEq, Repr

/-- Headwater. -/
structure Hdw where
  /-- Kept: image banks, objects by 2 × subsystem + bank. -/
  banks : Tab Bytes := []
  /-- Active bank and svn of the subsystems that run; those with no accepted bank. -/
  active : Tab Nat := []
  stopped : List Nat := []
  /-- Kept: minima of the 14 domains, 1 to 11 subsystems, 12 licences, 13 hole-map resets, 14 revocations (R411); revoked slots. -/
  minima : Tab Nat := []
  revoked : List Nat := []
  /-- Measurement registers that are not zero (R414). -/
  meas : Tab Bytes := []
  /-- Kept: the installed licence, a licence accepted and waiting for its boundary, with the boundary count at acceptance. -/
  lic : Option Bytes := none
  licNext : Option (Bytes × Nat) := none
  factory : Bool := true
  /-- Kept: generation in force, burned blocks by generation, accepted certificates, generations with a seed record, signed
  requests formed. -/
  gen : Nat := 0
  burned : Tab Nat := []
  certs : Tab Bytes := []
  seeds : List Nat := [0]
  requests : Tab Bytes := []
  next : Nat := 0
  rekey : Option Rekey := none
  /-- Attestation requests waiting, oldest first; local ticks of op 1 reports of the last day. -/
  attest : List Bytes := []
  signedAt : List Nat := []
  obj : Option ObjOp := none
  /-- HDW_OBJ_STATUS: state, result, kind. -/
  objState : Nat := 0
  objResult : Nat := 0
  objKind : Nat := 0
  updates : Tab Update := []
  /-- Kept: sites whose entries return to the factory map at the next power-on (R397), with the digests and svns of the resets. -/
  resetMask : Nat := 0
  resets : List (Bytes × Nat) := []
  /-- Kept: test-mode entries (R426). -/
  tests : Nat := 0
  scan : Scan := .out
  deriving DecidableEq, Repr

/-! ### Levee -/

/-- The sensors of R434; temperatures in 0.1 °C, flow in 0.1 L/min, voltage in 10 mV, current in 100 mA, rail current in A. -/
inductive Sensor where
  | volt (i : Fin 2) | amp (i : Fin 2) | die (site : Fin 88) (i : Fin 9) | ring (n : Fin 64) (stack : Bool) | carrier (site : Fin 88)
  | flow (i : Fin 2) | inlet (i : Fin 2) | outlet (i : Fin 2) | rail (region : Fin 164)
  deriving DecidableEq, Repr

/-- A sensor's last reading, its local tick, whether it is failed, since when it has read plausibly. -/
structure Reading where
  val : Int
  at_ : Nat
  failed : Bool := false
  good : Nat
  deriving DecidableEq, Repr

/-- Supply (R429, R444): standby before bring-up or after a shutdown; sequence begun; on; shutting down since a tick and boundary. -/
inductive Power where
  | standby | go | on | stopping (at_ bnd : Nat)
  deriving DecidableEq, Repr

/-- Levee. -/
structure Lev where
  power : Power := .standby
  /-- Local tick at which standby began; since when the coolant condition of R444 holds. -/
  standAt : Nat := 0
  gate : Option Nat := none
  readings : List (Sensor × Reading) := []
  /-- Since when a condition holds, by region × 8 + level (R435); since when a region stays 5 °C below its entry. -/
  hot : Tab Nat := []
  cool : Tab Nat := []
  /-- Since when a condition holds: rows 0 to 5 of R436; 6: input below 48.0 V; 7: above 58.5 V; 8: current above 800 A. Since when a carrier
  sensor reads below 85 °C; a stack reads 105 °C, or 95 °C or less. -/
  coolant : Tab Nat := []
  carrierOk : Tab Nat := []
  stackHot : Tab Nat := []
  stackOk : Tab Nat := []
  /-- Heat levels of ring positions; those of dies are in `Net`. -/
  ringHeat : Tab Nat := []
  throttle : Nat := 0
  /-- Consecutive slots over the cap, and below 95 % of it; input power over the last slot in W. -/
  overs : Nat := 0
  under : Nat := 0
  watts : Nat := 0
  /-- Coolant limit in W by flow, and what the inlet takes off it. -/
  flowLimit : Nat := 36000
  inletCut : Nat := 0
  /-- Region states of LEV_REGION_STATUS other than 0, and the local tick at which a region was switched off; tripped at level 4. -/
  region : Tab Nat := []
  offAt : Tab Nat := []
  tripped : List Nat := []
  /-- Dies that take no program in 8 of 16 slots (R439). -/
  halved : List Nat := []
  /-- Stacks in self-refresh for heat (R437). -/
  selfRef : List Nat := []
  /-- SLOT pins as sampled (R491). -/
  pins : Nat := 0
  deriving DecidableEq, Repr

end Sys2Proof.Machine
end

