-- ==== Sys2Proof/Syntax.lean ====
section
/-! DEFINITION. The commands: one constructor for each row of the opcode table, in its order, with the row's operands. What an event measures or
decides outside the block's own rules is an operand. -/
namespace Sys2Proof

open Sys2Proof.Machine

/-- A command (Scope and conventions; spec/opcode_table.json). -/
inductive Instr where
  /-- POWER_ON (R388). -/
  | powerOn (pins : Fin 8)
  /-- RAMP_DONE (R388). -/
  | rampDone (u : BringUp)
  /-- IMAGE_VERIFY_DONE (R412). -/
  | imageVerifyDone
  /-- PLL_LOCK_DONE (R388). -/
  | pllLockDone (u : BringUp)
  /-- LINK_TRAINING_DONE (R388). -/
  | linkTrainingDone (u : BringUp)
  /-- STARTUP_TEST_DONE (R400). -/
  | startupTestDone (u : BringUp)
  /-- SUBSTITUTION_DONE (R403). -/
  | substitutionDone
  /-- MEMORY_TRAINING_DONE (R388). -/
  | memoryTrainingDone (u : BringUp)
  /-- QUALIFICATION_DONE (R388). -/
  | qualificationDone (u : BringUp)
  /-- BRINGUP_BUDGET_EXPIRY (R388). -/
  | bringupBudgetExpiry (u : BringUp)
  /-- OPTICAL_WAIT_DONE (R389). -/
  | opticalWaitDone
  /-- PACKET_ARRIVAL (R28). -/
  | packetArrival (p : PktIn)
  /-- ROUTE_TABLE_LOAD (R31). -/
  | routeTableLoad (site : Fin 88) (ver : Nat) (hops : List (Fin 6 × Fin 4))
  /-- ROUTES_READY (R281). -/
  | routesReady (slot : BitVec 50)
  /-- COMMIT_WITHDRAW (R55). -/
  | commitWithdraw (slot : BitVec 50)
  /-- ROUTE_COMMIT (R31). -/
  | routeCommit
  /-- ROUTERS_EMPTY (R63). -/
  | routersEmpty (site : Fin 88)
  /-- PLL_STOP (R63). -/
  | pllStop (site : Fin 88)
  /-- RILL_MESSAGE (R38). -/
  | rillMessage (m : Nat) (got : Option (List Word))
  /-- SLOT_BOUNDARY (R40). -/
  | slotBoundary (overs : List (Fin 64))
  /-- SHADOW_LATCH (R56). -/
  | shadowLatch
  /-- TIDE_FRAME (R43). -/
  | tideFrame (syms : List TideSym) (capture : BitVec 64)
  /-- TIDE_EDGE_LOSS (R46). -/
  | tideEdgeLoss
  /-- FREQUENCY_WINDOW (R46). -/
  | frequencyWindow (tidein : Bool) (ticks : Nat)
  /-- TIDE_MESSAGE_ABSENT (R46). -/
  | tideMessageAbsent
  /-- INPUT_QUALIFIED (R46). -/
  | inputQualified (tidein : Bool)
  /-- ACQUIRE_TIMEOUT (R47). -/
  | acquireTimeout
  /-- SRC_SEL_WRITE (R496). -/
  | srcSelWrite (x : RegIn)
  /-- SRC_SEL_APPLY (R496). -/
  | srcSelApply
  /-- REBASE_WRITE (R50). -/
  | rebaseWrite (x : RegIn)
  /-- REBASE_APPLY (R50). -/
  | rebaseApply
  /-- COUNT_ADOPT (R51). -/
  | countAdopt
  /-- SLOT_MARKER_SEND (R53). -/
  | slotMarkerSend
  /-- SLOT_MARKER (R53). -/
  | slotMarker (ep : Fin 164) (slot : BitVec 50) (len : Nat)
  /-- PLL_LOCK_LOSS (R62). -/
  | pllLockLoss (site : Fin 88)
  /-- DIE_REENABLE (R64). -/
  | dieReenable (site : Fin 88)
  /-- DIE_RELOCK_DONE (R64). -/
  | dieRelockDone (site : Fin 88)
  /-- DIE_RELOCK_MISS (R64). -/
  | dieRelockMiss (site : Fin 88)
  /-- LDN (R102). -/
  | ldn (l : Fin 1024000) (th : Fin 4) (rt rb : Fin 32) (sz : Fin 4) (sxb : Bool) (off : BitVec 12) (e : Ecc)
  /-- STN (R68). -/
  | stn (l : Fin 1024000) (th : Fin 4) (rt rb : Fin 32) (sz : Fin 4) (off : BitVec 12) (e : Ecc)
  /-- VLD (R102). -/
  | vld (l : Fin 1024000) (th : Fin 4) (vt : Fin 8) (rb : Fin 32) (rel : Bool) (off : BitVec 10) (e : Ecc)
  /-- VST (R102). -/
  | vst (l : Fin 1024000) (th : Fin 4) (vt : Fin 8) (rb : Fin 32) (off : BitVec 10) (e : Ecc)
  /-- FETCH (R92). -/
  | fetch (l : Fin 1024000) (th : Fin 4) (ra rl : Fin 32) (len : Fin 8) (cnt : Fin 16) (e : Ecc)
  /-- SEND (R92). -/
  | send (l : Fin 1024000) (th : Fin 4) (ra rl : Fin 32) (len : Fin 8) (cnt : Fin 16) (rel : Bool) (e : Ecc)
  /-- LDX (R92). -/
  | ldx (l : Fin 1024000) (th : Fin 4) (rt ra : Fin 32) (e : Ecc)
  /-- TWAIT (R79). -/
  | twait (l : Fin 1024000) (th : Fin 4) (rs : Fin 32) (n : Fin 16) (slot : BitVec 8) (e : Ecc)
  /-- TWAITE (R79). -/
  | twaite (l : Fin 1024000) (th : Fin 4) (rs : Fin 32) (n : Fin 16) (slot : BitVec 8) (e : Ecc)
  /-- TFULL (R79). -/
  | tfull (l : Fin 1024000) (th : Fin 4) (rs rc : Fin 32) (n : Fin 16) (slot : BitVec 8) (e : Ecc)
  /-- TREL (R79). -/
  | trel (l : Fin 1024000) (th : Fin 4) (rs : Fin 32) (n : Fin 16) (slot : BitVec 8) (e : Ecc)
  /-- TPIN (R79). -/
  | tpin (l : Fin 1024000) (th : Fin 4) (rs : Fin 32) (n : Fin 16) (slot : BitVec 8) (e : Ecc)
  /-- TUNPIN (R79). -/
  | tunpin (l : Fin 1024000) (th : Fin 4) (rs : Fin 32) (n : Fin 16) (slot : BitVec 8) (e : Ecc)
  /-- TSTAT (R79). -/
  | tstat (l : Fin 1024000) (th : Fin 4) (rs rc : Fin 32) (n : Fin 16) (slot : BitVec 8) (e : Ecc)
  /-- AMM (R99). -/
  | amm (l : Fin 1024000) (th : Fin 4) (ra rb rk : Fin 32) (fmt : Fin 8) (acc : Bool) (bank : Fin 2) (relA relB : Bool) (e : Ecc)
  /-- AOUT (R99). -/
  | aout (l : Fin 1024000) (th : Fin 4) (rd rc : Fin 32) (ofmt : Fin 4) (pub : Bool) (bank : Fin 2) (e : Ecc)
  /-- TRAIL (R144). -/
  | trail (l : Fin 1024000) (th : Fin 4) (n : Fin 32) (e : Ecc)
  /-- HALT (R88). -/
  | halt (l : Fin 1024000) (th : Fin 4) (e : Ecc)
  /-- VECTOR_ARITH (R94). -/
  | vectorArith (l : Fin 1024000) (th : Fin 4) (op : VOp) (half : Bool) (vd va vb vc : Fin 8) (e : Ecc)
  /-- VECTOR_CONVERT (R95). -/
  | vectorConvert (l : Fin 1024000) (th : Fin 4) (cv : VConv) (sr : Bool) (vd va : Fin 8) (e : Ecc)
  /-- BRANCH (R88). -/
  | branch (l : Fin 1024000) (th : Fin 4) (taken : Bool) (target : BitVec 16) (e : Ecc)
  /-- INTEGER_OP (R105). -/
  | integerOp (l : Fin 1024000) (th : Fin 4) (op : Option (BitVec 8)) (rt ra rb : Fin 32) (imm : Word) (e : Ecc)
  /-- ACCESS_WAKE (R75). -/
  | accessWake (l : Fin 1024000) (w : Wake) (e : Ecc)
  /-- WAIT_LIMIT (R77). -/
  | waitLimit (w : Waiter)
  /-- FILL_ARRIVAL (R93). -/
  | fillArrival (m : Nat) (l : Fin 1024000) (alter : Option Bytes)
  /-- ECC_WRITEBACK (R83). -/
  | eccWriteback (l : Fin 1024000)
  /-- LDX_RETURN (R92). -/
  | ldxReturn (m : Nat)
  /-- REMOTE_READ_SERVE (R76). -/
  | remoteReadServe (m : Nat) (e : Ecc)
  /-- REMOTE_REFUSAL (R89). -/
  | remoteRefusal (m : Nat)
  /-- SEND_DELIVER (R92). -/
  | sendDeliver (m : Nat) (e : Ecc)
  /-- SEND_DONE (R93). -/
  | sendDone (l : Fin 1024000) (op : Nat)
  /-- SCRUB_COMMAND (R81). -/
  | scrubCommand (l : Fin 1024000) (slots : List (Fin 255)) (owner : Fin 2048)
  /-- CELL_KILL (R81). -/
  | cellKill (l : Fin 1024000) (c : Fin 1024)
  /-- SCRUB_DONE (R80). -/
  | scrubDone (l : Fin 1024000)
  /-- PATROL_READ (R84). -/
  | patrolRead (l : Fin 1024000) (e : Ecc)
  /-- SLOT_SELECTION (R87). -/
  | slotSelection (cl : Fin 64000) (slot : BitVec 50) (picks : List (Fin 1024 × Option (Fin 16))) (ps : List Contrib)
  /-- SLOT_PROGRAM_START (R58). -/
  | slotProgramStart (l : Fin 1024000)
  /-- AMM_STREAM_START (R99). -/
  | ammStreamStart (l : Fin 1024000) (at_ : Option (Fin 1024000 × BitVec 16)) (e : Ecc)
  /-- BANK_READY (R99). -/
  | bankReady (l : Fin 1024000) (bank : Fin 2)
  /-- AOUT_WRITE (R99). -/
  | aoutWrite (l : Fin 1024000)
  /-- CHK_RECORD (R154). -/
  | chkRecord (u : Fin 256) (ctx : Fin 1024) (prof : Fin 16) (append last close : Bool) (data : Bytes)
  /-- CHK_SLICE_SAVE (R156). -/
  | chkSliceSave (u : Fin 256) (save : Nat)
  /-- CHK_SLICE_RESTORE (R156). -/
  | chkSliceRestore (u : Fin 256) (ctx : Fin 1024) (save : Nat)
  /-- PROFILE_VALIDATE (R158). -/
  | profileValidate (x : RegIn)
  /-- UNIT_RUN_APPLY (R158). -/
  | unitRunApply (x : RegIn)
  /-- PASS_RECORD (R160). -/
  | passRecord (e : Fin 64) (rec : Bytes)
  /-- PASS_OWNER_SCRUB (R170). -/
  | passOwnerScrub (e : Fin 64) (pass : Nat)
  /-- PASS_START (R167). -/
  | passStart (e : Fin 64) (pass : Nat)
  /-- SOURCE_READ_ISSUE (R168). -/
  | sourceReadIssue (e : Fin 64) (pass src : Nat)
  /-- MERGE_WINDOW_CLOSE (R173). -/
  | mergeWindowClose (e : Fin 64) (m : Nat)
  /-- SOURCE_READ_RETURN (R178). -/
  | sourceReadReturn (e : Fin 64) (pass src : Nat) (alter : Option Bytes) (ecc : List (Nat × MemEcc))
  /-- DELIVERY_ISSUE (R169). -/
  | deliveryIssue (e : Fin 64) (pass out : Nat) (k : DelKey)
  /-- EPOCH_PROBE_ANSWER (R177). -/
  | epochProbeAnswer (e : Fin 64) (pass out : Nat) (k : DelKey)
  /-- LANDING_ACK (R169). -/
  | landingAck (e : Fin 64) (did : Nat)
  /-- PASS_END (R170). -/
  | passEnd (e : Fin 64) (pass : Nat)
  /-- EPOCH_WRITE_REPORT (R176). -/
  | epochWriteReport (e : Fin 64) (page : Nat)
  /-- PREFETCH_AGED (R176). -/
  | prefetchAged (e : Fin 64) (pass src : Nat)
  /-- REFETCH_REQUEST (R178). -/
  | refetchRequest (e : Fin 64) (m : Nat)
  /-- MEM_REQUEST (R196). -/
  | memRequest (q : MemIn)
  /-- MEM_SLOT_GRANT (R194). -/
  | memSlotGrant (stk : Fin 64)
  /-- MEM_ACCESS_SERVE (R195). -/
  | memAccessServe (stk : Fin 64) (bank : Fin 4096) (es : List MemEcc)
  /-- ROW_RETIRE_DONE (R190). -/
  | rowRetireDone (stk : Fin 64) (row : Nat) (ppr : Bool)
  /-- AGE_CAP_REACHED (R195). -/
  | ageCapReached (stk : Fin 64) (id : Nat)
  /-- MEM_PATROL (R191). -/
  | memPatrol (stk : Fin 64) (e : MemEcc)
  /-- BANK_REFRESH (R192). -/
  | bankRefresh (stk : Fin 64) (bank : Fin 4096)
  /-- RFM_ISSUE (R192). -/
  | rfmIssue (stk : Fin 64) (bank : Fin 4096)
  /-- CONC_WINDOW_END (R200). -/
  | concWindowEnd (stk : Fin 64)
  /-- SM_BATCH_ISSUE (R202). -/
  | smBatchIssue (stk : Fin 64) (bank : Fin 4096)
  /-- RETRAIN_REQUEST (R203). -/
  | retrainRequest (x : RegIn)
  /-- RETRAIN_START (R203). -/
  | retrainStart (stk : Fin 64)
  /-- RETRAIN_DONE (R203). -/
  | retrainDone (stk : Fin 64) (ok : Bool)
  /-- WINDOW_VALIDATE (R205). -/
  | windowValidate (x : RegIn)
  /-- WINDOW_CLOSE (R205). -/
  | windowClose (w : Fin 64)
  /-- EXPORT_VALIDATE (R213). -/
  | exportValidate (x : RegIn)
  /-- RSV_REQUEST_ISSUE (R206). -/
  | rsvRequestIssue (agent : Fin 64) (i : Nat)
  /-- READ (R213). -/
  | read (e : Fin 64) (i : Nat) (ecc : List (Nat × MemEcc))
  /-- READ_DATA (R208). -/
  | readData (e : Fin 64) (i : Nat)
  /-- WRITE (R213). -/
  | write (e : Fin 64) (i : Nat)
  /-- WRITE_ACK (R210). -/
  | writeAck (e : Fin 64) (i : Nat)
  /-- FLUSH (R213). -/
  | flush (e : Fin 64) (i : Nat)
  /-- FLUSH_ACK (R210). -/
  | flushAck (e : Fin 64) (i : Nat)
  /-- QUERY (R208). -/
  | query (e : Fin 64) (i : Nat)
  /-- QUERY_DATA (R208). -/
  | queryData (e : Fin 64) (i : Nat)
  /-- ABORT (R208). -/
  | abort (e : Fin 64) (i : Nat)
  /-- RSV_TIMEOUT (R211). -/
  | rsvTimeout (agent : Fin 64) (slot : Fin 1024)
  /-- RSV_BUSY_RETRY (R209). -/
  | rsvBusyRetry (agent : Fin 64) (slot : Fin 1024)
  /-- CXL_IO_COMPLETION (R214). -/
  | cxlIoCompletion (agent : Fin 64) (slot : Fin 1024) (ok : Bool) (data : Bytes)
  /-- SWEEP_START (R228). -/
  | sweepStart (ctx : Fin 1024)
  /-- GRANULE_PROCESS (R229). -/
  | granuleProcess (e : Fin 64) (ctx : Fin 1024) (g : Nat) (flaky : List Nat) (fix : List TileFix) (ecc : List (Nat × MemEcc))
  /-- SWEEP_COMPLETE (R232). -/
  | sweepComplete (e : Fin 64) (ctx : Fin 1024)
  /-- SHARD_NOTICE (R376). -/
  | shardNotice (e : Fin 64) (i : Nat)
  /-- SHARD_FETCH_TILE (R238). -/
  | shardFetchTile (ctx : Fin 1024) (id : Nat) (k : Option (Fin 2))
  /-- SHARD_FETCH_VERIFY (R238). -/
  | shardFetchVerify (ctx : Fin 1024) (id : Nat) (k : Option (Fin 2))
  /-- AUDIT_START (R240). -/
  | auditStart (e : Fin 64) (fix : List TileFix)
  /-- AUDIT_REPORT (R240). -/
  | auditReport (ctx : Fin 1024) (id : Nat) (k : Fin 2) (digest : Bytes)
  /-- STREAM_BUFFER_SPACE (R245). -/
  | streamBufferSpace (ctx : Fin 1024)
  /-- STREAM_STALL_LIMIT (R245). -/
  | streamStallLimit (e : Fin 64) (ctx : Fin 1024)
  /-- STREAM_EXPORT (R241). -/
  | streamExport (ctx : Fin 1024)
  /-- WINDOW_RECORD (R254). -/
  | windowRecord (e : Fin 64) (rec : Bytes)
  /-- CONTRIB_SEND_ARRIVAL (R249). -/
  | contribSendArrival (a : EstArr)
  /-- CONTRIB (R375). -/
  | contrib (e : Fin 64) (i : Nat)
  /-- CONTRIB_ACCEPT (R258). -/
  | contribAccept (e : Fin 64) (hit : AccHit) (ecc : List (Nat × MemEcc))
  /-- SEND_BY_BOUNDARY (R261). -/
  | sendByBoundary (e : Fin 64) (ctx : Fin 1024) (step : Nat)
  /-- WINDOW_DEADLINE (R267). -/
  | windowDeadline (e : Fin 64) (ctx : Fin 1024) (step : Nat)
  /-- HEALTH (R375). -/
  | health (b : HealthBy)
  /-- OUTCOME_REPORT (R272). -/
  | outcomeReport (ctx : Fin 1024) (step : Nat) (node : BitVec 16) (eng : Fin 64) (ok : Bool)
  /-- LEAD_FANOUT (R272). -/
  | leadFanout (ctx : Fin 1024) (step : Nat)
  /-- REPORT_TIMEOUT (R272). -/
  | reportTimeout (ctx : Fin 1024) (step : Nat)
  /-- VERDICT_TIMEOUT (R271). -/
  | verdictTimeout (ctx : Fin 1024) (step : Nat)
  /-- SWEEP_NAMING (R267). -/
  | sweepNaming (ctx : Fin 1024)
  /-- DIVERGENCE_NOTICE (R274). -/
  | divergenceNotice (ctx : Fin 1024)
  /-- REPLAN (R296). -/
  | replan (ctx : Fin 1024) (a : Admission)
  /-- MOVE (R297). -/
  | move (ctx : Fin 1024)
  /-- MOVE_COPY_DONE (R297). -/
  | moveCopyDone (ctx : Fin 1024)
  /-- SWITCHOFF_NOTICE (R298). -/
  | switchoffNotice
  /-- MIGRATE_LIMIT (R298). -/
  | migrateLimit (site : Fin 88)
  /-- FREEZE (R299). -/
  | freeze
  /-- FREEZE_STOP (R299). -/
  | freezeStop (site : Fin 88)
  /-- DRAIN_DONE (R299). -/
  | drainDone (site : Fin 88) (plans : List (Fin 1024 × Plan))
  /-- RESKEW_START (R300). -/
  | reskewStart (ctx : Fin 1024) (tensor : Nat) (src dst : BitVec 48) (bytes : Nat)
  /-- RESKEW_DONE (R300). -/
  | reskewDone (ctx : Fin 1024)
  /-- DOORBELL_SNOOP (R309). -/
  | doorbellSnoop (j : Fin 8) (line : Bytes)
  /-- DOORBELL_POLL (R309). -/
  | doorbellPoll (area : Bytes)
  /-- DESCRIPTOR_FETCH_DONE (R309). -/
  | descriptorFetchDone (q : Fin 64) (data : Bytes)
  /-- DESCRIPTOR_FETCH_TIMEOUT (R335). -/
  | descriptorFetchTimeout (q : Fin 64)
  /-- ADMIT (R314). -/
  | admitCtx (q : Fin 64)
  /-- ADMIT_COMPLETE (R314). -/
  | admitComplete (ctx : Fin 1024) (a : Admission)
  /-- STEP (R317). -/
  | step (q : Fin 64)
  /-- BATCH_READ_DONE (R318). -/
  | batchReadDone (ctx : Fin 1024) (step : Word) (data : Bytes)
  /-- COPY (R320). -/
  | copy (q : Fin 64)
  /-- COPY_COMPLETE (R320). -/
  | copyComplete (ctx : Option (Fin 1024)) (data : Bytes)
  /-- RESUME (R321). -/
  | resume (q : Fin 64) (a : Admission)
  /-- KILL (R332). -/
  | kill (q : Fin 64)
  /-- DEBUG_READ (R323). -/
  | debugRead (q : Fin 64)
  /-- COMPLETION_WRITE (R311). -/
  | completionWrite (q : Fin 64)
  /-- COMPLETION_WRITE_TIMEOUT (R335). -/
  | completionWriteTimeout (q : Fin 64)
  /-- IRQ_COALESCE_TIMER (R311). -/
  | irqCoalesceTimer (q : Fin 64)
  /-- ROUND_START (R328). -/
  | roundStart (ctx : Fin 1024)
  /-- STEP_START (R327). -/
  | stepStart (ctx : Fin 1024)
  /-- BACKWARD_END (R327). -/
  | backwardEnd (ctx : Fin 1024)
  /-- STEP_COMPLETE (R327). -/
  | stepComplete (ctx : Fin 1024)
  /-- ROLLBACK (R330). -/
  | rollback (ctx : Fin 1024)
  /-- KILL_BOUNDARY (R332). -/
  | killBoundary (ctx : Fin 1024)
  /-- KILL_COMPLETE (R332). -/
  | killComplete (ctx : Fin 1024)
  /-- STREAM_CONTROL_UPDATE (R334). -/
  | streamControlUpdate (ctx : Fin 1024) (consumed : BitVec 64)
  /-- QUEUE_PAIR_ENABLE (R471). -/
  | queuePairEnable (x : RegIn)
  /-- QUEUE_PAIR_DISABLE (R335). -/
  | queuePairDisable (x : RegIn)
  /-- PORT_RETURN (R351). -/
  | portReturn
  /-- FLR (R344). -/
  | flr
  /-- PERST (R490). -/
  | perst
  /-- D3HOT_ENTRY (R344). -/
  | d3hotEntry
  /-- D0_RETURN (R344). -/
  | d0Return
  /-- LINK_UP (R339). -/
  | linkUp (rate : Fin 4) (width : Fin 3) (lopt cxl : Bool)
  /-- LINK_RETRAIN (R361). -/
  | linkRetrain (x : RegIn)
  /-- HOST_MEM_READ (R347). -/
  | hostMemRead (tag : Nat) (addr : BitVec 52) (grant : Option Bool)
  /-- HOST_MEM_WRITE (R347). -/
  | hostMemWrite (tag : Nat) (addr : BitVec 52) (off : Fin 64) (data : Bytes)
  /-- BISNP_RESPONSE (R348). -/
  | bisnpResponse (line : Nat) (dirty : Option Bytes)
  /-- BI_TIMEOUT (R349). -/
  | biTimeout (line : Nat)
  /-- HOST_SNOOP (R345). -/
  | hostSnoop (kind : Fin 3) (line : Nat)
  /-- HDM_COMMIT (R346). -/
  | hdmCommit (commit : Bool) (base size ways : Nat)
  /-- DOE_REQUEST (R350). -/
  | doeRequest (vendor : BitVec 16) (typ : BitVec 8) (obj : Bytes)
  /-- DOE_TIMEOUT (R350). -/
  | doeTimeout
  /-- CLAIM (R355). -/
  | claim (x : OwnIn)
  /-- RENEW (R356). -/
  | renew (x : OwnIn)
  /-- HANDOVER (R357). -/
  | handover (x : OwnIn)
  /-- RELEASE (R357). -/
  | release (x : OwnIn)
  /-- OWNERSHIP_QUERY (R354). -/
  | ownershipQuery (x : OwnIn)
  /-- ELECTION_CLOSE (R355). -/
  | electionClose
  /-- LEASE_EXPIRY (R356). -/
  | leaseExpiry
  /-- MCTP_ASSEMBLY_TIMEOUT (R359). -/
  | mctpAssemblyTimeout
  /-- FLIT_RECEIVE (R368). -/
  | flitReceive (e : Fin 64) (l : Fin 16) (f : FlitIn)
  /-- REPLAY_TIMEOUT (R368). -/
  | replayTimeout (e : Fin 64) (l : Fin 16)
  /-- OPEN (R370). -/
  | openStream (e : Fin 64) (i : Nat)
  /-- GRANT (R370). -/
  | grant (e : Fin 64) (i : Nat)
  /-- OPEN_RETRY (R370). -/
  | openRetry (e : Fin 64) (k : Nat)
  /-- CREDIT (R370). -/
  | credit (e : Fin 64) (i : Nat)
  /-- CREDIT_RETURN_TIMER (R370). -/
  | creditReturnTimer (e : Fin 64)
  /-- CLOSE (R374). -/
  | close (e : Fin 64) (i : Nat)
  /-- REG_READ (R377). -/
  | regRead (x : RegIn)
  /-- REG_WRITE (R467). -/
  | regWrite (x : RegIn)
  /-- LANE_CLOSE (R372). -/
  | laneClose (e : Fin 64) (l : Fin 16) (last : BitVec 12)
  /-- LINK_HOLD_EXPIRY (R373). -/
  | linkHoldExpiry (e : Fin 64)
  /-- LANE_ENABLE (R379). -/
  | laneEnable (e : Fin 64) (l : Fin 16)
  /-- LANE_WAIT_EXPIRY (R379). -/
  | laneWaitExpiry (e : Fin 64) (l : Fin 16)
  /-- DETECT_DONE (R379). -/
  | detectDone (e : Fin 64) (l : Fin 16) (rx : BitVec 16)
  /-- TRAIN_DONE (R379). -/
  | trainDone (e : Fin 64) (l : Fin 16)
  /-- RANGE_PROBE (R380). -/
  | rangeProbe (e : Fin 64) (l : Fin 16) (probe : Fin 1024) (turnaround : BitVec 32)
  /-- RANGE_DONE (R380). -/
  | rangeDone (e : Fin 64) (l : Fin 16) (rtt turn maxTurn answered ptx prx : Nat)
  /-- CAPS_DONE (R381). -/
  | capsDone (e : Fin 64) (l : Fin 16) (rec_ : Bytes)
  /-- QUALIFY_DONE (R382). -/
  | qualifyDone (e : Fin 64) (l : Fin 16) (corrected uncorrectable : Nat) (rxMin rxMax : BitVec 16) (remoteOk : Bool)
  /-- LANE_BUDGET_EXPIRY (R379). -/
  | laneBudgetExpiry (e : Fin 64) (l : Fin 16)
  /-- LANE_MONITOR (R383). -/
  | laneMonitor (e : Fin 64) (l : Fin 16) (corrected uncorrectable : Nat) (rx tx : BitVec 16) (dark : Bool)
  /-- RECAL (R383). -/
  | recal (x : RegIn)
  /-- LANE_DOWN_HOLD (R387). -/
  | laneDownHold (x : RegIn)
  /-- TIDE_FLIT_SEND (R378). -/
  | tideFlitSend
  /-- TIDE_FLIT_RECEIVE (R378). -/
  | tideFlitReceive (e : Fin 64) (l : Fin 16) (flit : Bytes) (stamp : Nat)
  /-- BOOTCFG_COMMIT (R391). -/
  | bootcfgCommit (x : RegIn)
  /-- HOLE_MAP_DURABLE (R396). -/
  | holeMapDurable (ok : Bool)
  /-- SLICE_START (R401). -/
  | sliceStart (cl : Fin 64000)
  /-- SLICE_SAVE_DONE (R401). -/
  | sliceSaveDone (cl : Fin 64000)
  /-- SLICE_TEST_DONE (R401). -/
  | sliceTestDone (cl : Fin 64000) (bad : List (Fin 16))
  /-- SLICE_RESTORE_DONE (R401). -/
  | sliceRestoreDone (cl : Fin 64000)
  /-- SLICE_RELEASE (R401). -/
  | sliceRelease (cl : Fin 64000)
  /-- SLICE_ABANDON (R401). -/
  | sliceAbandon (cl : Fin 64000)
  /-- COVER_TIMEOUT (R401). -/
  | coverTimeout
  /-- DIE_TEST_REQUEST (R402). -/
  | dieTestRequest (x : TestIn)
  /-- DIE_TEST_DONE (R402). -/
  | dieTestDone (site : Fin 88) (u : BringUp)
  /-- RECOVER_REQUEST (R404). -/
  | recoverRequest (x : TestIn)
  /-- RECOVERY_STEP_END (R404). -/
  | recoveryStepEnd (reach : Fin 8) (ok : Bool) (u : BringUp)
  /-- RECOVERY_BUDGET_EXPIRY (R404). -/
  | recoveryBudgetExpiry (reach : Fin 8)
  /-- OBJECT_INSTALL (R415). -/
  | objectInstall (x : RegIn)
  /-- OBJECT_VERIFY_DONE (R410). -/
  | objectVerifyDone (stored : Bool)
  /-- IMAGE_ACTIVATE (R415). -/
  | imageActivate (sub : Fin 12)
  /-- IMAGE_RUNNING (R415). -/
  | imageRunning (sub : Fin 12)
  /-- IMAGE_START_TIMEOUT (R415). -/
  | imageStartTimeout (sub : Fin 12)
  /-- LICENCE_EFFECT (R416). -/
  | licenceEffect
  /-- REKEY_START (R421). -/
  | rekeyStart (x : RegIn)
  /-- REKEY_TREE_DONE (R421). -/
  | rekeyTreeDone (bad : Nat)
  /-- ATTEST_SIGNED (R423). -/
  | attestSigned (bad : Nat)
  /-- ATTEST_UNSIGNED (R422). -/
  | attestUnsigned
  /-- REKEY_REQUEST_READ (R422). -/
  | rekeyRequestRead
  /-- SCAN_ENTRY (R426). -/
  | scanEntry
  /-- CLEAR_DONE (R426). -/
  | clearDone
  /-- RECOVERY_LOADER_OBJECT (R412). -/
  | recoveryLoaderObject (obj : Bytes) (stored : Bool)
  /-- POWER_SEQUENCE_START (R444). -/
  | powerSequenceStart
  /-- COOLANT_WAIT_TIMEOUT (R444). -/
  | coolantWaitTimeout
  /-- SENSOR_SAMPLE (R434). -/
  | sensorSample (k : Sensor) (v : Int)
  /-- SENSOR_TIMEOUT (R434). -/
  | sensorTimeout (k : Sensor)
  /-- UNDERVOLTAGE (R434). -/
  | undervoltage (deep : Bool)
  /-- OVERVOLTAGE (R434). -/
  | overvoltage
  /-- OVERCURRENT (R434). -/
  | overcurrent (hard : Bool)
  /-- THROTTLE_RAISE (R432). -/
  | throttleRaise
  /-- THROTTLE_LOWER (R432). -/
  | throttleLower
  /-- HEAT_LEVEL_RISE (R435). -/
  | heatLevelRise (region : Fin 152)
  /-- HEAT_LEVEL_FALL (R435). -/
  | heatLevelFall (region : Fin 152)
  /-- HEAT_TRIP (R435). -/
  | heatTrip (region : Fin 152)
  /-- COOLANT_CONDITION (R436). -/
  | coolantCondition (row : Fin 6)
  /-- STACK_OVERHEAT (R437). -/
  | stackOverheat (stk : Fin 64)
  /-- STACK_COOLDOWN (R437). -/
  | stackCooldown (stk : Fin 64)
  /-- REGION_FAULT (R438). -/
  | regionFault (region : Fin 164) (value : Word)
  /-- SWITCHOFF_REQUEST (R439). -/
  | switchoffRequest (x : RegIn)
  /-- HEAT_REENABLE (R440). -/
  | heatReenable (site : Fin 88) (slot : BitVec 50)
  /-- REGION_ON_REQUEST (R440). -/
  | regionOnRequest (x : RegIn)
  /-- SHUTDOWN (R441). -/
  | shutdown (x : RegIn)
  /-- SHUTDOWN_COMPLETE (R441). -/
  | shutdownComplete
  /-- BUSBAR_LOSS (R441). -/
  | busbarLoss
  /-- ERROR_RAISE (R450). -/
  | errorRaise (unit : Fin 165) (block cls : Fin 19) (sev : Fin 6) (ctx : Option (Fin 1024)) (transient : Bool) (loc0 loc1 : BitVec 64) (detail : Word)
  /-- ERROR_FORWARD (R450). -/
  | errorForward (unit : Fin 165)
  /-- ERROR_DELIVER (R452). -/
  | errorDeliver
  /-- ERROR_ACK (R464). -/
  | errorAck (x : RegIn)
  /-- RING_ENABLE (R471). -/
  | ringEnable (x : RegIn)
  /-- ERROR_RECORD_QUERY (R456). -/
  | errorRecordQuery (body : Bytes)
  /-- TEL_DUMP (R461). -/
  | telDump (x : RegIn)
  /-- TEL_DUMP_DONE (R461). -/
  | telDumpDone
  /-- COUNT_READ_LATCH (R471). -/
  | countReadLatch (x : RegIn)
  /-- TEL_VALUE_READ (R471). -/
  | telValueRead (x : RegIn)
  /-- REGISTER_WRITE (R453). -/
  | registerWrite (x : RegIn)
  /-- CXL_IO_COMPLETION_TIMEOUT (R214). -/
  | cxlIoCompletionTimeout (agent : Fin 64) (slot : Fin 1024)
  /-- BATCH_READ_TIMEOUT (R335). -/
  | batchReadTimeout (ctx : Fin 1024) (step : Word)
  /-- PERST_RELEASE (R494). -/
  | perstRelease
  deriving DecidableEq, Repr

end Sys2Proof
end

