-- ==== Sys2Proof/Machine/LineCode.lean ====
section
/-! DEFINITION. The line of an optical lane (R364, R365): 257-bit blocks, the scrambler, RS(544,514) codewords. -/
namespace Sys2Proof.Machine

/-! ### GF(2^10) and the Reed-Solomon code (R364) -/

/-- A product in GF(2^10) under x^10 + x^3 + 1, the field of IEEE 802.3 clause 119 (PRESUMED, log 199). -/
def gfMul (a b : Nat) : Nat :=
  (List.range 10).foldl (fun r i =>
    let d := 2 * r
    let d := if d < 1024 then d else d ^^^ 0x409
    if bitN b (9 - i) then d ^^^ a else d) 0

/-- A power of the primitive element. -/
def gfExp (n : Nat) : Nat := (List.range (n % 1023)).foldl (fun r _ => gfMul r 2) 1

/-- A power by squaring, for inverses: a^1022 = 1/a. -/
def gfInv (a : Nat) : Nat := ((List.range 9).foldl (fun (p : Nat × Nat) _ => let q := gfMul p.1 p.1; (q, gfMul p.2 q)) (a, 1)).2

/-- The generator's coefficients below x^30, highest first: the product of x − α^j for j = 0 to 29. -/
def rsGen : List Nat :=
  ((List.range 30).foldl (fun (g : List Nat) j => List.zipWith (· ^^^ ·) (g ++ [0]) (0 :: g.map (gfMul (gfExp j)))) [1]).drop 1

/-- The 30 check symbols of a message, first symbol first. -/
def rsParity (g : List Nat) (msg : List Nat) : List Nat :=
  msg.foldl (fun (p : List Nat) m =>
    let f := m ^^^ p.headD 0
    List.zipWith (· ^^^ ·) (p.drop 1 ++ [0]) (g.map (gfMul f))) (List.replicate 30 0)

/-- A polynomial's value, highest coefficient first. -/
def gfEval (p : List Nat) (x : Nat) : Nat := p.foldl (fun r c => gfMul r x ^^^ c) 0

/-- Berlekamp and Massey: the error locator of the syndromes, lowest coefficient first, with its length. -/
structure BmState where
  c : List Nat := [1]
  b : List Nat := [1]
  len : Nat := 0
  shift : Nat := 1
  last : Nat := 1

/-- Sum of polynomials of any lengths, lowest coefficient first. -/
def gfAdd : List Nat → List Nat → List Nat
  | [], q => q
  | p, [] => p
  | a :: p, b :: q => (a ^^^ b) :: gfAdd p q

def bmStep (syn : List Nat) (z : BmState) (n : Nat) : BmState :=
  let d := (List.range (z.len + 1)).foldl (fun a i => a ^^^ gfMul (z.c.getD i 0) (syn.getD (n - i) 0)) 0
  if d == 0 then { z with shift := z.shift + 1 }
  else
    let k := gfMul d (gfInv z.last)
    let c := gfAdd z.c (List.replicate z.shift 0 ++ z.b.map (gfMul k))
    if 2 * z.len ≤ n then { c := c, b := z.c, len := n + 1 - z.len, shift := 1, last := d } else { z with c := c, shift := z.shift + 1 }

/-- A received codeword of 544 symbols, first symbol first, corrected, with the number of symbols corrected: up to 15; none where it is
uncorrectable. -/
def rsDecode (r : List Nat) : Option (List Nat × Nat) :=
  let syn := (List.range 30).map fun j => gfEval r (gfExp j)
  if syn.all (· == 0) then some (r, 0)
  else
    let z := (List.range 30).foldl (bmStep syn) {}
    let om := ((List.range 30).map fun n => (List.range (n + 1)).foldl (fun a i => a ^^^ gfMul (z.c.getD i 0) (syn.getD (n - i) 0)) 0)
    let at_ (p : List Nat) (x : Nat) : Nat := gfEval p.reverse x
    -- symbol k of the word is the coefficient of degree 543 − k
    let errs := (List.range 544).filterMap fun k =>
      let inv := gfExp (1023 - (543 - k))
      if at_ z.c inv != 0 then none
      else
        let der := (List.range z.len).map fun i => if i % 2 == 0 then z.c.getD (i + 1) 0 else 0
        some (k, gfMul (gfExp (543 - k)) (gfMul (at_ (om.take z.len) inv) (gfInv (at_ der inv))))
    if 15 < z.len || errs.length != z.len then none
    else some ((List.range 544).map fun k => r.getD k 0 ^^^ (((errs.find? (·.1 == k)).map (·.2)).getD 0), errs.length)

/-! ### Blocks (R364, R365) -/

/-- The line bits that the scrambler 1 + x^39 + x^58 makes of `n` bits, in turns of at most 39; `st`: the last 58 line bits, the newest at
the top. -/
def scramble (desc : Bool) : Nat → Nat → Nat → Nat → Nat × Nat
  | 0, st, _, _ => (0, st)
  | k + 1, st, n, b =>
    let m := min n 39
    let out := (b ^^^ (st / 2 ^ 19) ^^^ st) % 2 ^ m
    let st' := (st + (if desc then b % 2 ^ m else out) * 2 ^ 58) / 2 ^ m
    let r := scramble desc k st' (n - m) (b / 2 ^ m)
    (out + 2 ^ m * r.1, r.2)

/-- A block leaves: the control bit stays clear, the 256 data bits are scrambled. -/
def blockOut (st : Nat) (ctl : Bool) (d : Nat) : Nat × Nat :=
  let (b, st) := scramble false 7 st 256 d
  (b2n ctl + 2 * b, st)

/-- A block arrives: control bit, data bits, scrambler state. -/
def blockIn (st : Nat) (b : Nat) : Bool × Nat × Nat :=
  let (d, st) := scramble true 7 st 256 (b / 2)
  (bitN b 0, d, st)

/-- A codeword of 20 blocks: 514 symbols of ten bits and their check symbols, the first bit of the line lowest. -/
def codeword (blocks : List Nat) : Nat :=
  let m := blocks.foldr (fun b a => b + 2 ^ 257 * a) 0
  let syms := (List.range 514).map fun i => bitsN m (10 * i + 9) (10 * i)
  (syms ++ rsParity rsGen syms).foldr (fun y a => y + 1024 * a) 0

/-- The blocks of a received codeword after correction; of an uncorrectable one, as they came. -/
def blocksOf (w : Nat) : List Nat :=
  let syms := (List.range 544).map fun i => bitsN w (10 * i + 9) (10 * i)
  let syms := match rsDecode syms with | some (l, _) => l | none => syms
  let m := (syms.take 514).foldr (fun y a => y + 1024 * a) 0
  (List.range 20).map fun i => bitsN m (257 * i + 256) (257 * i)

/-- The codeword that carries a flit: its eight blocks follow one another, idle blocks fill the rest, and every 1,024th codeword begins
with an alignment block; `n` codewords have left before it (DESIGN CHOICE, log 199). -/
def flitWord (n st : Nat) (flit : Bytes) : Nat × Nat :=
  let data := (List.range 8).map fun i => (false, leField flit (32 * i) 32)
  let rest := (List.range (if n % 1024 == 0 then 11 else 12)).map fun i => (true, (Config.idleBlock (20 * n + i)).toNat)
  let go := (data ++ rest).foldl (fun (a : List Nat × Nat) b => let (w, st) := blockOut a.2 b.1 b.2; (a.1 ++ [w], st))
  if n % 1024 == 0 then
    -- the pattern is fixed on the line
    let al := 1 + 2 * Config.alignBlock.toNat
    let r := go ([al], (st + Config.alignBlock.toNat * 2 ^ 58) / 2 ^ 256)
    (codeword r.1, r.2)
  else
    let r := go ([], st)
    (codeword r.1, r.2)

/-- The data blocks of received codewords, idle blocks deleted; the scrambler state after them. -/
def dataBlocks (st : Nat) (ws : List Nat) : List Nat × Nat :=
  (ws.flatMap blocksOf).foldl (fun (a : List Nat × Nat) b =>
    let (ctl, d, st) := blockIn a.2 b
    (if ctl then a.1 else a.1 ++ [d], st)) ([], st)

/-- Flits of eight blocks each, and the blocks of one in progress. -/
def flitsOf : Nat → List Nat → List Bytes × List Nat
  | 0, l => ([], l)
  | n + 1, l =>
    if l.length < 8 then ([], l)
    else
      let r := flitsOf n (l.drop 8)
      ((l.take 8).flatMap (natLE 32) :: r.1, r.2)

end Sys2Proof.Machine
end

