-- ==== Sys2Proof/Machine/State.lean ====
section
/-! DEFINITION. The state of the block, its faults and refusals, and reset. -/
namespace Sys2Proof.Machine

/-- Why a step stops with a fault. -/
inductive Fault where
  /-- Raised by a command whose list operand has not the length its layout fixes: no event of the hardware is spelled by
  it. Safe: the machine goes on only with well-formed commands. -/
  | illFormed
  deriving DecidableEq, Repr

/-- Why a step is refused. -/
inductive Refusal where
  /-- Raised by an arm of `exec` that has no meaning yet, with the command's mnemonic. Safe. -/
  | notModelled (mnemonic : String)
  deriving DecidableEq, Repr

/-- The block. -/
structure State where
  /-- The commands that wait, first in, first out. -/
  pending : List Instr := []
  /-- The local oscillator's ticks, 150 MHz (R48). -/
  now : Nat := 0
  /-- What has left the block, newest first: the model's own record of its outputs. -/
  out : List Out := []
  /-- The model's own counter of free values drawn. -/
  free : Nat := 0
  /-- The variant in force: true for Full (R2). -/
  full : Bool := false
  err : Err := {}
  tel : Tel := {}
  regs : Regs := {}
  net : Net := {}
  tide : Tide := {}
  fly : Tab Msg := []
  flyNext : Nat := 0
  cells : Tab Cell := []
  chk : Chk := {}
  ctxs : Tab Ctx := []
  slc : Slc := {}
  frs : Tab Frs := []
  mem : Mem := {}
  rsv : Rsv := {}
  csn : Csn := {}
  est : Est := {}
  edy : Edy := {}
  wsh : Wsh := {}
  hst : Hst := {}
  own : Own := {}
  bst : Bst := {}
  hdw : Hdw := {}
  lev : Lev := {}
  deriving DecidableEq, Repr

/-- The module as it leaves the factory, without supply: no register written (so each reads as its reset value), the fast tier zero,
no counter counted, banks A holding the factory images (R413), the queue empty. Bring-up begins with POWER_SEQUENCE_START and POWER_ON. -/
def State.reset : State :=
  { hdw := { banks := (List.range 11).map fun k => (2 * (k + 1), Config.factoryImage (k + 1)) } }

end Sys2Proof.Machine
end

