-- ==== Sys2Proof/Machine/Geometry.lean ====
section
/-! DEFINITION. Where everything sits and how it is addressed: the site grid, ring positions, cell addresses, stitch edges,
availability (R13 to R36), memory space (R182, R186), power regions (R430). -/
namespace Sys2Proof.Machine

/-! ### The site grid (R13, R14) -/

/-- R14: the site index 11 × reach + site at each grid position, row by row; 99 where absent. -/
def siteGrid : List (List Nat) :=
  [[99, 99, 0, 1, 2, 13, 12, 11, 99, 99],
   [99, 10, 3, 4, 5, 16, 15, 14, 21, 99],
   [77, 87, 82, 6, 7, 18, 17, 27, 32, 22],
   [78, 80, 83, 8, 9, 20, 19, 28, 25, 23],
   [79, 81, 84, 85, 86, 31, 30, 29, 26, 24],
   [68, 70, 73, 74, 75, 42, 41, 40, 37, 35],
   [67, 69, 72, 63, 64, 53, 52, 39, 36, 34],
   [66, 76, 71, 61, 62, 51, 50, 38, 43, 33],
   [99, 65, 58, 59, 60, 49, 48, 47, 54, 99],
   [99, 99, 55, 56, 57, 46, 45, 44, 99, 99]]

/-- The site at a grid position, if one is present. -/
def siteAt (r c : Nat) : Option Nat :=
  match (siteGrid.getD r []).getD c 99 with
  | 99 => none
  | s => some s

/-- Every grid position with its site. -/
def gridCells : List (Nat × Nat × Nat) :=
  (List.range 10).flatMap fun r => (List.range 10).filterMap fun c => (siteAt r c).map fun s => (s, r, c)

/-- The grid position of a site. -/
def sitePos (s : Nat) : Nat × Nat :=
  match gridCells.find? (·.1 == s) with
  | some (_, r, c) => (r, c)
  | none => (10, 10)

/-- Reach and site number of a site index. -/
def siteReach (s : Nat) : Nat := s / 11
def siteNum (s : Nat) : Nat := s % 11

/-- Whether a site is its reach's oxbow (R14). -/
def isOxbow (s : Nat) : Bool := siteNum s == 10

/-- Set A reaches face a horizontal edge of the grid (R14). -/
def setA (r : Nat) : Bool := r == 0 || r == 1 || r == 4 || r == 5

/-- The site beyond an edge of a site: 0 up, 1 right, 2 down, 3 left. -/
def siteBeyond (s edge : Nat) : Option Nat :=
  let (r, c) := sitePos s
  match edge with
  | 0 => if r == 0 then none else siteAt (r - 1) c
  | 1 => siteAt r (c + 1)
  | 2 => siteAt (r + 1) c
  | 3 => if c == 0 then none else siteAt r (c - 1)
  | _ => none

/-- The neighbours of a site over stitch edges (R30). -/
def siteNeighbours (s : Nat) : List Nat := (List.range 4).filterMap (siteBeyond s)

/-- A stitch edge's number: 88 × the lower site + the higher site. -/
def edgeNum (a b : Nat) : Nat := 88 * min a b + max a b

/-- R15: present sites between a site and the outside in one direction. -/
def sitesToward (edge : Nat) : Nat → Nat → Nat
  | 0, _ => 0
  | n + 1, s => match siteBeyond s edge with
    | some t => 1 + sitesToward edge n t
    | none => 0

/-- R15: the ring class of a site. -/
def ringClass (s : Nat) : Nat :=
  ((List.range 4).map fun e => sitesToward e 10 s).foldl min 10

/-! ### Cell addresses (R23 to R25) -/

/-- Cells of a die. -/
def dieCells : Nat := 12800

/-- Reach, logical die, row and column of a logical cell index (R24). -/
def logReach (l : Nat) : Nat := l / 128000
def logDie (l : Nat) : Nat := l / 12800 % 10
def logRow (l : Nat) : Nat := l % 12800 / 128
def logCol (l : Nat) : Nat := l % 128
/-- The logical die 10 × reach + ldie of a logical cell. -/
def logDie80 (l : Nat) : Nat := l / 12800

/-- R24: the logical cell index. -/
def logCell (die80 row col : Nat) : Nat := 12800 * die80 + 128 * row + col

/-- R23: a physical cell address from site index, row and column. -/
def physAddr (site row col : Nat) : Nat := siteReach site * 2 ^ 18 + siteNum site * 2 ^ 14 + row * 2 ^ 7 + col

/-- R23: whether a physical cell address is valid. -/
def physValid (a : Nat) : Bool := decide (a < 2 ^ 21) && decide (bitsN a 17 14 ≤ 10) && decide (bitsN a 13 7 ≤ 99)

/-- The site index of a physical cell address. -/
def physSite (a : Nat) : Nat := bitsN a 20 18 * 11 + bitsN a 17 14

/-- The physical site that backs a logical die (R24). -/
def dieSite (s : State) (die80 : Nat) : Nat := (die80 / 10) * 11 + tget s.net.dieMap die80 (die80 % 10)

/-- The physical address of a logical cell (R24). -/
def physOf (s : State) (l : Nat) : Nat := physAddr (dieSite s (logDie80 l)) (logRow l) (logCol l)

/-- The logical die that a site backs, if any. -/
def siteDie (s : State) (site : Nat) : Option Nat :=
  (List.range 10).map (fun d => siteReach site * 10 + d) |>.find? fun d => dieSite s d == site

/-- The logical die whose physical site would be this one if no substitution named another: for an oxbow, the logical die
the map names it for. -/
def cluster (l : Nat) : Nat := logDie80 l * 800 + (logRow l / 4) * 32 + logCol l / 4

/-- The sixteen cells of the cluster of a cell, row by row (R25). -/
def clusterCells (l : Nat) : List Nat :=
  let r0 := logRow l / 4 * 4
  let c0 := logCol l / 4 * 4
  (List.range 4).flatMap fun i => (List.range 4).map fun j => logCell (logDie80 l) (r0 + i) (c0 + j)

/-- The leader of a cell's cluster (R100). -/
def gangLeader (l : Nat) : Nat := logCell (logDie80 l) (logRow l / 4 * 4) (logCol l / 4 * 4)

/-- Whether a rectangle holds a cell. -/
def rectHas (r : Rect) (l : Nat) : Bool :=
  logDie80 l == r.die && decide (r.row0 ≤ logRow l) && decide (logRow l ≤ r.row1) && decide (r.col0 ≤ logCol l) && decide (logCol l ≤ r.col1)

/-- The cells of a rectangle, row by row. -/
def rectCells (r : Rect) : List Nat :=
  (List.range (r.row1 + 1 - r.row0)).flatMap fun i => (List.range (r.col1 + 1 - r.col0)).map fun j => logCell r.die (r.row0 + i) (r.col0 + j)

/-! ### Availability (R22, R26, R33) -/

/-- Reasons listed against a site; an oxbow never put into service is out as idle. -/
def siteReasons (s : State) (site : Nat) : List OutWhy :=
  tget s.net.out site (if isOxbow site then [.oxbowIdle] else [])

/-- A site that no reason of its own keeps out (R26), in a reach that is not lost (R22). -/
def siteIn (s : State) (site : Nat) : Bool := (siteReasons s site).isEmpty && !(s.net.reachOut.contains (siteReach site))

/-- Add sites reached over live stitch edges from those reached so far. -/
def spread (s : State) : Nat → List Nat → List Nat
  | 0, acc => acc
  | n + 1, acc =>
    let more := acc.flatMap fun a => (siteNeighbours a).filter fun b =>
      siteIn s b && !(s.net.edgeOut.contains (edgeNum a b)) && !(acc.contains b)
    if more.isEmpty then acc else spread s n (acc ++ more.eraseDups)

/-- The host port's half-links: number and the site whose slot 7 it takes (R18, R20). -/
def hostHalves : List (Nat × Nat) := [(192, 0), (193, 77)]

/-- R33: the sites joined to the top-left service corner, which enters by the host port's half-links in service. -/
def mainland (s : State) : List Nat :=
  spread s 88 (hostHalves.filterMap fun h => if siteIn s h.2 && !(s.net.halfOut.contains h.1) then some h.2 else none)

/-- R26: whether a site is available. -/
def siteAvail (s : State) (site : Nat) : Bool := siteIn s site && !((siteReasons s site).contains .cutOff)

/-- The output edge that a site's table names for a destination: 4 here, 5 none (R31). -/
def edgeBy (t : Tab RouteTable) (site dst : Nat) : Nat :=
  match tget? t site with
  | some r => ((r.hops[dst]?).map (·.1)).getD 5
  | none => 5

/-- The edge that a site's active table names. -/
def nextEdge (s : State) (site dst : Nat) : Nat := edgeBy s.net.active site dst

/-- The site that a stitch edge in service leads to. -/
def siteAcross (s : State) (site edge : Nat) : Option Nat :=
  match siteBeyond site edge with
  | some n => if s.net.edgeOut.contains (edgeNum site n) then none else some n
  | none => none

/-- R32: the last available site on the committed route from a site toward another. -/
def lastRouter (s : State) (dst : Nat) : Nat → Nat → Nat
  | 0, site => site
  | n + 1, site =>
    if site == dst then site
    else match siteAcross s site (nextEdge s site dst) with
      | some t => if siteAvail s t then lastRouter s dst n t else site
      | none => site

/-- R26: whether a physical cell is a hole. -/
def isHole (s : State) (phys : Nat) : Bool := s.net.holes.contains phys || s.net.dieHoles.contains (physSite phys)

/-- Holes on a site. -/
def siteHoles (s : State) (site : Nat) : Nat :=
  if s.net.dieHoles.contains site then dieCells else (s.net.holes.filter (physSite · == site)).length

/-- The holes of the logical cells (R398). -/
def holeCount (s : State) : Nat := ((List.range 80).map fun d => siteHoles s (dieSite s d)).foldl (· + ·) 0

/-- R401: whether a slice holds the cluster of a cell, or one of a die. -/
def sliced (s : State) (l : Nat) : Bool := !s.bst.slices.isEmpty && s.bst.slices.any (·.head == gangLeader l)
def slicedDie (s : State) (site : Nat) : Bool := s.bst.slices.any fun x => dieSite s (logDie80 x.head) == site

/-- R437: a Freshet engine's rate cap in effect: halved at heat level 2 of its chiplet, quartered at level 3. -/
def heatShare (s : State) (e v : Nat) : Nat := match tget s.lev.ringHeat e 0 with | 2 => v / 2 | 3 => v / 4 | _ => v

/-- R26: whether a logical cell is usable. -/
def cellUsable (s : State) (l : Nat) : Bool :=
  decide (l < 1024000) && siteAvail s (dieSite s (logDie80 l)) && !(isHole s (physOf s l))

/-- Whether a ring chiplet is in service (R22). -/
def chipUp (s : State) (n : Nat) : Bool := !(s.net.chipOut.contains n) && !(s.net.reachOut.contains (n / 8))

/-- Whether a stack is available (R183, R215). -/
def stackUp (s : State) (n : Nat) : Bool := chipUp s n && !(s.net.stackOut.contains n)

/-! ### Power regions (R430, R447) -/

/-- The region of a logical cell's die. -/
def cellUnit (s : State) (l : Nat) : Nat := dieSite s (logDie80 l)
/-- The region of a ring position. -/
def ringUnit (n : Nat) : Nat := 88 + n
/-- The service corners: top-left (HST, SLC), top-right (WSH), bottom-right (HDW, TID), bottom-left (LEV, TEL, ERR). -/
def unitTL : Nat := 160
def unitTR : Nat := 161
def unitBR : Nat := 162
def unitBL : Nat := 163
/-- The always-on logic of Levee (R447). -/
def unitAON : Nat := 164

/-- Rill destinations that name many endpoints: all of them, the cells of a context, the blocks that a drain concerns. -/
def rillAll : Nat := 0xFF
def rillCells : Nat := 0xFE
def rillBlocks : Nat := 0xFD

/-! ### Block codes (R447) -/

def bGLB : Nat := 0x00
def bCEL : Nat := 0x01
def bRIL : Nat := 0x02
def bFRS : Nat := 0x03
def bMEM : Nat := 0x04
def bEDY : Nat := 0x05
def bEST : Nat := 0x06
def bWSH : Nat := 0x07
def bSLC : Nat := 0x08
def bTID : Nat := 0x09
def bLEV : Nat := 0x0A
def bHDW : Nat := 0x0B
def bCSN : Nat := 0x0C
def bRSV : Nat := 0x0D
def bCHK : Nat := 0x0E
def bHST : Nat := 0x0F
def bBST : Nat := 0x10
def bERR : Nat := 0x11

/-! ### Memory space (R182) -/

/-- Bytes backed in each stack's window. -/
def stackBytes : Nat := 80000000000

/-- Stack and offset of a memory-space address. -/
def memStack (a : Nat) : Nat := bitsN a 42 37
def memOff (a : Nat) : Nat := a % 2 ^ 37

/-- Whether an address lies in the backed fast tier (R182). -/
def fastBacked (a : Nat) : Bool := decide (a < 0x080000000000) && decide (memOff a < stackBytes)

/-- Whether an address lies in the slow range (R182). -/
def slowAddr (a : Nat) : Bool := decide (0x100000000000 ≤ a) && decide (a < 2 ^ 48)

/-- Whether a range of the fast tier exists and its stack is up (R183). -/
def fastOk (s : State) (a n : Nat) : Bool :=
  fastBacked a && fastBacked (a + n - 1) && (memStack a == memStack (a + n - 1)) && stackUp s (memStack a)

/-- R186: pseudo-channel, bank and row of a stack offset under a key; line within the row. -/
def interleave (key a : Nat) : Nat × Nat × Nat :=
  let g := a / 1024
  let q := g / 4096
  let h := mix64 ((key ^^^ q) % 2 ^ 64) % 4096
  ((g % 64) ^^^ (h % 64), (g / 64 % 64) ^^^ (h / 64), q)

end Sys2Proof.Machine
end

