-- ==== Sys2Proof/Machine/RegMap.lean ====
section
/-! DEFINITION. The register map: every set-up register of BAR0, its fields, access codes, classes and reset values
(R10, R465 to R482, and the register tables R65, R106, R158, R181, R216, R217, R246, R279, R302, R338, R361, R387, R406,
R428, R443, R464, R472). -/
namespace Sys2Proof.Machine

/-- Access codes (R10); no field of the module is RWS (R468). -/
inductive Acc where
  | ro | rw | w1c | wo
  deriving DecidableEq, Repr

/-- Configuration classes (R10). -/
inductive Cls where
  | s | h | l
  deriving DecidableEq, Repr

/-- A field: bits [hi:lo], access, class, reset value. Bits no field names are reserved, RO, 0. -/
structure Field where
  hi : Nat
  lo : Nat
  acc : Acc
  cls : Cls
  reset : Nat
  deriving DecidableEq, Repr

/-- What selects the instance of an indexed register (R469). -/
inductive Idx where
  | none | frsEng | memStk | edyEng | estEng | slcQ | levRegion | hdwSubsys | csnEng | csnLane
  | rsvWin | rsvExp | chkProf | chkUnit | hdm | bstDie | holeIdx | bootcfg | errQ | errUnit | tel
  deriving DecidableEq, Repr

/-- A register: BAR0 offset, index, whether it is a view register (R469), fields. -/
structure RegDesc where
  off : Nat
  idx : Idx
  view : Bool
  fields : List Field
  deriving DecidableEq, Repr

/-- A plain register. -/
def rg (off : Nat) (idx : Idx) (fields : List Field) : RegDesc := { off := off, idx := idx, view := false, fields := fields }
/-- A view register (R469): one copy for each master. -/
def vw (off hi reset : Nat) : RegDesc := { off := off, idx := .none, view := true, fields := [{ hi := hi, lo := 0, acc := .rw, cls := .l, reset := reset }] }
/-- Fields by access code and class. -/
def ro (hi lo : Nat) (cls : Cls) (reset : Nat) : Field := { hi := hi, lo := lo, acc := .ro, cls := cls, reset := reset }
/-- A read-write field. -/
def rw' (hi lo : Nat) (cls : Cls) (reset : Nat) : Field := { hi := hi, lo := lo, acc := .rw, cls := cls, reset := reset }
/-- A write-only field. -/
def wo (hi lo : Nat) (cls : Cls) : Field := { hi := hi, lo := lo, acc := .wo, cls := cls, reset := 0 }
/-- A write-one-to-clear bit. -/
def w1c (i : Nat) : Field := { hi := i, lo := i, acc := .w1c, cls := .l, reset := 0 }

/-- GLB (R472, R474). -/
def regsGlb : List RegDesc :=
  [rg 0x0000 .none [ro 15 0 .s 0xCE4A, ro 31 16 .s 0xD150],
   rg 0x0004 .none [ro 7 0 .s 0, ro 15 8 .s 0x01],
   rg 0x0008 .none [ro 31 0 .s 0], rg 0x000C .none [ro 31 0 .s 0], rg 0x0010 .none [ro 31 0 .l 0],
   rg 0x0014 .none [rw' 31 0 .l 0]]

/-- CEL (R106, R475). -/
def regsCel : List RegDesc :=
  [rg 0x1000 .none [ro 31 0 .s 0x10000], rg 0x1004 .none [ro 7 0 .s 0x00, ro 15 8 .s 0x01],
   rg 0x1008 .none [rw' 7 0 .h 64], rg 0x100C .none [rw' 0 0 .h 1, rw' 7 4 .h 4]]

/-- FRS (R181, R476). -/
def regsFrs : List RegDesc :=
  [vw 0x3000 5 0,
   rg 0x3004 .frsEng [rw' 16 0 .h 65536, rw' 23 20 .h 2, rw' 24 24 .h 1],
   rg 0x3008 .frsEng [rw' 15 0 .h 1536, rw' 23 16 .h 2, rw' 31 24 .h 64],
   rg 0x300C .none [ro 15 0 .s 256, ro 31 16 .s 8192],
   rg 0x3010 .frsEng [ro 6 0 .l 0, ro 9 7 .l 0, ro 23 10 .l 0]]

/-- MEM (R216, R476). -/
def regsMem : List RegDesc :=
  [vw 0x4000 5 0,
   rg 0x4004 .memStk [rw' 10 0 .h 640, rw' 26 16 .h 384],
   rg 0x4008 .memStk [rw' 10 0 .h 256, rw' 26 16 .h 384],
   rg 0x400C .memStk [rw' 10 0 .h 128, rw' 26 16 .h 64],
   rg 0x4010 .memStk [rw' 11 0 .h 2048],
   rg 0x4014 .memStk [rw' 11 0 .h 512, rw' 16 12 .h 16],
   rg 0x4018 .memStk [rw' 6 0 .h 25, rw' 11 8 .h 8, rw' 18 12 .h 50, rw' 27 20 .h 64],
   rg 0x401C .memStk [rw' 7 0 .h 24],
   rg 0x4020 .memStk [wo 0 0 .l, ro 1 1 .l 0],
   rg 0x4024 .memStk [ro 11 0 .l 0, ro 13 12 .l 0, ro 31 16 .l 0]]

/-- EDY (R246, R476). -/
def regsEdy : List RegDesc :=
  [vw 0x5000 5 0,
   rg 0x5004 .edyEng [rw' 7 0 .h 64, rw' 15 8 .h 64],
   rg 0x5008 .edyEng [rw' 15 0 .h 60, rw' 27 16 .h 16],
   rg 0x500C .none [ro 9 0 .s 512, ro 16 10 .s 64, ro 29 17 .s 5120],
   rg 0x5010 .edyEng [ro 1 0 .l 0, ro 11 2 .l 0]]

/-- EST (R279, R476). -/
def regsEst : List RegDesc :=
  [rg 0x6000 .none [rw' 3 0 .h 3, rw' 7 4 .h 1, rw' 8 8 .h 1],
   vw 0x6004 5 0,
   rg 0x6008 .estEng [ro 6 0 .s 64, ro 13 7 .s 64, ro 28 14 .s 16384],
   rg 0x600C .estEng [ro 6 0 .l 0, ro 21 7 .l 0, ro 31 22 .l 0]]

/-- WSH (R302, R477). -/
def regsWsh : List RegDesc :=
  [rg 0x7000 .none [rw' 0 0 .h 1, rw' 1 1 .h 1, rw' 15 8 .h 32],
   rg 0x7004 .none [ro 4 0 .s 16],
   rg 0x7008 .none [ro 31 0 .l 0], rg 0x700C .none [ro 31 0 .l 0], rg 0x7010 .none [ro 31 0 .l 0],
   rg 0x7014 .none [rw' 3 0 .s 1],
   rg 0x7018 .none [ro 1 0 .l 0, ro 11 2 .l 0, ro 15 12 .l 0]]

/-- SLC (R338, R477). -/
def regsSlc : List RegDesc :=
  [vw 0x8000 5 0,
   rg 0x8004 .slcQ [rw' 31 0 .s 0], rg 0x8008 .slcQ [rw' 31 0 .s 0],
   rg 0x800C .slcQ [rw' 31 0 .s 0], rg 0x8010 .slcQ [rw' 31 0 .s 0],
   rg 0x8014 .slcQ [rw' 3 0 .s 4, rw' 7 4 .s 4, rw' 13 8 .s 0, rw' 14 14 .h 0, rw' 23 16 .h 1, rw' 31 24 .h 10],
   rg 0x8018 .slcQ [rw' 0 0 .l 0, w1c 1],
   rg 0x801C .slcQ [ro 15 0 .l 0, ro 31 16 .l 0],
   rg 0x8020 .none [rw' 31 0 .s 0], rg 0x8024 .none [rw' 31 0 .s 0],
   rg 0x8028 .none [rw' 6 0 .h 100, rw' 19 8 .h 64, rw' 31 24 .h 1],
   rg 0x802C .none [ro 10 0 .s 256, ro 17 11 .s 64, ro 22 18 .s 16],
   rg 0x8030 .none [ro 10 0 .l 0, ro 15 11 .l 0, ro 28 16 .l 0]]

/-- TID (R65, R477). -/
def regsTid : List RegDesc :=
  [rg 0x9000 .none [rw' 1 0 .h 2, rw' 9 4 .h 0, rw' 13 10 .h 0, rw' 31 16 .h 0],
   rg 0x9004 .none [ro 2 0 .l 0, ro 3 3 .l 0, w1c 4],
   rg 0x9008 .none [ro 31 0 .l 0], rg 0x900C .none [ro 31 0 .l 0],
   rg 0x9010 .none [ro 31 0 .l 0], rg 0x9014 .none [ro 31 0 .l 0],
   rg 0x9018 .none [wo 31 0 .s], rg 0x901C .none [wo 31 0 .s]]

/-- LEV (R443, R478). -/
def regsLev : List RegDesc :=
  [rg 0xA000 .none [rw' 15 0 .h 360],
   rg 0xA004 .none [ro 15 0 .l 0, ro 20 16 .l 0, ro 21 21 .l 0, ro 22 22 .l 0],
   rg 0xA008 .none [ro 15 0 .l 0, ro 31 16 .l 0],
   rg 0xA00C .none [ro 9 0 .l 0, ro 19 10 .l 0, ro 29 20 .l 0],
   rg 0xA010 .none [rw' 7 0 .h 64, rw' 11 8 .h 0],
   vw 0xA014 7 0,
   rg 0xA018 .levRegion [ro 2 0 .l 0, ro 5 3 .l 0, ro 14 6 .l 0, ro 31 16 .l 0],
   rg 0xA01C .levRegion [wo 0 0 .l, wo 1 1 .l],
   rg 0xA020 .none [wo 0 0 .l]]

/-- HDW (R428, R478). -/
def regsHdw : List RegDesc :=
  [rg 0xB000 .none [rw' 31 0 .l 0], rg 0xB004 .none [rw' 31 0 .l 0], rg 0xB008 .none [rw' 31 0 .l 0],
   rg 0xB00C .none [wo 0 0 .l, wo 1 1 .l],
   rg 0xB010 .none [rw' 31 0 .l 0], rg 0xB014 .none [rw' 17 0 .l 0],
   rg 0xB018 .none [ro 1 0 .l 0, ro 5 2 .l 0, ro 8 6 .l 0],
   rg 0xB01C .none [ro 20 0 .l 0, ro 22 21 .l 0, ro 23 23 .l 0, ro 24 24 .l 0],
   rg 0xB020 .none [wo 0 0 .l],
   rg 0xB024 .none [rw' 12 0 .h 256],
   rg 0xB028 .none [ro 0 0 .l 0, ro 1 1 .l 1, ro 8 2 .l 0],
   vw 0xB02C 3 1,
   rg 0xB030 .hdwSubsys [ro 1 0 .l 0, ro 2 2 .l 0, ro 9 3 .l 0],
   rg 0xB034 .none [ro 15 0 .l 0]]

/-- CSN (R387, R479). -/
def regsCsn : List RegDesc :=
  [rg 0xC000 .none [rw' 15 0 .s 0, rw' 31 16 .h 0],
   rg 0xC004 .none [rw' 7 0 .h 8, rw' 19 8 .h 500, rw' 27 20 .h 64, rw' 28 28 .h 0],
   vw 0xC008 5 0,
   rg 0xC00C .csnEng [rw' 0 0 .l 1, rw' 5 1 .h 1],
   rg 0xC010 .csnEng [ro 4 0 .l 0, ro 5 5 .l 0, ro 8 6 .l 0, ro 31 16 .l 0],
   vw 0xC014 3 0,
   rg 0xC018 .csnLane [wo 0 0 .l, rw' 1 1 .l 0],
   rg 0xC01C .csnLane [ro 3 0 .l 0, ro 7 4 .l 0, ro 19 8 .l 0],
   rg 0xC020 .csnLane [ro 15 0 .l 0, ro 31 16 .l 0]]

/-- RSV (R217, R479). -/
def regsRsv : List RegDesc :=
  [rg 0xD000 .none [rw' 15 0 .h 1000],
   vw 0xD004 5 0,
   rg 0xD008 .rsvWin [rw' 17 0 .h 0], rg 0xD00C .rsvWin [rw' 17 0 .h 0],
   rg 0xD010 .rsvWin [rw' 1 0 .h 0, rw' 17 2 .h 0, rw' 23 18 .h 0, rw' 29 24 .h 0, rw' 30 30 .h 0, rw' 31 31 .h 0],
   rg 0xD014 .rsvWin [rw' 31 0 .h 0], rg 0xD018 .rsvWin [rw' 31 0 .h 0],
   rg 0xD01C .rsvWin [rw' 3 0 .h 0, rw' 4 4 .h 1],
   vw 0xD020 3 0,
   rg 0xD024 .rsvExp [rw' 12 0 .h 0], rg 0xD028 .rsvExp [rw' 13 0 .h 0],
   rg 0xD02C .rsvExp [rw' 15 0 .h 0xFFFF, rw' 16 16 .h 0, rw' 17 17 .h 0]]

/-- CHK (R158, R480). -/
def regsChk : List RegDesc :=
  [rg 0xE000 .none [rw' 3 0 .s 0],
   vw 0xE004 3 0,
   rg 0xE008 .chkProf [rw' 6 0 .s 32, rw' 8 8 .s 1, rw' 9 9 .s 1, rw' 10 10 .s 1, rw' 11 11 .s 0, rw' 12 12 .s 0],
   rg 0xE00C .chkProf [rw' 31 0 .s 0x1EDC6F41], rg 0xE010 .chkProf [rw' 31 0 .s 0],
   rg 0xE014 .chkProf [rw' 31 0 .s 0xFFFFFFFF], rg 0xE018 .chkProf [rw' 31 0 .s 0],
   vw 0xE01C 7 0,
   rg 0xE020 .chkUnit [ro 0 0 .l 0, ro 10 1 .l 0, ro 14 11 .l 0],
   rg 0xE024 .chkUnit [rw' 31 0 .l 0], rg 0xE028 .chkUnit [rw' 31 0 .l 0]]

/-- HST (R361, R480). -/
def regsHst : List RegDesc :=
  [rg 0xF000 .none [ro 2 0 .l 0, ro 4 3 .l 0, ro 5 5 .l 0, ro 6 6 .l 0],
   rg 0xF004 .none [rw' 2 0 .h 4, wo 3 3 .l],
   vw 0xF008 8 0,
   rg 0xF00C .hdm [rw' 5 0 .s 0, rw' 12 6 .s 0, rw' 31 31 .s 0],
   rg 0xF010 .none [rw' 15 0 .h 100],
   rg 0xF014 .none [ro 21 0 .l 0],
   rg 0xF018 .none [rw' 31 0 .l 0],
   rg 0xF01C .none [wo 2 0 .l, wo 15 8 .l, wo 17 16 .l],
   rg 0xF020 .none [ro 2 0 .l 0, ro 4 3 .l 0, ro 5 5 .l 0, w1c 6, ro 29 16 .l 0],
   rg 0xF024 .none [ro 31 0 .l 0],
   rg 0xF028 .none [rw' 31 0 .l 0]]

/-- BST (R406, R481). -/
def regsBst : List RegDesc :=
  [rg 0x10000 .none [ro 3 0 .l 0, ro 4 4 .l 0, ro 5 5 .l 0, ro 6 6 .l 0, ro 15 8 .l 0],
   rg 0x10004 .none [rw' 0 0 .h 1, rw' 7 4 .h 4, rw' 31 16 .h 24],
   rg 0x10008 .none [rw' 0 0 .h 0, rw' 17 4 .h 640],
   rg 0x1000C .none [wo 2 0 .l, wo 6 3 .l, wo 7 7 .l],
   rg 0x10010 .none [wo 6 0 .l, wo 7 7 .l],
   vw 0x10014 6 0,
   rg 0x10018 .bstDie [ro 13 0 .l 0, ro 15 14 .l 0, ro 16 16 .l 0, ro 17 17 .l 0],
   vw 0x1001C 14 0,
   rg 0x10020 .holeIdx [ro 31 0 .l 0],
   rg 0x10024 .none [ro 20 0 .l 0],
   vw 0x10028 1 0,
   rg 0x1002C .bootcfg [rw' 31 0 .l 0],
   rg 0x10030 .none [wo 0 0 .l]]

/-- ERR (R464, R481). -/
def regsErr : List RegDesc :=
  [rg 0x11000 .none [rw' 0 0 .l 0, rw' 13 8 .h 0x3E],
   rg 0x11004 .none [rw' 31 0 .s 0], rg 0x11008 .none [rw' 31 0 .s 0],
   rg 0x1100C .none [rw' 3 0 .s 10],
   rg 0x11010 .none [wo 31 0 .l],
   rg 0x11014 .none [ro 10 0 .l 0, w1c 11, ro 14 12 .l 0],
   rg 0x11018 .none [ro 31 0 .l 0],
   vw 0x1101C 31 0,
   vw 0x11080 7 0,
   rg 0x11084 .errUnit [ro 6 0 .l 0, w1c 7]] ++
  (List.range 16).map fun w => rg (0x11040 + 4 * w) .errQ [ro 31 0 .l 0]

/-- TEL (R464, R481). -/
def regsTel : List RegDesc :=
  [{ off := 0x12000, idx := .none, view := true, fields := [rw' 5 0 .l 0, rw' 15 6 .l 0, rw' 17 16 .l 0] },
   vw 0x12004 19 0,
   rg 0x12008 .tel [ro 31 0 .l 0], rg 0x1200C .tel [ro 31 0 .l 0],
   rg 0x12010 .none [rw' 31 0 .s 0], rg 0x12014 .none [rw' 31 0 .s 0],
   rg 0x12018 .none [wo 0 0 .l, ro 1 1 .l 0]]

/-- Every register of BAR0 (R465); RIL has none. -/
def regTable : List RegDesc :=
  regsGlb ++ regsCel ++ regsFrs ++ regsMem ++ regsEdy ++ regsEst ++ regsWsh ++ regsSlc ++ regsTid ++ regsLev ++ regsHdw ++
  regsCsn ++ regsRsv ++ regsChk ++ regsHst ++ regsBst ++ regsErr ++ regsTel

/-- The register at an offset. -/
def regAt (off : Nat) : Option RegDesc := regTable.find? (·.off == off)

/-- The reset value of a whole register. CHK_PROF_CFG.valid of profile 0 is 1 (R158). -/
def regReset (off inst : Nat) : Nat :=
  match regAt off with
  | some r =>
    let v := r.fields.foldl (fun acc f => acc + f.reset % 2 ^ (f.hi + 1 - f.lo) * 2 ^ f.lo) 0
    if off == 0xE008 && inst == 0 then v + 2 ^ 12 else v
  | none => 0

/-- The key of a register instance in the register tables. -/
def regKey (off inst : Nat) : Nat := off * 2 ^ 20 + inst

/-- The block code of a BAR0 offset: its 4 KiB window (R465). -/
def regBlock (off : Nat) : Nat := off / 0x1000

/-- The mask of the bits of a register's fields that satisfy a test. -/
def fieldMask (r : RegDesc) (p : Field → Bool) : Nat :=
  (r.fields.filter p).foldl (fun acc f => acc + (2 ^ (f.hi + 1 - f.lo) - 1) * 2 ^ f.lo) 0

end Sys2Proof.Machine
end

