-- ==== Sys2Proof/Machine/Ops.lean ====
section
/-! DEFINITION. The operations every block shares: outputs, error records (R446 to R452), telemetry (R459, R460),
registers in effect, messages in flight. -/
namespace Sys2Proof.Machine

/-- The outcome of every meaning. -/
abbrev Result := Host.Outcome State Fault Refusal

/-! ### Outputs -/

/-- Something leaves the block. -/
def emit (o : Out) (s : State) : State := { s with out := o :: s.out }

/-- Several things leave, in order. -/
def emits (os : List Out) (s : State) : State := os.foldl (fun s o => emit o s) s

/-! ### Local time: 150 ticks of the local oscillator in a microsecond -/

def usTicks (n : Nat) : Nat := 150 * n
def msTicks (n : Nat) : Nat := 150000 * n

/-- Time reaches at least a given tick. -/
def until_ (t : Nat) (s : State) : State := { s with now := max s.now t }

/-- The slot whose boundary was the last one. -/
def slotNow (s : State) : Nat := s.tide.count / 16384

/-- Whether the tide count stands at a slot boundary (R40). -/
def atBoundary (s : State) : Bool := s.tide.count % 16384 == 0

/-- R423: the count of power-ons. -/
def powerOnCount (s : State) : Nat := (Config.powerOns.toNat + s.bst.powers) % 2 ^ 32

/-- R413, R415: a new image of a subsystem has started and does not run yet. -/
def updating (s : State) (k : Nat) : Bool := match tget? s.hdw.updates k with | some u => u.startAt.isSome | none => false

/-! ### Telemetry (R459, R460) -/

/-- The key of a counter: block, number, kind, instance. -/
def telKey (block num kind inst : Nat) : Nat := ((block * 1024 + num) * 4 + kind) * 2 ^ 20 + inst

/-- Add to a counter, saturating at 2^64 − 1. -/
def countN (block num kind inst n : Nat) (s : State) : State :=
  { s with tel := { s.tel with vals := tset s.tel.vals (telKey block num kind inst) (satAdd 64 (tget s.tel.vals (telKey block num kind inst) 0) n) } }

/-- Add to a block's counter of a unit and of a context. -/
def countCtxN (block num inst ctx n : Nat) (s : State) : State := countN block num 1 ctx n (countN block num 0 inst n s)

/-- The tile checkers of the engines (R145, R158): 0 Freshet, 1 Eddy, 2 Estuary; counter 0 pass, 1 fail, 2 discard, 3 stale, 4 refetch
(DESIGN CHOICE, log 187). -/
def chkEng (kind e num n : Nat) (s : State) : State := countN bCHK num 0 (256 + 64 * kind + e) n s

/-- Add one to a counter. -/
def count (block num kind inst : Nat) (s : State) : State := countN block num kind inst 1 s

/-- Count for an engine or cell and, where there is one, for a context (kind 1). -/
def countCtx (block num kind inst : Nat) (ctx : Option Nat) (s : State) : State :=
  let s := count block num kind inst s
  match ctx with
  | some c => count block num 1 c s
  | none => s

/-- The late-event counter of an endpoint (R55). -/
def lateEvent (unit : Nat) (s : State) : State := count bTID 1 0 unit s

/-- A stall of a unit (R59). -/
def stallEvent (unit : Nat) (s : State) : State := count bTID 2 0 unit s

/-- R459: a context's counters restart at its admission. -/
def telRestart (c : Nat) (s : State) : State :=
  { s with tel := { s.tel with vals := s.tel.vals.filter fun e => !(e.1 / 2 ^ 20 % 4 == 1 && e.1 % 2 ^ 20 == c) } }

/-! ### Registers in effect -/

/-- The value in effect of a register. -/
def regLive (s : State) (off inst : Nat) : Nat := tget s.regs.live (regKey off inst) (regReset off inst)

/-- A field's value in effect. -/
def regL (s : State) (off inst hi lo : Nat) : Nat := bitsN (regLive s off inst) hi lo

/-- The value last written to a register, which a read of its RW fields returns (R453). -/
def regWritten (s : State) (off inst : Nat) : Nat := tget s.regs.written (regKey off inst) (regReset off inst)

/-- A field's value last written. -/
def regW (s : State) (off inst hi lo : Nat) : Nat := bitsN (regWritten s off inst) hi lo

/-- Set the value in effect, and the value read back, of a register. -/
def regSet (off inst v : Nat) (s : State) : State :=
  { s with regs := { s.regs with written := tset s.regs.written (regKey off inst) v, live := tset s.regs.live (regKey off inst) v } }

/-! ### Messages in flight -/

/-- Put a message in flight. -/
def send (m : Msg) (s : State) : State := { s with fly := tset s.fly s.flyNext m, flyNext := s.flyNext + 1 }

/-- Take a message out of flight. -/
def unfly (i : Nat) (s : State) : State := { s with fly := tdel s.fly i }

/-- R39: a unit's messages of priority 0 and 1 that are outstanding. -/
def rillOut (s : State) (src : Nat) : Nat :=
  (s.fly.filter fun e => match e.2 with | .rill m => m.src == src && decide (m.pri ≤ 1) | _ => false).length

/-- R38, R39: a unit issues a Rill message; beyond four outstanding of priority 0 and 1 it is held at its source. -/
def rillSend (src dst pri kind : Nat) (words : List Nat) (s : State) : State :=
  let m : RillMsg := { src := src, dst := dst, pri := pri, kind := kind, words := words }
  let s := emit (.rill dst pri kind words) s
  if decide (pri ≤ 1) && decide (4 ≤ rillOut s src) then
    { s with net := { s.net with rillHeld := tmod s.net.rillHeld src [] (· ++ [m]) } }
  else send (.rill m) s

/-- R39: the next held message of a unit leaves once one of its four has been received. -/
def rillRelease (src : Nat) (s : State) : State :=
  match tget s.net.rillHeld src [] with
  | m :: rest =>
    if rillOut s src < 4 then send (.rill m) { s with net := { s.net with rillHeld := tset s.net.rillHeld src rest } } else s
  | [] => s

/-- Change a message in flight. -/
def refly (i : Nat) (m : Msg) (s : State) : State := { s with fly := tset s.fly i m }

/-! ### Error records (R445 to R452) -/

/-- The bytes of a record (R446), the check word included. -/
def errBytes (r : ErrRec) : Bytes :=
  let b := natLE 4 r.seq ++ natLE 1 r.sev ++
    natLE 1 (b2n r.ctx.isSome + 2 * b2n r.transient + 4 * b2n r.loss + 8 * b2n r.evicted) ++
    natLE 1 r.block ++ natLE 1 r.cls ++ natLE 2 r.unit ++ natLE 2 (r.ctx.getD 0) ++ natLE 4 r.count ++
    natLE 8 r.first ++ natLE 8 r.last ++ natLE 8 r.loc0 ++ natLE 8 r.loc1 ++ natLE 4 r.detail ++ natLE 8 0
  b ++ natLE 4 (crcOf profile0 b)

/-- R449: whether an occurrence merges into a record. -/
def errMatch (o r : ErrRec) : Bool :=
  r.unit == o.unit && r.cls == o.cls &&
    (if 4 ≤ o.sev then decide (4 ≤ r.sev) else r.sev == o.sev && r.ctx == o.ctx && r.detail == o.detail)

/-- R449: merge an occurrence: count, latest tide, the higher severity; the first locations stay. -/
def errMerge (o r : ErrRec) : ErrRec :=
  { r with count := satAdd 32 r.count 1, last := o.last, sev := max r.sev o.sev }

/-- The entry of the host ring for a record, as a host write (R452). -/
def ringWrite (s : State) (r : ErrRec) : Out :=
  .hostWrite (s.err.ringBase + 64 * (r.seq % 2 ^ s.err.ringLog2)) (errBytes r)

/-- The index of the youngest record of the lowest severity below a given one. -/
def evictIdx (sevs : List Nat) (below : Nat) : Option Nat :=
  let low := sevs.foldl min 99
  if low < below then
    let idx := (List.range sevs.length).filter fun i => sevs.getD i 99 == low
    idx.getLast?
  else none

/-- R450: put a new record in its unit's queue. -/
def unitPush (o : ErrRec) (s : State) : State :=
  let u := tget s.err.units o.unit {}
  let put (u : UnitQ) (s : State) : State := { s with err := { s.err with units := tset s.err.units o.unit u } }
  if u.q.length < 64 then
    count bERR 0 0 o.unit (put { u with q := u.q ++ [{ o with loss := u.lossNext }], lossNext := false } s)
  else match evictIdx (u.q.map (·.sev)) o.sev with
    | some i =>
      count bERR 0 0 o.unit (count bERR 1 0 o.unit
        (put { u with q := ldel u.q i ++ [{ o with loss := true }], overflow := true, lossNext := false } s))
    | none => count bERR 1 0 o.unit (put { u with overflow := true, lossNext := true } s)

/-- R449, R450: raise a record in its unit: the unit queue is searched first, then the module queue. -/
def raiseRec (o : ErrRec) (s : State) : State :=
  let o := { o with first := s.tide.count, last := s.tide.count }
  let u := tget s.err.units o.unit {}
  if u.q.any (errMatch o) then
    { s with err := { s.err with units := tset s.err.units o.unit { u with q := lmod u.q (u.q.findIdx (errMatch o)) (errMerge o) } } }
  else if s.err.q.any (fun e => errMatch o e.r) then
    let i := s.err.q.findIdx (fun e => errMatch o e.r)
    match s.err.q[i]? with
    | some e =>
      let r := errMerge o e.r
      let e' : ErrEnt := { e with r := r, delivered := e.delivered && r.sev == e.r.sev }
      let s' := { s with err := { s.err with q := lmod s.err.q i fun _ => e' } }
      if e.ringed then emit (ringWrite s r) s' else s'
    | none => s
  else unitPush o s

/-- Raise a record from its parts. -/
def raise (unit block sev cls : Nat) (ctx : Option Nat) (loc0 loc1 detail : Nat) (s : State) : State :=
  raiseRec { sev := sev, ctx := ctx, block := block, cls := cls, unit := unit, loc0 := loc0 % 2 ^ 64, loc1 := loc1 % 2 ^ 64, detail := detail % 2 ^ 32 } s

/-- Severities by name (R445). -/
def sInfo : Nat := 0
def sCorr : Nat := 1
def sDef : Nat := 2
def sCont : Nat := 3
def sRegion : Nat := 4
def sModule : Nat := 5

/-- R450: the index of the record a unit forwards next: the highest severity, the oldest within it. -/
def forwardIdx (q : List ErrRec) : Nat := let top := q.foldl (fun m r => max m r.sev) 0; q.findIdx (·.sev == top)

/-- R450: the Rill priority of a forwarded record. -/
def errPri (sev : Nat) : Nat := if 4 ≤ sev then 0 else if sev == 0 then 3 else 2

/-- R450, R451: a unit forwards one record to the module queue when it can be accepted. -/
def errForward (unit : Nat) (s : State) : State :=
  let u := tget s.err.units unit {}
  match u.q[forwardIdx u.q]? with
  | none => s
  | some r =>
    let take (s : State) : State :=
      let s := emit (.rill unitBL (errPri r.sev) 0x4E [unit, r.block, r.cls]) s
      { s with err := { s.err with
          units := tset s.err.units unit { u with q := ldel u.q (forwardIdx u.q) },
          q := s.err.q ++ [{ r := { r with seq := s.err.nextSeq } }],
          nextSeq := (s.err.nextSeq + 1) % 2 ^ 32 } }
    if s.err.q.length < 1024 then take s
    else if 4 ≤ r.sev then
      match evictIdx (s.err.q.map (·.r.sev)) 4 with
      | some i =>
        let old := s.err.q[i]?
        let s1 := { s with err := { s.err with q := ldel s.err.q i, overflow := true } }
        let s2 := match old with
          | some e => if e.ringed then emit (ringWrite s { e.r with evicted := true }) s1 else s1
          | none => s1
        take s2
      | none => s
    else s

/-- R452: the index of the next record to deliver. -/
def deliverIdx (q : List ErrEnt) : Option Nat :=
  match q.findIdx? (fun e => !e.delivered && decide (4 ≤ e.r.sev)) with
  | some i => some i
  | none => q.findIdx? (fun e => !e.delivered)

/-- R464: ERR_ACK removes every queued record not newer than the sequence given (R12). -/
def errAck (seq : Nat) (s : State) : State :=
  { s with err := { s.err with q := s.err.q.filter fun e => seqNewer 32 e.r.seq seq } }

end Sys2Proof.Machine
end

