-- ==== Sys2Proof/Machine/CtxOps.lean ====
section
/-! DEFINITION. Shared operations on contexts and queue pairs: completions posted (R311, R324), steps in progress, holds and
failures (R326, R331, R133). -/
namespace Sys2Proof.Machine

/-- A context; unlisted: FREE (R305). -/
def getCtx (s : State) (c : Nat) : Ctx := tget s.ctxs c {}

/-- Change a context. -/
def modCtx (c : Nat) (f : Ctx → Ctx) (s : State) : State := { s with ctxs := tset s.ctxs c (f (getCtx s c)) }

/-- A queue pair. -/
def getPair (s : State) (q : Nat) : Pair := tget s.slc.pairs q {}

/-- Change a queue pair. -/
def modPair (q : Nat) (f : Pair → Pair) (s : State) : State :=
  { s with slc := { s.slc with pairs := tset s.slc.pairs q (f (getPair s q)) } }

/-- R305: whether a context is admitted, running or held. -/
def ctxLive (x : Ctx) : Bool := x.st == .idle || x.st == .running || x.st == .held

/-- Whether any context is in RUNNING (R50, R51, R454). -/
def anyRunning (s : State) : Bool := s.ctxs.any (·.2.st == .running)

/-- Whether any context is not FREE (R454). -/
def anyResident (s : State) : Bool := s.ctxs.any (·.2.st != .free)

/-- The tide states under which a step carries the holdover flag (R52). -/
def inHoldover (s : State) : Bool := s.tide.st == .holdover || s.tide.st == .slew || s.tide.st == .free

/-- R299: whether a context is frozen: its waits do not count and it is selected for nothing. -/
def ctxFrozen (s : State) (c : Option Nat) : Bool :=
  match c with
  | some c => match (getCtx s c).frozen with | some f => decide (f ≤ s.tide.bnd) | none => false
  | none => false

/-- R311: post a completion record; COMPLETION_WRITE writes it. -/
def post (q : Nat) (c : Cpl) (s : State) : State := modPair q (fun p => { p with posted := p.posted ++ [c] }) s

/-- A plain completion of a descriptor (R324). -/
def postDesc (q tag ctx op status detail step sqHead : Nat) (s : State) : State :=
  post q { tag := tag, ctx := ctx, op := op, status := status, detail := detail, step := step, tide := s.tide.count,
           flags := 0, attempts := 0, sqHead := sqHead } s

/-- Bytes 24–25 of the completion of a step (R324). -/
def stepFlags (x : Step) : Nat :=
  b2n x.holdover + 2 * (x.decision % 4) + 8 * b2n x.held + 16 * b2n x.spike + 32 * b2n x.ratioWarn + 64 * b2n x.ratioHold +
  128 * b2n x.gap + 256 * b2n x.overrun + 512 * b2n x.rerun

/-- Complete a step of a context with a status (R324 to R326). -/
def postStep (c : Nat) (x : Step) (status detail : Nat) (s : State) : State :=
  let q := (getCtx s c).qp
  if x.posted then s
  else (if status == 0 then countCtx bSLC (12 + x.decision % 4) 0 q (some c) else id)
  (post q { tag := x.tag, ctx := c, op := 2, status := status, detail := detail, step := x.num, tide := s.tide.count,
            flags := stepFlags x, attempts := min x.attempts 255, sqHead := x.sqHead } s)

/-- The step in progress: the newest that runs, else the newest in its window's reduction or sweep. -/
def stepInProgress (x : Ctx) : Option Step :=
  match (x.steps.filter (·.st == .running)).getLast? with
  | some t => some t
  | none => (x.steps.filter fun t => t.st == .reduced || t.st == .sweeping).getLast?

/-- Change a step of a context by number. -/
def modStep (c n : Nat) (f : Step → Step) (s : State) : State :=
  modCtx c (fun x => { x with steps := x.steps.map fun t => if t.num == n then f t else t }) s

/-- R326, R331: the step in progress fails with status 6; the context is to roll back and be held. -/
def stepFail (c cls code : Nat) (s : State) : State :=
  let x := getCtx s c
  match x.roll, stepInProgress x with
  | none, some t =>
    if x.st == .running || x.st == .held then
      let s := postStep c { t with held := true } 6 (256 * cls + code % 256) s
      modCtx c (fun x => { x with steps := x.steps.filter (·.num != t.num), roll := some { hold := true } }) s
    else s
  | _, _ => s

/-- R331: a rollback without a hold. -/
def rollNoHold (c : Nat) (s : State) : State :=
  modCtx c (fun x => if ctxLive x && x.roll.isNone then { x with roll := some { hold := false } } else x) s

/-- R133: a hold is due at the context's next step boundary; its causes are kept as the qualifier bits of R495. -/
def holdDue (c bits : Nat) (s : State) : State := modCtx c (fun x => { x with holdDue := x.holdDue ||| bits }) s

end Sys2Proof.Machine
end

