-- ==== Sys2Proof/Machine/TideOps.lean ====
section
/-! DEFINITION. Tide's working: inputs, states, offsets, slot lengths (R40 to R51, R496). -/
namespace Sys2Proof.Machine

/-- Change the tide unit. -/
def modTide (f : Tide → Tide) (s : State) : State := { s with tide := f s.tide }

/-- A Tide record (R448, R495): loc0 the count, loc1 the offset. -/
def tideRec (sev code qual : Nat) (s : State) : State :=
  raise unitBR bTID sev 0x08 none s.tide.count (unsN 64 s.tide.offset) (code + 256 * qual) s

/-- The code of a tide state, as TID_STATUS.state (R65). -/
def TideSt.code : TideSt → Nat
  | .acquire => 0 | .locked => 1 | .holdover => 2 | .slew => 3 | .free => 4

/-- R46: enter HOLDOVER, with the row of the check that failed. -/
def enterHoldover (row : Nat) (s : State) : State :=
  if s.tide.st == .holdover then s
  else tideRec sInfo 1 row (modTide (fun t => { t with st := .holdover, holdAt := s.now, hAt := s.now }) s)

/-- Enter a state other than HOLDOVER; leaving HOLDOVER raises its record. -/
def enterTide (st : TideSt) (s : State) : State :=
  let s' := modTide (fun t => { t with st := st }) s
  if s.tide.st == .holdover then tideRec sInfo 2 st.code s' else s'

/-- An input. -/
def tideIn (s : State) (tidein : Bool) : TideIn := if tidein then s.tide.tin else s.tide.csn

/-- Change an input. -/
def modIn (tidein : Bool) (f : TideIn → TideIn) (s : State) : State :=
  modTide (fun t => if tidein then { t with tin := f t.tin } else { t with csn := f t.csn }) s

/-- R42: whether the source in effect lets an input be used. -/
def inputAllowed (s : State) (tidein : Bool) : Bool :=
  s.tide.src == 2 || (s.tide.src == 0 && tidein) || (s.tide.src == 1 && !tidein)

/-- Whether an input is the one in use. -/
def inputUsed (s : State) (tidein : Bool) : Bool := inputAllowed s tidein && s.tide.useTidein == tidein

/-- R46: an input is lost or rejected: it qualifies anew; where it is the one followed, the unit holds over, and automatic
selection turns to the other (R42). -/
def inputFail (tidein : Bool) (row : Nat) (s : State) : State :=
  let used := inputUsed s tidein
  let s := modIn tidein (fun i => { i with qual := 0, badFrame := 0, badCont := 0, badPhase := 0, last := none }) s
  if used then
    let s := if s.tide.st == .locked || s.tide.st == .slew then enterHoldover row s else s
    if s.tide.src == 2 then modTide (fun t => { t with useTidein := !tidein }) s else s
  else s

/-- Ticks of the path delay written for TIDE_IN (R45): a tick being 20,000 / 3 ps, rounded down (DESIGN CHOICE, log 177). -/
def tideinDelay (s : State) : Nat := regL s 0x9000 0 31 16 * 3 / 20000

/-- R43: the slot number that the 52 symbols of a frame spell, bit 14 of the count first; none where the marker is not at its tick, a tick
holds no bit, or the parity over ticks 1 to 51 is odd. -/
def frameRead (syms : List TideSym) : Option Nat :=
  let bits := (syms.drop 1).take 51
  let ones := (bits.filter (· == .one)).length
  if syms.head? == some .marker && bits.all (fun b => b == .zero || b == .one) && ones % 2 == 0 then
    some ((bits.take 50).foldr (fun b v => 2 * v + b2n (b == .one)) 0)
  else none

/-- R46: a slot of an input that passed its frame checks, or not, with the count it states against the module's own. A discarded frame or
message takes the qualification away, of the input in use too (DESIGN CHOICE, log 175). -/
def inputSlot (tidein : Bool) (frameOk : Bool) (slot : Nat) (off : Int) (s : State) : State :=
  let i := tideIn s tidein
  let reject (s : State) : State := count bTID 3 0 unitBR s
  if !frameOk then
    let s := reject (modIn tidein (fun i => { i with qual := 0, badFrame := i.badFrame + 1, last := i.last.map (· + 1) }) s)
    if 3 ≤ i.badFrame + 1 then inputFail tidein 3 s else s
  else if (match i.last with | some l => slot != l + 1 | none => false) then
    let s := reject (modIn tidein (fun i => { i with qual := 0, badFrame := 0, badCont := i.badCont + 1, last := some slot }) s)
    if 3 ≤ i.badCont + 1 then inputFail tidein 4 s else s
  else if s.tide.st == .locked && inputUsed s tidein && 1 < (off - i.off).natAbs then
    let s := reject (modIn tidein (fun i => { i with qual := 0, badFrame := 0, badCont := 0, badPhase := i.badPhase + 1, last := some slot }) s)
    if 3 ≤ i.badPhase + 1 then inputFail tidein 5 s else s
  else modIn tidein (fun i => { i with qual := min (i.qual + 1) 16, off := off, last := some slot, badFrame := 0, badCont := 0, badPhase := 0 }) s

/-- R49: whether an offset is within 64 + 75 h ticks, h in seconds from `hAt`. -/
def offsetOk (s : State) (off : Int) : Bool := decide (off.natAbs * 150000000 ≤ 64 * 150000000 + 75 * (s.now - s.tide.hAt))

/-- The count takes a value at once: the slot in progress is the one it names. -/
def setCount (v : Nat) (s : State) : State :=
  let d : Int := (v : Int) - s.tide.count
  modTide (fun t => { t with
    count := v % 2 ^ 64, slotAt := s.now - v % 16384, len := 16384,
    tin := { t.tin with off := t.tin.off + d }, csn := { t.csn with off := t.csn.off + d } }) s

/-- The input's count. -/
def inputCount (s : State) (tidein : Bool) : Nat := ((s.tide.count : Int) - (tideIn s tidein).off).toNat

/-- R50, R51: a count mismatch. -/
def mismatch (s : State) : State := tideRec sDef 3 0 (modTide (fun t => { t with mismatch := true }) s)

/-- R49, R50, R496: an offset is judged as on a return from holdover. -/
def judge (off : Int) (s : State) : State :=
  let s := modTide (fun t => { t with offset := off }) s
  if off == 0 then enterTide .locked s
  else if offsetOk s off then enterTide .slew s
  else mismatch (modTide (fun t => { t with stuck := true }) (enterHoldover 0 s))

/-- R49: the length of the slot that begins now, or next. -/
def slewLen (t : Tide) : Nat := if t.st == .slew then (if 0 < t.offset then 16383 else if t.offset < 0 then 16385 else 16384) else 16384

/-- R49: the tick that a slot of another length removes from an offset. -/
def slewBy (len : Nat) (off : Int) : Int := if len == 16383 then off - 1 else if len == 16385 then off + 1 else off

/-- R49: a slot of another length has removed one tick from the offset to each input; at zero the unit is LOCKED. -/
def slewStep (s : State) : State :=
  let t := s.tide
  if t.len == 16384 then s
  else
    let off := slewBy t.len t.offset
    let s := modTide (fun t => { t with offset := off, tin := { t.tin with off := slewBy t.len t.tin.off }, csn := { t.csn with off := slewBy t.len t.csn.off } }) s
    if off == 0 && t.st == .slew then enterTide .locked s else s

/-- R53: the length of the slot after the one in progress, whose tick is then removed. -/
def nextLen (t : Tide) : Nat := slewLen { t with offset := slewBy t.len t.offset }

/-- R53: an endpoint's tick counter runs on; it marks the boundary by its slot's length, and takes what was announced, else the nominal length
and the next number. -/
def epAdvance (n : Nat) (e : Endpoint) : Endpoint :=
  if e.tick + n < e.len then { e with tick := (e.tick + n) % 16384 }
  else
    let next := e.next.getD (e.slot + 1, 16384)
    { slot := next.1, len := next.2, tick := (e.tick + n - e.len) % 16384, next := none }

/-- All of them. -/
def epsAdvance (n : Nat) (eps : Tab Endpoint) : Tab Endpoint := eps.map fun e => (e.1, epAdvance n e.2)

/-- The count reaches the next boundary (R40): local time, count, slot, endpoints. -/
def tideBoundary (s : State) : State :=
  let now := s.now
  let s := until_ (s.tide.slotAt + s.tide.len) s
  let s := slewStep s
  modTide (fun t => { t with
    count := ((t.count / 16384 + 1) * 16384) % 2 ^ 64, bnd := t.bnd + 1, slotAt := s.now, len := slewLen t, markerSent := false, flitSent := false,
    eps := epsAdvance (s.tide.slotAt + t.len - now) t.eps }) s

/-- One tick of the local oscillator: the count runs on within its slot (R40). -/
def tideTick (s : State) : State :=
  { s with now := s.now + 1, tide := { s.tide with eps := epsAdvance 1 s.tide.eps, count := if s.tide.count % 16384 == 16383 then s.tide.count else s.tide.count + 1 } }

end Sys2Proof.Machine
end

