-- ==== Sys2Proof/Machine/CsnOps.lean ====
section
/-! DEFINITION. Cisan's working: which lanes may run, flits and messages as bytes, streams, credit, what is sent when
(R362 to R374). -/
namespace Sys2Proof.Machine

/-- An optical engine. -/
def getEng (s : State) (e : Nat) : CsnEng := tget s.csn.engs e {}

/-- Change an engine. -/
def modEng (e : Nat) (f : CsnEng → CsnEng) (s : State) : State := { s with csn := { s.csn with engs := tset s.csn.engs e (f (getEng s e)) } }

/-- A lane. -/
def getLane (s : State) (e l : Nat) : Lane := tget (getEng s e).lanes l {}

/-- Change a lane. -/
def modLane (e l : Nat) (f : Lane → Lane) (s : State) : State := modEng e (fun x => { x with lanes := tset x.lanes l (f (tget x.lanes l {})) }) s

/-- R362, R387: whether an engine is licensed, enabled and in service. -/
def engOn (s : State) (e : Nat) : Bool :=
  (s.full || decide (e % 8 < 4)) && bitN (regLive s 0xC00C e) 0 && !(s.net.engOut.contains e) && !(s.net.reachOut.contains (e / 8))

/-- The module's node ID, and the fleet controller's (R387). -/
def nodeId (s : State) : Nat := regL s 0xC000 0 15 0
def fleetNode (s : State) : Nat := regL s 0xC000 0 31 16

/-- Lanes of an engine that are READY. -/
def readyLanes (s : State) (e : Nat) : List Nat := (List.range 16).filter fun l => (getLane s e l).st == .ready

/-- R379: whether an engine's link is ready. -/
def linkReady (s : State) (e : Nat) : Bool := decide (max (regL s 0xC00C e 5 1) 1 ≤ (readyLanes s e).length)

/-- The partner of an engine: that of its first lane past CAPS. -/
def engPartner (s : State) (e : Nat) : Option Partner :=
  (List.range 16).findSome? fun l =>
    let x := getLane s e l
    match x.st with
    | .qualify => x.partner
    | .ready => x.partner
    | _ => none

/-! ### Bytes (R366, R369) -/

/-- The 16-byte header. -/
def csnHeader (m : CsnMsg) : Bytes :=
  let b := natLE 1 m.mtype ++ natLE 1 (m.dstEng % 64) ++ natLE 2 m.dstNode ++ natLE 2 m.srcNode ++ natLE 1 (m.srcEng % 64) ++ natLE 1 (m.cls % 8) ++
    natLE 2 (m.ctx % 1024) ++ natLE 2 (m.stream % 4096) ++ natLE 2 m.body.length
  b ++ natLE 2 (crcOf profile3740 b)

/-- R370: units of 256 bytes of header and body, rounded up. -/
def csnUnits (m : CsnMsg) : Nat := (16 + m.body.length + 255) / 256

/-- Bytes cut into runs of 240. -/
def cut240 : Nat → Bytes → List Bytes
  | 0, _ => []
  | n + 1, b => if b.isEmpty then [] else fitB (b.take 240) 240 :: cut240 n (b.drop 240)

/-- The payloads of a message that starts at the head of a flit. -/
def csnChunks (m : CsnMsg) : List Chunk :=
  let cs := cut240 20 (csnHeader m ++ m.body)
  (List.range cs.length).map fun i => { msg := m, off := if i == 0 then 0 else 0xFF, last := i + 1 == cs.length, data := cs.getD i [] }

/-- A flit of 256 bytes (R366). -/
def csnFlit (seq ftype ack : Nat) (nak : Bool) (off : Nat) (payload : Bytes) : Bytes :=
  let b := natLE 2 (seq % 4096 + ftype * 4096) ++ natLE 2 (ack % 4096 + 4096 * b2n nak) ++ natLE 1 off ++ natLE 3 0 ++ fitB payload 240
  b ++ natLE 8 (crcOf profileXZ b)

/-- The acknowledgement a lane's next flit carries: 0xFFF before the first acceptance. -/
def ackOf (x : Lane) : Nat := x.rxLast.getD 0xFFF

/-- Codewords that carry flits: the words, and the scrambler's state after them. -/
def wordsOf (n st : Nat) : List Bytes → List Nat × Nat
  | [] => ([], st)
  | f :: fs =>
    let w := flitWord n st f
    let r := wordsOf (n + 1) w.2 fs
    (w.1 :: r.1, r.2)

/-- Flits leave on a lane, each in a codeword of its line. -/
def flitRun (e l : Nat) (fs : List Bytes) (s : State) : State :=
  let x := getLane s e l
  let w := wordsOf x.txWords x.txScr fs
  countN bCSN 0 0 (16 * e + l) fs.length (modLane e l (fun x => { x with nak := false, txWords := x.txWords + fs.length, txScr := w.2 })
    { s with out := ((fs.zip w.1).flatMap fun p => [Out.flit e l p.1, Out.line e l p.2]).reverse ++ s.out })

/-- A flit leaves on a lane; it carries the nak owed. -/
def flitOut (e l seq ftype off : Nat) (payload : Bytes) (s : State) : State :=
  let x := getLane s e l
  flitRun e l [csnFlit seq ftype (ackOf x) x.nak off payload] s

/-- R371: the rank in which a lane serves a class: 0, 2, 1, then 3 to 6 round-robin. -/
def clsRank (rr c : Nat) : Nat :=
  match c with
  | 0 => 0
  | 2 => 1
  | 1 => 2
  | c => 3 + (c + 7 - rr) % 4

/-- R369, R371: what waits on a lane with the message to serve next at its head: the one in progress, else the oldest of the class served
first. -/
def txPick (x : Lane) : List Chunk :=
  match x.txq with
  | [] => []
  | h :: t =>
    if h.off != 0 then x.txq
    else
      let best := t.foldl (fun b c => if c.off == 0 && decide (clsRank x.rr c.msg.cls < clsRank x.rr b.msg.cls) then c else b) h
      x.txq.filter (·.msg.num == best.msg.num) ++ x.txq.filter (·.msg.num != best.msg.num)

/-- R368, R371: DATA flits leave while fewer than 512 are unacknowledged. -/
def lanePump (e l : Nat) : Nat → State → State
  | 0, s => s
  | n + 1, s =>
    let x := getLane s e l
    match txPick x with
    | [] => s
    | c :: rest =>
      if !(x.st == .ready || x.st == .retrain) || 512 ≤ x.replay.length then s
      else
        let s := modLane e l (fun x => { x with txq := rest, rr := if 3 ≤ c.msg.cls then c.msg.cls else x.rr, txSeq := (x.txSeq + 1) % 4096, replay := x.replay ++ [(x.txSeq, s.now, c)] }) s
        lanePump e l n (flitOut e l x.txSeq 1 c.off c.data s)

/-- The ready lane with the least of a measure. -/
def leastLane (s : State) (e : Nat) (f : Lane → Nat) : Option Nat :=
  match readyLanes s e with
  | [] => none
  | h :: t => some (t.foldl (fun b l => if f (getLane s e l) < f (getLane s e b) then l else b) h)

/-- Streams bound to a lane. -/
def boundTo (x : CsnEng) (l : Nat) : Nat := (x.tx.filter fun t => t.lane == some l).length

/-- R371: the ready lane with the fewest bound streams. -/
def leastBound (s : State) (e : Nat) : Option Nat :=
  match readyLanes s e with
  | [] => none
  | h :: t => some (t.foldl (fun b l => if boundTo (getEng s e) l < boundTo (getEng s e) b then l else b) h)

/-- R371: classes whose streams are ordered. -/
def clsOrdered (c : Nat) : Bool := c == 0 || c == 3 || c == 5 || c == 6

/-- R371: a message goes to a lane, its stream's or the ready lane with the fewest bytes queued. -/
def toLane (e : Nat) (lane : Option Nat) (m : CsnMsg) (s : State) : State :=
  match (match lane with | some l => some l | none => leastLane s e fun x => x.txq.length + x.replay.length) with
  | some l => lanePump e l 40 (modLane e l (fun x => { x with txq := x.txq ++ csnChunks m }) s)
  | none => s

/-- The lane of stream 0: one lane while it is ready; another once the closed one's messages have moved (R370 to R372). -/
def ctlPick (s : State) (e : Nat) : Option Nat :=
  match (getEng s e).ctlLane with
  | some l => if (getLane s e l).st == .ready then some l else none
  | none => (readyLanes s e).head?

/-- The control messages kept leave, where the link is ready. -/
def ctlFlush (e : Nat) (s : State) : State :=
  if !(linkReady s e) then s
  else match ctlPick s e with
    | none => s
    | some l =>
      let kept := (getEng s e).ctlq
      kept.foldl (fun s m => toLane e (some l) m s) (modEng e (fun x => { x with ctlq := [], ctlLane := some l }) s)

/-- A control message (class 0) on stream 0 of an engine; kept while the link is held (R370, R373). -/
def csnCtl (e node dstEng mtype : Nat) (body : Bytes) (s : State) : State :=
  let x := getEng s e
  let m : CsnMsg := { num := x.nextNum, mtype := mtype, dstEng := dstEng, dstNode := node, srcNode := nodeId s, srcEng := e, cls := 0, ctx := 0, stream := 0, body := body }
  if linkReady s e || x.held.isSome then ctlFlush e (modEng e (fun x => { x with nextNum := x.nextNum + 1, ctlq := x.ctlq ++ [m] }) s) else s

/-- Change a sending stream. -/
def modTx (e node dst cls ctx : Nat) (f : TxStream → TxStream) (s : State) : State :=
  modEng e (fun x => { x with tx := x.tx.map fun t => if t.node == node && t.eng == dst && t.cls == cls && t.ctx == ctx then f t else t }) s

/-- R371: the lane a stream's next message goes to, if one can: an ordered stream's own while it is ready, any ready one else. -/
def txLane (s : State) (e : Nat) (t : TxStream) : Option Nat :=
  if !(linkReady s e) then none
  else if clsOrdered t.cls then
    match t.lane with
    | some l => if (getLane s e l).st == .ready then some l else none
    | none => leastBound s e
  else leastLane s e fun x => x.txq.length + x.replay.length

/-- R370: a stream sends what its credit allows. -/
def txPump (e node dst cls ctx : Nat) : Nat → State → State
  | 0, s => s
  | n + 1, s =>
    match (getEng s e).tx.find? fun t => t.node == node && t.eng == dst && t.cls == cls && t.ctx == ctx with
    | some t =>
      match t.id, t.queue with
      | some id, m :: rest =>
        match txLane s e t with
        | some l =>
          if csnUnits m ≤ t.credit then
            let s := modTx e node dst cls ctx (fun t => { t with
              queue := rest, credit := t.credit - csnUnits m, sent := t.sent + csnUnits m, lane := if clsOrdered cls then some l else none }) s
            txPump e node dst cls ctx n (toLane e (some l) { m with stream := id } s)
          else count bCSN 9 0 e s
        | none => s
      | _, _ => s
    | none => s

/-- Stream 0 and every stream of an engine send what they may. -/
def pumpAll (e : Nat) (s : State) : State :=
  let s := ctlFlush e s
  (getEng s e).tx.foldl (fun s t => txPump e t.node t.eng t.cls t.ctx 256 s) s

/-- OPEN for a stream (R374); GRANTs come in the order of the OPENs. -/
def openAsk (e node dst cls ctx : Nat) (s : State) : State :=
  let is (t : TxStream) : Bool := t.node == node && t.eng == dst && t.cls == cls && t.ctx == ctx
  let s := modEng e (fun x => { x with tx := x.tx.filter (fun t => !(is t)) ++ x.tx.filter is }) s
  count bCSN 7 0 e (modTx e node dst cls ctx (fun t => { t with asked := true, refused := none })
    (csnCtl e node dst 0x01 (natLE 1 cls ++ natLE 1 0 ++ natLE 2 (ctx % 1024) ++ natLE 4 64) s))

/-- R371: the class on which a stream to a partner may be opened (R381: a reservoir node accepts only 0, 4, 5, 6). -/
def clsAllowed (s : State) (e cls : Nat) : Bool :=
  match engPartner s e with
  | some p => p.typ != 2 || cls == 0 || cls == 4 || cls == 5 || cls == 6
  | none => true

/-- R370: a message for another node joins its stream, which is opened where it is not. -/
def csnSend (e node dst mtype cls ctx : Nat) (body : Bytes) (s : State) : State :=
  if !(clsAllowed s e cls) then count bCSN 8 0 e s
  else
    let m : CsnMsg := { num := (getEng s e).nextNum, mtype := mtype, dstEng := dst, dstNode := node, srcNode := nodeId s, srcEng := e, cls := cls, ctx := ctx, stream := 0, body := body }
    let s := modEng e (fun x => { x with nextNum := x.nextNum + 1 }) s
    let have_ := (getEng s e).tx.any fun t => t.node == node && t.eng == dst && t.cls == cls && t.ctx == ctx
    let s := if have_ then s else modEng e (fun x => { x with tx := x.tx ++ [{ node := node, eng := dst, cls := cls, ctx := ctx }] }) s
    let s := modTx e node dst cls ctx (fun t => { t with queue := t.queue ++ [m] }) s
    let s := if have_ then s else openAsk e node dst cls ctx s
    txPump e node dst cls ctx 64 s

/-- The engine on which a message of the module's own goes to the fleet controller: the link-ready engine whose partner it
is, else one that faces a switch. -/
def fleetEng (s : State) : Option Nat :=
  let up := (List.range 64).filter fun e => linkReady s e
  match up.find? fun e => (engPartner s e).any fun p => p.node == fleetNode s with
  | some e => some e
  | none => up.find? fun e => (engPartner s e).any fun p => p.typ == 3

/-- R377: a MGMT message to the node in fleet_node; none while it is 0. -/
def csnFleet (op tag : Nat) (data : Bytes) (s : State) : State :=
  if fleetNode s == 0 then s
  else match fleetEng s with
    | some e => csnCtl e (fleetNode s) (((engPartner s e).map (·.eng)).getD 0) 0x08 (natLE 2 op ++ natLE 2 data.length ++ natLE 4 tag ++ data) s
    | none => s

/-- A message of an engine's inbox is taken by its block: its buffer is freed and its credit owed (R370). -/
def csnTake (e i : Nat) (s : State) : State :=
  match (getEng s e).inbox[i]? with
  | none => s
  | some m =>
    modEng e (fun x => { x with
      inbox := ldel x.inbox i, bufUsed := x.bufUsed - csnUnits m,
      rx := x.rx.map fun r => if r.id == m.stream then { r with owed := r.owed + csnUnits m } else r }) s

/-- The message that a command names, of a type; on an ordered stream the earlier ones are taken first (R371). -/
def csnMsg (s : State) (e i mtype : Nat) : Option CsnMsg :=
  let l := (getEng s e).inbox
  (l[i]?).bind fun m =>
    if m.mtype == mtype && !(clsOrdered m.cls && (l.take i).any fun q => q.stream == m.stream && q.cls == m.cls) then some m else none

/-- R372: the messages of which a lane still holds a part, in their order. -/
def laneLeft (x : Lane) : List CsnMsg :=
  let cs := x.old.map (·.2.2) ++ x.oldq ++ x.replay.map (·.2.2) ++ x.txq
  (cs.map (·.msg)).foldl (fun acc m => if acc.any (·.num == m.num) then acc else acc ++ [m]) []

/-- R372: messages left on a closed lane go to the remaining lanes in their order, and ordered streams are bound anew. -/
def laneMove (e l : Nat) (s : State) : State :=
  let x := getLane s e l
  let left := laneLeft { x with replay := [], txq := [] }
  let s := modLane e l (fun x => { x with old := [], oldq := [] }) s
  let s := modEng e (fun x => { x with ctlLane := if x.ctlLane == some l then none else x.ctlLane, tx := x.tx.map fun t => if t.lane == some l then { t with lane := none } else t }) s
  let s := left.foldl (fun s m =>
    if m.cls == 0 then
      let lane := ctlPick s e
      toLane e lane m (modEng e (fun x => { x with ctlLane := lane }) s)
    else match (getEng s e).tx.find? fun t => t.node == m.dstNode && t.eng == m.dstEng && t.cls == m.cls && t.ctx == m.ctx with
      | some t =>
        let lane := txLane s e t
        let s := if clsOrdered m.cls then modTx e m.dstNode m.dstEng m.cls m.ctx (fun t => { t with lane := lane }) s else s
        toLane e lane m s
      | none => s) s
  pumpAll e s

/-- The LANE_CLOSE flits owed leave on a ready lane (R372). -/
def closeSend (e : Nat) (s : State) : State :=
  match (readyLanes s e).head? with
  | none => s
  | some k => (List.range 16).foldl (fun s l => match (getLane s e l).closeOwed with
    | some q => modLane e l (fun x => { x with closeOwed := none }) (flitOut e k (getLane s e k).txSeq 2 0 (natLE 1 3 ++ natLE 1 l ++ natLE 2 q) s)
    | none => s) s

/-- R382: a lane leaves READY: the time and its partner are kept. -/
def wasReadyNow (s : State) (x : Lane) : Option (Nat × Nat × Nat) :=
  match x.partner with | some p => some (s.now, p.node, p.nonce) | none => x.wasReady

/-- What a lane's fall to DOWN does (R372, R379): cause, info record, back-off; one that was READY closes. -/
def laneFall (e l cause : Nat) (s : State) : State :=
  let x := getLane s e l
  let was := x.st == .ready || x.st == .retrain
  let s := if cause == 0 then s else raise (ringUnit e) bCSN sInfo 0x0B none (16 * e + l) (match x.partner with | some p => p.node | none => 0) cause s
  let s := modLane e l (fun x => { x with
    st := .down, since := s.now, cause := cause, retrain := false, recal := false, partner := none,
    wait := if was || x.retrain || x.wait == 0 then 150000000 else min (2 * x.wait) (64 * 150000000) }) s
  if was then
    let s := modLane e l (fun y => { y with
      wasReady := wasReadyNow s x, closing := true, closeOwed := some (ackOf x), old := y.old ++ y.replay, oldq := y.oldq ++ y.txq,
      replay := [], txq := [], part := [], resends := 0 }) s
    -- R46: the lane that carries the tide is down
    let s := if regL s 0x9000 0 9 4 == e && regL s 0x9000 0 13 10 == l then inputFail false 6 s else s
    closeSend e (count bCSN 6 0 (16 * e + l) s)
  else s

/-- R373, R386: every stream of an engine fails; the record names the engine, the partner and the cause. -/
def linkFail (e cause : Nat) (s : State) : State :=
  let x := getEng s e
  let lost := x.ctlq ++ (x.tx.flatMap (·.queue)) ++ x.lanes.flatMap fun l => laneLeft l.2
  let s := modEng e (fun x => { x with
    tx := [], rx := [], inbox := [], bufUsed := 0, held := none, downAt := none, ctlLane := none, ctlq := [],
    lanes := x.lanes.map fun l => (l.1, { l.2 with replay := [], txq := [], old := [], oldq := [], closeOwed := none, closing := false, part := [] }) }) s
  let s := raise (ringUnit e) bCSN sCont 0x0B none e (match x.held with | some (n, _) => n | none => 0) cause s
  if lost.any (fun m => m.mtype == 0x18 || m.mtype == 0x08) then raise (ringUnit e) bCSN sInfo 0x0B none e 0 0 s else s

/-- R370, R386: a context is killed: its streams close, with what stands in their queues. -/
def csnKill (c : Nat) (s : State) : State :=
  s.csn.engs.foldl (fun s p =>
    let e := p.1
    let s := ((getEng s e).tx.filter (·.ctx == c)).foldl (fun s t => match t.id with
      | some id => csnCtl e t.node t.eng 0x04 (natLE 2 id ++ natLE 1 1 ++ natLE 1 0) s
      | none => s) s
    modEng e (fun x => { x with
      tx := x.tx.filter (·.ctx != c), rx := x.rx.filter (·.ctx != c), inbox := x.inbox.filter fun m => m.cls == 0 || m.ctx != c,
      bufUsed := x.bufUsed - ((x.inbox.filter fun m => m.cls != 0 && m.ctx == c).map csnUnits).foldl (· + ·) 0 }) s) s

/-- R373: an engine's link is judged after its lanes change: ready again to the same partner it resumes, to another its
streams fail; not ready, the hold begins. -/
def linkJudge (e : Nat) (s : State) : State :=
  let x := getEng s e
  if linkReady s e then
    let p := engPartner s e
    let same := match x.held, p with
      | some (n, k), some q => n == q.node && k == q.nonce
      | _, _ => true
    let s := if same then s else linkFail e 4 s
    let s := modEng e (fun x => { x with downAt := none, held := p.map fun q => (q.node, q.nonce) }) s
    pumpAll e (closeSend e s)
  else if x.downAt.isNone && x.held.isSome then modEng e (fun x => { x with downAt := some s.now }) s
  else s

/-- Where a lane's fibres end on the front edge (R487): connector, position, row, column, wavelength. -/
structure Fibre where
  connector : Nat
  position : Nat
  row : Nat
  column : Nat
  wave : Nat
  deriving DecidableEq, Repr

/-- R487: the fibre of a lane of an engine: core 0 transmits, core 1 receives. -/
def fibreOf (e l : Nat) : Fibre :=
  let k := e % 8
  let p := 8 * (k % 4) + l / 2
  { connector := 2 * (e / 8) + k / 4, position := p, row := p / 16, column := p % 16, wave := l % 2 }

/-- R452: deliver one record: ring, MSI-X, MCTP, Cisan. -/
def errDeliver (s : State) : State :=
  match deliverIdx s.err.q with
  | none => s
  | some i =>
    match s.err.q[i]? with
    | none => s
    | some e =>
      let ring := bitN (regLive s 0x11000 0) 0
      let s1 := { s with err := { s.err with q := lmod s.err.q i fun e => { e with delivered := true, ringed := e.ringed || ring } } }
      let s2 := if ring then emit (ringWrite s e.r) s1 else s1
      let s3 := if bitN (regL s 0x11000 0 13 8) e.r.sev then emit (.msix 64) s2 else s2
      let s4 := if 2 ≤ e.r.sev then emit (.mctp 0x10 (errBytes e.r)) s3 else s3
      if bitN (regLive s 0xC004 0) 28 then csnFleet 7 0 (errBytes e.r) s4 else s4

end Sys2Proof.Machine
end

