-- ==== Sys2Proof/Machine/CellOps.lean ====
section
/-! DEFINITION. Shared operations of a cell: tags and their transitions (R71 to R80), poison and refetch (R74, R148, R149),
traps (R89), threads and registers, scrubs (R80, R81), accumulator banks (R99). -/
namespace Sys2Proof.Machine

/-! ### Access to a cell -/

/-- A cell by logical index. -/
def getCell (s : State) (l : Nat) : Cell := tget s.cells l {}

/-- Change a cell. -/
def modCell (l : Nat) (f : Cell → Cell) (s : State) : State := { s with cells := tset s.cells l (f (getCell s l)) }

/-- The tag word of a slot: unlisted slots are EMPTY and unassigned, slot 255 belongs to the module (R69, R71). -/
def tagOf (x : Cell) (slot : Nat) : Tag := tget x.tags slot { owner := if slot == 255 then ownerModule else ownerNone }

/-- Set a tag word. -/
def setTag (slot : Nat) (t : Tag) (x : Cell) : Cell := { x with tags := tset x.tags slot t }

/-- R71: the 32-bit tag word. -/
def tagWord (g : Tag) : Nat :=
  (match g.st with | .empty => 0 | .full => 1 | .resident => 2 | .poison => 3 | .scrub => 4) +
  8 * b2n g.pend + 16 * (g.cnt % 16) + 256 * b2n g.tile + 512 * b2n g.retried + 1024 * b2n g.wasres + 65536 * g.owner

/-- R72: the slots a tag operation on a slot applies to. -/
def unitSlots (x : Cell) (slot : Nat) : List Nat :=
  if (tagOf x slot).tile then (List.range 8).map (slot / 8 * 8 + ·) else [slot]

/-- R72: the tag-operation units that a list of slots covers, each by its first slot. -/
def unitHeads (x : Cell) (slots : List Nat) : List Nat :=
  (slots.map fun k => if (tagOf x k).tile then k / 8 * 8 else k).eraseDups

/-- Change the tags of a slot's unit. -/
def modUnit (slot : Nat) (f : Tag → Tag) (x : Cell) : Cell :=
  (unitSlots x slot).foldl (fun x k => setTag k (f (tagOf x k)) x) x

/-- The slots of a span (R67), and a change of all their tags. -/
def spanSlots (span : Nat) : List Nat := (List.range 8).map (8 * span + ·)
def modSpan (span : Nat) (f : Tag → Tag) (x : Cell) : Cell := (spanSlots span).foldl (fun x k => setTag k (f (tagOf x k)) x) x

/-- All slots that an operation on a list of slots touches (R72). -/
def tagAll (x : Cell) (slots : List Nat) : List Nat := (slots.flatMap (unitSlots x)).eraseDups

/-- R71, R72, R74: a slot or tile span enters EMPTY: counts, tile, retried and wasres clear, the trailer entry goes. -/
def toEmpty (slot : Nat) (x : Cell) : Cell :=
  let tile := (tagOf x slot).tile
  let y := modUnit slot (fun t => { t with st := .empty, cnt := 0, tile := false, retried := false, wasres := false }) x
  if tile then { y with trailers := tdel y.trailers (slot / 8) } else y

/-- R79: one consume of a FULL unit. -/
def consume (slot : Nat) (x : Cell) : Cell :=
  let t := tagOf x slot
  if t.st == .full then
    if t.cnt ≤ 1 then toEmpty slot x else modUnit slot (fun t => { t with cnt := t.cnt - 1 }) x
  else x

/-- R79: the consume count an operand gives; 0 counts as 1. -/
def cntOf (n : Nat) : Nat := if n % 16 == 0 then 1 else n % 16

/-- R74: a POISON slot that awaits its refetch. -/
def awaiting (x : Cell) (slot : Nat) : Bool := (tagOf x slot).st == .poison && (tget? x.refetch (slot / 8)).isSome

/-- What an access finds (R75, R76). -/
inductive Acc75 where
  | ok | wait | trap (c : Cause)
  deriving DecidableEq, Repr

/-- R75, R76: an access of a context's thread to a slot. R170: a read of a span that an ended pass gave up waits (DEDUCED, log 190). -/
def access (x : Cell) (ctx slot : Nat) (write : Bool) : Acc75 :=
  let t := tagOf x slot
  if !write && t.owner == ownerNone && x.reclaimed.contains (slot / 8) then .wait
  else if t.owner != ctx && t.owner != ownerPass then .trap .ownership
  else if write && t.owner == ownerPass then .trap .ownership
  else match t.st with
    | .empty => if write then .ok else .wait
    | .full => if write then .wait else .ok
    | .resident => .ok
    | .poison => if awaiting x slot then .wait else .trap .poison
    | .scrub => .wait

/-- The worst of several accesses: a trap first, then a wait. -/
def accessAll (x : Cell) (ctx : Nat) (slots : List Nat) (write : Bool) : Acc75 :=
  let rs := slots.map fun k => access x ctx k write
  match rs.find? (fun r => match r with | .trap _ => true | _ => false) with
  | some r => r
  | none => if rs.contains .wait then .wait else .ok

/-! ### Threads and registers (R66, R87) -/

/-- A thread of a cell. -/
def getTh (x : Cell) (th : Nat) : Thread := tget x.threads th {}

/-- Change a thread. -/
def modTh (th : Nat) (f : Thread → Thread) (x : Cell) : Cell := { x with threads := tset x.threads th (f (getTh x th)) }

/-- A general register; g0 reads as zero (R66). -/
def getG (t : Thread) (r : Nat) : Nat := if r == 0 then 0 else tget t.g r 0 % 2 ^ 32

/-- Write a general register; writes to g0 are discarded (R66). -/
def setG (r v : Nat) (t : Thread) : Thread := if r == 0 then t else { t with g := tset t.g r (v % 2 ^ 32) }

/-- A vector register. -/
def getV (t : Thread) (r : Nat) : Bytes := fitB (tget t.v r []) 64

/-- Write a vector register. -/
def setV (r : Nat) (b : Bytes) (t : Thread) : Thread := { t with v := tset t.v r (fitB b 64) }

/-- The next instruction. -/
def stepPc (t : Thread) : Thread := { t with pc := t.pc + 4, st := .run }

/-- A 512-bit register as 16 FP32 codes. -/
def lanes32 (b : Bytes) : List Nat := (List.range 16).map fun i => leField b (4 * i) 4

/-- A 512-bit register as 32 BF16 codes. -/
def lanes16 (b : Bytes) : List Nat := (List.range 32).map fun i => leField b (2 * i) 2

/-- Codes back into a register. -/
def ofLanes (w : Nat) (l : List Nat) : Bytes := l.flatMap (natLE w)

/-! ### Accumulator banks (R96, R99) -/

/-- An element of a bank. -/
def bankAt (x : Cell) (bank m n : Nat) : Nat := tget x.banks (64 * bank + 8 * m + n) 0

/-- Zero a bank. -/
def bankZero (bank : Nat) (x : Cell) : Cell := { x with banks := x.banks.filter fun e => e.1 / 64 != bank }

/-- The cells that a stream of a cell works in, ganged or not (R100). -/
def gangCells (gang : Bool) (l : Nat) : List Nat := if gang then clusterCells l else [l]

/-- The cells that a cell's program works in. -/
def gangOf (s : State) (l : Nat) : List Nat :=
  match (getCell s l).prog with
  | some p => gangCells p.gang l
  | none => [l]

/-- R89: streams of a cell are abandoned, running or queued; each zeroes its bank in every cell of its gang. -/
def abandonIf (go : Stream → Bool) (l : Nat) (s : State) : State :=
  let s := ((getCell s l).streams.filter go).foldl (fun s m => (gangCells m.gang l).foldl (fun s k => modCell k (bankZero m.bank) s) s) s
  modCell l (fun y => { y with streams := y.streams.filter fun m => !(go m) }) s

/-- R89: the streams and accumulator writes of a cell's program are abandoned. -/
def abandon (l : Nat) (s : State) : State :=
  let num := (getCell s l).prog.map (·.num)
  modCell l (fun y => { y with aouts := [] }) (abandonIf (fun m => some m.prog == num) l s)

/-! ### Tile identifiers (R140) -/

/-- Fields of an identifier. -/
def idBase (i : Nat) : Nat := i % 2 ^ 45
def idKind (i : Nat) : Nat := bitsN i 50 45
def idCtx (i : Nat) : Nat := bitsN i 61 52
def idClass (i : Nat) : Nat := bitsN i 63 62

/-- An identifier from its fields. -/
def mkIdent (cls ctx kind base : Nat) : Nat := base % 2 ^ 45 + kind * 2 ^ 45 + ctx * 2 ^ 52 + cls * 2 ^ 62

/-- R140: whether an identifier is valid; zero means none. -/
def identValid (i : Nat) : Bool :=
  i == 0 || ((idClass i == 1 || idClass i == 2 || idClass i == 3) && !bitN i 51 &&
    (decide (idKind i ≤ 5) || idKind i == 8 || idKind i == 9 || idKind i == 10 || idKind i == 16 || idKind i == 17) &&
    (idClass i != 1 || idCtx i == 0))

/-- R140: whether a tile can be read again from a tier. -/
def refetchable (i : Nat) : Bool :=
  (idClass i == 1 || idClass i == 2) && (decide (idKind i ≤ 5) || idKind i == 9 || idKind i == 17)

/-! ### Trailers (R137 to R144) -/

/-- Trailer bytes 4–27 from the fields the producer names and the checksum of the payload. -/
def trailerMid (alive format ident epoch lsum : Nat) : Bytes :=
  natLE 2 alive ++ natLE 2 format ++ natLE 8 ident ++ natLE 4 epoch ++ natLE 8 lsum

/-- The CRC profile with a number, as the profile registers stand (R157, R158). -/
def profileOf (s : State) (p : Nat) : Profile :=
  if p == 0 then profile0
  else
    let c := regLive s 0xE008 p
    { width := bitsN c 6 0, poly := regLive s 0xE00C p + 2 ^ 32 * regLive s 0xE010 p,
      init := regLive s 0xE014 p + 2 ^ 32 * regLive s 0xE018 p,
      refin := bitN c 8, refout := bitN c 9, xorout := bitN c 10, linear := bitN c 11, valid := bitN c 12 }

/-- The tile profile (R138). -/
def tileProfile (s : State) : Profile := profileOf s (regL s 0xE000 0 3 0)

/-- R137, R138, R143: form a trailer over a payload as it leaves its producer. -/
def formTrailer (s : State) (payload : Bytes) (alive format ident epoch : Nat) : Bytes :=
  let p := fitB payload 2048
  let mid := trailerMid alive format ident epoch (lsumTile (format % 256) p)
  natLE 4 (crcOf (tileProfile s) (p ++ mid)) ++ mid ++ natLE 4 0

/-- Trailer fields. -/
def trlCheck (t : Bytes) : Nat := leField t 0 4
def trlAlive (t : Bytes) : Nat := leField t 4 2
def trlFormat (t : Bytes) : Nat := leField t 6 2
def trlIdent (t : Bytes) : Nat := leField t 8 8
def trlEpoch (t : Bytes) : Nat := leField t 16 4
def trlLsum (t : Bytes) : Nat := leField t 20 8

/-- What a consumer names (R145); `none` names nothing. -/
structure Expect where
  ident : Option Nat := none
  alive : Option Nat := none
  epoch : Option Nat := none
  /-- Format codes the consumer accepts; none: every code of R113. -/
  formats : Option (List Nat) := none
  deriving DecidableEq, Repr

/-- The outcome of a verification (R146): verified, corrupt at a check 1 to 4, stale at check 5 or 6. -/
inductive Verdict where
  | ok | corrupt (check : Nat) | stale (check : Nat)
  deriving DecidableEq, Repr

/-- R113, R164: the layouts that exist. -/
def layoutOk (fmt : Nat) : Bool := decide (fmt / 256 ≤ 2)

/-- R146, R147: the six checks in order. Check 6 takes the epoch equal or newer (R177). -/
def verifyTile (s : State) (x : Expect) (payload trailer : Bytes) : Verdict :=
  let p := fitB payload 2048
  let f := trlFormat trailer
  if crcOf (tileProfile s) (p ++ sliceB trailer 4 24) != trlCheck trailer then .corrupt 1
  else if !((elemOf (f % 256)).isSome && layoutOk f && (match x.formats with | some l => l.contains f | none => true)) then .corrupt 2
  else if !(identValid (trlIdent trailer) && (match x.ident with | some i => trlIdent trailer == i | none => true)) then .corrupt 3
  else if lsumTile (f % 256) p != trlLsum trailer then .corrupt 4
  else if !(match x.alive with | some a => seqEqOrNewer 16 (trlAlive trailer) a | none => true) then .stale 5
  else if !(match x.epoch with | some e => seqEqOrNewer 32 (trlEpoch trailer) e | none => true) then .stale 6
  else .ok

/-! ### Traps (R89) -/

/-- The context and number of the program a cell runs. -/
def progCtx (x : Cell) : Option Nat := x.prog.map (·.ctx)

/-- The program of a cell stops: threads stop, streams are abandoned, slots passed meanwhile never start. -/
def stopProgram (l : Nat) (s : State) : State :=
  let s := abandon l s
  match (getCell s l).prog with
  | none => s
  | some _ => modCell l (fun x => { x with
      prog := none, noStart := slotNow s + 1,
      threads := x.threads.map fun e => (e.1, match e.2.st with
        | .run => { e.2 with st := .halted }
        | .wait _ _ => { e.2 with st := .halted }
        | .ldx _ => { e.2 with st := .halted }
        | _ => e.2) }) s

/-- R89: a thread traps at an instruction: its program stops, a contained record names it, its context's step fails. -/
def trapAt (l th pc : Nat) (c : Cause) (s : State) : State :=
  let x := getCell s l
  let s := modCell l (modTh th fun t => { t with st := .trapped c }) s
  let s := raise (cellUnit s l) bCEL sCont 0x04 (progCtx x) (l + th * 2 ^ 32) pc c.code s
  let s := stopProgram l s
  match progCtx x with
  | some ctx => stepFail ctx 1 c.code s
  | none => s

/-- R89: a thread traps at its next instruction. -/
def trap (l th : Nat) (c : Cause) (s : State) : State := trapAt l th (getTh (getCell s l) th).pc c s

/-- R89: what an instruction of a program meets later traps its thread while that program runs; after it, no thread: the same record, and the
context's step in progress fails. -/
def trapLate (l th pc prog ctx : Nat) (c : Cause) (s : State) : State :=
  if ((getCell s l).prog.map (·.num)) == some prog then trapAt l th pc c s
  else stepFail ctx 1 c.code (raise (cellUnit s l) bCEL sCont 0x04 (some ctx) (l + th * 2 ^ 32) pc c.code s)

/-- A matrix stream meets a trap (R75, R98): it is abandoned. -/
def streamTrap (l : Nat) (m : Stream) (c : Cause) (s : State) : State :=
  trapLate l m.th m.pc m.prog m.ctx c (abandonIf (fun k => k.bank == m.bank) l s)

/-- A remote operation meets a trap at its source (R75, R79). -/
def opTrap (l : Nat) (o : RemOp) (c : Cause) (s : State) : State := trapLate l o.th o.pc o.prog o.ctx c s

/-- R59: a stall of a cell, counted for the cell and for its unit. -/
def cellStall (l : Nat) (s : State) : State := stallEvent (cellUnit s l) (count bCEL 5 2 l s)

/-- R87: a cell starts a slot program. -/
def telStarted (l : Nat) (s : State) : State := { s with tel := { s.tel with started := tmod s.tel.started l 0 (· + 1) } }

/-- R87: the slots that a cell counts as unscheduled: those begun in which it has started no program and has none waiting to start. -/
def unscheduled (s : State) (l : Nat) : Nat :=
  s.tide.bnd - tget s.tel.started l 0 - ((getCell s l).sel.filter fun e => decide (e.1 ≤ slotNow s)).length

/-- R179: used: delivered minus unused, for an engine or a context (kind and instance). -/
def frsUsed (s : State) (k : Nat) : Nat := tget s.tel.vals (bFRS * 1024 * 2 ^ 22 + k) 0 - tget s.tel.vals ((bFRS * 1024 + 1) * 2 ^ 22 + k) 0

/-- R459: a counter's value; 0 where telemetry was left stopped (R413; DEDUCED, log 201). -/
def telValue (s : State) (key : Nat) : Nat :=
  if s.hdw.stopped.contains 10 then 0
  else if key / 2 ^ 20 == telKey bCEL 2 2 0 / 2 ^ 20 then unscheduled s (key % 2 ^ 20)
  else if key / 2 ^ 22 == bFRS * 1024 + 2 then frsUsed s (key % 2 ^ 22)
  else tget s.tel.vals key 0

/-- R461: every counter that is not zero, as a dump copies them. -/
def telCopy (s : State) : Tab Nat :=
  s.tel.vals ++ ((List.range 64).map fun e => (telKey bFRS 2 0 e, frsUsed s e)) ++ ((List.range 1024).map fun c => (telKey bFRS 2 1 c, frsUsed s (2 ^ 20 + c))) ++
  (if s.tide.bnd == 0 then [] else (List.range 1024000).map fun l => (telKey bCEL 2 2 l, unscheduled s l))

/-! ### Poison (R73, R74, R148, R149) -/

/-- The context that a slot's poison concerns: its owner, or for a pass-owned slot the program's. -/
def poisonCtx (x : Cell) (slot : Nat) : Option Nat :=
  if (tagOf x slot).owner < 1024 then some (tagOf x slot).owner else progCtx x

/-- R149: final POISON: the record names an identifier; the step fails. Codes of R326 class 2. -/
def finalAs (l slot code id : Nat) (s : State) : State :=
  let ctx := poisonCtx (getCell s l) slot
  let s := modCell l (fun x => { x with refetch := tdel x.refetch (slot / 8) }) s
  let s := raise (cellUnit s l) bCHK sCont 0x03 ctx (l + slot / 8 * 2 ^ 32) id code s
  match ctx with
  | some c => stepFail c 2 code s
  | none => s

/-- Final POISON of a span whose identifier stands in its trailer entry, or of a slot without one. -/
def finalPoison (l slot code : Nat) (s : State) : State :=
  finalAs l slot code (trlIdent (tget (getCell s l).trailers (slot / 8) [])) s

/-- A span awaits its refetch: retried is set and the request leaves over Rill (R74, R148). -/
def askRefetch (l span : Nat) (what : RefetchOf) (s : State) : State :=
  let s := modCell l (fun x => { modSpan span (fun t => { t with retried := true }) x with refetch := tset x.refetch span what }) s
  match what with
  | .ident i => send (.refetchReq l span i none) s
  | _ => s

/-- R73, R74: an uncorrectable error in a read makes a FULL or RESIDENT slot or span POISON. -/
def poisonSlot (l slot : Nat) (s : State) : State :=
  let x := getCell s l
  let t := tagOf x slot
  if t.st == .full || t.st == .resident then
    let s1 := modCell l (modUnit slot fun t => { t with st := .poison, cnt := 0, wasres := t.st == .resident }) s
    let id := trlIdent (tget x.trailers (slot / 8) [])
    if !t.tile then finalPoison l slot 5 s1
    else if t.retried then finalPoison l slot 3 s1
    else if refetchable id then askRefetch l (slot / 8) (.ident id) s1
    else finalPoison l slot 5 s1
  else s

/-- R151: an uncorrectable error in a landed span's trailer entry: the identifier is lost with it. -/
def trailerLost (l slot : Nat) (s : State) : State :=
  let t := tagOf (getCell s l) slot
  if t.tile && (t.st == .full || t.st == .resident) then
    finalAs l slot 6 0 (modCell l (fun x =>
      { modUnit slot (fun t => { t with st := .poison, cnt := 0, wasres := t.st == .resident }) x with trailers := tdel x.trailers (slot / 8) }) s)
  else s

/-- R401, R402: the cluster of a cell is suspect; if it is already, its die is to be tested whole. -/
def suspectCell (l : Nat) (s : State) : State :=
  let h := gangLeader l
  let site := dieSite s (logDie80 l)
  if (tget? s.bst.suspect h).isSome then
    if s.bst.tests.any (·.site == site) then s else { s with bst := { s.bst with tests := s.bst.tests ++ [{ site := site }] } }
  else { s with bst := { s.bst with suspect := tset s.bst.suspect h 0 } }

/-- R83: an uncorrectable tag word stops the program as a trap does; the step fails with class 8; the cell goes to test. -/
def tagFailure (l slot : Nat) (s : State) : State :=
  let x := getCell s l
  let s := stopProgram l s
  let s := raise (cellUnit s l) bCEL sCont 0x02 (progCtx x) l (slot * 256) 8 s
  let s := modCell l (fun x => { x with suspect := true }) s
  let s := suspectCell l s
  match progCtx x with
  | some ctx => stepFail ctx 8 0 s
  | none => s

/-- R83: a correction: count, record, write-back due. -/
def corrected (l addr : Nat) (s : State) : State :=
  let s := count bCEL 3 2 l s
  let s := raise (cellUnit s l) bCEL sCorr 0x01 (progCtx (getCell s l)) (l + addr * 2 ^ 32) 0 0 s
  modCell l (fun x => { x with writeback := addN x.writeback (addr / 16 * 16) }) s

/-- R83: what a read of a slot's word does to the cell before its data is used. `true`: the data may be used. -/
def eccRead (l addr : Nat) (e : Ecc) (s : State) : State × Bool :=
  match e with
  | .clean => (s, true)
  | .corrected => (corrected l addr s, true)
  | .tagCorrected => (corrected l addr s, true)
  | .trailerCorrected => (corrected l addr s, true)
  | .flagCorrected => (s, true)
  | .flagDouble => (s, true)
  | .fetch _ => (s, true)
  | .fetchTag _ => (s, true)
  | .double => (poisonSlot l (addr / 256) s, false)
  | .trailer => (trailerLost l (addr / 256) s, false)
  | .tagDouble => (tagFailure l (addr / 256) s, false)

/-- What an access that reads no data finds in the slot's tag word (R83). -/
def tagRead (l addr : Nat) (e : Ecc) (s : State) : State × Bool :=
  match e with
  | .tagCorrected => (corrected l addr s, true)
  | .tagDouble => (tagFailure l (addr / 256) s, false)
  | _ => (s, true)

/-- What a read of a span's block-flag word finds (R83, R95). One that cannot be corrected is cleared: the span is treated as one whose trailer
entry, beside which the word is kept, is lost; one with no trailer entry as one whose data is (DESIGN CHOICE, log 178). -/
def flagRead (l addr : Nat) (e : Ecc) (s : State) : State :=
  let slot := addr / 256
  match e with
  | .flagCorrected => corrected l addr s
  | .flagDouble =>
    let s := modCell l (fun x => { x with flags := tdel x.flags (slot / 8) }) s
    if (tagOf (getCell s l) slot).tile then trailerLost l slot s
    else if (tagOf (getCell s l) slot).st == .empty then raise (cellUnit s l) bCEL sCont 0x02 (progCtx (getCell s l)) (l + addr * 2 ^ 32) 0 0 s
    else poisonSlot l slot s
  | _ => s

/-! ### Operations outstanding in a DMA -/

/-- A remote operation of a cell by number. -/
def findOp (x : Cell) (op : Nat) : Option RemOp := x.ops.find? (·.id == op)

/-- An operation leaves the DMA. -/
def dropOp (l op : Nat) (s : State) : State := modCell l (fun x => { x with ops := x.ops.filter (·.id != op) }) s

/-- Change an operation. -/
def modOp (l op : Nat) (f : RemOp → RemOp) (s : State) : State :=
  modCell l (fun x => { x with ops := x.ops.map fun o => if o.id == op then f o else o }) s

/-! ### What a delivery's cells report to its engine (R169) -/

/-- An engine. -/
def getFrs (s : State) (e : Nat) : Frs := tget s.frs e {}

/-- Change an engine. -/
def modFrs (e : Nat) (f : Frs → Frs) (s : State) : State := { s with frs := tset s.frs e (f (getFrs s e)) }

/-- Change a delivery. -/
def modDel (e did : Nat) (f : Del → Del) (s : State) : State :=
  modFrs e (fun x => { x with dels := x.dels.map fun d => if d.did == did then f d else d }) s

/-- A cell has landed a delivery. -/
def delLanded (e did l : Nat) (s : State) : State :=
  modDel e did (fun d => { d with waiting := d.waiting.filter (· != l), landed := d.landed + 1, landTick := s.now }) s

/-- A delivery is over at a cell that has not landed it. -/
def delEnded (e did l : Nat) (s : State) : State := modDel e did (fun d => { d with waiting := d.waiting.filter (· != l) }) s

/-- The contexts to which the counts of a delivery's group go (R171). -/
def delCtxs (s : State) (e did : Nat) : List Nat :=
  match (getFrs s e).dels.find? (·.did == did) with
  | none => []
  | some d => match ((getFrs s e).passes ++ (getFrs s e).past).find? (·.id == d.pass) with
    | none => []
    | some p => match p.grps[d.grp]? with
      | some g => if g.all then p.ctxs else [g.ctx]
      | none => []

/-- Count for an engine and for the contexts of a delivery's group. -/
def countDel (num e did : Nat) (s : State) : State := (delCtxs s e did).foldl (fun s c => count bFRS num 1 c s) (count bFRS num 0 e s)

/-- A cell has found a delivery stale (R150, R177). -/
def delStale (e did l : Nat) (s : State) : State :=
  countDel 5 e did (modDel e did (fun d => { d with waiting := d.waiting.filter (· != l), stale := addN d.stale l }) s)

/-- A fill is over: its operation or its delivery is told. -/
def fillOver (l : Nat) (f : Fill) (landed : Bool) (s : State) : State :=
  match f.kind with
  | .fetch op => dropOp l op s
  | .delivery e did => if landed then delLanded e did l s else delEnded e did l s
  | .refetch (some e) did => if landed then delLanded e did l s else delEnded e did l s
  | .notice e did _ => delEnded e did l s
  | .refetch none op => dropOp l op s
  | _ => s

/-! ### Scrubs (R80, R81) -/

/-- Whether a fill covers one of some slots. -/
def fillHits (slots : List Nat) (f : Fill) : Bool := slots.any fun k => decide (f.addr / 256 ≤ k) && decide (k ≤ (f.addr + f.len - 1) / 256)

/-- R72, R73, R75, R81: slots, with the whole of a tile span that one of them belongs to, enter SCRUB for a new owner. Fills held for them are
discarded and counted, refetches of their spans go. -/
def scrubSlots (l : Nat) (slots : List Nat) (owner : Nat) (kill : Option Nat) (s : State) : State :=
  if slots.isEmpty then s
  else
    let all := tagAll (getCell s l) slots
    let held := (getCell s l).fills.filter (fillHits all)
    let s := modCell l (fun x =>
      let y := all.foldl (fun y k => setTag k { tagOf y k with st := .scrub, pend := false, cnt := 0, tile := false } y) x
      { y with
        scrubs := y.scrubs ++ [{ slots := all, owner := owner, kill := kill }],
        refetch := y.refetch.filter fun e => !(all.any fun k => k / 8 == e.1),
        reclaimed := if owner == ownerNone then y.reclaimed else y.reclaimed.filter fun sp => !(all.any fun k => k / 8 == sp),
        fills := y.fills.filter fun f => !(fillHits all f) }) s
    held.foldl (fun s f => fillOver l f false (count bCHK 2 2 l s)) s

/-- R80: zeroing of a scrub's slots is complete: zeros, EMPTY, the new owner, no trailer entries, no block flags. -/
def scrubFinish (sc : Scrub) (x : Cell) : Cell :=
  let y := sc.slots.foldl (fun y k => setTag k { owner := sc.owner } y) x
  let spans := (sc.slots.map (· / 8)).eraseDups
  { y with
    mem := sc.slots.foldl (fun m k => bzero m (256 * k) 256) y.mem,
    trailers := y.trailers.filter fun e => !(spans.contains e.1),
    flags := y.flags.filter fun e => !(spans.contains e.1) }

/-- The slots a context owns on a cell (R81). -/
def ownedSlots (x : Cell) (c : Nat) : List Nat := (x.tags.filter fun e => e.2.owner == c).map (·.1)

/-- R81 steps 1 to 4: a kill takes effect on a cell. -/
def cellKill (l c : Nat) (s : State) : State :=
  let mine := progCtx (getCell s l) == some c
  let s := abandonIf (fun m => m.ctx == c) l s
  let s := modCell l (fun x =>
    let banks := [0, 1].filter fun b => tget? x.bankOf b == some c
    let x := { banks.foldl (fun x b => bankZero b x) x with bankOf := x.bankOf.filter fun e => e.2 != c }
    if mine then { x with prog := none, aouts := [], threads := x.threads.map fun e => (e.1, { e.2 with st := .idle }) } else x) s
  let s := modCell l (fun x => { x with ops := x.ops.filter (·.ctx != c), sel := x.sel.filter (·.2.1 != c), contrib := x.contrib.filter (·.ctx != c) }) s
  scrubSlots l (ownedSlots (getCell s l) c) ownerNone (some c) s

end Sys2Proof.Machine
end

