-- ==== Sys2Proof/Machine/CellExec.lean ====
section
/-! DEFINITION. What a thread's instruction does in a cell (R68 to R105): the memory, tag and array-issue classes, with the
wait of R75 held in the thread. -/
namespace Sys2Proof.Machine

/-- The thread waits to perform an instruction (R75, R77, R90); the stall is counted (R59). -/
def threadWait (l th : Nat) (i : Sir) (since : Nat) (s : State) : State :=
  cellStall l (modCell l (modTh th fun t => { t with st := .wait i since }) s)

/-- A thread's instruction completes. -/
def done (l th : Nat) (f : Thread → Thread) (s : State) : State := modCell l (modTh th fun t => stepPc (f t)) s

/-- Sign extension of an offset field. -/
def sx {n : Nat} (v : BitVec n) : Int := v.toInt

/-- R102: an effective address. -/
def effAddr (t : Thread) (rb : Nat) (off : Int) : Nat := unsN 32 ((getG t rb : Int) + off)

/-- The slots of a byte range. -/
def slotsOf (a n : Nat) : List Nat := (List.range (((a + n - 1) / 256) - a / 256 + 1)).map (a / 256 + ·)

/-- Bytes of a narrow access (R68, R102). -/
def szBytes (sz : Nat) : Nat := 2 ^ sz

/-- LDN (R68, R75, R102). -/
def goLdn (l th ctx : Nat) (i : Sir) (rt rb sz : Nat) (sxb : Bool) (off : Int) (since : Nat) (e : Ecc) (s : State) : State :=
  let t := getTh (getCell s l) th
  let a := effAddr t rb off
  if sz == 3 then trap l th .illegal s
  else if a % szBytes sz != 0 then trap l th .alignment s
  else if a > 0xFEFF then trap l th .address s
  else
    let go (s : State) : State :=
      let v := leNat (bread (getCell s l).mem a (szBytes sz))
      let v := if sxb then unsN 32 (sgnN (8 * szBytes sz) v) else v
      done l th (setG rt v) s
    match access (getCell s l) ctx (a / 256) false with
    | .trap c => trap l th c s
    | .wait => threadWait l th i since s
    | .ok =>
      let (s, fine) := eccRead l a e s
      if fine then go s
      else if e == .tagDouble then s
      else match access (getCell s l) ctx (a / 256) false with
        | .trap c => trap l th c s
        | .wait => threadWait l th i since s
        | .ok => go s

/-- The store of STN, performed. -/
def storeNarrow (l th rt a n : Nat) (s : State) : State :=
  let v := getG (getTh (getCell s l) th) rt
  done l th id (modCell l (fun x => { x with mem := bwrite x.mem a (natLE n v) }) s)

/-- STN (R68): the read of its read-modify-write is a read of the slot for R73 and R83. -/
def goStn (l th ctx : Nat) (i : Sir) (rt rb sz : Nat) (off : Int) (since : Nat) (e : Ecc) (s : State) : State :=
  let t := getTh (getCell s l) th
  let a := effAddr t rb off
  if sz == 3 then trap l th .illegal s
  else if a % szBytes sz != 0 then trap l th .alignment s
  else if a > 0xFEFF then trap l th .address s
  else match access (getCell s l) ctx (a / 256) true with
    | .trap c => trap l th c s
    | .wait => threadWait l th i since s
    | .ok =>
      if e == .double && (tagOf (getCell s l) (a / 256)).st == .empty then
        -- R68: in an EMPTY slot the other bytes of the word become zero, and a contained record names the word
        let s := modCell l (fun x => { x with mem := bzero x.mem (a / 16 * 16) 16 }) s
        storeNarrow l th rt a (szBytes sz) (raise (cellUnit s l) bCEL sCont 0x02 (some ctx) (l + a / 16 * 16 * 2 ^ 32) 0 0 s)
      else
        let (s, fine) := eccRead l a e s
        if fine then storeNarrow l th rt a (szBytes sz) s
        else if e == .tagDouble then s
        else match access (getCell s l) ctx (a / 256) true with
          | .trap c => trap l th c s
          | .wait => threadWait l th i since s
          | .ok => storeNarrow l th rt a (szBytes sz) s

/-- VLD (R68, R79, R102): rel consumes the slot once after the read. -/
def goVld (l th ctx : Nat) (i : Sir) (vt rb : Nat) (rel : Bool) (off : Int) (since : Nat) (e : Ecc) (s : State) : State :=
  let t := getTh (getCell s l) th
  let a := effAddr t rb (64 * off)
  if a % 64 != 0 then trap l th .alignment s
  else if a > 0xFEFF then trap l th .address s
  else
    let go (s : State) : State :=
      if rel && (tagOf (getCell s l) (a / 256)).st != .full then trap l th .tagProtocol s
      else
        let b := bread (getCell s l).mem a 64
        let s := done l th (setV vt b) s
        if rel then modCell l (consume (a / 256)) s else s
    match access (getCell s l) ctx (a / 256) false with
    | .trap c => trap l th c s
    | .wait => threadWait l th i since s
    | .ok =>
      let (s, fine) := eccRead l a e s
      if fine then go s
      else if e == .tagDouble then s
      else match access (getCell s l) ctx (a / 256) false with
        | .trap c => trap l th c s
        | .wait => threadWait l th i since s
        | .ok => go s

/-- VST (R68, R75, R102). -/
def goVst (l th ctx : Nat) (i : Sir) (vt rb : Nat) (off : Int) (since : Nat) (e : Ecc) (s : State) : State :=
  let t := getTh (getCell s l) th
  let a := effAddr t rb (64 * off)
  if a % 64 != 0 then trap l th .alignment s
  else if a > 0xFEFF then trap l th .address s
  else
    let (s, fine) := tagRead l a e s
    if !fine then s
    else match access (getCell s l) ctx (a / 256) true with
    | .trap c => trap l th c s
    | .wait => threadWait l th i since s
    | .ok => done l th id (modCell l (fun x => { x with mem := bwrite x.mem a (getV (getTh x th) vt) }) s)

/-! ### Remote operations (R91 to R93, R102) -/

/-- Bytes that a length code names; none where the code is illegal. -/
def remLen (code : Nat) : Option Nat :=
  match code with | 0 => some 64 | 1 => some 256 | 2 => some 2048 | _ => none

/-- A remote address (R91). -/
def remoteAddr (t : Thread) (ra : Nat) : Nat := getG t ra + 2 ^ 32 * getG t (ra + 1)

def remSpace (r : Nat) : Nat := bitsN r 63 60
def remCell (r : Nat) : Nat := bitsN r 51 32
def remSpad (r : Nat) : Nat := bitsN r 15 0
def remMem (r : Nat) : Nat := bitsN r 47 0

/-- R89, R91, R102: what is wrong with a remote address for a length, if anything. -/
def remoteBad (r n : Nat) : Option Cause :=
  if remSpace r == 0 then
    if remSpad r % n != 0 then some .alignment
    else if !(decide (remCell r < 1024000)) || remSpad r + n > 0xFF00 then some .address
    else none
  else if remSpace r == 1 then (if n == 4 && r % 4 != 0 then some .alignment else none)
  else some .address

/-- An operation's number and its place in the DMA. -/
def pushOp (l : Nat) (o : RemOp) (s : State) : State :=
  modCell l (fun x => { x with ops := x.ops ++ [o], nextOp := x.nextOp + 1 }) s

/-- The request of a remote operation leaves for its target (R92); memory-space requests enter at the stack or agent. -/
def leaveOp (l : Nat) (o : RemOp) (s : State) : State :=
  if remSpace o.remote == 0 then
    match o.kind with
    | .send => send (.sendReq l o.id none) s
    | _ => send (.readReq l o.id (remCell o.remote) (remSpad o.remote) o.len o.ctx none) s
  else s

/-- FETCH (R92): a destination in SCRUB traps, with the tag-protocol cause (DESIGN CHOICE, log 179: R92 names the trap, R75's local write has no
cause for it). -/
def goFetch (l th ctx : Nat) (i : Sir) (ra rl len cnt : Nat) (since : Nat) (e : Ecc) (s : State) : State :=
  let x := getCell s l
  let t := getTh x th
  match remLen len with
  | none => trap l th .illegal s
  | some n =>
    if ra % 2 == 1 then trap l th .illegal s
    else
      let a := getG t rl % 65536
      let r := remoteAddr t ra
      if a % n != 0 then trap l th .alignment s
      else match remoteBad r n with
        | some c => trap l th c s
        | none =>
          if a + n > 0xFF00 then trap l th .address s
          else
            let slots := slotsOf a n
            let (s, fine) := tagRead l a e s
            if !fine then s
            else match accessAll x ctx slots true with
            | .trap c => trap l th c s
            | _ =>
              if slots.any (fun k => (tagOf x k).st == .scrub) then trap l th .tagProtocol s
              else if slots.all (fun k => (tagOf x k).st == .empty && !(tagOf x k).pend) && x.ops.length < 16 then
                let o : RemOp := { id := x.nextOp, kind := .fetch, th := th, ctx := ctx, pc := t.pc, prog := x.progs, remote := r, loc := a, len := n, cnt := cnt, rel := false, rt := 0, st := .asked }
                let s := modCell l (fun x => slots.foldl (fun x k => setTag k { tagOf x k with pend := true } x) x) s
                done l th id (leaveOp l o (pushOp l o s))
              else threadWait l th i since s

/-- SEND (R92, R143, R144): it reserves its destination first. -/
def goSend (l th ctx : Nat) (i : Sir) (ra rl len cnt : Nat) (rel : Bool) (since : Nat) (e : Ecc) (s : State) : State :=
  let x := getCell s l
  let t := getTh x th
  match remLen len with
  | none => trap l th .illegal s
  | some n =>
    if ra % 2 == 1 then trap l th .illegal s
    else
      let a := getG t rl % 65536
      let r := remoteAddr t ra
      if a % n != 0 then trap l th .alignment s
      else match remoteBad r n with
        | some c => trap l th c s
        | none =>
          if a + n > 0xFF00 then trap l th .address s
          else
            let (s, fine) := tagRead l a e s
            if !fine then s
            else match accessAll x ctx (slotsOf a n) false with
            | .trap c => trap l th c s
            | .wait => threadWait l th i since s
            | .ok =>
              if x.ops.length < 16 then
                let o : RemOp := { id := x.nextOp, kind := .send, th := th, ctx := ctx, pc := t.pc, prog := x.progs, remote := r, loc := a, len := n, cnt := cnt, rel := rel, rt := 0, tmpl := t.tmpl, st := .asked }
                done l th id (leaveOp l o (pushOp l o s))
              else threadWait l th i since s

/-- LDX (R92): the thread waits for its data. -/
def goLdx (l th ctx : Nat) (i : Sir) (rt ra : Nat) (since : Nat) (s : State) : State :=
  let x := getCell s l
  let t := getTh x th
  if ra % 2 == 1 then trap l th .illegal s
  else
    let r := remoteAddr t ra
    match remoteBad r 4 with
    | some c => trap l th c s
    | none =>
      if x.ops.length < 16 then
        let o : RemOp := { id := x.nextOp, kind := .ldx, th := th, ctx := ctx, pc := t.pc, prog := x.progs, remote := r, loc := 0, len := 4, cnt := 0, rel := false, rt := rt, st := .asked }
        leaveOp l o (pushOp l o (modCell l (modTh th fun t => { t with st := .ldx o.id }) s))
      else threadWait l th i since s

/-! ### Tag operations (R72, R76, R79, R103) -/

/-- R103: the slots of a TAG instruction; `none` where the span includes slot 255. -/
def tagSpan (t : Thread) (rs n : Nat) (slot : Nat) : Option (List Nat) :=
  let b := (getG t rs / 256 % 256 + slot) % 256
  let l := (List.range (n + 1)).map fun i => (b + i) % 256
  if l.contains 255 then none else some l

/-- R76: whether every slot may be named by a tag operation. -/
def tagOwned (x : Cell) (ctx : Nat) (slots : List Nat) : Bool :=
  slots.all fun k => (tagOf x k).owner == ctx || (tagOf x k).owner == ownerPass

/-- TAG operations (R79). Operation numbers are those of R103. -/
def goTag (l th ctx : Nat) (i : Sir) (op rs rc n slot : Nat) (since : Nat) (e : Ecc) (s : State) : State :=
  let t := getTh (getCell s l) th
  if 7 ≤ op then trap l th .illegal s
  else match tagSpan t rs n slot with
  | none => trap l th .address s
  | some slots =>
    let (s, fine) := tagRead l (256 * slots.headD 0) e s
    let x := getCell s l
    let all := tagAll x slots
    let st (k : Nat) : TagSt := (tagOf x k).st
    let mine (k : Nat) : Bool := (tagOf x k).owner == ctx
    if !fine then s
    else if op == 0 && all.any (fun k => (tagOf x k).owner == ownerNone && x.reclaimed.contains (k / 8)) then threadWait l th i since s
    else if !(tagOwned x ctx all) then trap l th .ownership s
    else if all.any (fun k => st k == .scrub) then trap l th .tagProtocol s
    else if op == 6 then
      done l th (setG rc (tagWord (tagOf x (slots.headD 0)))) s
    else if op == 0 then
      if all.any (fun k => st k == .poison && !awaiting x k) then trap l th .poison s
      else if all.all (fun k => st k == .full || st k == .resident) then done l th id s
      else threadWait l th i since s
    else if all.any (fun k => st k == .poison && !awaiting x k) then trap l th .poison s
    else if all.any (fun k => st k == .poison) then threadWait l th i since s
    else if op == 1 then
      if all.all (fun k => st k == .empty && !(tagOf x k).pend) then done l th id s else threadWait l th i since s
    else if op == 2 then
      if all.all (fun k => st k == .empty && !(tagOf x k).pend && mine k) then
        let c := cntOf (getG t rc)
        done l th id (modCell l (fun x => all.foldl (fun x k => setTag k { tagOf x k with st := .full, cnt := c } x) x) s)
      else trap l th .tagProtocol s
    else if op == 3 then
      if all.all (fun k => st k == .full) then
        done l th id (modCell l (fun x => (unitHeads x slots).foldl (fun x k => consume k x) x) s)
      else trap l th .tagProtocol s
    else if op == 4 then
      if all.all (fun k => (st k == .full || (st k == .empty && !(tagOf x k).pend)) && mine k) then
        done l th id (modCell l (fun x => all.foldl (fun x k => setTag k { tagOf x k with st := .resident, cnt := 0 } x) x) s)
      else trap l th .tagProtocol s
    else
      if all.all (fun k => st k == .resident && mine k) then
        done l th id (modCell l (fun x => (unitHeads x slots).foldl (fun x k => toEmpty k x) x) s)
      else trap l th .tagProtocol s

/-! ### Array issue (R96, R99, R100, R104) -/

/-- The element code of a format code of AMM (R96). -/
def ammCode (fmt : Nat) : Nat :=
  match fmt with
  | 0 => 0x03 | 1 => 0x04 | 2 => 0x10 | 3 => 0x11 | 4 => 0x12 | 5 => 0x13 | 6 => 0x14 | _ => 0x02

/-- R96, R104: whether K suits its format. -/
def kOk (fmt k : Nat) : Bool :=
  decide (1 ≤ k) && decide (k ≤ 65535) && (if 2 ≤ fmt && fmt ≤ 6 then k % 32 == 0 else if fmt == 7 then k % 2 == 0 else true)

/-- The cells that read A rows and B columns for a stream, with their cluster row or column (R100). -/
def aCells (gang : Bool) (l : Nat) : List (Nat × Nat) := if gang then (List.range 4).map fun i => ((clusterCells l).getD (4 * i) l, i) else [(l, 0)]
def bCells (gang : Bool) (l : Nat) : List (Nat × Nat) := if gang then (List.range 4).map fun j => ((clusterCells l).getD j l, j) else [(l, 0)]

/-- AMM (R99, R104): the stream takes its bank's queue entry. A gang one of whose cells is unavailable at issue is treated as broken during the
stream (DESIGN CHOICE, log 180); so is an AOUT. -/
def goAmm (l th ctx : Nat) (gang : Bool) (i : Sir) (ra rb rk fmt : Nat) (acc : Bool) (bank : Nat) (relA relB : Bool) (since : Nat) (s : State) : State :=
  let x := getCell s l
  let t := getTh x th
  let a := getG t ra
  let b := getG t rb
  let k := getG t rk % 65536
  let n := panelBytes (ammCode fmt) k
  if gang && gangLeader l != l then trap l th .gang s
  else if !(kOk fmt k) then trap l th .illegal s
  else if a % 64 != 0 || b % 64 != 0 then trap l th .alignment s
  else if a + n > 0xFF00 || b + n > 0xFF00 then trap l th .address s
  else if gang && !((clusterCells l).all (cellUsable s)) then trap l th .gang s
  else if x.streams.any (·.bank == bank) then threadWait l th i since s
  else
    let m : Stream := { ctx := ctx, gang := gang, prog := x.progs, pc := t.pc, bank := bank, a := a, b := b, k := k, fmt := fmt, acc := acc, relA := relA, relB := relB, th := th, st := .queued }
    done l th id (modCell l (fun x => { x with streams := x.streams ++ [m] }) s)

/-- AOUT (R99, R104): the request; the thread is not ready until its bank has been written. -/
def goAout (l th ctx : Nat) (gang : Bool) (i : Sir) (rd rc ofmt : Nat) (pub : Bool) (bank : Nat) (since : Nat) (e : Ecc) (s : State) : State :=
  let x := getCell s l
  let t := getTh x th
  let d := getG t rd
  let n := if ofmt == 1 then 128 else 256
  if gang && gangLeader l != l then trap l th .gang s
  else if ofmt > 1 then trap l th .illegal s
  else if d % n != 0 then trap l th .alignment s
  else if d > 0xFEFF then trap l th .address s
  else if gang && !((clusterCells l).all (cellUsable s)) then trap l th .gang s
  else
    let (s, fine) := tagRead l d e s
    if !fine then s
    else match access x ctx (d / 256) true with
    | .trap c => trap l th c s
    | _ =>
      let o : AoutOp := { th := th, bank := bank, dst := d, ofmt := ofmt, pub := pub, cnt := getG t rc % 16, srN := t.srN }
      let s := modCell l (fun x => { x with aouts := x.aouts ++ [o] }) s
      modCell l (modTh th fun t => { t with st := .wait i since, srN := if ofmt == 1 then t.srN + 1 else t.srN }) s

/-! ### The encodings of Sirdor (R101 to R104) -/

/-- A register field. -/
def regF (w lo : Nat) : Fin 32 := Fin.ofNat 32 (bitsN w (lo + 4) lo)

/-- The instruction that a word spells in the memory, tag and array-issue classes; reserved bits are ignored (R9). -/
def sirOf (w : Nat) : Option Sir :=
  match bitsN w 31 26 with
  | 0b010000 => some (.ldn (regF w 21) (regF w 16) (Fin.ofNat 4 (bitsN w 15 14)) (bitN w 13) (BitVec.ofNat 12 w))
  | 0b010001 => some (.stn (regF w 21) (regF w 16) (Fin.ofNat 4 (bitsN w 15 14)) (BitVec.ofNat 12 w))
  | 0b010010 => some (.vld (Fin.ofNat 8 (bitsN w 25 23)) (regF w 16) (bitN w 15) (BitVec.ofNat 10 w))
  | 0b010011 => some (.vst (Fin.ofNat 8 (bitsN w 25 23)) (regF w 16) (BitVec.ofNat 10 w))
  | 0b010100 =>
    if bitN w 12 then some (.send (regF w 21) (regF w 16) (Fin.ofNat 8 (bitsN w 15 13)) (Fin.ofNat 16 (bitsN w 11 8)) (bitN w 7))
    else some (.fetch (regF w 21) (regF w 16) (Fin.ofNat 8 (bitsN w 15 13)) (Fin.ofNat 16 (bitsN w 11 8)))
  | 0b010101 => some (.ldx (regF w 21) (regF w 16))
  | 0b011000 =>
    -- R103: rc is ignored but for TFULL and TSTAT
    let op := bitsN w 15 12
    some (.tag (Fin.ofNat 16 op) (regF w 21) (if op == 2 || op == 6 then regF w 16 else 0) (Fin.ofNat 16 (bitsN w 11 8)) (BitVec.ofNat 8 w))
  | 0b011100 => some (.amm (regF w 21) (regF w 16) (regF w 11) (Fin.ofNat 8 (bitsN w 10 8)) (bitN w 7) (Fin.ofNat 2 (bitsN w 6 6)) (bitN w 5) (bitN w 4))
  | 0b011101 => some (.aout (regF w 21) (regF w 16) (Fin.ofNat 4 (bitsN w 15 14)) (bitN w 13) (Fin.ofNat 2 (bitsN w 12 12)))
  | _ => none

/-- The instruction word at an address of a scratchpad. -/
def codeWord (x : Cell) (pc : Nat) : Nat := leNat (bread x.mem pc 4)

/-! ### One entry for every instruction that a thread can be made to wait in -/

/-- R88: the code slot is RESIDENT and owned by the program's context. Any other state traps with the fetch cause, where R75 lets a read wait
(DESIGN CHOICE, log 181). -/
def fetchOk (x : Cell) (ctx pc : Nat) : Bool :=
  pc % 4 == 0 && decide (pc < 65536) && (tagOf x (pc / 256)).st == .resident && (tagOf x (pc / 256)).owner == ctx

/-- Perform an instruction in a thread, waiting since a boundary count if it must. -/
def doSir (l th : Nat) (i : Sir) (since : Nat) (e : Ecc) (s : State) : State :=
  let x := getCell s l
  match x.prog with
  | none => s
  | some p =>
    match i with
      | .ldn rt rb sz sxb off => goLdn l th p.ctx i rt rb sz sxb (sx off) since e s
      | .stn rt rb sz off => goStn l th p.ctx i rt rb sz (sx off) since e s
      | .vld vt rb rel off => goVld l th p.ctx i vt rb rel (sx off) since e s
      | .vst vt rb off => goVst l th p.ctx i vt rb (sx off) since e s
      | .fetch ra rl len cnt => goFetch l th p.ctx i ra rl len cnt since e s
      | .send ra rl len cnt rel => goSend l th p.ctx i ra rl len cnt rel since e s
      | .ldx rt ra => goLdx l th p.ctx i rt ra since s
      | .tag op rs rc n slot => goTag l th p.ctx i op rs rc n slot.toNat since e s
      | .amm ra rb rk fmt acc bank relA relB => goAmm l th p.ctx p.gang i ra rb rk fmt acc bank relA relB since s
      | .aout rd rc ofmt pub bank => goAout l th p.ctx p.gang i rd rc ofmt pub bank since e s

/-- R73, R83, R88: a ready thread's instruction is fetched, and what it does follows. -/
def fetchGo (l th : Nat) (e : Ecc) (f : Prog → State → State) (s : State) : State :=
  let x := getCell s l
  match x.prog with
  | none => s
  | some p =>
    let pc := (getTh x th).pc
    if (getTh x th).st != .run then s
    else if !(fetchOk x p.ctx pc) then trap l th .fetch s
    else match e with
      | .fetch bad => if bad then trap l th .fetch (poisonSlot l (pc / 256) s) else f p (corrected l pc s)
      | .fetchTag bad => if bad then tagFailure l (pc / 256) s else f p (corrected l pc s)
      | _ => f p s

/-- A thread that is ready issues an instruction (R90): the one that its word spells (R101 to R104). -/
def issue (l th : Nat) (i : Sir) (e : Ecc) (s : State) : State :=
  fetchGo l th e (fun _ s =>
    if sirOf (codeWord (getCell s l) (getTh (getCell s l) th).pc) == some i then doSir l th i s.tide.bnd e s else s) s

end Sys2Proof.Machine
end

