-- ==== Sys2Proof/Machine/CellFill.lean ====
section
/-! DEFINITION. Fills at a cell (R73, R75, R93, R145, R148, R150, R178), remote operations in flight (R89, R92), and the
matrix array's work (R96 to R100, R121). -/
namespace Sys2Proof.Machine

/-! ### Operations outstanding in a DMA -/

/-- The destination slots of a FETCH lose pend. -/
def unpend (l : Nat) (o : RemOp) (s : State) : State :=
  if o.kind == .fetch then modCell l (fun x => (slotsOf o.loc o.len).foldl (fun x k => setTag k { tagOf x k with pend := false } x) x) s else s

/-- R93: operations of one thread to one destination complete in issue order. -/
def opFirst (x : Cell) (o : RemOp) : Bool :=
  !(x.ops.any fun p => p.th == o.th && decide (p.id < o.id) && remSpace p.remote == remSpace o.remote &&
    (if remSpace o.remote == 0 then remCell p.remote == remCell o.remote else memStack (remMem p.remote) == memStack (remMem o.remote)))

/-- R93: a SEND of a thread to a cell, older than an operation of the thread, that is on its way there or held there. -/
def sendAhead (s : State) (src th dst op : Nat) : Bool :=
  let hit (f : Fill) : Bool := match f.kind with | .send c o t => c == src && t == th && decide (o < op) | _ => false
  (s.fly.any fun e => match e.2 with | .fill f cells => cells.contains dst && hit f | _ => false) || (getCell s dst).fills.any hit

/-- R89: a refusal of a remote operation reaches its cell. -/
def refuseOp (l op : Nat) (s : State) : State :=
  match findOp (getCell s l) op with
  | none => s
  | some o => opTrap l o .remoteRefused (unpend l o (dropOp l op s))

/-- What the read of a SEND's source finds: its data, a wait, or a trap that ends the SEND. -/
inductive SrcRead where
  | ok | wait | gone
  deriving DecidableEq, Repr

/-- Whether a SEND's source slots may be read (R75, R92): as they stand, with the trap or the wait. -/
def sendLook (l : Nat) (o : RemOp) (s : State) : State × SrcRead :=
  match accessAll (getCell s l) o.ctx (slotsOf o.loc o.len) false with
  | .trap c => (opTrap l o c (dropOp l o.id s), .gone)
  | .wait => (cellStall l s, .wait)
  | .ok => (s, .ok)

/-- R75, R83, R92: the source of a SEND is read as its data leaves. -/
def readSend (l : Nat) (o : RemOp) (e : Ecc) (s : State) : State × SrcRead :=
  match sendLook l o s with
  | (s, .ok) =>
    match eccRead l o.loc e s with
    | (s, true) => (s, .ok)
    | (s, false) => if e == .tagDouble then (dropOp l o.id s, .gone) else sendLook l o s
  | r => r

/-! ### Landing (R73, R75, R93, R148 to R150) -/

/-- What a fill expects (R145). -/
def fillExpect (f : Fill) : Expect := { ident := f.expIdent, alive := f.expAlive, epoch := f.expEpoch }

/-- Write a fill's data and set its slots. -/
def landData (l : Nat) (f : Fill) (t : Tag → Tag) (s : State) : State :=
  modCell l (fun x =>
    let y := { x with mem := bwrite x.mem f.addr (fitB f.data f.len) }
    (slotsOf f.addr f.len).foldl (fun y k => setTag k (t (tagOf y k)) y) y) s

/-- A verified tile lands (R72, R73, R93): FULL with its count, or by wasres for a refetch. -/
def landTile (l : Nat) (f : Fill) (refetch : Bool) (s : State) : State :=
  let span := f.addr / 2048
  let c := cntOf f.cnt
  let s := landData l f (fun t =>
    if refetch && t.wasres then { t with st := .resident, cnt := 0, pend := false, tile := true }
    else { t with st := .full, cnt := c, pend := false, tile := true }) s
  let s := modCell l (fun x => { x with trailers := tset x.trailers span (fitB f.trailer 32), refetch := tdel x.refetch span }) s
  let s := count bCHK 0 2 l s
  if refetch then
    raise (cellUnit s l) bCHK sCorr 0x03 (poisonCtx (getCell s l) (8 * span)) (l + span * 2 ^ 32) (trlIdent f.trailer) 0 (count bCHK 4 2 l s)
  else s

/-- The identifier that a record of a corrupt fill names (R149): that of the span's trailer entry, else the one expected, else the one in the
trailer as received (DESIGN CHOICE, log 182). -/
def corruptIdent (x : Cell) (f : Fill) : Nat :=
  match tget? x.trailers (f.addr / 2048), f.expIdent with
  | some t, _ => trlIdent t
  | none, some i => i
  | none, none => trlIdent (fitB f.trailer 32)

/-- A tile fill that failed verification (R73, R148): POISON; a first failure is refetched, another is final. -/
def landCorrupt (l : Nat) (f : Fill) (refetch : Bool) (s : State) : State :=
  let span := f.addr / 2048
  let s := count bCHK 1 2 l s
  let id := corruptIdent (getCell s l) f
  let poison (s : State) : State := modCell l (modSpan span fun t => { t with st := .poison, cnt := 0, pend := false, tile := false }) s
  let again (e did : Nat) : State :=
    send (.refetchReq l span (f.expIdent.getD 0) (some (e, did))) (askRefetch l span (.delivery e did) (delEnded e did l (poison s)))
  if refetch then finalAs l (8 * span) 2 id (fillOver l f false s)
  else match f.kind with
    | .send _ _ _ => finalAs l (8 * span) 4 id (poison s)
    | .fetch op =>
      match findOp (getCell s l) op with
      | some o => leaveOp l o (askRefetch l span (.fetch o.remote o.ctx o.cnt) (poison s))
      | none => s
    | .delivery e did => again e did
    | .notice e did _ => again e did
    | .refetch _ _ => finalAs l (8 * span) 2 id (fillOver l f false (poison s))

/-- Whether a fill repeats the one that its POISON span awaits (R74, R148). -/
def isRefetch (x : Cell) (f : Fill) : Bool :=
  f.len == 2048 && awaiting x (f.addr / 256) &&
    (match f.kind, tget? x.refetch (f.addr / 2048) with
      | .refetch _ _, _ => true
      | .notice _ _ again, _ => again
      | .fetch _, some (.fetch _ _ _) => true
      | _, _ => false)

/-- R76: a fill carries its owner, and the target applies the check. -/
def fillOwned (x : Cell) (f : Fill) : Bool := (slotsOf f.addr f.len).all fun k => (tagOf x k).owner == f.ctx

/-- R150, R177: a stale delivery is discarded and read again; the eighth in a row is treated as corrupt. -/
def staleFill (l : Nat) (f : Fill) (refetch : Bool) (s : State) : State :=
  let s := count bCHK 3 2 l s
  let go (e did : Nat) : State :=
    let runs := match (getFrs s e).dels.find? (·.did == did) with | some d => d.staleRuns | none => 0
    if 7 ≤ runs then landCorrupt l f refetch s else delStale e did l s
  match f.kind with
  | .delivery e did => go e did
  | .refetch (some e) did => go e did
  | _ => s

/-- Whether a fill answers an operation that its cell has cancelled (R81). -/
def fillDead (x : Cell) (f : Fill) : Bool := match f.kind with | .fetch op => (findOp x op).isNone | _ => false

/-- A tile fill whose span is free for it, or awaits it, is verified (R73, R145, R148, R178, R188). -/
def landSpan (l : Nat) (f : Fill) (refetch : Bool) (s : State) : State :=
  if f.poisoned || (match f.kind with | .notice _ _ _ => true | _ => false) then landCorrupt l f refetch s
  else match verifyTile s (fillExpect f) f.data f.trailer with
    | .ok => fillOver l f true (landTile l f refetch s)
    | .corrupt _ => landCorrupt l f refetch s
    | .stale _ => staleFill l f refetch s

/-- What a fill does on reaching its slots (R75): lands, waits or is discarded. -/
def landFill (l : Nat) (f : Fill) (s : State) : State :=
  let x := getCell s l
  let slots := slotsOf f.addr f.len
  let sts := slots.map fun k => (tagOf x k).st
  if fillDead x f then count bCHK 2 2 l s
  else if !(fillOwned x f) then
    match f.kind with
    | .send src op _ => send (.refuse src op) (count bCHK 2 2 l s)
    | _ => fillOver l f false (count bCHK 2 2 l s)
  else if sts.any (· == .scrub) then fillOver l f false (count bCHK 2 2 l s)
  else if isRefetch x f then landSpan l f true s
  else if sts.any (· != .empty) then cellStall l (modCell l (fun x => { x with fills := x.fills ++ [f] }) s)
  else if f.len == 2048 then landSpan l f false s
  else if f.poisoned then
    slots.foldl (fun s k => finalPoison l k 1 (modCell l (fun x => setTag k { tagOf x k with st := .poison, cnt := 0, pend := false } x) s)) (fillOver l f false s)
  else fillOver l f true (landData l f (fun t => { t with st := .full, cnt := cntOf f.cnt, pend := false }) s)

/-- A held fill tries again (R75). -/
def retryFill (l i : Nat) (s : State) : State :=
  match (getCell s l).fills[i]? with
  | none => s
  | some f =>
    let x := getCell s l
    let slots := slotsOf f.addr f.len
    if slots.all (fun k => (tagOf x k).st == .empty || (tagOf x k).st == .scrub) || isRefetch x f then
      landFill l f (modCell l (fun x => { x with fills := ldel x.fills i }) s)
    else s

/-! ### What leaves a cell as a tile (R143, R144) -/

/-- The trailer a tile SEND forms: from the span's entry where its tile bit is set, else from the thread's template at
issue. -/
def sendTrailer (s : State) (l : Nat) (o : RemOp) : Bytes :=
  let x := getCell s l
  let p := bread x.mem o.loc 2048
  if (tagOf x (o.loc / 256)).tile then
    let t := fitB (tget x.trailers (o.loc / 2048) []) 32
    formTrailer s p (trlAlive t) (trlFormat t) (trlIdent t) (trlEpoch t)
  else
    let (fmt, alive, ident) := o.tmpl
    formTrailer s p alive fmt ident 0

/-- The trailer of a span served to a remote FETCH: from its entry where its tile bit is set, else with no identifier. -/
def serveTrailer (s : State) (l a : Nat) : Bytes :=
  let x := getCell s l
  let p := bread x.mem a 2048
  if (tagOf x (a / 256)).tile then
    let t := fitB (tget x.trailers (a / 2048) []) 32
    formTrailer s p (trlAlive t) (trlFormat t) (trlIdent t) (trlEpoch t)
  else formTrailer s p 0 0 0 0

/-! ### The matrix array (R96 to R100, R121) -/

/-- k-steps of a format that one cycle adds (R96, R121). -/
def stepsPerCycle (fmt : Nat) : Nat := if 4 ≤ fmt && fmt ≤ 6 then 2 else 1

/-- The exact sum of the products of `n` k-steps from `k`, added to an exact value. -/
def productSum (code K : Nat) (a b : Bytes) (m n : Nat) : Nat → Nat → FVal → FVal
  | 0, _, acc => acc
  | j + 1, k, acc => productSum code K a b m n j (k + 1) (addV acc (mulV (panelVal code K a k m) (panelVal code K b k n)))

/-- R121: accumulate cycle by cycle, each cycle's products added exactly and rounded once. -/
def accumulate (code K per : Nat) (a b : Bytes) (m n : Nat) : Nat → Nat → Nat → Nat
  | 0, _, c => c
  | j + 1, k, c => accumulate code K per a b m n j (k + per) (roundF fp32 (productSum code K a b m n per k (decodeF fp32 c)))

/-- One 8 × 8 block of a stream, by element 8m + n. -/
def streamBlock (m : Stream) (a b : Bytes) (start : Nat → Nat) : List Nat :=
  let code := ammCode m.fmt
  let per := stepsPerCycle m.fmt
  (List.range 64).map fun i => accumulate code m.k per a b (i / 8) (i % 8) (m.k / per) 0 (if m.acc then start i else 0)

/-- Put a block into a bank. -/
def setBank (bank : Nat) (l : List Nat) (x : Cell) : Cell :=
  { x with banks := (List.range 64).foldl (fun t i => tset t (64 * bank + i) (l.getD i 0)) (bankZero bank x).banks }

/-- Bytes of a stream's panel. -/
def streamLen (m : Stream) : Nat := panelBytes (ammCode m.fmt) m.k

/-! ### Operand rows (R98)

A stream reads its rows group by group: group j holds, for each of its sources, element row j and, in an MX format, the row of scales that is
first needed at the same k-step. -/

/-- Element rows of an operand. -/
def elemRows (m : Stream) : Nat :=
  match elemOf (ammCode m.fmt) with
  | some e => (m.k * panelGroup e + 63) / 64
  | none => 0

/-- The offsets in a panel of the rows that an operand reads in group j. -/
def rowOffs (m : Stream) (j : Nat) : List Nat :=
  match elemOf (ammCode m.fmt) with
  | some e => 64 * j :: (if isMx (ammCode m.fmt) && j % (4 * panelGroup e) == 0 then [scaleBase e m.k + 64 * (j / (4 * panelGroup e))] else [])
  | none => []

/-- A source of a stream: its cell, its place in the buffer, the panel's address, whether its slots are released. -/
structure OpSrc where
  cell : Nat
  src : Nat
  base : Nat
  rel : Bool
  deriving DecidableEq, Repr

/-- The sources of a stream (R100): A rows, then B columns. -/
def opSrcs (l : Nat) (m : Stream) : List OpSrc :=
  ((aCells m.gang l).map fun e => { cell := e.1, src := e.2, base := m.a, rel := m.relA }) ++
  ((bCells m.gang l).map fun e => { cell := e.1, src := 4 + e.2, base := m.b, rel := m.relB })

/-- The rows of group j, each a source and an offset. -/
def groupRows (l : Nat) (m : Stream) (j : Nat) : List (OpSrc × Nat) := (opSrcs l m).flatMap fun o => (rowOffs m j).map fun off => (o, off)

/-- Change the stream of a bank; a bank has at most one (R99). -/
def modStream (l bank : Nat) (f : Stream → Stream) (s : State) : State :=
  modCell l (fun x => { x with streams := x.streams.map fun m => if m.bank == bank then f m else m }) s

/-- One operand row is read into the stream's buffer, if its slot lets it (R73, R75, R83, R98). -/
def rowRead (l : Nat) (m : Stream) (i : Nat) (r : OpSrc × Nat) (e : Ecc) (s : State) : State × Acc75 :=
  let a := r.1.base + r.2
  let look (s : State) : Acc75 := access (getCell s r.1.cell) m.ctx (a / 256) false
  let take (s : State) : State :=
    modStream l m.bank (fun k => { k with got := k.got ++ [i], buf := bwrite k.buf (65536 * r.1.src + r.2) (bread (getCell s r.1.cell).mem a 64) }) s
  match look s with
  | .ok =>
    match eccRead r.1.cell a e s with
    | (s, true) => (take s, .ok)
    | (s, false) => (s, look s)
  | v => (s, v)

/-- The rows of a group that have not been read are tried; the worst of what they find. -/
def rowsRead (l : Nat) (m : Stream) (hit : Nat → Nat → Ecc) (s : State) : State × Acc75 :=
  let rows := groupRows l m m.pos
  ((List.range rows.length).filter fun i => !(m.got.contains i)).foldl (fun (r : State × Acc75) i =>
    match r.2, rows[i]? with
    | .trap _, _ => r
    | v, some row =>
      let r' := rowRead l m i row (hit row.1.cell (row.1.base + row.2)) r.1
      (r'.1, match r'.2 with | .trap c => .trap c | .wait => .wait | .ok => v)
    | _, none => r) (s, .ok)

/-- Whether a source has a row still to read, in the group reached or a later one, among some slots. -/
def rowsLeft (l : Nat) (m : Stream) (o : OpSrc) (slots : List Nat) : Bool :=
  let rows := groupRows l m m.pos
  ((List.range rows.length).any fun i => !(m.got.contains i) &&
    (match rows[i]? with | some r => r.1 == o && slots.contains ((o.base + r.2) / 256) | none => false)) ||
  (List.range (elemRows m - (m.pos + 1))).any fun j => (rowOffs m (m.pos + 1 + j)).any fun off => slots.contains ((o.base + off) / 256)

/-- R72, R98: the units that the rows just read, `old` having been read before, complete for a release: source cell and first slot, once for
each release. -/
def relUnits (s : State) (l : Nat) (m : Stream) (old : List Nat) : List (Nat × Nat) :=
  let rows := groupRows l m m.pos
  let new := ((List.range rows.length).filter fun i => m.got.contains i && !(old.contains i)).filterMap fun i => rows[i]?
  (opSrcs l m).flatMap fun o =>
    if !o.rel then []
    else
      let x := getCell s o.cell
      ((unitHeads x ((new.filter (·.1 == o)).map fun r => (o.base + r.2) / 256)).filter fun k => !(rowsLeft l m o (unitSlots x k))).map fun k => (o.cell, k)

/-- R79: releases are applied one after another; one whose unit is not FULL breaks the condition. -/
def relApply : List (Nat × Nat) → State → State × Bool
  | [], s => (s, true)
  | (c, k) :: rest, s => if (tagOf (getCell s c) k).st == .full then relApply rest (modCell c (consume k) s) else (s, false)

/-- Every cell of the gang computes its block from the rows read (R96, R100, R121). -/
def streamRun (l : Nat) (m : Stream) (s : State) : State :=
  let n := streamLen m
  let cells := gangCells m.gang l
  (List.range cells.length).foldl (fun s i =>
    modCell (cells.getD i l) (fun x =>
      let y := setBank m.bank (streamBlock m (bread m.buf (65536 * (i / 4)) n) (bread m.buf (65536 * (4 + i % 4)) n) fun e => bankAt x m.bank (e / 8) (e % 8)) x
      { y with bankOf := tset y.bankOf m.bank m.ctx }) s) s

/-- A stream of a cell by its bank. -/
def bankStream (s : State) (l bank : Nat) : Option Stream := (getCell s l).streams.find? (·.bank == bank)

/-- The stream of a bank works through its groups of rows: it holds at a row that is not readable, traps, or runs to its last k-step (R98, R99).
-/
def streamGo (l bank : Nat) (hit : Nat → Nat → Ecc) : Nat → State → State
  | 0, s => s
  | n + 1, s =>
    match bankStream s l bank with
    | none => s
    | some m =>
      if elemRows m ≤ m.pos then modStream l bank (fun m => { m with st := .running }) (streamRun l m s)
      else
        let (s, v) := rowsRead l m hit s
        match v with
        | .trap c => streamTrap l m c s
        | v =>
          match bankStream s l bank with
          | none => s
          | some m' =>
            match relApply (relUnits s l m' m.got) s with
            | (s, false) => streamTrap l m .tagProtocol s
            | (s, true) =>
              if v == .ok then streamGo l bank hit n (modStream l bank (fun m => { m with st := .queued, pos := m.pos + 1, got := [] }) s)
              else
                cellStall l (count bCEL 1 2 l (modStream l bank (fun k => { k with st := .held, since := if m.st == .held then m.since else s.tide.bnd }) s))

/-- The array works on its first stream that has not run (R99); a gang with a cell unavailable breaks it (R100). -/
def arrayGo (l : Nat) (hit : Nat → Nat → Ecc) (s : State) : State :=
  match (getCell s l).streams.find? (·.st != .running) with
  | some m =>
    if m.gang && !((clusterCells l).all (cellUsable s)) then streamTrap l m .gang s
    else streamGo l m.bank hit (elemRows m + 1) s
  | none => s

/-- R100: a cell of a gang becomes unavailable during a stream: the stream stops and the leader's thread traps. -/
def gangBreak (l : Nat) (s : State) : State :=
  match (getCell s l).streams.find? (·.gang) with
  | some m => streamTrap l m .gang s
  | none => s

/-- The row that a held stream waits for first: its cell and address. -/
def heldRow (s : State) (l : Nat) : Option (Nat × Nat) :=
  match (getCell s l).streams.find? (·.st == .held) with
  | some m =>
    let rows := groupRows l m m.pos
    ((List.range rows.length).find? fun i => !(m.got.contains i)).bind fun i => (rows[i]?).map fun r => (r.1.cell, r.1.base + r.2)
  | none => none

/-- One corrected or uncorrectable word, in the row of a cell that holds an address. -/
def hitAt (at_ : Option (Nat × Nat)) (e : Ecc) (c a : Nat) : Ecc :=
  match at_ with
  | some (c', a') => if c == c' && a / 64 == a' / 64 then e else .clean
  | none => .clean

/-! ### AOUT (R99, R100) -/

/-- What AOUT writes for a block, FP32 or BF16 by SR (R99, R115, R117): bytes, saturations and non-finite results (R119). -/
def aoutBlock (s : State) (c : Nat) (p : Prog) (o : AoutOp) : Bytes × Nat × Nat :=
  let x := getCell s c
  let key := srKey (p.slot * 16384) c p.ctx
  let vs := (List.range 64).map fun i => bankAt x o.bank (i / 8) (i % 8)
  if o.ofmt == 0 then (ofLanes 4 vs, 0, 0)
  else
    let rs := (List.range 64).map fun i => narrowF bf16 (.sr (srDraw key o.th o.srN i)) (decodeF fp32 (vs.getD i 0))
    (ofLanes 2 (rs.map (·.1)), (rs.filter (·.2.sat)).length, (rs.filter (·.2.nonfin)).length)

/-- What AOUT finds at its destination in every cell that it writes (R75, R76, R79, R99). -/
def aoutAccess (s : State) (cells : List Nat) (p : Prog) (o : AoutOp) : Acc75 :=
  let tags := cells.map fun c => tagOf (getCell s c) (o.dst / 256)
  let accs := cells.map fun c => access (getCell s c) p.ctx (o.dst / 256) true
  match accs.find? (fun r => match r with | .trap _ => true | _ => false) with
  | some r => r
  | none =>
    if o.pub && tags.any (fun t => t.st == .resident || (t.st == .empty && t.pend)) then .trap .tagProtocol
    else if accs.contains .wait then .wait else .ok

/-- AOUT writes its bank, every cell of a gang its own (R99, R100). -/
def aoutGo (l : Nat) (cells : List Nat) (o : AoutOp) (p : Prog) (s : State) : State :=
  let data := cells.map fun c => (c, aoutBlock s c p o)
  let s := data.foldl (fun s d => countN bCEL 6 2 d.1 d.2.2.1 (countN bCEL 7 2 d.1 d.2.2.2 (modCell d.1 (fun x =>
    let y := { x with mem := bwrite x.mem o.dst d.2.1 }
    if o.pub then setTag (o.dst / 256) { tagOf y (o.dst / 256) with st := .full, cnt := cntOf o.cnt } y else y) s))) s
  done l o.th id (modCell l (fun x => { x with aouts := x.aouts.filter (·.th != o.th) }) s)

end Sys2Proof.Machine
end

