-- ==== Sys2Proof/Machine/MemOps.lean ====
section
/-! DEFINITION. Shared operations on the fast tier: reads, writes, epochs, poison, reports (R175, R176, R182, R188, R193, R348). -/
namespace Sys2Proof.Machine

/-- A stack controller. -/
def getStk (s : State) (n : Nat) : Stack := tget s.mem.stks n {}

/-- Change a stack controller. -/
def modStk (n : Nat) (f : Stack → Stack) (s : State) : State :=
  { s with mem := { s.mem with stks := tset s.mem.stks n (f (getStk s n)) } }

/-- The write epoch of an address's page (R175). -/
def epochAt (s : State) (a : Nat) : Nat := tget s.mem.epochs (a / 4096) 0

/-- The 64-byte lines of a range, by line number. -/
def linesOf (a n : Nat) : List Nat := if n == 0 then [] else (List.range ((a + n - 1) / 64 - a / 64 + 1)).map (a / 64 + ·)

/-- The 4 KiB pages of a range. -/
def pagesOf (a n : Nat) : List Nat := if n == 0 then [] else (List.range ((a + n - 1) / 4096 - a / 4096 + 1)).map (a / 4096 + ·)

/-- Bytes of the fast tier. -/
def memRead (s : State) (a n : Nat) : Bytes := bread s.mem.data a n

/-- Whether a read returns poison (R188). -/
def memPoisoned (s : State) (a n : Nat) : Bool := (linesOf a n).any fun l => (getStk s (memStack a)).poison.contains l

/-- Whether an engine's buffer holds a tile whose payload or trailer lies on a page (R176). -/
def holdsPage (x : Frs) (page : Nat) : Bool :=
  x.buf.any fun e => match (x.passes ++ x.past).find? (·.id == e.pass) with
    | some p => !p.slow && ((p.srcPay + 2048 * e.src) / 4096 == page || (p.srcTrl + 32 * e.src) / 4096 == page)
    | none => false

/-- Riffle reports an accepted write to its engine (R176). -/
def reportWrite (a n : Nat) (s : State) : State :=
  let e := memStack a
  (pagesOf a n).foldl (fun s p => if holdsPage (getFrs s e) p then modFrs e (fun x => { x with reports := addN x.reports p }) s else s) s

/-- R348: a module write to lines the host may cache sends BISnpInv and drops their records. -/
def snoopWrite (a n : Nat) (s : State) : State :=
  (linesOf a n).foldl (fun s l =>
    if (tget? s.mem.filter l).isSome then count bHST 3 0 0 (emit (.hostLink 1 [l] []) { s with mem := { s.mem with filter := tdel s.mem.filter l }, hst := { s.hst with order := delN s.hst.order l } }) else s) s

/-- R348: before the module reads a line recorded Any, or writes a recorded one, a BISnp is sent and its BIRsp awaited. The
lines that still keep an access waiting. -/
def snoopLines (s : State) (write : Bool) (a n : Nat) : List Nat :=
  (linesOf a n).filter fun l => match tget? s.mem.filter l with | some any => write || any | none => false

/-- R348: send the BISnp of lines that have none outstanding. -/
def snoopAsk (write : Bool) (ls : List Nat) (s : State) : State :=
  ls.foldl (fun s l =>
    if (tget? s.mem.snoops l).isSome then s
    else count bHST 3 0 0 <| emit (.hostLink (if write then 1 else 2) [l] []) { s with mem := { s.mem with snoops := tset s.mem.snoops l (write, s.now) } }) s

/-- Pages whose epochs a stack's cache holds (R193). -/
def epochCache : Nat := 16384

/-- R193: an epoch is read or raised: a page that the cache does not hold is a miss, counted, and displaces the oldest (DESIGN CHOICE, log 192). -/
def epochTouch (page : Nat) (s : State) : State :=
  let n := memStack (4096 * page)
  if (getStk s n).cached.contains page then s
  else count bMEM 13 0 n (modStk n (fun x => { x with cached := (x.cached ++ [page]).drop (x.cached.length + 1 - epochCache) }) s)

/-- R188: a write that covers a whole line clears its mark. -/
def clearPoison (a n : Nat) (x : Stack) : Stack :=
  { x with poison := x.poison.filter fun l => !(decide (a ≤ 64 * l) && decide (64 * l + 64 ≤ a + n)) }

/-- One write request accepted (R175, R188, R193): data, epochs of its pages, poison of whole lines, the report to Freshet.
`own`: an agent of the module, whose writes first snoop the host (R348). -/
def memWrite (own : Bool) (a : Nat) (data : Bytes) (s : State) : State :=
  let n := data.length
  let s := if own then snoopWrite a n s else s
  let s := (pagesOf a n).foldl (fun s p => epochTouch p s) s
  let s := { s with mem := { s.mem with
    data := bwrite s.mem.data a data,
    epochs := (pagesOf a n).foldl (fun t p => tset t p ((tget t p 0 + 1) % 2 ^ 32)) s.mem.epochs } }
  reportWrite a n (modStk (memStack a) (clearPoison a n) s)

/-- Zeros over a range, as one run of writes. -/
def memZero (a n : Nat) (s : State) : State :=
  let s := (s.mem.filter.filter fun e => decide (a < 64 * e.1 + 64) && decide (64 * e.1 < a + n)).foldl (fun s e => snoopWrite (64 * e.1) 64 s) s
  let s := (pagesOf a n).foldl (fun s p => epochTouch p s) s
  let s := { s with mem := { s.mem with
    data := bzero s.mem.data a n,
    epochs := (pagesOf a n).foldl (fun t p => tset t p ((tget t p 0 + 1) % 2 ^ 32)) s.mem.epochs } }
  reportWrite a n (modStk (memStack a) (clearPoison a n) s)

/-- R249: staging arrays, with their trailer lines, and collect ranges: only their own Estuary engine writes them. -/
def guarded (s : State) (a n : Nat) : Bool :=
  let hit (b m : Nat) : Bool := decide (b < a + n) && decide (a < b + m)
  (s.edy.shards.any fun e => e.2.any fun x => x.r.owner && hit x.r.gAddr (2112 * ((x.r.elements + 511) / 512))) ||
  (s.ctxs.any fun c => c.2.plan.collect.any fun r => hit r.1 r.2) ||
  (s.est.engs.any fun e => e.2.wins.any fun w => hit w.collect (2112 * w.tiles))

/-- Whether a tile address lies in the collect range of an armed window (R249). -/
def armedAt (s : State) (a : Nat) : Bool :=
  s.est.engs.any fun e => e.2.wins.any fun w => decide (w.collect ≤ a) && decide (a + 2048 ≤ w.collect + 2048 * w.tiles) && (a - w.collect) % 2048 == 0

/-- R249: whether an address lies in a collect range's payloads. -/
def collectAt (s : State) (a : Nat) : Bool :=
  (s.ctxs.any fun c => c.2.plan.collect.any fun r => decide (r.1 ≤ a) && decide (a < r.1 + r.2)) ||
  (s.est.engs.any fun e => e.2.wins.any fun w => decide (w.collect ≤ a) && decide (a < w.collect + 2048 * w.tiles))

/-- R249: a write from anyone else is refused with a contained record. -/
def guardRecord (a requester : Nat) (ctx : Option Nat) (s : State) : State := raise (ringUnit (memStack a)) bEST sCont 0x07 ctx a requester 0 s

/-- R183: a request that names no memory is discarded, with a contained record. -/
def memDiscard (requester : Nat) (ctx : Option Nat) (a : Nat) (s : State) : State :=
  raise (if a < 0x080000000000 then ringUnit (memStack a) else unitTL) bMEM sCont 0x05 ctx a requester 0 s

/-- A tile of an array at rest: payload and trailer at their addresses, none where a line is poisoned or absent. -/
def memTile (s : State) (pay trl : Nat) : Option (Bytes × Bytes) :=
  if fastOk s pay 2048 && fastOk s trl 32 && !(memPoisoned s pay 2048) && !(memPoisoned s trl 32) then
    some (memRead s pay 2048, memRead s trl 32)
  else none

/-! ### The slow tier (R182, R204 to R206) -/

/-- R204, R205: a window serves from the boundary after valid was set to the boundary after it was cleared. -/
def winInUse (s : State) (w : RsvWin) : Bool :=
  decide (w.since < s.tide.bnd) && (match w.closing with | some b => decide (s.tide.bnd ≤ b) | none => true)

/-- The window in use that covers a range. -/
def winAt (s : State) (a n : Nat) : Option RsvWin :=
  (s.rsv.wins.find? fun w => decide (w.2.base ≤ a) && decide (a + n ≤ w.2.base + w.2.size) && winInUse s w.2).map (·.2)

/-- R214: the agent that serves a request: for host memory one of reaches 0 and 7, next to the host port; a request of another reach goes to
the agent of its own place in reach 0 (DESIGN CHOICE, log 195). -/
def rsvAgent (s : State) (w : RsvWant) : Nat :=
  match (if w.node.isNone then winAt s w.addr w.len else none) with
  | some x => if x.typ == 3 && w.agent / 8 != 0 && w.agent / 8 != 7 then w.agent % 8 else w.agent
  | none => w.agent

/-- An agent is asked for a slow-tier operation (R206). -/
def rsvAsk (w : RsvWant) (s : State) : State := { s with rsv := { s.rsv with want := s.rsv.want ++ [{ w with agent := rsvAgent s w }] } }

/-- How an operation of a requester ended, if it has. -/
def rsvEnd (s : State) (by_ : RsvBy) : Option RsvDone := s.rsv.done.find? (·.by_ == by_)

/-- The requester takes the end of its operation. -/
def rsvTake (by_ : RsvBy) (s : State) : State := { s with rsv := { s.rsv with done := s.rsv.done.filter (·.by_ != by_) } }

/-- Bytes of a window as the module last read or wrote them (DESIGN CHOICE, log 186). -/
def winKeep (a : Nat) (d : Bytes) (s : State) : State := { s with mem := { s.mem with data := bwrite s.mem.data a d } }

/-- A range as the operations that cover it, of at most 33,280 bytes each (R208). -/
def slowParts (a n : Nat) : List (Nat × Nat) :=
  (List.range ((n + 33279) / 33280)).map fun k => (a + 33280 * k, min 33280 (n - 33280 * k))

/-- The mark of a ring block's own read of a range, or of its write. -/
def slowBy (blk inst a n : Nat) (write : Bool) : RsvBy := .unit blk inst (a + 2 ^ 48 * (2 * n + b2n write))

/-- Whether a mark is that of a block's own write, whose end nothing waits for. -/
def ownWrite : RsvBy → Bool
  | .unit _ _ k => decide (2 ^ 51 ≤ k) && k / 2 ^ 48 % 2 == 1
  | _ => false

/-- The agent that reaches an address: that of its window. -/
def winAgent (s : State) (a n : Nat) : Nat := ((winAt s a n).map (·.eng)).getD 0

/-- A block asks for what it has not asked for of a range in the slow tier, or asks again where a read failed. -/
def slowAsk (blk inst c a n : Nat) (s : State) : State :=
  (slowParts a n).foldl (fun s p =>
    let by_ := slowBy blk inst p.1 p.2 false
    let ask (s : State) : State := rsvAsk { agent := winAgent s p.1 p.2, by_ := by_, ctx := c, addr := p.1, len := p.2, act := .read } s
    match rsvEnd s by_ with
    | some d => if d.status == 0 then s else ask (rsvTake by_ s)
    | none => if s.rsv.want.any (·.by_ == by_) || s.rsv.ops.any (·.w.by_ == by_) then s else ask s) s

/-- Whether all of a range has been read. -/
def slowBack (s : State) (blk inst a n : Nat) : Bool :=
  (slowParts a n).all fun p => (rsvEnd s (slowBy blk inst p.1 p.2 false)).any (·.status == 0)

/-- Whether a read of it has failed. -/
def slowFailed (s : State) (blk inst a n : Nat) : Bool :=
  (slowParts a n).any fun p => (rsvEnd s (slowBy blk inst p.1 p.2 false)).any (·.status != 0)

/-- The block is done with its reads of a range. -/
def slowTake (blk inst a n : Nat) (s : State) : State := (slowParts a n).foldl (fun s p => rsvTake (slowBy blk inst p.1 p.2 false) s) s

/-- A block writes a record or a table entry of a context: in the fast tier as a request, in the slow tier by WRITEs of whole words
through its window; an address that names no memory meets R183. -/
def recPut (blk inst c a : Nat) (d : Bytes) (s : State) : State :=
  let lo := a / 4 * 4
  let n := (a + d.length + 3) / 4 * 4 - lo
  if slowAddr a && (winAt s lo n).isSome then
    let s := winKeep a d s
    (slowParts lo n).foldl (fun s p =>
      rsvAsk { agent := winAgent s p.1 p.2, by_ := slowBy blk inst p.1 p.2 true, ctx := c, addr := p.1, len := p.2, act := .write (memRead s p.1 p.2), ack := true } s) s
  else if fastOk s a d.length then memWrite true a d s
  else memDiscard inst (some c) a s

/-! ### Check-value units (R152) -/

/-- Change the units. -/
def modChk (f : Chk → Chk) (s : State) : State := { s with chk := f s.chk }

/-- The ring chiplet of a unit (R152). -/
def unitChip (u : Nat) : Nat := u / 4

/-- A stream of the module takes the lowest free unit of its chiplet; with none free it shares one in slices, and no unit is bound to it
alone (R152; which unit: DESIGN CHOICE, log 189). -/
def unitBind (chip : Nat) (b : ChkBind) (s : State) : State :=
  match ((List.range 4).map (4 * chip + ·)).find? fun u => (tget? s.chk.bound u).isNone with
  | some u => modChk (fun c => { c with bound := tset c.bound u b }) s
  | none => s

/-- Units whose stream ends are free. -/
def unitFree (p : ChkBind → Bool) (s : State) : State := modChk (fun c => { c with bound := c.bound.filter fun e => !(p e.2) }) s

/-- The unit of a stream, and a count of it (R158): 0 pass, 1 fail, 2 discard. -/
def unitCount (num ctx job : Nat) (s : State) : State :=
  match s.chk.bound.find? fun e => e.2.ctx == ctx && e.2.job == some job with
  | some e => count bCHK num 0 e.1 s
  | none => s

/-- Write a tile: its payload, then its trailer (R175). -/
def memPutTile (pay trl : Nat) (payload trailer : Bytes) (s : State) : State :=
  memWrite true trl (fitB trailer 32) (memWrite true pay (fitB payload 2048) s)

end Sys2Proof.Machine
end

