-- ==== Sys2Proof/Machine/FrsOps.lean ====
section
/-! DEFINITION. Freshet's working: the checks of a pass record (R160 to R165), conversion, skewing and transposition
(R163 to R166), due times (R167), the rectangles of groups (R162). -/
namespace Sys2Proof.Machine

/-! ### Sources and outputs (R163 to R165) -/

/-- Columns of a source strip (R163); 0 for a format that is no source. -/
def srcCols (code : Nat) : Nat :=
  match code with
  | 0x01 => 64 | 0x02 => 128 | 0x03 => 256 | 0x04 => 256 | 0x20 => 160
  | 0x10 => 160 | 0x11 => 160 | 0x12 => 160 | 0x13 => 160 | 0x14 => 160 | _ => 0

/-- Bits of an output element. -/
def outBits (code : Nat) : Nat :=
  match code with
  | 0x01 => 32 | 0x02 => 16 | 0x03 => 8 | 0x04 => 8 | 0x10 => 8 | 0x11 => 8 | 0x12 => 6 | 0x13 => 6 | 0x14 => 4 | _ => 0

/-- R164: whether a source may be converted to an output format and layout. -/
def convAllowed (src out : Nat) : Bool :=
  let o := out % 256
  let lay := out / 256
  let narrow := o == 2 || o == 3 || o == 4 || isMx o
  decide (lay ≤ 2) &&
  (if src == 0x20 then (o == 0x20 && lay == 0) || (o == 1 && lay == 0) || narrow
   else if src == 1 || src == 2 || src == 3 || src == 4 then (o == 1 && lay == 0) || narrow
   else if isMx src then o == src && decide (lay ≤ 1)
   else false)

/-- Bytes of an output part of `c` columns in layouts 0x00 and 0x01 (R97, R165). -/
def partBytes (out c : Nat) : Nat :=
  let o := out % 256
  if isMx o then panelBytes o c else 8 * c * outBits o / 8

/-- R165: the smallest of 1, 2, 4 parts that fit. -/
def splitParts (src out : Nat) : Nat :=
  let c := srcCols src
  if out % 256 == 0x20 then 1
  else if partBytes out c ≤ 2048 then 1 else if partBytes out (c / 2) ≤ 2048 then 2 else 4

/-- Output tiles that one source tile, or one stack of strips, makes. -/
def outsPer (src out : Nat) : Nat := if out / 256 == 2 then srcCols src / 8 else splitParts src out

/-- Source tiles that an output needs: the first, how many. -/
def needs (p : Pass) (i : Nat) : Nat × Nat :=
  if p.outFmt / 256 == 2 then (i / outsPer (p.srcFmt % 256) p.outFmt * p.tRows, p.tRows)
  else (i / outsPer (p.srcFmt % 256) p.outFmt, 1)

/-- Source tiles of a pass. -/
def srcTiles (p : Pass) : Nat :=
  if p.outFmt / 256 == 2 then p.tiles / outsPer (p.srcFmt % 256) p.outFmt * p.tRows
  else p.tiles / outsPer (p.srcFmt % 256) p.outFmt

/-- The first output that needs a source tile. -/
def firstOut (p : Pass) (j : Nat) : Nat :=
  if p.outFmt / 256 == 2 then j / (max p.tRows 1) * outsPer (p.srcFmt % 256) p.outFmt else j * outsPer (p.srcFmt % 256) p.outFmt

/-- The value of element (r, c) of a source strip (R163). -/
def stripVal (src : Nat) (payload : Bytes) (r c : Nat) : FVal :=
  if isMx src then panelVal src 160 payload c r else tileVal src payload (r * srcCols src + c)

/-- A formed payload with what R119 counts. -/
structure Formed where
  bytes : Bytes
  sats : Nat := 0
  nonfin : Nat := 0
  deriving DecidableEq, Repr

/-- Values in element order to a scalar format, exact or by RNE (R115). -/
def plainOut (code : Nat) (vs : List FVal) : Formed :=
  match (elemOf code).bind elemFmt with
  | some f =>
    let rs := vs.map fun v => if code == 1 then (roundF fp32 v, { sat := false, nonfin := false }) else narrowF f .rne v
    { bytes := rs.flatMap fun r => natLE (f.width / 8) r.1, sats := (rs.filter (·.2.sat)).length, nonfin := (rs.filter (·.2.nonfin)).length }
  | none => { bytes := [] }

/-- A panel of K k-steps whose element (k, m) is given (R97), scales by R120. -/
def panelOut (code K : Nat) (v : Nat → Nat → FVal) : Formed :=
  match elemOf code with
  | none => { bytes := [] }
  | some e =>
    if isMx code then
      let blocks := K / 32
      let scales := (List.range blocks).map fun g => (List.range 8).map fun m => mxScale e ((List.range 32).map fun j => v (32 * g + j) m)
      let el := (List.range K).map fun k => (List.range 8).map fun m => mxElem e .rne ((scales.getD (k / 32) []).getD m 0) (v k m)
      let body := el.flatMap fun l => groupBytes e (l.map (·.1))
      { bytes := body ++ List.replicate (scaleBase e K - body.length) 0 ++ scales.flatMap fun l => l.flatMap (natLE 1),
        sats := (el.flatMap id).countP (·.2), nonfin := (scales.flatMap id).countP (· == 0xFF) }
    else plainOut code ((List.range K).flatMap fun k => (List.range 8).map fun m => v k m)

/-- The payload of an output from the payloads of the sources it needs (R164, R165). -/
def formOut (p : Pass) (i : Nat) (srcs : List Bytes) : Formed :=
  let src := p.srcFmt % 256
  let out := p.outFmt % 256
  let lay := p.outFmt / 256
  let per := outsPer src p.outFmt
  let c := srcCols src
  if lay == 2 then
    let o := i % per
    panelOut out (8 * p.tRows) fun k m => stripVal src (srcs.getD (k / 8) []) (k % 8) (8 * o + m)
  else
    let b := srcs.headD []
    if out == src && (isMx src || out == 0x20) then { bytes := b }
    else
      let w := c / per
      let c0 := (i % per) * w
      if lay == 1 || isMx out then panelOut out w fun k m => stripVal src b m (c0 + k)
      else plainOut out ((List.range 8).flatMap fun r => (List.range w).map fun k => stripVal src b r (c0 + k))

/-- R166: the identifier of an output. -/
def outIdent (p : Pass) (i : Nat) : Nat :=
  let src := p.srcFmt % 256
  let (j, _) := needs p i
  let per := outsPer src p.outFmt
  let e := 8 * srcCols src
  let col := if p.outFmt / 256 == 2 then 8 * (i % per) else (i % per) * (srcCols src / per)
  if p.srcIdent == 0 then 0
  else p.srcIdent / 2 ^ 45 * 2 ^ 45 + (idBase p.srcIdent + j * e + col) % 2 ^ 45

/-- R163: the identifier expected in a source tile. -/
def srcIdentAt (p : Pass) (j : Nat) : Option Nat :=
  if p.srcIdent == 0 then none
  else some (p.srcIdent / 2 ^ 45 * 2 ^ 45 + (idBase p.srcIdent + j * (8 * srcCols (p.srcFmt % 256))) % 2 ^ 45)

/-! ### Due times (R167) -/

/-- Local ticks from now until an output is due, rounded down: from the start boundary's tick, or, before it, from the count at which the
start slot begins. -/
def dueIn (s : State) (p : Pass) (i : Nat) : Int :=
  let d : Int := (p.due0 + i * p.interval) / 16
  (if p.active then (p.startTick : Int) - s.now else (p.start * 16384 : Int) - s.tide.count) + d

/-- The boundaries that have passed since an output was due. -/
def dueBounds (s : State) (p : Pass) (i : Nat) : Nat :=
  let d : Int := (s.now : Int) + dueIn s p i
  if (s.tide.slotAt : Int) < d then 0 else ((s.tide.slotAt : Int) - d).toNat / 16384 + 1

/-! ### Groups (R162) -/

/-- The cells of a group. -/
def grpCells (g : Grp) : List Nat :=
  (List.range (g.row1 + 1 - g.row0)).flatMap fun r => (List.range (g.col1 + 1 - g.col0)).map fun c => logCell g.die (g.row0 + r) (g.col0 + c)

/-- A group-table entry (R162). -/
def grpOf (w : Nat) : Grp :=
  { die := bitsN w 6 0, row0 := bitsN w 13 7, row1 := bitsN w 20 14, col0 := bitsN w 27 21, col1 := bitsN w 34 28,
    span0 := bitsN w 39 35, nspans := bitsN w 44 40, ctx := bitsN w 54 45, all := bitN w 55 }

/-- R162: whether an entry is within its limits. -/
def grpOk (w : Nat) : Bool :=
  let g := grpOf w
  decide (g.die ≤ 79) && decide (g.row0 ≤ g.row1) && decide (g.row1 ≤ 99) && decide (g.col0 ≤ g.col1) && decide (g.col1 ≤ 127) &&
  decide (g.span0 ≤ 30) && decide (1 ≤ g.nspans) && decide (g.span0 + g.nspans ≤ 31)

/-- R180: whether two groups name overlapping rectangles on the same spans of one die. -/
def grpOverlap (a b : Grp) : Bool :=
  a.die == b.die && decide (a.row0 ≤ b.row1) && decide (b.row0 ≤ a.row1) && decide (a.col0 ≤ b.col1) && decide (b.col0 ≤ a.col1) &&
  decide (a.span0 < b.span0 + b.nspans) && decide (b.span0 < a.span0 + a.nspans)

/-- The owner of a pass's destinations (R170). -/
def passOwner (p : Pass) : Nat := if p.ctxOwned then p.ctx else ownerPass

/-- The contexts a group's counts go to (R171). -/
def grpCtxs (p : Pass) (g : Grp) : List Nat := if g.all then p.ctxs else [g.ctx]

/-- Count for an engine and for the contexts of a group. -/
def countGrp (num e : Nat) (p : Pass) (g : Grp) (s : State) : State :=
  (grpCtxs p g).foldl (fun s c => count bFRS num 1 c s) (count bFRS num 0 e s)

/-! ### The record (R160, R161) -/

/-- Set bits of a map read from memory. -/
def mapBits (b : Bytes) : List Nat := (List.range 1024).filter fun i => bitN ((b.getD (i / 8) 0).toNat) (i % 8)

/-- The pass a record describes, its group table and context map read from memory. -/
def passOf (s : State) (id : Nat) (b : Bytes) : Pass :=
  let f (o n : Nat) : Nat := leField b o n
  let w := f 8 4
  let n := f 20 1 % 32
  { id := id, start := f 0 8 % 2 ^ 50, tiles := bitsN w 16 0, slow := bitN w 17, ctxOwned := bitN w 18, ctx := bitsN w 28 19,
    srcFmt := f 12 2, outFmt := f 14 2, alive := f 16 2, tRows := f 18 1 % 128, cnt := f 19 1 % 16, due0 := f 24 4, interval := f 28 4,
    srcPay := f 32 8, srcTrl := f 40 8, srcIdent := f 48 8,
    grps := (List.range n).map fun i => grpOf (leNat (memRead s (f 56 8 + 8 * i) 8)),
    ctxs := mapBits (memRead s (f 64 8) 128) }

/-- R160 to R165, R180: whether a record is within its limits beside the passes its engine already holds. -/
def passOk (s : State) (x : Frs) (b : Bytes) : Bool :=
  let p := passOf s 0 b
  let f (o n : Nat) : Nat := leField b o n
  let src := p.srcFmt % 256
  let n := f 20 1 % 32
  let per := outsPer src p.outFmt
  bitsN (f 0 8) 63 50 == 0 && bitsN (f 8 4) 31 29 == 0 && bitN (f 18 1) 7 == false && bitsN (f 19 1) 7 4 == 0 && bitsN (f 20 1) 7 5 == 0 &&
  f 21 3 == 0 && leNat (sliceB b 72 24) == 0 &&
  decide (1 ≤ p.tiles) && (!p.slow || s.full) && (!p.ctxOwned || ctxLive (getCtx s p.ctx)) &&
  srcCols src != 0 && p.srcFmt / 256 == 0 && convAllowed src p.outFmt &&
  (if p.outFmt / 256 == 2 then
    decide (1 ≤ p.tRows) && decide (p.tRows ≤ 64) && decide (panelBytes (p.outFmt % 256) (8 * p.tRows) ≤ 2048) &&
    (!(isMx (p.outFmt % 256)) || p.tRows % 4 == 0)
   else p.tRows == 0) &&
  p.tiles % per == 0 &&
  decide (1 ≤ p.cnt) && decide (1 ≤ n) && decide (n ≤ 16) && decide (1 ≤ p.interval) &&
  p.srcPay % 2048 == 0 && p.srcTrl % 32 == 0 && identValid p.srcIdent && f 56 8 % 8 == 0 && f 64 8 % 128 == 0 &&
  ((List.range n).all fun i => grpOk (leNat (memRead s (f 56 8 + 8 * i) 8))) &&
  !(x.passes.any fun q => q.grps.any fun g => p.grps.any fun h => grpOverlap g h)

/-- The steps of the contexts that a refused pass serves fail with class 3 (R160, R326). -/
def passRefuse (e : Nat) (p : Pass) (s : State) : State :=
  p.ctxs.foldl (fun s c => stepFail c 3 0 s) (raise (ringUnit e) bFRS sCont 0x05 (if p.ctxOwned then some p.ctx else none) p.srcPay p.start 0 s)

/-- An entry of the prefetch buffer. -/
def entryOf (x : Frs) (pass src : Nat) : Option Entry := x.buf.find? fun e => e.pass == pass && e.src == src

/-- The sources of an output as they stand in the buffer: `none` where one is missing. -/
def sourcesOf (x : Frs) (p : Pass) (i : Nat) : Option (List Entry) :=
  let (j, n) := needs p i
  (List.range n).mapM fun k => (entryOf x p.id (j + k)).bind fun e => if e.failed || e.tile.isSome then some e else none

/-- A tile formed for delivery (R166). -/
def formTile (s : State) (p : Pass) (i : Nat) (es : List Entry) : Formed × Bytes × Bytes :=
  let fo := formOut p i (es.map fun e => match e.tile with | some t => t.1 | none => [])
  let pay := fitB fo.bytes 2048
  let alive := match es.head? with
    | some e => match e.tile with | some t => trlAlive t.2 | none => 0
    | none => 0
  let epoch := match es.head? with | some e => if p.slow then 0 else e.epoch | none => 0
  (fo, pay, formTrailer s pay alive p.outFmt (outIdent p i) epoch)

/-- Find a delivery to a group. -/
def delOf (x : Frs) (pass i g : Nat) : Option Del := x.dels.find? fun d => d.pass == pass && d.out == i && d.grp == g && d.rf.isNone

/-- Whether an output has landed in, or been dropped by, every cell of a group (R169). -/
def delDone (x : Frs) (pass i g : Nat) : Bool := match delOf x pass i g with | some d => d.acked | none => false

/-- A pass by number, live or ended. -/
def passAny (x : Frs) (id : Nat) : Option Pass := (x.passes ++ x.past).find? (·.id == id)

/-- Whether an output is formed from a source (R165, R166). -/
def usesSrc (p : Pass) (i j : Nat) : Bool := decide ((needs p i).1 ≤ j) && decide (j < (needs p i).1 + (needs p i).2)

/-- The outputs formed from a source. -/
def outsOf (p : Pass) (j : Nat) : List Nat := (List.range (outsPer (p.srcFmt % 256) p.outFmt)).map (firstOut p j + ·)

/-- Whether a source is still needed: by an output not yet done, or by a refetch (R168, R178). -/
def srcNeeded (x : Frs) (pass j : Nat) : Bool :=
  (match x.passes.find? (·.id == pass) with
   | some p => (outsOf p j).any fun i => (List.range p.grps.length).any fun g => !(delDone x pass i g)
   | none => false) ||
  (x.dels.any fun d => d.pass == pass && d.rf.isSome && !d.acked &&
    (match passAny x pass with | some p => usesSrc p d.out j | none => false))

/-- R168: sources leave the buffer once nothing needs them; merge entries once closed and unused. -/
def releaseEntries (e : Nat) (s : State) : State :=
  modFrs e (fun x =>
    let y := { x with buf := x.buf.filter fun en => srcNeeded x en.pass en.src }
    { y with merges := y.merges.filter fun m => m.open_ || (y.buf.any fun en => en.merge == some m.id && en.tile.isNone) }) s

/-- R172, R180: whether deliveries to a group are no longer issued: from the boundary after its context was killed or its die was lost. -/
def grpSkipped (s : State) (p : Pass) (g : Grp) (k : Nat) : Bool :=
  (match tget? p.skip k with | some b => decide (b < s.tide.bnd) | none => false) ||
  (!(siteAvail s (dieSite s g.die)) && (match tget? s.net.outBnd (dieSite s g.die) with | some b => decide (b < s.tide.bnd) | none => true))

/-- The usable cells of a group. -/
def grpLive (s : State) (g : Grp) : List Nat := (grpCells g).filter (cellUsable s)

/-- The contexts a pass's own counts go to: those of its groups (R171). -/
def passCtxs (p : Pass) : List Nat := (p.grps.flatMap (grpCtxs p)).eraseDups

/-- Count for an engine and for the contexts of a pass's groups. -/
def countPass (num e : Nat) (p : Pass) (s : State) : State :=
  (passCtxs p).foldl (fun s c => count bFRS num 1 c s) (count bFRS num 0 e s)

/-! ### Reading sources (R168, R173, R174) -/

/-- Payload and trailer address of a source. -/
def srcPayAt (p : Pass) (j : Nat) : Nat := p.srcPay + 2048 * j
def srcTrlAt (p : Pass) (j : Nat) : Nat := p.srcTrl + 32 * j

/-- The output form of a pass (R174). -/
def formOf (p : Pass) : Nat × Nat := (p.outFmt, p.tRows)

/-- R173, R174: the open entry that a request joins. -/
def mergeFor (s : State) (x : Frs) (p : Pass) (addr copies : Nat) : Option Merge :=
  x.merges.find? fun m => m.open_ && m.slow == p.slow && m.addr == addr && decide (s.now ≤ m.at_ + 16) &&
    decide (m.copies + copies ≤ 64) && decide ((if m.forms.contains (formOf p) then m.forms else formOf p :: m.forms).length ≤ 4)

/-- The read of a slow source: payload and trailer (R163). -/
def askSlow (e : Nat) (p : Pass) (j : Nat) (s : State) : State :=
  let ctx := p.ctxs.headD 0
  rsvAsk { agent := e, by_ := .frs e (srcTrlAt p j), ctx := ctx, addr := srcTrlAt p j, len := 32, act := .read, cls := 4 }
    (rsvAsk { agent := e, by_ := .frs e (srcPayAt p j), ctx := ctx, addr := srcPayAt p j, len := 2048, act := .read, cls := 4 } s)

/-- A source read is issued, alone or merged (R168, R173): the entry takes its place in the buffer. -/
def readSource (e : Nat) (p : Pass) (j copies : Nat) (en : Entry) (s : State) : State :=
  let x := getFrs s e
  let addr := srcPayAt p j
  let on := bitN (regLive s 0x3004 e) 24
  let put (m : Option Nat) (s : State) : State := modFrs e (fun x => { x with buf := x.buf ++ [{ en with merge := m, copies := copies }] }) s
  let ask (s : State) : State := modFrs e (fun x => { x with readSlot := x.readSlot + 1 }) (if p.slow then askSlow e p j s else s)
  if !on then ask (put none s)
  else match mergeFor s x p addr copies with
    | some m =>
      let m' := { m with copies := m.copies + copies, forms := if m.forms.contains (formOf p) then m.forms else formOf p :: m.forms }
      countPass 9 e p (put (some m.id) (modFrs e (fun x => { x with merges := x.merges.map fun k => if k.id == m.id then m' else k }) s))
    | none =>
      if 1024 ≤ (x.merges.filter (·.open_)).length then countPass 10 e p (ask (put none s))
      else
        let m : Merge := { id := x.nextId, slow := p.slow, addr := addr, at_ := s.now, copies := copies, forms := [formOf p] }
        ask (put (some m.id) (modFrs e (fun x => { x with merges := x.merges ++ [m], nextId := x.nextId + 1 }) s))

/-- The next source of a pass to read: one to be read again, else the next in order. -/
def nextRead (p : Pass) : Option Nat :=
  match p.again with
  | j :: js => some (js.foldl min j)
  | [] => if p.nextSrc < srcTiles p then some p.nextSrc else none

/-- R168: whether a source is within its lead. -/
def readDue (s : State) (e : Nat) (p : Pass) (j : Nat) : Bool :=
  let due := dueIn s p (firstOut p j)
  if p.slow then decide (due ≤ (16384 * (max (regL s 0x3008 e 23 16) 1) : Nat))
  else decide (due ≤ (max (regL s 0x3008 e 15 0) 16 : Nat))

/-- R168: the pass and source read next: the earliest due, ties by queue order. -/
def readNext (s : State) (e : Nat) (x : Frs) : Option (Nat × Nat) :=
  let c := x.passes.filterMap fun p => (nextRead p).bind fun j => if readDue s e p j then some (dueIn s p (firstOut p j), p.id, j) else none
  match c with
  | [] => none
  | h :: t => let b := t.foldl (fun b k => if k.1 < b.1 then k else b) h; some b.2

/-- Change a pass. -/
def modPass (e id : Nat) (f : Pass → Pass) (s : State) : State :=
  modFrs e (fun x => { x with passes := x.passes.map fun p => if p.id == id then f p else p }) s

/-- R176 to R178: an entry goes, and its source is read again when it is next needed. -/
def dropEntry (e pass j : Nat) (s : State) : State :=
  let x := getFrs s e
  let s := modFrs e (fun x => { x with buf := x.buf.filter fun en => !(en.pass == pass && en.src == j) }) s
  if srcNeeded x pass j then modPass e pass (fun p => { p with again := addN p.again j }) s else s

/-- The read cap of a slot (R181): larger values act as 80,000. -/
def readCap (s : State) (e : Nat) : Nat := heatShare s e (min (regL s 0x3004 e 16 0) 80000)

/-- R168: whether a source read may be issued: a prefetch entry is free and the slot's cap is not spent. -/
def readRoom (s : State) (e n : Nat) : Bool := decide ((getFrs s e).buf.length + n ≤ 8192) && decide ((getFrs s e).readSlot < readCap s e)

/-- R176, R177: an entry goes, and its source, where it is still needed, is read again at once, or, with the cap spent, when it may be. -/
def readAgain (e : Nat) (p : Pass) (j : Nat) (s : State) : State :=
  let x := getFrs s e
  let live := (x.passes.find? (·.id == p.id)).isSome
  let copies := match entryOf x p.id j with | some en => en.copies | none => 1
  if !(srcNeeded x p.id j) then dropEntry e p.id j s
  else if live && !(readRoom s e 0) then dropEntry e p.id j s
  else readSource e p j copies { pass := p.id, src := j, bnd := s.tide.bnd } (modFrs e (fun x => { x with buf := x.buf.filter fun en => !(en.pass == p.id && en.src == j) }) s)

/-- R159, R183: whether a fast source lies where the engine reads: on its own stack, in service. -/
def srcHere (s : State) (e : Nat) (p : Pass) (j : Nat) : Bool :=
  memStack (srcPayAt p j) == e && memStack (srcTrlAt p j) == e && fastOk s (srcPayAt p j) 2048 && fastOk s (srcTrlAt p j) 32

/-- The data of a source read that returns: payload, trailer and epoch; none where the read fails (R175, R183, R188). -/
def sourceData (s : State) (e : Nat) (p : Pass) (j : Nat) : Option (Option (Bytes × Bytes × Nat)) :=
  if p.slow then
    match rsvEnd s (.frs e (srcPayAt p j)), rsvEnd s (.frs e (srcTrlAt p j)) with
    | some a, some b => some (if a.status == 0 && b.status == 0 then some (fitB a.data 2048, fitB b.data 32, 0) else none)
    | _, _ => none
  else if !(srcHere s e p j) then some none
  else some ((memTile s (srcPayAt p j) (srcTrlAt p j)).map fun t => (t.1, t.2, epochAt s (srcPayAt p j)))

/-- The bin of a landing's margin (R179). -/
def marginBin (m : Int) : Nat :=
  if m < -64 then 12 else if m < -16 then 13 else if m < 0 then 14 else if m < 16 then 15 else if m < 256 then 16
  else if m < 4096 then 17 else if m < 65536 then 18 else 19

/-- margin_sum of an engine (kind 0) or of a context (kind 1), a signed 64-bit sum (R179). -/
def addMargin (kind inst : Nat) (m : Int) (s : State) : State :=
  { s with tel := { s.tel with vals := tset s.tel.vals (telKey bFRS 20 kind inst) (unsN 64 (sgnN 64 (tget s.tel.vals (telKey bFRS 20 kind inst) 0) + m)) } }

/-- A landing's margin joins the sums of its engine and of its group's contexts. -/
def addMargins (e : Nat) (p : Pass) (g : Grp) (m : Int) (s : State) : State := (grpCtxs p g).foldl (fun s c => addMargin 1 c m s) (addMargin 0 e m s)

end Sys2Proof.Machine
end

