-- ==== Sys2Proof/Machine/MemQueue.lean ====
section
/-! DEFINITION. Riffle's queues, slots and rows (R188 to R202). -/
namespace Sys2Proof.Machine

/-- Code of a source class, in the order of R194. -/
def MemCls.code : MemCls → Nat
  | .freshet => 0 | .eddy => 1 | .estuary => 2 | .cell => 3 | .reservoir => 4 | .host => 5 | .internal => 6

/-- R194, R216: the minimum of a class. -/
def clsMin (s : State) (stk : Nat) : MemCls → Nat
  | .freshet => regL s 0x4004 stk 10 0 | .eddy => regL s 0x4004 stk 26 16
  | .estuary => regL s 0x4008 stk 10 0 | .cell => regL s 0x4008 stk 26 16
  | .reservoir => regL s 0x400C stk 10 0 | .host => regL s 0x400C stk 26 16
  | .internal => 64

/-- R186: bank (64 × pseudo-channel + bank) and row (2^15 × bank + row) of an address under its stack's key. -/
def bankOf (x : Stack) (a : Nat) : Nat := let (pc, b, _) := interleave x.key (memOff a); 64 * pc + b
def rowOf (x : Stack) (a : Nat) : Nat := let (pc, b, q) := interleave x.key (memOff a); (64 * pc + b) * 2 ^ 15 + q

/-- Whether two requests come from one source (R196). -/
def sameSource (a b : MemReq) : Bool :=
  a.cls == b.cls && match a.from_, b.from_ with
    | .cell l _, .cell m _ => l == m
    | .host _, .host _ => true
    | .unit n _, .unit m _ => n == m
    | _, _ => false

/-- Whether a request is a write. -/
def MemReq.isWrite (r : MemReq) : Bool := match r.act with | .write _ => true | _ => false

/-- The granules (R186) that a request touches, as their first addresses; its rows and banks. -/
def granOf (a n : Nat) : List Nat := if n == 0 then [] else (List.range ((a + n - 1) / 1024 - a / 1024 + 1)).map fun k => 1024 * (a / 1024 + k)
def reqRows (x : Stack) (r : MemReq) : List Nat := (granOf r.addr r.len).map (rowOf x)
def reqBanks (x : Stack) (r : MemReq) : List Nat := ((granOf r.addr r.len).map (bankOf x)).eraseDups

/-- R194: the caps hold, in every bank it touches, with one more slot for a request. -/
def capsOk (x : Stack) (r : MemReq) : Bool :=
  decide (x.slots.length < 2048) && (reqBanks x r).all fun b =>
    let inBank := x.slots.filter fun q => (reqBanks x q).contains b
    let inPc := x.slots.filter fun q => (reqBanks x q).any fun k => k / 64 == b / 64
    decide (inBank.length < 64) && decide ((inBank.filter (·.cls == r.cls)).length < 48) &&
    decide (inPc.length < 256) && decide ((inPc.filter (·.cls == r.cls)).length < 192)

/-- R190: whether a request waits for a row whose retirement copy runs. -/
def rowBusy (x : Stack) (r : MemReq) : Bool := (reqRows x r).any x.retiring.contains

/-- R190, R193, R194, R203: whether an access that a block makes within one command can take its slot; it waits while the stack retrains, the
caps leave no slot, or a row of it is being retired. It gives the slot back in the same command (DESIGN CHOICE, log 193). A stack out of
service makes nothing wait (R183). -/
def memRoom (s : State) (cls : MemCls) (a n : Nat) : Bool :=
  let x := getStk s (memStack a)
  let r : MemReq := { id := 0, cls := cls, from_ := .unit 0 0, ctx := none, addr := a, len := n, act := .read, sm := false, at_ := 0 }
  match x.st with
  | .ready => !(fastBacked a) || (capsOk x r && !(rowBusy x r))
  | .retraining => false
  | .unavailable => true

/-- A block's own access within one command, to ranges of the fast tier: it waits for its slots (R194) and for lines that the host may hold
dirty, which it asks for (R348). -/
def unitGate (cls : MemCls) (rs : List (Nat × Nat)) (f : State → State) (s : State) : State :=
  let rs := rs.filter fun r => fastOk s r.1 r.2
  let held := rs.flatMap fun r => snoopLines s false r.1 r.2
  if !held.isEmpty then snoopAsk false held s
  else if rs.all fun r => memRoom s cls r.1 r.2 then f s
  else s

/-- R196: an earlier request of the same source to the same bank goes first. -/
def orderOk (x : Stack) (r : MemReq) : Bool :=
  !((x.queue.takeWhile (·.id != r.id)).any fun q => sameSource q r && (reqBanks x q).any fun b => (reqBanks x r).contains b)

/-- R194, R196, R202: requests that could take a slot now; one for the sort buffer waits for room in it. -/
def grantable (s : State) (x : Stack) : List MemReq :=
  x.queue.filter fun r => !r.sm && capsOk x r && orderOk x r && (r.cls == .host || (snoopLines s r.isWrite r.addr r.len).isEmpty)

/-- R194: the request that takes the next free slot: the oldest of a class below its minimum, else the oldest. -/
def grantNext (s : State) (stk : Nat) (x : Stack) : Option MemReq :=
  let c := grantable s x
  match c.find? fun r => decide ((x.slots.filter (·.cls == r.cls)).length < clsMin s stk r.cls) with
  | some r => some r
  | none => c.head?

/-- Requests that a sort buffer holds (R201). -/
def sortMax : Nat := 4096

/-- R202: a request joins the sort buffer; a read that matches a write held there has the write's data. -/
def sortPut (r : MemReq) (x : Stack) : Stack :=
  let fwd := if r.isWrite then none else ((x.sort.reverse.find? fun q => q.isWrite && decide (q.addr ≤ r.addr) && decide (r.addr + r.len ≤ q.addr + q.len)).bind
    fun q => match q.act with | .write d => some (sliceB d (r.addr - q.addr) r.len) | _ => none)
  { x with sort := x.sort ++ [{ r with fwd := fwd }] }

/-- R202: requests that waited for the sort buffer enter it while there is room. -/
def sortRefill : Nat → Stack → Stack
  | 0, x => x
  | n + 1, x =>
    if sortMax ≤ x.sort.length then x
    else match x.queue.find? (·.sm) with
      | some r => sortRefill n (sortPut r { x with queue := x.queue.filter (·.id != r.id) })
      | none => x

/-- R196: whether a request's source queue is full: it holds its source. -/
def queueFull (s : State) (r : MemReq) : Bool := decide (64 ≤ ((getStk s (memStack r.addr)).queue.filter (sameSource r)).length)

/-- A source held by its full queue is counted. -/
def queueHold (r : MemReq) (s : State) : State := countCtx bMEM 10 0 (memStack r.addr) r.ctx s

/-- Put a request in its source queue, or in the sort buffer (R196, R201); the path is counted (log 187). -/
def memEnqueue (r : MemReq) (s : State) : State :=
  let n := memStack r.addr
  let x := getStk s n
  if queueFull s r then queueHold r s
  else
    let r := { r with id := x.nextId, at_ := s.now }
    countCtx bMEM (if r.sm then 16 else 15) 0 n r.ctx <|
      modStk n (fun x => if r.sm && decide (x.sort.length < sortMax) then sortPut r { x with nextId := x.nextId + 1 } else { x with queue := x.queue ++ [r], nextId := x.nextId + 1 }) s

/-- The lines a write covers only in part. -/
def partLines (a n : Nat) : List Nat := (linesOf a n).filter fun l => !(decide (a ≤ 64 * l) && decide (64 * l + 64 ≤ a + n))

/-- Location words of a memory record (R448): stack, pseudo-channel, bank, row, line. -/
def memLoc (s : State) (a : Nat) : Nat :=
  let x := getStk s (memStack a)
  let (pc, b, q) := interleave x.key (memOff a)
  memStack a + pc * 2 ^ 8 + b * 2 ^ 16 + q * 2 ^ 24 + (a / 64 % 16) * 2 ^ 40

/-- A request is accepted (R175, R193): a write's data and epochs, or the bytes or epoch that the read or probe will give. -/
def memAccept (stk : Nat) (r : MemReq) (s : State) : State :=
  let x := getStk s stk
  let b := bankOf x r.addr
  let s := if r.act == .probe then epochTouch (r.addr / 4096) s else s
  let r := { r with
    acc := x.nextAcc, accAt := s.now, also := r.also.map fun a => { a with data := memRead s a.addr a.len },
    data := match r.act with
      | .read => r.fwd.getD (memRead s r.addr r.len)
      | .probe => natLE 4 (epochAt s r.addr)
      | .write _ => [] }
  let s := modStk stk (fun x => { x with
    queue := x.queue.filter (·.id != r.id), slots := x.slots ++ [r], nextAcc := x.nextAcc + 1,
    concBank := (reqBanks x r).foldl (fun t b => tmod t b 0 (· + 1)) x.concBank, concBytes := x.concBytes + r.len,
    concCtx := match r.ctx with | some c => tmod x.concCtx (b * 1024 + c) 0 (· + 1) | none => x.concCtx,
    concPage := tmod x.concPage (b * 2 ^ 36 + r.addr / 4096) 0 (· + 1) }) s
  match r.act with
  | .write d =>
    let bad := (partLines r.addr r.len).filter fun l => (getStk s stk).poison.contains l
    let s := bad.foldl (fun s l => raise (ringUnit stk) bMEM sCont 0x02 r.ctx (64 * l) (memLoc s (64 * l)) 0 s) s
    memWrite (r.cls != .host) r.addr (fitB d r.len) s
  | _ => s

/-- R195: the slot a bank serves next: an aged one, then the oldest row hit, then the oldest; slots of rows being retired wait;
requests to one line, and probes and writes of one page, in acceptance order. -/
def serveNext (x : Stack) (b : Nat) : Option MemReq :=
  let c := x.slots.filter fun q => bankOf x q.addr == b && !(rowBusy x q)
  match c.find? (·.aged) with
  | some r => some r
  | none =>
    match c.find? (fun q => some (rowOf x q.addr) == tget? x.openRow b) with
    | some r => some r
    | none => c.head?

/-- R189, R190: an error found in a row, and whether the row is to be retired. -/
def rowError (stk a : Nat) (persistent : Bool) (s : State) : State :=
  let day := 24 * 3600 * 150000000
  modStk stk (fun x =>
    let row := rowOf x a
    let h := tget x.rows row {}
    let h : RowHist := if persistent then { h with bad := addN h.bad (a / 64) }
      else { h with corr := s.now :: h.corr.filter fun t => decide (s.now ≤ t + day) }
    let x := { x with rows := tset x.rows row h }
    if (decide (2 ≤ h.bad.length) || decide (16 ≤ h.corr.length)) && !(x.retiring.contains row) && !(x.retired.contains row) then
      { x with retiring := x.retiring ++ [row] }
    else x) s

/-- R188, R189: what the access to a line finds. `true`: the line gives data. -/
def lineCheck (stk a : Nat) (ctx : Option Nat) (e : MemEcc) (s : State) : State × Bool :=
  let l := a / 64
  if (getStk s stk).poison.contains l then (s, false)
  else match e with
    | .clean => (s, true)
    | .onDie => (countCtx bMEM 17 0 stk ctx s, true)
    | .corrected =>
      (rowError stk a false (countCtx bMEM 4 0 stk ctx (raise (ringUnit stk) bMEM sCorr 0x01 ctx a (memLoc s a) 0 s)), true)
    | .transient =>
      (countCtx bMEM 5 0 stk ctx (raiseRec { sev := sCorr, ctx := ctx, transient := true, block := bMEM, cls := 0x02, unit := ringUnit stk, loc0 := a, loc1 := memLoc s a } s), true)
    | .persistent =>
      let s := raise (ringUnit stk) bMEM sCont 0x02 ctx a (memLoc s a) 0 s
      (rowError stk a true (countCtx bMEM 6 0 stk ctx (modStk stk (fun x => { x with poison := addN x.poison l }) s)), false)

/-- R188: what the accesses to the lines of a range find, in order; the Bool: every line gives data. -/
def linesCheck (stk : Nat) (ls : List Nat) (ctx : Option Nat) (es : List MemEcc) (s : State) : State × Bool :=
  (List.range ls.length).foldl (fun a i =>
    let (s, ok) := lineCheck stk (64 * ls.getD i 0) ctx (es.getD i .clean) a.1
    (s, a.2 && ok)) (s, true)

/-- R188: a write that covers a line in part reads it first; what it cannot correct stays poisoned, with a record of the write's own. -/
def partCheck (stk : Nat) (ls : List Nat) (ctx : Option Nat) (es : List MemEcc) (s : State) : State :=
  (List.range ls.length).foldl (fun s i =>
    let a := 64 * ls.getD i 0
    let known := (getStk s stk).poison.contains (a / 64)
    let (s, ok) := lineCheck stk a ctx (es.getD i .clean) s
    if ok || known then s else raise (ringUnit stk) bMEM sCont 0x02 ctx a (memLoc s a) 0 s) s

/-- What a block's accesses within one command find on lines of its stack, by address (R188). -/
def ownLines (stk : Nat) (ctx : Option Nat) (es : List (Nat × MemEcc)) (s : State) : State :=
  es.foldl (fun s e => if memStack e.1 == stk then (lineCheck stk e.1 ctx e.2 s).1 else s) s

/-- Lines that the snoop filter records (R348). -/
def filterLines : Nat := 2097152

/-- R347 to R349: a host read is answered; the state granted is recorded in the snoop filter, whose oldest record makes room. -/
def hostAnswer (tag : Nat) (ok : Bool) (data : Bytes) (s : State) : State :=
  let q := tget? s.hst.reqs tag
  let s := { s with hst := { s.hst with reqs := tdel s.hst.reqs tag } }
  let s := if ok then s else count bHST 2 0 0 s
  let s := match q with
    | some h => match h.grant with
      | some any =>
        if !ok then s
        else
          let s := if (tget? s.mem.filter h.line).isNone && filterLines ≤ s.mem.filter.length then
              match s.hst.order with
              | l :: rest => count bHST 4 0 0 (emit (.hostLink 1 [l] []) { s with mem := { s.mem with filter := tdel s.mem.filter l }, hst := { s.hst with order := rest } })
              | [] => s
            else s
          { s with mem := { s.mem with filter := tset s.mem.filter h.line any }, hst := { s.hst with order := addN s.hst.order h.line } }
      | none => s
    | none => s
  emit (.hostLink 3 [tag, b2n (!ok)] (if ok then data else [])) s

/-- What a served request gives one requester (R92, R188, R347). -/
def memGive (r : MemReq) (ok : Bool) (s : State) : State :=
  match r.from_ with
  | .cell l op =>
    match findOp (getCell s l) op with
    | none => s
    | some o =>
      match o.kind with
      | .ldx => send (.ldxData l op (if ok then some (leNat r.data) else none)) s
      | .fetch =>
        let f : Fill := { kind := .fetch op, cell := l, addr := o.loc, len := o.len, cnt := o.cnt, ctx := o.ctx,
                          data := r.data.take o.len, trailer := r.data.drop o.len, poisoned := !ok }
        send (.fill f [l]) s
      | .send => s
  | .host tag =>
    match r.act with
    | .read => hostAnswer tag (ok && !s.mem.hostLost) r.data s
    | _ => emit (.hostLink 4 [tag] []) { s with hst := { s.hst with reqs := tdel s.hst.reqs tag } }
  | .unit _ _ => s

/-- What a served request gives its requester, and those of the reads merged into it (R202). -/
def memAnswer (r : MemReq) (ok : Bool) (s : State) : State :=
  r.also.foldl (fun s a => memGive { r with from_ := a.from_, ctx := a.ctx, addr := a.addr, len := a.len, data := a.data } ok s) (memGive r ok s)

/-- Who made a request, as a record names it: a cell, a ring unit, or the host (R183). -/
def MemFrom.requester : MemFrom → Nat
  | .cell l _ => l
  | .host _ => Master.host.id
  | .unit n _ => n

/-- A request discarded because its stack is unavailable (R183). -/
def memLost (stk : Nat) (f : MemFrom) (ctx : Option Nat) (addr : Nat) (act : MemAct) (s : State) : State :=
  let s := raise (ringUnit stk) bMEM sCont 0x05 ctx addr f.requester 0 s
  match f with
  | .cell l op => send (.refuse l op) s
  | .host tag => match act with
    | .read => hostAnswer tag false [] s
    | _ => emit (.hostLink 4 [tag] []) { s with hst := { s.hst with reqs := tdel s.hst.reqs tag } }
  | .unit _ _ => s

/-- A stack leaves service (R183, R203, R437): waiting requests are discarded with their records. -/
def stackLost (stk : Nat) (s : State) : State :=
  let x := getStk s stk
  let gone := x.queue ++ x.sort ++ x.slots
  let s := { s with net := { s.net with stackOut := addN s.net.stackOut stk } }
  let s := modStk stk (fun x => { x with st := .unavailable, queue := [], sort := [], slots := [], retrainWant := false }) s
  gone.foldl (fun s r => r.also.foldl (fun s a => memLost stk a.from_ a.ctx a.addr .read s) (memLost stk r.from_ r.ctx r.addr r.act s)) s

/-- R215: a request that has not been accepted loses the parts of a context; what is left of it. -/
def dropPart (c : Nat) (r : MemReq) : Option MemReq :=
  let rest := r.also.filter (·.ctx != some c)
  if r.ctx != some c then some { r with also := rest }
  else match rest with
    | [] => none
    | a :: as => some { r with from_ := a.from_, ctx := a.ctx, addr := a.addr, len := a.len, also := as }

/-- R215: requests of a killed context that have not been accepted are dropped. -/
def memDropCtx (c : Nat) (s : State) : State :=
  unitFree (fun b => b.ctx == c && b.job.any (fun j => decide (1 ≤ j))) { s with
    mem := { s.mem with stks := s.mem.stks.map fun e => (e.1, { e.2 with queue := e.2.queue.filterMap (dropPart c), sort := e.2.sort.filterMap (dropPart c) }) },
    rsv := { s.rsv with
      want := s.rsv.want.filter (·.ctx != c),
      aborted := s.rsv.aborted ++ (s.rsv.ops.filter (·.w.ctx == c)).map fun o => o.w.agent * 1024 + o.slot,
      ops := s.rsv.ops.filter (·.w.ctx != c),
      done := s.rsv.done.filter (·.ctx != c) } }

/-- The largest `n` entries of a table by value, ties by key. -/
def topN : Nat → Tab Nat → List (Nat × Nat)
  | 0, _ => []
  | n + 1, t =>
    match t with
    | [] => []
    | h :: r => let b := r.foldl (fun b e => if b.2 < e.2 then e else b) h; b :: topN n (tdel t b.1)

/-- Sum a table's values by a part of its keys. -/
def groupSum (t : Tab Nat) (f : Nat → Nat) : Tab Nat := t.foldl (fun acc e => tmod acc (f e.1) 0 (· + e.2)) []

end Sys2Proof.Machine
end

