-- ==== Sys2Proof/Machine/EstOps.lean ====
section
/-! DEFINITION. Estuary's working: windows and their tables, sums and their checksum identity, staging, what leads and forwarders
send, the decision on a step, failed windows (R129 to R133, R248 to R275). -/
namespace Sys2Proof.Machine

/-! ### The scale table (R122) -/

/-- The whole words that hold entries of a context's table: address and length. -/
def tabSpan (s : State) (c b0 n : Nat) : Nat × Nat :=
  let a := (getCtx s c).num.scaleTable + 2 * b0
  (a / 4 * 4, (a + 2 * n + 3) / 4 * 4 - a / 4 * 4)

/-- Whether entries can be read: at once in the fast tier, in the slow tier once they have been read. -/
def tabBack (s : State) (blk inst c b0 n : Nat) : Bool :=
  let (a, len) := tabSpan s c b0 n
  !(slowAddr a) || slowBack s blk inst a len

/-- Entries in the slow tier are asked for; a block is done with them. -/
def tabAsk (blk inst c b0 n : Nat) (s : State) : State := let (a, len) := tabSpan s c b0 n; slowAsk blk inst c a len s
def tabTake (blk inst c b0 n : Nat) (s : State) : State := let (a, len) := tabSpan s c b0 n; if slowAddr a then slowTake blk inst a len s else s

/-- An entry as the module reads it (R122). -/
def tabEntry (s : State) (c b : Nat) : ScaleEntry :=
  let n := (getCtx s c).num
  scaleOf n.initExp (leNat (memRead s (n.scaleTable + 2 * b) 2))

/-! ### Engines and windows -/

def getEst (s : State) (e : Nat) : EstEng := tget s.est.engs e {}

/-- Change an engine. -/
def modEst (e : Nat) (f : EstEng → EstEng) (s : State) : State := { s with est := { s.est with engs := tset s.est.engs e (f (getEst s e)) } }

/-- An armed window. -/
def winOf (s : State) (e c step : Nat) : Option EstWin := (getEst s e).wins.find? fun w => w.ctx == c && w.step == step

/-- Change an armed window. -/
def modWin (e c step : Nat) (f : EstWin → EstWin) (s : State) : State :=
  modEst e (fun x => { x with wins := x.wins.map fun w => if w.ctx == c && w.step == step then f w else w }) s

/-- A window as the module holds it. -/
def winMod (s : State) (c step : Nat) : Option WinMod := s.est.mods.find? fun m => m.ctx == c && m.step == step

/-- Change it. -/
def modMod (c step : Nat) (f : WinMod → WinMod) (s : State) : State :=
  { s with est := { s.est with mods := s.est.mods.map fun m => if m.ctx == c && m.step == step then f m else m } }

/-- R279: repeat_max and hold_ext in force. -/
def repeatMax (s : State) : Nat := max (regL s 0x6000 0 3 0) 1
def holdExt (s : State) : Nat := regL s 0x6000 0 7 4

/-- R268: slots added to a window opened outside LOCKED: hold_ext and one for each full 200 s of TID_HOLD_TIME. -/
def extNow (s : State) : Nat :=
  if inHoldover s then holdExt s + min ((s.now - s.tide.holdAt) / 150000) (2 ^ 32 - 1) / 200000 else 0

/-- Deadline and send-by slots of a window. -/
def winDl (w : EstWin) : Nat := w.openSlot + w.deadline + w.ext.getD 0
def winSendBy (w : EstWin) : Nat := winDl w - w.fwd

/-- R254, R268: at a boundary, windows whose open slot has come take their extension and their key. -/
def estBoundary (s : State) : State :=
  s.est.engs.foldl (fun s e => e.2.wins.foldl (fun s w =>
    if w.ext.isNone && decide (w.openSlot ≤ slotNow s) then
      let s := modWin e.1 w.ctx w.step (fun w => { w with ext := some (extNow s), openTide := s.tide.count }) s
      modMod w.ctx w.step (fun m => { m with dl := max m.dl (w.openSlot + w.deadline + extNow s) }) s
    else s) s) s

/-! ### Tables (R256, R257) -/

/-- A tile-table entry. -/
structure EstEntry where
  ident : Nat
  mask : Nat
  dst : Nat
  node : Nat
  eng : Nat
  role : Nat
  slot : Nat
  conv : Bool
  deriving DecidableEq, Repr

/-- Entry `j` of a window's tile table. -/
def entAt (s : State) (w : EstWin) (j : Nat) : EstEntry :=
  let b := memRead s (w.tileTab + 32 * j) 32
  let r := leField b 26 1
  let q := leField b 27 1
  { ident := leField b 0 8, mask := leField b 8 8, dst := leField b 16 8, node := leField b 24 2, eng := r % 64, role := r / 64,
    slot := q % 64, conv := bitN q 6 }

/-- Count, backup and validity of an input slot. -/
def srcAt (s : State) (w : EstWin) (k : Nat) : Nat × Bool × Bool :=
  let v := leNat (memRead s (w.srcTab + 4 * k) 4)
  (bitsN v 24 0, bitN v 25, bitN v 26)

/-- The slots of a mask. -/
def maskSlots (m : Nat) : List Nat := (List.range 64).filter (bitN m)

/-- The sum of the counts of a mask's slots. -/
def maskCount (s : State) (w : EstWin) (m : Nat) : Nat := (maskSlots m).foldl (fun a k => a + (srcAt s w k).1) 0

/-- The owned shard whose staging array holds a payload address, with the tile's index (R262). -/
def stagingAt (s : State) (c a : Nat) : Option (ShardRec × Nat) :=
  (tget s.edy.shards c []).findSome? fun x =>
    let t := (x.r.elements + 511) / 512
    if x.r.owner && decide (x.r.gAddr ≤ a) && (a - x.r.gAddr) % 2048 == 0 && decide ((a - x.r.gAddr) / 2048 < t) then some (x.r, (a - x.r.gAddr) / 2048) else none

/-- R256: the checks of an entry against its role. -/
def entOk (s : State) (e : Nat) (w : EstWin) (j : Nat) : Bool :=
  let b := memRead s (w.tileTab + 32 * j) 32
  let x := entAt s w j
  identValid x.ident && idClass x.ident == 2 && idCtx x.ident == w.ctx &&
  (if x.role == 0 || x.role == 1 then idKind x.ident == 9 else idKind x.ident == 10 && idBase x.ident == 0 && !x.conv) &&
  (x.role != 0 || (match stagingAt s w.ctx x.dst with
    | some (r, i) => memStack x.dst == e && idBase x.ident == (32 * (r.gblock0 + 16 * i)) % 2 ^ 45
    | none => false)) &&
  !bitN (leField b 27 1) 7 && leField b 28 4 == 0 &&
  ((maskSlots x.mask).all fun k => (srcAt s w k).2.2) && decide (maskCount s w x.mask ≤ 2 ^ w.h) &&
  (x.node == 0 || x.role == 0 || x.role == 2 || engOn s e)

/-- Entries of a window that have a role. -/
def roleEntries (s : State) (w : EstWin) (role : Nat) : List Nat := (List.range w.tiles).filter fun j => (entAt s w j).role == role

/-- A window record from its bytes (R255). -/
def estWinOf (b : Bytes) : EstWin :=
  let f (o n : Nat) : Nat := leField b o n
  let w := f 12 2
  { openSlot := f 0 8 % 2 ^ 50, step := f 8 4, ctx := bitsN w 9 0, rep := bitN w 10, attempt := bitsN w 14 11, nsteps := f 14 1, h := f 15 1,
    deadline := f 16 2, fwd := f 18 2, tiles := f 20 3, tileTab := f 24 8, collect := f 32 8, srcTab := f 40 8, fanTab := f 48 8, fanCount := f 56 2 }

/-- R254 to R257: whether a record and its tables are within their limits. -/
def estWinOk (s : State) (e : Nat) (b : Bytes) : Bool :=
  let w := estWinOf b
  let x := getCtx s w.ctx
  let leads := roleEntries s w 2
  bitsN (leField b 0 8) 63 50 == 0 && !bitN (leField b 12 2) 15 && leField b 23 1 == 0 && leField b 58 6 == 0 &&
  x.st != .free && (!w.rep || x.priv) && decide (1 ≤ w.nsteps) && decide (w.nsteps ≤ 64) && decide (1 ≤ w.h) && decide (w.h ≤ 24) && w.h == x.num.headroom &&
  decide (1 ≤ w.deadline) && decide (w.deadline ≤ 4096) && decide (w.fwd < w.deadline) && decide (1 ≤ w.tiles) &&
  w.tileTab % 32 == 0 && w.collect % 2048 == 0 && w.srcTab % 256 == 0 && w.fanTab % 4 == 0 && decide (w.fanCount ≤ 1024) &&
  memStack w.collect == e && fastOk s w.collect (w.tiles * 2112) && fastOk s w.tileTab (32 * w.tiles) && fastOk s w.srcTab 256 &&
  (w.fanCount == 0 || fastOk s w.fanTab (8 * w.fanCount)) &&
  ((List.range w.tiles).all (entOk s e w)) &&
  (!w.rep || (List.range 64).all fun k => !((srcAt s w k).2.2 && (srcAt s w k).2.1)) &&
  (if leads.isEmpty then x.plan.lead != (0, e) else leads.length == 1 && x.plan.lead == (0, e)) &&
  (engOn s e || leads.isEmpty || (List.range w.fanCount).all fun i => leNat (memRead s (w.fanTab + 8 * i) 2) == 0)

/-- R126: whether a step's contributions wait for the sweep of the context's previous window. -/
def sweepDue (s : State) (c step : Nat) : Bool := (getCtx s c).dec.any (·.step != step)

/-! ### Telemetry and records -/

/-- Estuary's counters, in the order of R279; then R119's: 13 saturations, 14 non-finite results (DESIGN CHOICE, log 187). -/
def estCount (num e : Nat) (c : Option Nat) (s : State) : State := countCtx bEST num 0 e c s

/-- R264: a corrupt sum: a contained record that names context, step, tile and engine. -/
def sumRecord (e c step ident : Nat) (s : State) : State := raise (ringUnit e) bEST sCont 0x11 (some c) ident step 0 s

/-! ### Sums (R259, R260, R263) -/

/-- A tile's state in a window. -/
def tileAt (w : EstWin) (j : Nat) : EstTile := tget w.tab j {}

/-- Change a tile's state. -/
def modTile (e c step j : Nat) (f : EstTile → EstTile) (s : State) : State :=
  modWin e c step (fun w => { w with tab := tset w.tab j (f (tileAt w j)) }) s

/-- The collect range of a window's tile with its state line (R260), where its sum has spilled. -/
def spillAt (w : EstWin) (j : Nat) : List (Nat × Nat) :=
  if (tileAt w j).spilled then [(w.collect + 2048 * j, 2048), (w.collect + 2048 * w.tiles + 64 * j, 64)] else []

/-- The staging line of a role 0 tile and its payload (R262). -/
def stageAt (s : State) (w : EstWin) (j : Nat) : List (Nat × Nat) :=
  let x := entAt s w j
  match stagingAt s w.ctx x.dst with
  | some (r, i) => if x.role == 0 then [(x.dst, 2048), (r.gAddr + 2048 * ((r.elements + 511) / 512) + 64 * i, 64)] else []
  | none => []

/-- Accumulators in use at an engine. -/
def accUsed (x : EstEng) : Nat :=
  x.wins.foldl (fun a w => a + (w.tab.filter fun t => !t.2.done && !t.2.spilled && t.2.filled != 0).length) 0

/-- The integers summed so far, from the accumulator or, spilled, from the collect range; the Bool: they can be read. -/
def sumOf (s : State) (w : EstWin) (j : Nat) (t : EstTile) : List Int × Bool :=
  if t.filled == 0 then (List.replicate 512 0, true)
  else if t.spilled then (dbiInts (memRead s (w.collect + 2048 * j) 2048), !(memPoisoned s (w.collect + 2048 * j) 2048))
  else (t.sum, true)

/-- One addition; the Bool says that it wrapped (R259). -/
def addI32 (a b : Int) : Int × Bool :=
  let r := sgnN 32 (unsN 32 (a + b))
  (r, decide (r ≠ a + b))

/-- Element by element. -/
def addTile (a b : List Int) : List Int × Bool :=
  let rs := (List.range 512).map fun i => addI32 (a.getD i 0) (b.getD i 0)
  (rs.map (·.1), rs.any (·.2))

/-- A sum as the access leaves it. -/
def hitSum (h : AccHit) (sum : List Int) : List Int :=
  match h with
  | .flip el bit => lmod sum el.val fun q => sgnN 32 (unsN 32 q ^^^ 2 ^ bit.val)
  | _ => sum

/-! ### What a completed tile does (R261 to R264, R270) -/

/-- The sideband of a contribution (R251). -/
def sideBytes (step ctx attempt : Nat) (backup fp32 : Bool) (src ovf hot nf count : Nat) : Bytes :=
  let b := natLE 4 step ++ natLE 2 (ctx % 1024 + attempt % 16 * 2 ^ 10 + b2n backup * 2 ^ 14 + b2n fp32 * 2 ^ 15) ++ natLE 1 (src % 64) ++ natLE 1 0 ++
    natLE 2 ovf ++ natLE 2 hot ++ natLE 2 nf ++ natLE 2 0 ++ natLE 4 (count % 2 ^ 25) ++ natLE 8 0
  b ++ natLE 4 (crcOf profile0 b)

/-- The staging line of a tile: trailer and flag record (R262). -/
def flagRecord (t : EstTile) (short corrupt : Bool) (nf expected step : Nat) : Bytes :=
  let b := natLE 2 t.ovf ++ natLE 2 t.hot ++ natLE 2 nf ++ natLE 2 (b2n short + 2 * b2n corrupt + 4 * b2n t.conv) ++ natLE 4 t.count ++ natLE 4 expected ++
    natLE 4 step ++ natLE 8 0
  b ++ natLE 4 (crcOf profile0 b)

/-- R261, R262, R270: a role 0 tile is written to its staging array; a corrupt one as zeros. -/
def stageTile (e : Nat) (w : EstWin) (x : EstEntry) (t : EstTile) (sum : List Int) (short corrupt : Bool) (s : State) : State :=
  match stagingAt s w.ctx x.dst with
  | none => s
  | some (r, i) =>
    let pay := if corrupt then List.replicate 2048 0 else dbiBytes sum
    let trl := formTrailer s pay (w.step % 65536) 0x30 x.ident 0
    let line := r.gAddr + 2048 * ((r.elements + 511) / 512) + 64 * i
    let fl := flagRecord t short corrupt (if short then 0xFFFF else t.nf) (maskCount s w x.mask) w.step
    let s := if fastOk s x.dst 2048 && fastOk s line 64 then memWrite true line (trl ++ fl) (memWrite true x.dst pay s) else s
    if short then
      let s := estCount 6 e (some w.ctx) s
      let s := if corrupt then estCount 7 e (some w.ctx) s else s
      raise (ringUnit e) bEST sDef 0x09 (some w.ctx) w.step i (8 + 256 * b2n corrupt) s
    else s

/-- R261, R375: a sum leaves for its receiving engine, over the mesh in the module, else over Cisan. -/
def forwardTile (e : Nat) (w : EstWin) (x : EstEntry) (t : EstTile) (sum : List Int) (s : State) : State :=
  let pay := dbiBytes sum
  let trl := formTrailer s pay (w.step % 65536) (if x.role == 3 then 0x31 else 0x30)
    (if x.role == 3 then x.ident else mkIdent 2 w.ctx 8 (idBase x.ident)) 0
  let side := sideBytes w.step w.ctx w.attempt false false x.slot t.ovf t.hot t.nf t.count
  if x.node == 0 then
    modEst x.eng (fun y => { y with mesh := y.mesh ++ [{ from_ := .engine 0 e, dst := x.dst, payload := pay, trailer := trl, side := side }] }) s
  else csnSend e x.node x.eng 0x10 1 w.ctx (natLE 8 x.dst ++ pay ++ trl ++ side) s

/-- R265, R271: the lead sends its tile, or a failure verdict, to every pair of its fan-out list. -/
def fanOut (e : Nat) (w : EstWin) (m : Option HealthMsg) (s : State) : State :=
  let msg := m.getD { verdict := true, payload := List.replicate 2048 0, trailer := List.replicate 32 0, side := sideBytes w.step w.ctx w.attempt false false 63 0 0 0 0 }
  let s := if m.isNone then estCount 11 e (some w.ctx) s else s
  let s := (List.range w.fanCount).foldl (fun s i =>
    let v := leNat (memRead s (w.fanTab + 8 * i) 8)
    let node := bitsN v 15 0
    let eng := bitsN v 21 16
    if node == 0 || node == nodeId s then modEst eng (fun y => { y with health := y.health ++ [msg] }) s
    else csnSend e node eng 0x11 2 w.ctx (natLE 1 (b2n msg.verdict) ++ natLE 7 0 ++ msg.payload ++ msg.trailer ++ msg.side) s) s
  modMod w.ctx w.step (fun m => { m with fanned := true }) s

/-- R265: the lead's health tile is complete; a repeat window's waits for the outcomes (R272). -/
def leadDone (e : Nat) (w : EstWin) (t : EstTile) (sum : List Int) (s : State) : State :=
  let pay := dbiBytes sum
  let msg : HealthMsg := {
    verdict := false, payload := pay,
    trailer := formTrailer s pay (w.step % 65536) 0x31 (mkIdent 2 w.ctx 10 0) 0,
    side := sideBytes w.step w.ctx w.attempt false false 63 t.ovf t.hot t.nf t.count }
  if w.rep then modMod w.ctx w.step (fun m => { m with leadTile := some msg }) s
  else fanOut e w (some msg) s

/-- R271, R272: the lead's health tile is short or corrupt. -/
def leadFail (e : Nat) (w : EstWin) (s : State) : State :=
  if w.rep then modMod w.ctx w.step (fun m => { m with leadBad := true }) s else fanOut e w none s

/-- R267: an engine reports its counts to Sluice over Rill at priority 2. -/
def estReport (e c step : Nat) (s : State) : State :=
  match winOf s e c step with
  | none => s
  | some w =>
    if w.reported then s
    else
      let s := rillSend (ringUnit e) unitTL 2 0x60 [c, step, w.okN, w.shortN, w.badN] (modWin e c step (fun w => { w with reported := true }) s)
      modMod c step (fun m => { m with reps := m.reps.filter (·.1 != e) ++ [(e, w.okN, w.shortN, w.badN)] }) s

/-- R261, R263, R264: a tile completes: its identity is checked and its role acts. -/
def tileDone (e c step j : Nat) (s : State) : State :=
  match winOf s e c step with
  | none => s
  | some w =>
    let t := tileAt w j
    if t.done then s
    else
      let x := entAt s w j
      let (sum, ok) := sumOf s w j t
      let same := lsumTile 0x30 (dbiBytes sum) == t.lsum
      let full := t.filled &&& x.mask == x.mask
      -- R250: a health sum with a block beside block 0 is corrupt
      let stray := (x.role == 2 || x.role == 3) && (sum.drop 32).any (· != 0)
      let bad := t.corrupt || !same || !ok || stray
      let s := if same || t.filled == 0 then s else estCount 8 e (some c) s
      let s := if bad then sumRecord e c step x.ident s else s
      let s := if full && !bad then estCount 5 e (some c) s else s
      let s := modWin e c step (fun w => { w with
        tab := tset w.tab j { done := true, filled := t.filled }, doneN := w.doneN + 1,
        okN := w.okN + b2n (full && !bad), shortN := w.shortN + b2n (!full && !bad), badN := w.badN + b2n bad }) s
      let s := match x.role with
        | 0 => stageTile e w x t sum (!full || bad) bad s
        | 2 => if full && !bad then leadDone e w t sum s else leadFail e w s
        | _ => if bad || t.filled == 0 then s else forwardTile e w x t sum s
      if w.doneN + 1 == w.tiles then estReport e c step s else s

/-! ### Slices (R277, R329) -/

/-- Contexts with tiles that are complete and wait in their accumulators. -/
def slicePend (s : State) (e : Nat) : List (Nat × Nat × Nat) :=
  (getEst s e).wins.flatMap fun w =>
    (w.tab.filter fun t => !t.2.done && (entAt s w t.1).mask != 0 && t.2.filled &&& (entAt s w t.1).mask == (entAt s w t.1).mask).map fun t => (w.ctx, w.step, t.1)

/-- Whether a context may use an engine's egress and staging in this slot: it holds the slice, or nobody does. -/
def sliceMine (s : State) (e c : Nat) : Bool :=
  match (getEst s e).slice with
  | some (d, b) => b != s.tide.bnd || d == c
  | none => true

/-- A tile is complete: it acts in its context's slice, else it waits in its accumulator. -/
def tileReady (e c step j : Nat) (s : State) : State :=
  if sliceMine s e c then tileDone e c step j (modEst e (fun x => { x with slice := some (c, s.tide.bnd) }) s) else s

/-- The context whose turn it is: privileged ones first, then round-robin from the one that held the latest slice. -/
def sliceNext (s : State) (e : Nat) (l : List Nat) : Option Nat :=
  let last := ((getEst s e).slice.map (·.1)).getD 1023
  let key (c : Nat) : Nat := (if (getCtx s c).priv then 0 else 1024) + (c + 1023 - last) % 1024
  l.foldl (fun b c => match b with | some d => if key c < key d then some c else b | none => some c) none

/-- R277, R329: at a boundary Sluice grants each engine's slot to a context whose tiles wait, one context a slot (DEDUCED, log 198). -/
def estSlices (s : State) : State :=
  s.est.engs.foldl (fun s e =>
    let l := slicePend s e.1
    match sliceNext s e.1 (l.map (·.1)) with
    | some c => (l.filter (·.1 == c)).foldl (fun s k => tileReady e.1 k.1 k.2.1 k.2.2 s) s
    | none => s) s

/-! ### How windows end (R267, R269, R271, R272, R278) -/

/-- Remember a window as ended (R269). -/
def remember (e c step : Nat) (s : State) : State :=
  modEst e (fun x =>
    let l := x.ended.filter (· != (c, step)) ++ [(c, step)]
    { x with ended := l.drop (l.length - 256) }) s

/-- A window is no longer armed at an engine. -/
def dropWin (e c step : Nat) (s : State) : State := modEst e (fun x => { x with wins := x.wins.filter fun w => !(w.ctx == c && w.step == step) }) s

/-- R269, R278, R330, R332: a context's armed windows end at once: nothing is staged, they are forgotten, spilled state lines are zeroed; windows
that ended before stay remembered. -/
def windowsEnd (c : Nat) (s : State) : State :=
  let s := s.est.engs.foldl (fun s e => e.2.wins.foldl (fun s w =>
    if w.ctx != c then s
    else w.tab.foldl (fun s t => if t.2.spilled then memZero (w.collect + 2048 * w.tiles + 64 * t.1) 64 s else s) s) s) s
  { s with est := { s.est with
      engs := s.est.engs.map fun e => (e.1, { e.2 with
        wins := e.2.wins.filter (·.ctx != c), ended := e.2.ended.filter fun k => !(e.2.wins.any fun w => w.ctx == c && (w.ctx, w.step) == k) }),
      mods := s.est.mods.filter (·.ctx != c), diverged := delN s.est.diverged c } }

/-- R269, R271: a window ends by failure at every engine of the module. -/
def winFailAll (c step : Nat) (s : State) : State :=
  s.est.engs.foldl (fun s e => if (winOf s e.1 c step).isSome then remember e.1 c step (dropWin e.1 c step s) else s) s

/-! ### The decision on a step (R129 to R133, R271) -/

/-- A record of Sluice on a step (R447). -/
def stepRecord (c step code : Nat) (s : State) : State := raise unitTL bSLC sInfo 0x09 (some c) step 0 code s

/-- λ as an FP64 code, and whether it is defined (R129). -/
def lambdaOf (S0 S1 e0 : Int) (ovf : Bool) : Nat × Bool :=
  if S1 == 0 || ovf then (0, false) else (roundF fp64 (divV 60 (scaleV (intV S0) e0) (intV S1)), true)

/-- R131: spike_factor × μ, rounded to FP64, below λ. -/
def spikes (x : NumRec) (warm mu lam : Nat) : Bool :=
  decide (x.warmup ≤ warm) && decide (1 ≤ warm) && ltV (decodeF fp64 (roundF fp64 (mulV (decodeF fp32 x.spikeFactor) (decodeF fp64 mu)))) (decodeF fp64 lam)

/-- R132: the moving mean after a swept step without a spike. -/
def movingMean (x : NumRec) (warm mu lam : Nat) : Nat × Nat :=
  (if warm == 0 then lam
   else add64 mu (mul64 (sub64 lam mu) (roundF fp64 (.fin false 1 (-(x.emaShift : Int))))),
   min (warm + 1) (2 ^ 32 - 1))

/-- The module takes the decision of a window from its reduced health block (R129, R131, R132, R133). -/
def takeDecision (c step : Nat) (payload : Bytes) (ovf hot nf : Bool) (s : State) : State :=
  let x := getCtx s c
  let e0 := (tabEntry s c 0).exp
  let S2 := dbiAt payload 2
  let (lam, lamDef) := lambdaOf (dbiAt payload 0) (dbiAt payload 1) e0 ovf
  let spike := lamDef && spikes x.num x.warm x.mu lam
  let order := if !lamDef || (decide (0 < S2) && x.num.nfSkipStep) then 1 else if spike && (x.num.lossPolicy == 1 || x.num.lossPolicy == 2) then 2 else 3
  let s := if spike then stepRecord c step 1 s else s
  let s := if order != 3 then stepRecord c step (2 + 256 * order) s else s
  let s := if 0 < S2 then stepRecord c step 3 s else s
  let s := if order == 2 && x.num.lossPolicy == 2 then holdDue c 1 s else s
  modCtx c (fun y =>
    let m := if order == 3 && !spike then movingMean y.num y.warm y.mu lam else (y.mu, y.warm)
    { y with dec := some {
        step := step, lam := lam, lamDef := lamDef, mu := m.1, warm := m.2, tokens := dbiAt payload 1, skip := order != 3, failed := false, spike := spike, ovf := ovf, hot := hot, nf := nf } }) s

/-- R271: a failed window of a repeat = 0 context: the step is skipped. -/
def failDecision (c step : Nat) (s : State) : State :=
  let s := stepRecord c step (2 + 256 * 4) s
  modCtx c (fun y => { y with dec := some {
    step := step, lam := 0, lamDef := false, mu := y.mu, warm := y.warm, tokens := 0, skip := true, failed := true, spike := false, ovf := false, hot := false, nf := true } }) s

/-- R272: the window's steps run again under the next attempt; after repeat_max failed attempts the context is held. -/
def attemptRepeat (c step : Nat) (s : State) : State :=
  let x := getCtx s c
  let s := winFailAll c step s
  let s := { s with est := { s.est with mods := s.est.mods.filter fun m => !(m.ctx == c && m.step == step) } }
  let e := (s.est.mods.findSome? fun m => if m.ctx == c then m.lead.map (·.1) else none).getD x.plan.lead.2
  let s := estCount 12 e (some c) s
  if repeatMax s ≤ x.attempt + 1 then stepFail c 5 (x.attempt + 1) (holdDue c 4 (modCtx c (fun x => { x with attempt := 0 }) s))
  else
    modCtx c (fun x => { x with
      attempt := x.attempt + 1, dec := none, inRound := false,
      steps := x.steps.map fun t => if t.st == .running || t.st == .reduced || t.st == .accumulated then { t with st := .queued, attempts := t.attempts + 1 } else t }) s

/-- A window has failed for the module (R271, R272). -/
def windowFailed (c step : Nat) (rep : Bool) (s : State) : State :=
  if rep then attemptRepeat c step s
  else failDecision c step (modMod c step (fun m => { m with decided := true }) s)

end Sys2Proof.Machine
end

