-- ==== Sys2Proof/Machine/EdyOps.lean ====
section
/-! DEFINITION. Eddy's working: shards and their tiles (R221 to R224, R236), update programs (R225 to R227), the difference stream
(R241 to R245), repair (R239), what a granule does (R229). -/
namespace Sys2Proof.Machine

/-! ### Engines, shards, streams -/

def getEdy (s : State) (e : Nat) : EdyEng := tget s.edy.engs e {}

/-- Change an engine. -/
def modEdy (e : Nat) (f : EdyEng → EdyEng) (s : State) : State := { s with edy := { s.edy with engs := tset s.edy.engs e (f (getEdy s e)) } }

/-- A context's shards on this module, by rising identifier. -/
def shardsOf (s : State) (c : Nat) : List Shard := tget s.edy.shards c []

/-- A shard. -/
def shardOf (s : State) (c id : Nat) : Option Shard := (shardsOf s c).find? (·.r.id == id)

/-- Change a shard. -/
def modShard (c id : Nat) (f : Shard → Shard) (s : State) : State :=
  { s with edy := { s.edy with shards := tset s.edy.shards c ((shardsOf s c).map fun x => if x.r.id == id then f x else x) } }

/-- The home stack of a shard (R221, R224). -/
def homeOf (r : ShardRec) : Nat := memStack r.fpAddr

/-- The shards that an engine owns of a context, in sweep order (R228). -/
def ownShards (s : State) (e c : Nat) : List Shard := (shardsOf s c).filter fun x => x.r.owner && homeOf x.r == e

/-- R232: whether a copy of a shard may be read: an owner's once its sweep of the step decided has published its digest, a replica's or a
fetcher's once its fetch has verified. -/
def copyReady (s : State) (x : Shard) (pay : Nat) : Bool :=
  if !x.r.owner then x.fetch.isNone
  else if pay == x.r.rep0 then ((x.reps.getD 0 {}).fetch).isNone
  else if pay == x.r.rep1 then ((x.reps.getD 1 {}).fetch).isNone
  else match (getCtx s x.r.ctx).dec with
    | none => true
    | some d =>
      let e := homeOf x.r
      match (getEdy s e).sweeps.find? (·.ctx == x.r.ctx) with
      | some w => ((ownShards s e x.r.ctx).take w.pos).any (·.r.id == x.r.id)
      | none => d.begun

/-- Whether the shards that a pass reads are ready (R232). -/
def passReady (s : State) (p : Pass) : Bool :=
  p.ctxs.all fun c => (shardsOf s c).all fun x =>
    [x.r.wAddr, x.r.rep0, x.r.rep1].all fun a => !(decide (0 < a) && decide (a ≤ p.srcPay) && decide (p.srcPay < a + 2048 * ((x.r.elements + 1279) / 1280))) || copyReady s x a

/-- The sweep of a context at an engine. -/
def sweepOf (s : State) (e c : Nat) : Option Sweep := (getEdy s e).sweeps.find? (·.ctx == c)

/-- Change it. -/
def modSweep (e c : Nat) (f : Sweep → Sweep) (s : State) : State :=
  modEdy e (fun x => { x with sweeps := x.sweeps.map fun w => if w.ctx == c then f w else w }) s

/-- A context's stream. -/
def strmOf (s : State) (c : Nat) : Strm := tget s.edy.streams c {}

/-- Change it. -/
def modStrm (c : Nat) (f : Strm → Strm) (s : State) : State := { s with edy := { s.edy with streams := tset s.edy.streams c (f (strmOf s c)) } }

/-- Eddy's counters, in the order of R246: 0 granules, 1 to 5 blocks kept by cause, 6 tiles written, 7 fetched, 8 repaired, 9
fingerprint and 10 digest mismatches, 11 audits, 12 stream records, 13 stalls, 14 gaps; then R119's: 15 saturations, 16 non-finite results
(DESIGN CHOICE, log 187). -/
def edyCount (num e c n : Nat) (s : State) : State := countN bEDY num 1 c n (countN bEDY num 0 e n s)

/-! ### Tiles of a shard (R222, R223, R236) -/

/-- The format code of a quantity: 0 W, 1 to 4 the states. -/
def qFmt (r : ShardRec) (q : Nat) : Nat :=
  if q == 0 then 0x20 else match bitsN r.sfmt (2 * q - 1) (2 * q - 2) with | 0 => 0x20 | 1 => 0x02 | _ => 0x01

/-- Elements per tile, tiles, tiles per granule. -/
def qPer (r : ShardRec) (q : Nat) : Nat := elemCount (qFmt r q)
def qTiles (r : ShardRec) (q : Nat) : Nat := (r.elements + qPer r q - 1) / qPer r q
def qGran (r : ShardRec) (q : Nat) : Nat := 5120 / qPer r q

/-- Array address, payload and trailer addresses, identifier. -/
def qAddr (r : ShardRec) (q : Nat) : Nat := if q == 0 then r.wAddr else r.sAddr.getD (q - 1) 0
def qPay (r : ShardRec) (q i : Nat) : Nat := qAddr r q + 2048 * i
def qTrl (r : ShardRec) (q i : Nat) : Nat := qAddr r q + 2048 * qTiles r q + 32 * i
def qKind (r : ShardRec) (q : Nat) : Nat := if q == 0 then b2n r.delta else q + 1
def qIdent (r : ShardRec) (q i : Nat) : Nat := mkIdent 2 r.ctx (qKind r q) (r.base + i * qPer r q)

/-- Where a tile's fingerprint stands (R236). -/
def fpAt (r : ShardRec) (q i : Nat) : Nat := r.fpAddr + 64 + 8 * (((List.range q).foldl (fun a p => a + qTiles r p) 0) + i)

/-- Tiles of a quantity that a granule spans. -/
def granTiles (r : ShardRec) (q g : Nat) : List Nat := ((List.range (qGran r q)).map (qGran r q * g + ·)).filter (· < qTiles r q)

/-- Granules of a shard. -/
def granules (r : ShardRec) : Nat := (r.elements + 5119) / 5120

/-- A fingerprint (R236). -/
def fingerprint (payload trailer : Bytes) : Bytes := shake256 (fitB payload 2048 ++ sliceB trailer 4 12) 8

/-- The digest of a shard from its W fingerprints (R236). -/
def shardDigest (r : ShardRec) (step : Nat) (fps : Bytes) : Bytes :=
  digest32 (natLE 4 r.id ++ natLE 2 r.ctx ++ natLE 2 r.layer ++ natLE 4 step ++ natLE 4 (qTiles r 0) ++ natLE 8 r.elements ++ natLE 8 r.base ++ fps)

/-- The W fingerprints as stored. -/
def storedFps (s : State) (r : ShardRec) : Bytes := memRead s (r.fpAddr + 64) (8 * qTiles r 0)

/-- A quantity of a shard in the slow tier (R224). -/
def qSlow (r : ShardRec) (q : Nat) : Bool := slowAddr (qAddr r q)

/-- Whether any quantity is in the slow tier. -/
def anySlow (r : ShardRec) : Bool := (List.range (r.nstate + 1)).any (qSlow r)

/-- Who asks the Reservoir agent: a read of an address; a write is marked above it (R206). -/
def edyBy (e a : Nat) (write : Bool) : RsvBy := .unit bEDY e (a + if write then 2 ^ 48 else 0)

/-- A tile as read: from the fast tier, or what its slow-tier reads returned; none where a read failed. -/
def qTile (s : State) (e : Nat) (r : ShardRec) (q i : Nat) : Option (Bytes × Bytes) :=
  if qSlow r q then
    match rsvEnd s (edyBy e (qPay r q i) false), rsvEnd s (edyBy e (qTrl r q i) false) with
    | some p, some t => if p.status == 0 && t.status == 0 then some (p.data, t.data) else none
    | _, _ => none
  else memTile s (qPay r q i) (qTrl r q i)

/-- The ranges of the fast tier that a granule's tiles lie in. -/
def granRanges (r : ShardRec) (g : Nat) : List (Nat × Nat) :=
  (List.range (r.nstate + 1)).flatMap fun q => if qSlow r q then [] else (granTiles r q g).flatMap fun i => [(qPay r q i, 2048), (qTrl r q i, 32)]

/-- Its staging tiles, with their lines (R222). -/
def stageRanges (r : ShardRec) (g : Nat) : List (Nat × Nat) :=
  let t := (r.elements + 511) / 512
  (((List.range 10).map (10 * g + ·)).filter (· < t)).flatMap fun i => [(r.gAddr + 2048 * i, 2048), (r.gAddr + 2048 * t + 64 * i, 64)]

/-- R234: reads of a granule's slow-tier tiles are issued. -/
def askGran (e : Nat) (r : ShardRec) (g : Nat) (s : State) : State :=
  (List.range (r.nstate + 1)).foldl (fun s q =>
    if qSlow r q then
      (granTiles r q g).foldl (fun s i =>
        rsvAsk { agent := e, by_ := edyBy e (qTrl r q i) false, ctx := r.ctx, addr := qTrl r q i, len := 32, act := .read }
          (rsvAsk { agent := e, by_ := edyBy e (qPay r q i) false, ctx := r.ctx, addr := qPay r q i, len := 2048, act := .read } s)) s
    else s) s

/-- Whether every slow-tier read of a granule has ended. -/
def granBack (s : State) (e : Nat) (r : ShardRec) (g : Nat) : Bool :=
  (List.range (r.nstate + 1)).all fun q => !(qSlow r q) || (granTiles r q g).all fun i =>
    (rsvEnd s (edyBy e (qPay r q i) false)).isSome && (rsvEnd s (edyBy e (qTrl r q i) false)).isSome

/-- R246: granules read ahead in the slow tier. -/
def slowWindow (s : State) (e : Nat) : Nat := max (regL s 0x5004 e 7 0) 1

/-- R234: reads are issued for the window of granules that starts at the oldest not processed. -/
def askAhead (e c : Nat) (s : State) : State :=
  match sweepOf s e c with
  | none => s
  | some w =>
    match (ownShards s e c)[w.pos]? with
    | none => s
    | some x =>
      if !(anySlow x.r) || w.skip then s
      else
        let top := min (granules x.r) (w.gran + slowWindow s e)
        let s := ((List.range (top - w.asked)).map (w.asked + ·)).foldl (fun s g => askGran e x.r g s) s
        modSweep e c (fun w => { w with asked := max w.asked top }) s

/-- A tile is written: in the fast tier at once, in the slow tier by WRITEs with ack (R234). -/
def putTile (e : Nat) (r : ShardRec) (q i : Nat) (payload trailer : Bytes) (s : State) : State :=
  if qSlow r q then
    rsvAsk { agent := e, by_ := edyBy e (qTrl r q i) true, ctx := r.ctx, addr := qTrl r q i, len := 32, act := .write (fitB trailer 32), ack := true }
      (rsvAsk { agent := e, by_ := edyBy e (qPay r q i) true, ctx := r.ctx, addr := qPay r q i, len := 2048, act := .write (fitB payload 2048), ack := true } s)
  else memPutTile (qPay r q i) (qTrl r q i) payload trailer s

/-! ### Update records and programs (R225 to R227) -/

/-- Constants, directory entries and program words of an update record. -/
def updK (u : Bytes) (k : Nat) : Nat := leField u (4 * k) 4
def updDir (u : Bytes) (p : Nat) : Nat := leField u (96 + 4 * p) 4
def updWord (u : Bytes) (p i : Nat) : Nat := leField u (256 + 256 * p + 4 * i) 4

/-- Output source of a quantity: 0 to 15 a temporary, 31 none. -/
def dirSrc (d q : Nat) : Nat := bitsN d (10 + 5 * q) (6 + 5 * q)

/-- R226, R227: whether an operand code, an instruction word and a program are within their tables; reserved instruction bits are ignored (R9). -/
def operandOk (c : Nat) : Bool := !(decide (24 ≤ c) && decide (c ≤ 31))
def wordOk (w : Nat) : Bool :=
  let op := bitsN w 31 26
  decide (1 ≤ op) && decide (op ≤ 15) && operandOk (bitsN w 21 16) && operandOk (bitsN w 15 10) && operandOk (bitsN w 9 4)
def progOk (u : Bytes) (p : Nat) : Bool :=
  let d := updDir u p
  !(bitN d 31) || ((List.range (d % 64 + 1)).all (fun i => wordOk (updWord u p i)) && (List.range 5).all fun q => decide (dirSrc d q ≤ 15) || dirSrc d q == 31)

/-- R241: the stream descriptor of an update record. -/
def strmDescOk (s : State) (u : Bytes) : Bool :=
  let f (o n : Nat) : Nat := leField u o n
  let sink := f 160 1 % 4
  let bytes := f 176 8
  f 160 1 < 3 && f 161 1 < 32 && (profileOf s (f 161 1 % 16)).valid && f 164 4 == 0 && leNat (sliceB u 202 22) == 0 &&
  (sink == 0 ||
    (f 168 8 % 4096 == 0 && bytes &&& (bytes - 1) == 0 && decide (2 ^ 20 ≤ bytes) && decide (bytes ≤ 2 ^ 40) &&
     f 184 8 % 4096 == 0 && decide (1 ≤ f 192 4) && decide (f 192 4 ≤ 4096) && fastOk s (f 184 8) (f 192 4 * 2 ^ 20) &&
     (sink != 2 || s.rsv.wins.any fun w => winInUse s w.2 && decide (w.2.base ≤ f 168 8) && decide (f 168 8 + bytes ≤ w.2.base + w.2.size))))

/-- R225: whether an update record is taken; its reserved bytes have no limit, and are ignored (R9). -/
def updOk (s : State) (u : Bytes) : Bool :=
  (List.range 16).all (progOk u) && strmDescOk s u

/-- Bytes of an update record. -/
def updBytes : Nat := 4352

/-- The inputs of one element (R226). -/
structure ElemIn where
  w : FVal
  g : FVal
  st : List FVal
  step : Nat
  tokens : Int
  lam : FVal
  layer : Nat
  deriving DecidableEq, Repr

/-- An operand as an exact value (R226). -/
def operandV (u : Bytes) (x : ElemIn) (t : List Nat) (c : Nat) : FVal :=
  if c < 16 then decodeF fp32 (t.getD c 0)
  else if c == 16 then x.w
  else if c == 17 then x.g
  else if c < 22 then x.st.getD (c - 18) (.fin false 0 0)
  else if c == 22 then .fin false 0 0
  else if c == 23 then .fin false 1 0
  else if 32 ≤ c && c < 56 then decodeF fp32 (updK u (c - 32))
  else if c == 56 then decodeF fp32 (roundF fp32 (intV (x.step + 1)))
  else if c == 57 then decodeF fp32 (roundF fp32 (intV x.tokens))
  else if c == 58 then (if x.tokens == 0 then .fin false 0 0 else decodeF fp32 (roundF fp32 (divV 40 (.fin false 1 0) (intV x.tokens))))
  else if c == 59 then decodeF fp32 (roundF fp32 x.lam)
  else if c == 60 then intV x.layer
  else .fin false 0 0

/-- The smaller and the larger of two values, −0 below +0; NaN if either is (R227). -/
def minVal (a b : FVal) : FVal :=
  if isNan a || isNan b then .nan else if ltV b a then b else if ltV a b then a else (match b with | .fin true _ _ => b | _ => a)
def maxVal (a b : FVal) : FVal := negV (minVal (negV a) (negV b))

/-- The sign of a value (R227). -/
def signVal : FVal → FVal
  | .nan => .nan
  | .inf n => .fin n 1 0
  | .fin n m _ => if m == 0 then .fin false 0 0 else .fin n 1 0

/-- One operation (R227): exact, then one rounding. -/
def edyOp (op : Nat) (a b c : FVal) : Nat :=
  match op with
  | 0x01 => roundF fp32 (addV a b)
  | 0x02 => roundF fp32 (addV a (negV b))
  | 0x03 => roundF fp32 (mulV a b)
  | 0x04 => roundF fp32 (addV (mulV a b) c)
  | 0x05 => roundF fp32 (addV c (negV (mulV a b)))
  | 0x06 => roundF fp32 (divV 40 a b)
  | 0x07 => roundF fp32 (sqrtV 40 a)
  | 0x08 => rsqrt32 (Config.rsqPick (roundF fp32 a)) a
  | 0x09 => roundF fp32 (minVal a b)
  | 0x0A => roundF fp32 (maxVal a b)
  | 0x0B => roundF fp32 (absV a)
  | 0x0C => roundF fp32 (signVal a)
  | 0x0D => roundF fp32 (if isNan a || ltV a (.fin false 0 0) then c else b)
  | 0x0E => roundF fp32 (minVal (maxVal a (negV (absV b))) (absV b))
  | _ => exp32 (Config.expPick (roundF fp32 a)) a

/-- One instruction on the temporaries. -/
def edyInstr (u : Bytes) (x : ElemIn) (t : List Nat) (w : Nat) : List Nat :=
  let v (c : Nat) : FVal := operandV u x t c
  lmod t (bitsN w 25 22) fun _ => edyOp (bitsN w 31 26) (v (bitsN w 21 16)) (v (bitsN w 15 10)) (v (bitsN w 9 4))

/-- A program's final temporaries for one element: FP32 codes (R226, R227). -/
def runProg (u : Bytes) (p : Nat) (x : ElemIn) : List Nat :=
  (List.range (updDir u p % 64 + 1)).foldl (fun t i => edyInstr u x t (updWord u p i)) (List.replicate 16 0)

/-! ### The difference stream (R241 to R245) -/

/-- The length of a run of zeros, at most `n`. -/
def zeroRun : Nat → Bytes → Nat
  | 0, _ => 0
  | n + 1, b :: bs => if b == 0 then 1 + zeroRun n bs else 0
  | _ + 1, [] => 0

/-- The length of a run of literals: up to the next zero, at most `n`. -/
def litRun : Nat → Bytes → Nat
  | 0, _ => 0
  | n + 1, b :: bs => if b == 0 then 0 else 1 + litRun n bs
  | _ + 1, [] => 0

/-- R243: ZRL8 with runs of up to 128. -/
def zrl8 : Nat → Bytes → Bytes
  | 0, _ => []
  | _ + 1, [] => []
  | n + 1, b :: bs =>
    if b == 0 then
      let k := 1 + zeroRun 127 bs
      BitVec.ofNat 8 (0x7F + k) :: zrl8 n ((b :: bs).drop k)
    else
      let k := 1 + litRun 127 bs
      BitVec.ofNat 8 (k - 1) :: ((b :: bs).take k ++ zrl8 n ((b :: bs).drop k))

/-- R242, R243: a tile payload as a record's payload: compression code and bytes. -/
def packPayload (p : Bytes) : Nat × Bytes :=
  let z := zrl8 2048 p
  if z.length < 2048 then (1, z) else (0, p)

/-- A record's bytes under a sequence (R242). -/
def recBytes (s : State) (st : Strm) (c seq : Nat) (x : SRec) : Bytes :=
  let pad := (8 - x.payload.length % 8) % 8
  let b := natLE 6 seq ++ natLE 1 x.typ ++ natLE 1 x.comp ++ natLE 2 c ++ natLE 2 x.payload.length ++ natLE 4 x.step ++ natLE 8 x.ident ++ natLE 2 x.old ++
    natLE 2 x.new ++ natLE 2 x.format ++ natLE 2 0 ++ natLE 4 x.check ++ natLE 8 x.lsum ++ natLE 4 x.shard ++ natLE 1 x.quantity ++ natLE 3 0 ++
    natLE 8 s.tide.count ++ natLE 4 0 ++ x.payload ++ List.replicate pad 0
  let p := profileOf s st.prof
  if st.chkEn then b ++ natLE (checkBytes p) (checkOf p b) else b

/-- Bytes in a stream's buffer. -/
def strmUsed (st : Strm) : Nat := st.buf.foldl (fun a r => a + r.2.length) 0

/-- A record enters the buffer, a gap record first where one is due (R245); the Bool: there was room. -/
def strmPut (c : Nat) (x : SRec) (s : State) : State × Bool :=
  let st := strmOf s c
  let put (x : SRec) (s : State) : State :=
    unitCount 0 c 0 <| countN bEDY 12 1 c 1 (modStrm c (fun st => { st with
      buf := st.buf ++ [(x.typ, recBytes s st c st.seq x)], seq := (st.seq + 1) % 2 ^ 48, stepRecs := st.stepRecs + 1 }) s)
  let gap : List SRec := match st.gap with
    | some (a, b, n) => [{ typ := 3, step := x.step, payload := natLE 4 a ++ natLE 4 b ++ natLE 8 n }]
    | none => []
  let need := (gap ++ [x]).foldl (fun a r => a + (recBytes s st c 0 r).length) 0
  if st.sink == 0 then (s, true)
  else if strmUsed st + need ≤ st.bufBytes then
    ((gap ++ [x]).foldl (fun s r => put r s) (modStrm c (fun st => { st with gap := none }) s), true)
  else (s, false)

/-- An engine emits a record; with no room it waits (R245). -/
def strmEmit (e c : Nat) (x : SRec) (s : State) : State :=
  match sweepOf s e c with
  | none => (strmPut c x s).1
  | some w =>
    if !w.wait.isEmpty then modSweep e c (fun w => { w with wait := w.wait ++ [x] }) s
    else match strmPut c x s with
      | (s, true) => s
      | (s, false) => modSweep e c (fun w => { w with wait := [x], waitBnd := s.tide.bnd, waitAt := s.now }) s

/-- R245: a wait of the stream ends: its cycles of UCLK, ten to a tick, are stalls. -/
def strmWaited (e c : Nat) (s : State) : State :=
  match sweepOf s e c with
  | some w => if w.wait.isEmpty then s else edyCount 13 e c (10 * (s.now - w.waitAt)) (modSweep e c (fun w => { w with waitAt := s.now }) s)
  | none => s

/-- R242, R244: the record of a tile written. -/
def tileRec (st : Strm) (r : ShardRec) (step q i : Nat) (old oldT new newT : Bytes) : SRec :=
  let whole := st.first || st.resync || (st.keyInt != 0 && (step + i) % st.keyInt == 0) || st.whole.contains (r.id, q, i)
  let x := xorB old new
  let (comp, pay) := if whole then packPayload new else if x.all (· == 0) then (0, []) else packPayload x
  { typ := b2n whole, comp := comp, step := step, ident := qIdent r q i, old := if whole then 0 else trlAlive oldT, new := trlAlive newT, format := qFmt r q,
    check := trlCheck newT, lsum := trlLsum newT, shard := r.id, quantity := q, tile := i, payload := pay }

/-! ### Repair (R239) -/

/-- The sources of a tile, in the order of R239: their number, payload and trailer. -/
def fixSources (s : State) (x : Shard) (q i : Nat) (fix : List TileFix) : List (Nat × Bytes × Bytes) :=
  let given (k : Nat) : List (Nat × Bytes × Bytes) := (fix.filter fun f => f.q == q && f.i == i && f.src == k).map fun f => (k, f.payload, f.trailer)
  let rep (k a : Nat) : List (Nat × Bytes × Bytes) :=
    if q != 0 || a == 0 || x.digest.isNone || x.digest != (x.reps.getD k {}).digest then []
    else if a / 2 ^ 48 == 0 then
      match memTile s (a + 2048 * i) (a + 2048 * qTiles x.r 0 + 32 * i) with
      | some t => [(k, t.1, t.2)]
      | none => []
    else given k
  rep 0 x.r.rep0 ++ rep 1 x.r.rep1 ++ (if x.r.mat == 0 then [] else given 2)

/-- R239: the first source that holds the expected tile. -/
def fixFind (s : State) (x : Shard) (q i : Nat) (fix : List TileFix) : Option (Nat × Bytes × Bytes) :=
  (fixSources s x q i fix).find? fun c =>
    verifyTile s { ident := some (qIdent x.r q i), alive := tget? x.alive (q * 2 ^ 32 + i), formats := some [qFmt x.r q] } c.2.1 c.2.2 == .ok &&
      fingerprint c.2.1 c.2.2 == memRead s (fpAt x.r q i) 8

/-- Step and difference-stream sequence as R448 gives them for class 0x11. -/
def stepSeq (s : State) (c step : Nat) : Nat := step % 2 ^ 16 * 2 ^ 48 + (strmOf s c).seq

/-- A tile that no source restores: the shard is damaged, the context rolls back and is held (R239). -/
def damage (e : Nat) (r : ShardRec) (q i step : Nat) (s : State) : State :=
  let s := modShard r.ctx r.id (fun x => { x with damaged := true }) s
  stepFail r.ctx 6 0 (raise (ringUnit e) bEDY sCont 0x11 (some r.ctx) (qIdent r q i) (stepSeq s r.ctx step) 0 s)

/-- R239: a tile that failed is restored in place; the tile, or none where nothing restores it. -/
def repairTile (e : Nat) (x : Shard) (q i step : Nat) (fix : List TileFix) (s : State) : State × Option (Bytes × Bytes) :=
  match fixFind s x q i fix with
  | some (k, p, t) =>
    (raise (ringUnit e) bEDY sCorr 0x11 (some x.r.ctx) (qIdent x.r q i) (stepSeq s x.r.ctx step) k (edyCount 8 e x.r.ctx 1 (putTile e x.r q i p t s)), some (p, t))
  | none => (damage e x.r q i step s, none)

/-- The verdict on a stored tile of a shard against the shard's expectations (R145). -/
def qVerdict (s : State) (x : Shard) (q i : Nat) (p t : Bytes) : Verdict :=
  verifyTile s { ident := some (qIdent x.r q i), alive := tget? x.alive (q * 2 ^ 32 + i), formats := some [qFmt x.r q] } p t

/-- A tile for a sweep, verified, or restored (R229, R239). R150: a stale one is read again and counted, its eighth reading being corrupt;
the fast tier gives the same bytes each time. -/
def sweepTile (e : Nat) (x : Shard) (q i step : Nat) (fix : List TileFix) (s : State) : State × Option (Bytes × Bytes) :=
  match qTile s e x.r q i with
  | some (p, t) =>
    match qVerdict s x q i p t with
    | .ok => (chkEng 1 e 0 1 s, some (p, t))
    | .corrupt _ => repairTile e x q i step fix (chkEng 1 e 1 1 s)
    | .stale _ => repairTile e x q i step fix (chkEng 1 e 1 1 (if qSlow x.r q then s else chkEng 1 e 3 7 s))
  | none =>
    if qSlow x.r q then (s, none)
    else repairTile e x q i step fix (if fastOk s (qPay x.r q i) 2048 then s else memDiscard (ringUnit e) (some x.r.ctx) (qPay x.r q i) s)

/-- R150: tiles of a granule that the slow tier gave stale, fewer than eight times in a row. -/
def staleSlow (s : State) (e : Nat) (w : Sweep) (x : Shard) (g : Nat) : List (Nat × Nat) :=
  (List.range (x.r.nstate + 1)).flatMap fun q => if !(qSlow x.r q) then [] else (granTiles x.r q g).filterMap fun i =>
    match qTile s e x.r q i with
    | some (p, t) => match qVerdict s x q i p t with
      | .stale _ => if tget w.stales (q * 2 ^ 32 + i) 0 < 7 then some (q, i) else none
      | _ => none
    | none => none

/-- R150: they are counted and asked for again. -/
def staleAsk (e c : Nat) (x : Shard) (l : List (Nat × Nat)) (s : State) : State :=
  l.foldl (fun s k =>
    let pay := edyBy e (qPay x.r k.1 k.2) false
    let trl := edyBy e (qTrl x.r k.1 k.2) false
    let s := modSweep e c (fun w => { w with stales := tmod w.stales (k.1 * 2 ^ 32 + k.2) 0 (· + 1) }) (chkEng 1 e 3 1 (rsvTake pay (rsvTake trl s)))
    rsvAsk { agent := e, by_ := trl, ctx := c, addr := qTrl x.r k.1 k.2, len := 32, act := .read }
      (rsvAsk { agent := e, by_ := pay, ctx := c, addr := qPay x.r k.1 k.2, len := 2048, act := .read } s)) s

/-! ### A granule (R222, R229, R230) -/

/-- What the staged gradient of one tile gives: integers, reduced flags, whether its entries may change. -/
structure Staged where
  q : List Int
  ovf : Nat
  hot : Nat
  nf : Nat
  complete : Bool
  deriving DecidableEq, Repr

/-- R262, R275: staging tile `i` of a shard as the sweep reads it; `flaky`: the first read failed. The Bool: it failed twice. -/
def readStaged (s : State) (r : ShardRec) (step i : Nat) : Option Staged :=
  let t := (r.elements + 511) / 512
  let line := memRead s (r.gAddr + 2048 * t + 64 * i) 64
  let pay := memRead s (r.gAddr + 2048 * i) 2048
  let bad := memPoisoned s (r.gAddr + 2048 * i) 2048 || memPoisoned s (r.gAddr + 2048 * t + 64 * i) 64 || !(stackUp s (homeOf r))
  let ok := verifyTile s { ident := some (mkIdent 2 r.ctx 9 (32 * (r.gblock0 + 16 * i))), alive := some (step % 65536), formats := some [0x30] } pay (line.take 32) == .ok
  if bad || !ok || trlAlive line != step % 65536 || leField line 60 4 != crcOf profile0 (sliceB line 32 28) then none
  else some { q := dbiInts pay, ovf := leField line 32 2, hot := leField line 34 2, nf := leField line 36 2, complete := !(bitN (leField line 38 2) 0) }

/-- Replace bytes at an offset. -/
def putB (b : Bytes) (o : Nat) (n : Bytes) : Bytes := b.take o ++ n ++ b.drop (o + n.length)

/-- A gradient block's 32 new values put into a tile payload at element `k` (R229, R230): SR with one draw for each element. -/
def putBlock (fmt : Nat) (payload : Bytes) (k : Nat) (draw : Nat → Nat) (vs : List FVal) : Bytes :=
  if fmt == 0x20 then
    (List.range 2).foldl (fun p j =>
      let blk := k / 16 + j
      let b := sw12Encode true (fun i => draw (16 * j + i)) ((vs.drop (16 * j)).take 16)
      let g := 200 * (blk / 8)
      putB (putB p (g + blk % 8) (natLE 1 b.exp)) (g + 8 + 24 * (blk % 8)) (natLE 24 (b.fields.foldr (fun f a => f % 4096 + 4096 * a) 0))) payload
  else if fmt == 0x02 then
    putB payload (2 * k) ((List.range 32).flatMap fun i => natLE 2 (narrowF bf16 (.sr (draw i)) (vs.getD i (.fin false 0 0))).1)
  else putB payload (4 * k) ((List.range 32).flatMap fun i => natLE 4 (roundF fp32 (vs.getD i (.fin false 0 0))))

/-- What R119 counts of a stored block: saturations, non-finite results. -/
def blockNotes (fmt : Nat) (draw : Nat → Nat) (vs : List FVal) : Nat × Nat :=
  if fmt == 0x20 then
    (List.range 2).foldl (fun n j =>
      let b := sw12Encode true (fun i => draw (16 * j + i)) ((vs.drop (16 * j)).take 16)
      (n.1 + b.sats, n.2 + b2n b.nonfin)) (0, 0)
  else if fmt == 0x02 then
    let rs := (List.range 32).map fun i => (narrowF bf16 (.sr (draw i)) (vs.getD i (.fin false 0 0))).2
    ((rs.filter (·.sat)).length, (rs.filter (·.nonfin)).length)
  else (0, 0)

/-- Add to a lane's partial sum: one rounding (R134). -/
def addLane (t : Tab Nat) (layer k lane : Nat) (v : FVal) : Tab Nat :=
  tmod t ((layer * 4 + k) * 512 + lane) 0 fun c => roundF fp32 (addV (decodeF fp32 c) v)

/-- A count of a layer. -/
def addCount (t : Tab Nat) (layer k n : Nat) : Tab Nat := tmod t (layer * 8 + k) 0 (· + n)

end Sys2Proof.Machine
end

