-- ==== Sys2Proof/Machine/EdySweep.lean ====
section
/-! DEFINITION. Eddy's working, continued: a granule's update, the end of a shard and of a sweep (R125, R134, R135, R229 to R238). -/
namespace Sys2Proof.Machine

/-! ### Publication and fetches (R237, R238) -/

/-- A digest record (R237). -/
def digestRecord (s : State) (r : ShardRec) (step : Nat) (digest : Bytes) (alive0 : Nat) : Bytes :=
  natLE 4 r.id ++ natLE 4 step ++ digest ++ natLE 4 (qTiles r 0) ++ natLE 2 alive0 ++ natLE 2 r.ctx ++ natLE 8 s.tide.count ++ natLE 8 0

/-- A digest record leaves for a replica: over Rill at priority 2 in the module, as a SHARD_NOTICE to another (R238, R376). -/
def publishTo (r : ShardRec) (note : Bytes) (a : Nat) (s : State) : State :=
  if a == 0 then s
  else if a / 2 ^ 48 == 0 then
    rillSend (ringUnit (homeOf r)) (ringUnit (memStack a)) 2 0x40 ((List.range 16).map fun i => leField note (4 * i) 4) s
  else csnSend (homeOf r) (a / 2 ^ 48) (dstEngNode s (homeOf r)) 0x18 3 r.ctx (note ++ natLE 8 r.wAddr ++ natLE 8 r.fpAddr) s
where
  /-- The partner's engine of an optical engine. -/
  dstEngNode (s : State) (e : Nat) : Nat := ((engPartner s e).map (·.eng)).getD 0

/-- Change a replica of an owned shard. -/
def modReplica (c id k : Nat) (f : Replica → Replica) (s : State) : State := modShard c id (fun x => { x with reps := lmod x.reps k f }) s

/-- The copy a fetch fills: a fetcher's own arrays, or a replica of an owned shard in this module: engine, W array. -/
def copyPlace (x : Shard) (k : Option Nat) : Nat × Nat :=
  match k with
  | none => (homeOf x.r, x.r.wAddr)
  | some 0 => (memStack x.r.rep0, x.r.rep0)
  | some _ => (memStack x.r.rep1, x.r.rep1)

/-- The fetch of a copy. -/
def copyFetch (x : Shard) (k : Option Nat) : Option Fetch :=
  match k with
  | none => x.fetch
  | some k => (x.reps.getD k {}).fetch

/-- Set a copy's fetch and readiness. -/
def setCopy (c id : Nat) (k : Option Nat) (ready : Bool) (digest : Option Bytes) (f : Option Fetch) (s : State) : State :=
  match k with
  | none => modShard c id (fun x => { x with ready := ready, digest := digest, fetch := f }) s
  | some k => modReplica c id k (fun r => { r with ready := ready, digest := digest, fetch := f }) s

/-- Marks of a fetch's READs, apart from those of a sweep. -/
def fetchBy (e a : Nat) : RsvBy := .unit bEDY e (a + 2 ^ 49)

/-- R238: the next tile of a fetch from another module is asked for: payload, trailer, fingerprint. -/
def fetchAsk (r : ShardRec) (f : Fetch) (s : State) : State :=
  let i := f.got.length
  if f.node == 0 || qTiles r 0 ≤ i then s
  else
    let ask (a n : Nat) (s : State) : State :=
      rsvAsk { agent := f.eng, by_ := fetchBy f.eng a, ctx := r.ctx, addr := a, len := n, act := .read, cls := 4, node := some f.node } s
    ask (f.fp + 64 + 8 * i) 8 (ask (f.w + 2048 * qTiles r 0 + 32 * i) 32 (ask (f.w + 2048 * i) 2048 s))

/-- What has arrived of the next tile: none while it is awaited; inner none where a read failed. -/
def fetchGot (s : State) (r : ShardRec) (f : Fetch) : Option (Option (Bytes × Bytes × Bytes)) :=
  let i := f.got.length
  if f.node == 0 then
    match memTile s (f.w + 2048 * i) (f.w + 2048 * qTiles r 0 + 32 * i) with
    | some t => some (some (t.1, t.2, memRead s (f.fp + 64 + 8 * i) 8))
    | none => some none
  else
    match rsvEnd s (fetchBy f.eng (f.w + 2048 * i)), rsvEnd s (fetchBy f.eng (f.w + 2048 * qTiles r 0 + 32 * i)), rsvEnd s (fetchBy f.eng (f.fp + 64 + 8 * i)) with
    | some p, some t, some q => if p.status == 0 && t.status == 0 && q.status == 0 then some (some (p.data, t.data, q.data)) else some none
    | _, _, _ => none

/-- The READs of the tile are done with. -/
def fetchTake (r : ShardRec) (f : Fetch) (s : State) : State :=
  let i := f.got.length
  rsvTake (fetchBy f.eng (f.fp + 64 + 8 * i)) (rsvTake (fetchBy f.eng (f.w + 2048 * qTiles r 0 + 32 * i)) (rsvTake (fetchBy f.eng (f.w + 2048 * i)) s))

/-- Fingerprints of a copy as it stands. -/
def copyFps (s : State) (x : Shard) (k : Option Nat) : Bytes :=
  match k with
  | none => storedFps s x.r
  | some _ =>
    let w := (copyPlace x k).2
    (List.range (qTiles x.r 0)).flatMap fun i => fingerprint (memRead s (w + 2048 * i) 2048) (memRead s (w + 2048 * qTiles x.r 0 + 32 * i) 32)

/-- R231, R238: a digest record reaches a copy: a ready copy whose own fingerprints give the digest is kept, else it is fetched. -/
def copyNotice (c id : Nat) (k : Option Nat) (f : Fetch) (s : State) : State :=
  match shardOf s c id with
  | none => s
  | some x =>
    let dig := sliceB f.note 8 32
    let ready := match k with | none => x.ready | some k => (x.reps.getD k {}).ready
    if ready && shardDigest x.r (leField f.note 4 4) (copyFps s x k) == dig then setCopy c id k true (some dig) none s
    else fetchAsk x.r f (setCopy c id k false (match k with | none => x.digest | some k => (x.reps.getD k {}).digest) (some f) s)

/-- Whether a pass of a context has read a copy (R274). -/
def copyRead (s : State) (c w n : Nat) : Bool :=
  s.frs.any fun e => (e.2.passes ++ e.2.past).any fun p => p.ctxs.contains c && !p.slow && decide (w ≤ p.srcPay) && decide (p.srcPay < w + 2048 * n)

/-- R274: a copy failed its check: where an armed window's steps have read it, Sluice is to tell the window's engines. -/
def copyFailed (c w n : Nat) (s : State) : State :=
  if copyRead s c w n && (s.est.mods.any fun m => m.ctx == c && !m.decided) then { s with est := { s.est with diverged := addN s.est.diverged c } } else s

/-! ### A granule (R125, R222, R229 to R231) -/

/-- The entries of a granule: address of the first, and the entries. -/
def granEntries (s : State) (r : ShardRec) (g nblk : Nat) : Nat × List ScaleEntry :=
  let n := (getCtx s r.ctx).num
  let a := n.scaleTable + 2 * (r.gblock0 + 160 * g + 1)
  (a, (List.range nblk).map fun b => tabEntry s r.ctx (r.gblock0 + 160 * g + 1 + b))

/-- What a block's sweep has found. -/
structure BlockOut where
  /-- Cause for which the block is kept (R495); 0: updated. -/
  keep : Nat
  /-- Outputs of its elements: 16 temporaries each. -/
  outs : List (List Nat)
  deriving DecidableEq, Repr

/-- Element `el` of a granule in a quantity's tiles. -/
def granVal (r : ShardRec) (q : Nat) (tiles : List (Bytes × Bytes)) (el : Nat) : FVal :=
  tileVal (qFmt r q) (tiles.getD (el / qPer r q) ([], [])).1 (el % qPer r q)

/-- The quantities with an output source in a program. -/
def outQs (u : Bytes) (r : ShardRec) : List Nat := (List.range (r.nstate + 1)).filter fun q => decide (dirSrc (updDir u r.prog) q ≤ 15)

/-- R229 steps 2 and 3 for a gradient block. -/
def blockGo (s : State) (w : Sweep) (r : ShardRec) (u : Bytes) (tiles : List (List (Bytes × Bytes))) (stg : List (Option Staged)) (ents : List ScaleEntry) (b : Nat) : BlockOut :=
  let d := (getCtx s r.ctx).dec
  let sg := (stg.getD (b / 16) none)
  let bit (f : Staged → Nat) : Bool := match sg with | some x => bitN (f x) (b % 16) | none => false
  let nf := match sg with | some x => bitN x.nf (b % 16) | none => true
  let ex := (ents.getD b { exp := 0, ovf := false, hot := false, nf := false, quiet := 0 }).exp
  let ins := (List.range 32).map fun j =>
    let el := 32 * b + j
    ({ w := granVal r 0 (tiles.getD 0 []) el, g := scaleV (intV (match sg with | some x => x.q.getD (el % 512) 0 | none => 0)) ex,
       st := (List.range r.nstate).map fun k => granVal r (k + 1) (tiles.getD (k + 1) []) el, step := w.step,
       tokens := match d with | some d => d.tokens | none => 0,
       lam := match d with | some d => if d.lamDef then decodeF fp64 d.lam else .fin false 0 0 | none => .fin false 0 0, layer := r.layer } : ElemIn)
  if nf then { keep := 1, outs := [] }
  else if bit (·.ovf) && !(getCtx s r.ctx).num.ovfApply then { keep := 2, outs := [] }
  else if ins.any (fun i => !finV i.w || i.st.any fun v => !finV v) then { keep := 4, outs := [] }
  else
    let outs := ins.map (runProg u r.prog)
    if outs.any fun t => (outQs u r).any fun q => !finV (decodeF fp32 (t.getD (dirSrc (updDir u r.prog) q) 0)) then { keep := 3, outs := [] }
    else { keep := 0, outs := outs }

/-- R125: the granule's entries follow the reduced flags; kept in the sweep of a failed window where the tile was not staged
complete. -/
def entriesGo (e : Nat) (w : Sweep) (r : ShardRec) (g nblk : Nat) (stg : List (Option Staged)) (s : State) : State :=
  let (a, ents) := granEntries s r g nblk
  let n := (getCtx s r.ctx).num
  let res := (List.range nblk).map fun b =>
    let x := ents.getD b { exp := 0, ovf := false, hot := false, nf := false, quiet := 0 }
    match stg.getD (b / 16) none with
    | some t => if w.failed && !t.complete then (x, false) else scaleStep n.quiet (bitN t.ovf (b % 16)) (bitN t.hot (b % 16)) (bitN t.nf (b % 16)) x
    | none => if w.failed then (x, false) else scaleStep n.quiet false false true x
  let touched := (List.range nblk).any fun b => match stg.getD (b / 16) none with | some t => !w.failed || t.complete | none => !w.failed
  let s := if touched then recPut bEDY (ringUnit e) r.ctx a (res.flatMap fun x => natLE 2 (scaleBits x.1)) s else s
  let s := (List.range nblk).foldl (fun s b =>
    if (res.getD b ({ exp := 0, ovf := false, hot := false, nf := false, quiet := 0 }, false)).2 then
      raise (ringUnit e) bEDY sDef 0x09 (some r.ctx) w.step (r.gblock0 + 160 * g + b) 6 s
    else s) s
  let cnt (p : Nat → Bool) : Nat := ((List.range nblk).filter p).length
  let at_ (b : Nat) : ScaleEntry := (res.getD b ({ exp := 0, ovf := false, hot := false, nf := false, quiet := 0 }, false)).1
  let old (b : Nat) : ScaleEntry := ents.getD b { exp := 0, ovf := false, hot := false, nf := false, quiet := 0 }
  let flag (f : Staged → Nat) (b : Nat) : Bool := match stg.getD (b / 16) none with | some t => bitN (f t) (b % 16) | none => false
  let nfOf (b : Nat) : Bool := match stg.getD (b / 16) none with | some t => bitN t.nf (b % 16) | none => true
  modSweep e r.ctx (fun w => {
    w with
    counts := addCount (addCount (addCount (addCount w.counts r.layer 0 (cnt (flag (·.ovf)))) r.layer 1 (cnt nfOf)) r.layer 2 (cnt fun b => decide ((old b).exp < (at_ b).exp)))
              r.layer 3 (cnt fun b => decide ((at_ b).exp < (old b).exp)) }) s

/-- The SR draw of an element: its ordinal among the engine's shards of the context (R117, R230). -/
def elemDraw (s : State) (e : Nat) (w : Sweep) (o : Nat) : Nat :=
  let before := ((ownShards s e w.ctx).take w.pos).foldl (fun a x => a + x.r.elements) 0
  srDraw (srKey w.tide (0x100000 + e) w.ctx) 0 ((before + o) / 64) ((before + o) % 64)

/-- R222, R229 step 4: the new payload of a tile of a quantity; padding and reserved bytes are zeros. -/
def newPayload (s : State) (e : Nat) (w : Sweep) (r : ShardRec) (u : Bytes) (g q i : Nat) (old : Bytes) (outs : List BlockOut) : Bytes :=
  let per := qPer r q
  let src := dirSrc (updDir u r.prog) q
  (List.range (per / 32)).foldl (fun p j =>
    let b := ((i - qGran r q * g) * per) / 32 + j
    match outs[b]? with
    | some o =>
      if o.keep != 0 then p
      else putBlock (qFmt r q) p (32 * j) (fun k => elemDraw s e w (5120 * g + 32 * b + k)) (o.outs.map fun t => decodeF fp32 (t.getD src 0))
    | none => putBlock (qFmt r q) p (32 * j) (fun _ => 0) []) (fitB old 2048) |> fun p => if qFmt r q == 0x20 then p.take 2000 ++ List.replicate 48 0 else p

/-- R119: saturations and non-finite results of a tile's blocks as they are stored. -/
def payloadNotes (s : State) (e : Nat) (w : Sweep) (r : ShardRec) (u : Bytes) (g q i : Nat) (outs : List BlockOut) : Nat × Nat :=
  let per := qPer r q
  let src := dirSrc (updDir u r.prog) q
  (List.range (per / 32)).foldl (fun n j =>
    let b := ((i - qGran r q * g) * per) / 32 + j
    match outs[b]? with
    | some o =>
      if o.keep != 0 then n
      else
        let k := blockNotes (qFmt r q) (fun k => elemDraw s e w (5120 * g + 32 * b + k)) (o.outs.map fun t => decodeF fp32 (t.getD src 0))
        (n.1 + k.1, n.2 + k.2)
    | none => n) (0, 0)

/-- R229 steps 4 and 6: one tile is written, with its fingerprint and its stream record, which a slow-tier shard keeps for the
acknowledgements. -/
def writeTile (e : Nat) (w : Sweep) (r : ShardRec) (u : Bytes) (g q i : Nat) (old : Bytes × Bytes) (outs : List BlockOut) (s : State) : State :=
  let pay := newPayload s e w r u g q i old.1 outs
  let alive := (trlAlive old.2 + 1) % 65536
  let trl := formTrailer s pay alive (qFmt r q) (qIdent r q i) 0
  let x := tileRec (strmOf s r.ctx) r w.step q i (fitB old.1 2048) old.2 pay trl
  let s := memWrite true (fpAt r q i) (fingerprint pay trl) (putTile e r q i pay trl s)
  let s := modShard r.ctx r.id (fun x => { x with alive := tset x.alive (q * 2 ^ 32 + i) alive }) s
  let n := payloadNotes s e w r u g q i outs
  let s := edyCount 16 e r.ctx n.2 (edyCount 15 e r.ctx n.1 (edyCount 6 e r.ctx 1 s))
  let s := modStrm r.ctx (fun st => { st with whole := st.whole.filter (· != (r.id, q, i)) }) s
  if anySlow r then
    modSweep e r.ctx (fun w => { w with unacked := (w.unacked.filter (·.1 != g)) ++ [(g, (match w.unacked.find? (·.1 == g) with | some p => p.2 | none => []) ++ [x])] }) s
  else strmEmit e r.ctx x s

/-- R134: the granule's terms of the layer's sums, lane by lane; `after`: W as written. -/
def normsGo (e : Nat) (r : ShardRec) (n : Nat) (wOld wNew : List (Bytes × Bytes)) (stg : List (Option Staged)) (ents : List ScaleEntry) (outs : List BlockOut) (s : State) : State :=
  let add (t : Tab Nat) (el : Nat) : Tab Nat :=
    let lane := el % 512
    let w := granVal r 0 wOld el
    let sg := stg.getD (el / 512) none
    let gv := scaleV (intV (match sg with | some x => x.q.getD (el % 512) 0 | none => 0)) (ents.getD (el / 32) { exp := 0, ovf := false, hot := false, nf := false, quiet := 0 }).exp
    let d := addV (granVal r 0 wNew el) (negV w)
    let t := addLane (addLane t r.layer 0 lane (mulV w w)) r.layer 1 lane (mulV gv gv)
    match outs[el / 32]? with
    | some o => if o.keep == 0 then addLane t r.layer 2 lane (mulV d d) else t
    | none => t
  modSweep e r.ctx (fun w => { w with
    norms := (List.range n).foldl add w.norms, counts := addCount w.counts r.layer 4 n }) s

/-- R229 to R231, R235: a granule whose tiles have arrived is processed. -/
def granuleGo (e : Nat) (w : Sweep) (x : Shard) (g : Nat) (flaky : List Nat) (fix : List TileFix) (s : State) : State :=
  let r := x.r
  let n := min 5120 (r.elements - 5120 * g)
  let nblk := n / 32
  let u := tget s.edy.upd r.ctx []
  let stgIdx := ((List.range 10).map (10 * g + ·)).filter (· < (r.elements + 511) / 512)
  let stg := stgIdx.map fun i => readStaged s r w.step i
  -- R275: re-reads of staging tiles
  let s := (List.range stgIdx.length).foldl (fun s k =>
    let a := r.gAddr + 2048 * stgIdx.getD k 0
    let id := mkIdent 2 r.ctx 9 (32 * (r.gblock0 + 16 * stgIdx.getD k 0))
    match stg.getD k none with
    | some _ => if flaky.contains k then raise (ringUnit e) bEST sCorr 0x03 (some r.ctx) a id 0 s else s
    | none =>
      if w.failed then s
      else
        let s := modSweep e r.ctx (fun w => { w with partial_ := true }) (estCount 7 e (some r.ctx) s)
        if (getCtx s r.ctx).priv then holdDue r.ctx 8 s else s) s
  let (_, ents) := granEntries s r g nblk
  let qs := List.range (r.nstate + 1)
  let s := if w.skip then s else edyCount 0 e r.ctx 1 s
  if w.skip then entriesGo e w r g nblk stg (normsGo e r n [] [] stg ents [] s)
  else
    let step (acc : State × List (List (Option (Bytes × Bytes)))) (q : Nat) : State × List (List (Option (Bytes × Bytes))) :=
      let res := (granTiles r q g).foldl (fun (a : State × List (Option (Bytes × Bytes))) i =>
        let (s, t) := sweepTile e x q i w.step fix a.1
        (s, a.2 ++ [t])) (acc.1, [])
      (res.1, acc.2 ++ [res.2])
    let (s, tiles) := qs.foldl step (s, [])
    let lost (q : Nat) : Bool := (tiles.getD q []).any (·.isNone)
    let s := if anySlow r then qs.foldl (fun s q => if qSlow r q then (granTiles r q g).foldl (fun s i => rsvTake (edyBy e (qTrl r q i) false) (rsvTake (edyBy e (qPay r q i) false) s)) s else s) s else s
    if qs.any lost then
      -- the granule is kept: a slow-tier read failed, or a tile could not be restored
      let slow := qs.any fun q => qSlow r q && lost q
      let s := if slow then
          (List.range nblk).foldl (fun s b => raise (ringUnit e) bEDY sDef 0x09 (some r.ctx) w.step (r.gblock0 + 160 * g + b) (7 + 256 * 5) s)
            (edyCount 5 e r.ctx nblk (modSweep e r.ctx (fun w => { w with partial_ := true }) s))
        else s
      -- R134: the weights that could be read count
      let ws := (tiles.getD 0 []).map fun t => t.getD ([], [])
      entriesGo e w r g nblk stg (normsGo e r n ws ws stg ents [] s)
    else
      let ts := tiles.map fun l => l.map fun t => t.getD ([], [])
      let outs := (List.range nblk).map (blockGo s w r u ts stg ents)
      let s := (List.range nblk).foldl (fun s b =>
        let k := (outs.getD b { keep := 0, outs := [] }).keep
        if k == 0 then s
        else raise (ringUnit e) bEDY (if k == 4 then sDef else sInfo) 0x09 (some r.ctx) w.step (r.gblock0 + 160 * g + b) (7 + 256 * k) (edyCount k e r.ctx 1 s)) s
      let wNew := if (outQs u r).contains 0 then (granTiles r 0 g).map fun i => (newPayload s e w r u g 0 i ((ts.getD 0 []).getD (i - qGran r 0 * g) ([], [])).1 outs, ([] : Bytes)) else ts.getD 0 []
      let s := normsGo e r n (ts.getD 0 []) wNew stg ents outs s
      let s := (outQs u r).foldl (fun s q => (granTiles r q g).foldl (fun s i => writeTile e w r u g q i ((ts.getD q []).getD (i - qGran r q * g) ([], [])) outs s) s) s
      entriesGo e w r g nblk stg s

/-! ### How a sweep moves on (R232, R234, R235, R244) -/

/-- Whether every slow-tier write of a granule has been acknowledged; and whether one failed. -/
def granAcked (s : State) (e : Nat) (r : ShardRec) (g : Nat) : Bool × Bool :=
  let as := (List.range (r.nstate + 1)).flatMap fun q => if qSlow r q then (granTiles r q g).flatMap fun i => [qPay r q i, qTrl r q i] else []
  let ends := as.map fun a => rsvEnd s (edyBy e a true)
  let waiting := as.any fun a => s.rsv.want.any (·.by_ == edyBy e a true) || s.rsv.ops.any (·.w.by_ == edyBy e a true)
  (!waiting, ends.any fun x => match x with | some d => d.status != 0 | none => false)

/-- R234, R235: granules whose writes have all been answered emit their records; a failed write damages the shard. -/
def flushAcked (e c : Nat) (s : State) : State :=
  match sweepOf s e c with
  | none => s
  | some w =>
    match (ownShards s e c)[w.pos]? with
    | none => s
    | some x => w.unacked.foldl (fun s p =>
        let (ok, bad) := granAcked s e x.r p.1
        if !ok then s
        else
          let s := { s with rsv := { s.rsv with done := s.rsv.done.filter fun d => !((List.range (x.r.nstate + 1)).any fun q => (granTiles x.r q p.1).any fun i =>
            d.by_ == edyBy e (qPay x.r q i) true || d.by_ == edyBy e (qTrl x.r q i) true) } }
          let s := modSweep e c (fun w => { w with unacked := w.unacked.filter (·.1 != p.1) }) s
          let s := p.2.foldl (fun s y => strmEmit e c y s) s
          if bad then damage e x.r 0 (qGran x.r 0 * p.1) w.step s else s) s

/-- R236 to R238, R244: the engine's sweep of a shard is complete: digest, publication, type 4 record. -/
def shardEnd (e c : Nat) (w : Sweep) (x : Shard) (s : State) : State :=
  let r := x.r
  let dig := shardDigest r w.step (storedFps s r)
  let alive0 := match tget? x.alive 0 with | some a => a | none => leNat (memRead s (qTrl r 0 0 + 4) 2)
  let note := digestRecord s r w.step dig alive0
  let s := memWrite true r.fpAddr note s
  let s := modShard c r.id (fun x => { x with digest := some dig, ready := true }) s
  let s := publishTo r note r.rep1 (publishTo r note r.rep0 s)
  let s := modStrm c (fun st => { st with swept := st.swept + 1 }) s
  let s := strmEmit e c { typ := 4, step := w.step, shard := r.id, payload := note } s
  modSweep e c (fun w => { w with pos := w.pos + 1, gran := 0, ahead := [], unacked := [], asked := 0, stales := [], fin := w.pos + 1 == (ownShards s e c).length }) s

/-- A sweep moves past what is done. -/
def edyAdvance (e c : Nat) (s : State) : State :=
  let s := flushAcked e c s
  match sweepOf s e c with
  | none => s
  | some w =>
    match (ownShards s e c)[w.pos]? with
    | none => modSweep e c (fun w => { w with fin := true }) s
    | some x => if w.gran == granules x.r && w.ahead.isEmpty && w.unacked.isEmpty then askAhead e c (shardEnd e c w x s) else s

/-- Granule `g` of the shard in progress is done: the oldest not done moves on. -/
def granDone (e c g : Nat) (s : State) : State :=
  let next (w : Sweep) : Sweep := if w.ahead.contains w.gran then { w with gran := w.gran + 1, ahead := delN w.ahead w.gran } else w
  let rec go : Nat → Sweep → Sweep
    | 0, w => w
    | n + 1, w => go n (next w)
  modSweep e c (fun w => go (w.ahead.length + 1) { w with ahead := addN w.ahead g }) s

/-! ### The end of a context's sweep (R134, R135, R244) -/

/-- Total of a layer's sum over the engines, in engine order, in FP64 (R134). -/
def layerSum (sws : List Sweep) (layer k : Nat) : Nat :=
  sws.foldl (fun a w => (List.range 512).foldl (fun a l =>
    match tget? w.norms ((layer * 4 + k) * 512 + l) with
    | some c => roundF fp64 (addV (decodeF fp64 a) (decodeF fp32 c))
    | none => a) a) 0

/-- A layer's count over the engines. -/
def layerCount (sws : List Sweep) (layer k : Nat) : Nat := sws.foldl (fun a w => a + tget w.counts (layer * 8 + k) 0) 0

/-- R134, R135: a layer's record is written; its ratio may warn or hold. -/
def layerRecord (c step layer : Nat) (sws : List Sweep) (s : State) : State :=
  let x := getCtx s c
  let params := layerCount sws layer 4
  if params == 0 then s
  else
    let skip := match x.dec with | some d => d.skip | none => false
    let spike := match x.dec with | some d => d.spike | none => false
    let sqw := layerSum sws layer 0
    let squ := if skip then 0 else layerSum sws layer 2
    let ratio := if skip || zeroV (decodeF fp64 sqw) then 0 else roundF fp32 (sqrtV 40 (divV 80 (decodeF fp64 squ) (decodeF fp64 sqw)))
    let warn := ltV (decodeF fp32 x.num.ratioWarn) (decodeF fp32 ratio)
    let hold := ltV (decodeF fp32 x.num.ratioHold) (decodeF fp32 ratio)
    let ovf := layerCount sws layer 0
    let nf := layerCount sws layer 1
    let a := x.num.healthArea + 64 * (2 * layer + step % 2)
    let body := natLE 2 layer ++ natLE 2 (b2n warn + 2 * b2n hold + 4 * b2n skip + 8 * b2n (ovf != 0) + 16 * b2n (nf != 0) + 32 * b2n spike) ++ natLE 8 sqw ++
      natLE 8 (layerSum sws layer 1) ++ natLE 8 squ ++ natLE 4 ratio ++ natLE 4 ovf ++ natLE 4 nf ++ natLE 2 (layerCount sws layer 2) ++ natLE 2 (layerCount sws layer 3) ++
      natLE 8 params ++ natLE 8 s.tide.count
    let s := if fastOk s a 64 then memWrite true a (natLE 4 step) (memWrite true (a + 4) body s) else recPut bSLC unitTL c a (natLE 4 step ++ body) s
    let s := if warn then raise unitTL bSLC sInfo 0x09 (some c) step layer 5 s else s
    let s := if hold then holdDue c 2 s else s
    modCtx c (fun y => { y with dec := y.dec.map fun d => { d with ratioWarn := d.ratioWarn || warn, ratioHold := d.ratioHold || hold } }) s

/-- R242: the type 2 record of a step; it waits where there is no room (R245, R247). -/
def strmStepEnd (c step decision lam : Nat) (s : State) : State :=
  let st := strmOf s c
  let x : SRec := { typ := 2, step := step, payload := natLE 8 st.stepRecs ++ natLE 4 st.swept ++ natLE 1 decision ++ natLE 3 0 ++ natLE 8 lam ++ natLE 8 0 }
  if st.sink == 0 then s
  else match strmPut c x s with
    | (s, true) => modStrm c (fun st => { st with stepRecs := 0, swept := 0, first := false, resync := false }) s
    | (s, false) => modStrm c (fun st => { st with tail := some x }) s

/-- Every engine of the module that sweeps a context. -/
def sweepsOf (s : State) (c : Nat) : List Sweep := s.edy.engs.flatMap fun e => e.2.sweeps.filter (·.ctx == c)

/-- The module's sweep of a context is complete: layer records, type 2 record. -/
def sweepEnd (c : Nat) (s : State) : State :=
  let sws := sweepsOf s c
  match (getCtx s c).dec with
  | none => s
  | some d =>
    let part := d.partial_ || sws.any (·.partial_)
    let s := (List.range (getCtx s c).num.layers).foldl (fun s l => layerRecord c d.step l sws s) s
    let s := modCtx c (fun x => { x with mu := d.mu, warm := d.warm, dec := x.dec.map fun d => { d with partial_ := part } }) s
    let s := strmStepEnd c d.step (if d.skip then 1 else if part then 2 else 0) (if d.lamDef then d.lam else 0) s
    { s with edy := { s.edy with engs := s.edy.engs.map fun e => (e.1, { e.2 with sweeps := e.2.sweeps.filter (·.ctx != c) }) } }

end Sys2Proof.Machine
end

