-- ==== Sys2Proof/Machine/NetOps.lean ====
section
/-! DEFINITION. Routes, distances, bisection and the export region (R31, R33, R36, R293, R294). -/
namespace Sys2Proof.Machine

/-- Change the carrier. -/
def modNet (f : Net → Net) (s : State) : State := { s with net := f s.net }

/-- Watershed is to compute route tables (R281). -/
def routesChanged (s : State) : State := modNet (fun n => { n with routesDue := true }) s

/-- Add a reason for a site's unavailability (R26). -/
def siteOut (site : Nat) (w : OutWhy) (s : State) : State :=
  let l := siteReasons s site
  modNet (fun n => { n with
    out := tset n.out site (if l.contains w then l else l ++ [w]), outBnd := if l.isEmpty then tset n.outBnd site s.tide.bnd else n.outBnd }) s

/-- Take a reason away. -/
def siteBack (site : Nat) (w : OutWhy) (s : State) : State :=
  modNet (fun n => { n with out := tset n.out site ((siteReasons s site).filter (· != w)) }) s

/-- R33: sites outside the component joined to the top-left corner are unavailable; those in it are not cut off. -/
def cutJudge (s : State) : State :=
  let main := mainland { s with net := { s.net with out := s.net.out.map fun e => (e.1, e.2.filter (· != .cutOff)) } }
  (List.range 88).foldl (fun s t =>
    let l := siteReasons s t
    if main.contains t then (if l.contains .cutOff then siteBack t .cutOff s else s)
    else if l.isEmpty && !(s.net.reachOut.contains (siteReach t)) then siteOut t .cutOff s else s) s

/-- R30: the cell row and column where port p of an edge joins the mesh. -/
def portPos (edge p : Nat) : Nat × Nat :=
  match edge with
  | 0 => (0, 16 * p / 5)
  | 1 => (5 * p / 2, 127)
  | 2 => (99, 16 * p / 5)
  | _ => (5 * p / 2, 0)

/-- Port 20 of an edge (R294). -/
def port20 (edge : Nat) : Nat × Nat := portPos edge 20

/-- The edge by which the next die is entered. -/
def opposite (edge : Nat) : Nat := (edge + 2) % 4

/-! ### Rill (R37, R38) -/

/-- R37: the reach controllers that a unit's spokes lead to: its reach's, or a service corner's two. A die's 800 cluster stops hang under the
die's spoke; a controller is its own. -/
def rillSpokes (unit : Nat) : List Nat :=
  if unit < 88 then [siteReach unit]
  else if unit < 152 then [(unit - 88) / 8]
  else if unit < 160 then [unit - 152]
  else match unit - 160 with | 0 => [7, 0] | 1 => [1, 2] | 2 => [3, 4] | _ => [5, 6]

/-- R37: the controllers reached along the ring of eight from those given. -/
def ringReach (s : State) : Nat → List Nat → List Nat
  | 0, l => l
  | n + 1, l => ringReach s n ((List.range 8).filter fun r =>
      !(s.net.ctlOut.contains r) && (l.contains r || l.contains ((r + 1) % 8) || l.contains ((r + 7) % 8)))

/-- Whether a Rill path joins two units; a destination that names many endpoints has one from everywhere. -/
def rillPath (s : State) (a b : Nat) : Bool :=
  let up (u : Nat) : List Nat := (rillSpokes u).filter fun r => !(s.net.ctlOut.contains r)
  rillBlocks ≤ b || (ringReach s 7 (up a)).any (up b).contains

/-- R38: the words of a message: a header (kind [7:0], priority [9:8], payload words [15:10], source [23:16], destination [31:24]), the payload,
the CRC-32C of both. -/
def rillWords (m : RillMsg) : List Nat :=
  let ws := m.words.take 16
  let body := (m.kind % 256 + m.pri % 4 * 2 ^ 8 + ws.length * 2 ^ 10 + m.src % 256 * 2 ^ 16 + m.dst % 256 * 2 ^ 24) :: ws.map (· % 2 ^ 32)
  body ++ [crcOf profile0 (body.flatMap (natLE 4))]

/-- R38: whether a receiver's check passes. -/
def rillGood (ws : List Nat) : Bool :=
  decide (2 ≤ ws.length) && bitsN (ws.getD 0 0) 15 10 + 2 == ws.length && decide (ws.length ≤ 18) &&
    crcOf profile0 ((ws.take (ws.length - 1)).flatMap (natLE 4)) == ws.getD (ws.length - 1) 0

/-- Mesh hops between two positions of a die. -/
def manhattan (a b : Nat × Nat) : Nat := (max a.1 b.1 - min a.1 b.1) + (max a.2 b.2 - min a.2 b.2)

/-- R294: hops and crossings along the committed route. -/
def walk (s : State) (dst : Nat) (goal : Nat × Nat) : Nat → Nat → Nat × Nat → Nat × Nat → Option (Nat × Nat)
  | 0, _, _, _ => none
  | n + 1, site, pos, (h, x) =>
    if site == dst then some (h + manhattan pos goal, x)
    else
      let e := nextEdge s site dst
      if 4 ≤ e then none
      else match siteBeyond site e with
        | some t => if siteAvail s t then walk s dst goal n t (port20 (opposite e)) (h + manhattan pos (port20 e), x + 1) else none
        | none => none

/-- A distance entry (R293): times in units of 0.1 ns, rounded (R294). -/
def distEntry (d : Option (Nat × Nat)) : Nat :=
  match d with
  | none => 0xFF
  | some (h, x) => x % 256 + h % 4096 * 2 ^ 8 + ((2 * h + 24 * x) * 25 + 3) / 6 % 65536 * 2 ^ 20 + ((2 * h + 32 * x) * 25 + 3) / 6 % 65536 * 2 ^ 36

/-- From die to die, centre cell to centre cell. -/
def dieDist (s : State) (a b : Nat) : Option (Nat × Nat) :=
  let sa := dieSite s a
  let sb := dieSite s b
  if siteAvail s sa && siteAvail s sb then walk s sb (50, 64) 88 sa (50, 64) (0, 0) else none

/-- R18: the slot that a chiplet's half-link takes on a site of its reach. -/
def halfSlot (k site : Nat) : Option Nat :=
  let t := match site with
    | 0 => [0, 2, 3, 5, 6] | 1 => [0, 1, 3, 4, 6, 7] | 2 => [1, 2, 4, 5, 7] | 10 => [0, 1, 2, 3, 4, 5, 6, 7] | _ => []
  if t.contains k then some (t.findIdx (· == k)) else none

/-- R17: the site number that a link of chiplet k lands on: link a, link b, the oxbow's. -/
def linkSite (k link : Nat) : Nat := match link with | 0 => k % 3 | 1 => (k + 1) % 3 | _ => 10

/-- R17, R20: the site a half-link lands on. -/
def halfSite (h : Nat) : Nat :=
  match hostHalves.find? (·.1 == h) with
  | some e => e.2
  | none => 11 * (h / 24) + linkSite (h / 3 % 8) (h % 3)

/-- R18: the slot that a half-link takes there; the host port takes slot 7. -/
def slotOfHalf (h : Nat) : Option Nat := if 192 ≤ h then some 7 else halfSlot (h / 3 % 8) (linkSite (h / 3 % 8) (h % 3))

/-- R17, R34: whether a half-link carries traffic: in service, its site available, the oxbow's one enabled. -/
def halfUp (s : State) (h : Nat) : Bool :=
  siteAvail s (halfSite h) && !(s.net.halfOut.contains h) && (decide (192 ≤ h) || chipUp s (h / 3) && (h % 3 != 2 || s.net.oxLinks.contains (h / 3)))

/-- R17: the landings of a chiplet that carry traffic: site, slot. -/
def landings (s : State) (n : Nat) : List (Nat × Nat) :=
  ([3 * n, 3 * n + 1, 3 * n + 2].filter (halfUp s)).filterMap fun h => (slotOfHalf h).map fun k => (halfSite h, k)

/-- The nearest of several routes: fewest crossings, then fewest hops. -/
def nearest : List (Option (Nat × Nat)) → Option (Nat × Nat)
  | [] => none
  | d :: ds =>
    match d, nearest ds with
    | none, r => r
    | some a, none => some a
    | some a, some b => if a.2 < b.2 || (a.2 == b.2 && a.1 ≤ b.1) then some a else some b

/-- From a die to a chiplet: the landing cell of its nearer half-link. -/
def chipDist (s : State) (d n : Nat) : Option (Nat × Nat) :=
  let sa := dieSite s d
  if !(siteAvail s sa) then none
  else nearest ((landings s n).flatMap fun l =>
    (List.range 8).map fun j => walk s l.1 (6 + 12 * l.2, 8 + 16 * j) 88 sa (50, 64) (0, 0))

/-- The mean of distance entries, field by field; unreachable where there is none. -/
def meanEntry (ds : List (Nat × Nat)) : Nat :=
  if ds.isEmpty then 0xFF
  else distEntry (some ((ds.map (·.1)).foldl (· + ·) 0 / ds.length, (ds.map (·.2)).foldl (· + ·) 0 / ds.length))

/-- Stitch edges in service between available sites that satisfy a test. -/
def edgesOver (s : State) (p : Nat → Nat → Bool) : Nat :=
  ((List.range 88).flatMap fun a => (siteNeighbours a).filter fun b =>
    decide (a < b) && siteAvail s a && siteAvail s b && !(s.net.edgeOut.contains (edgeNum a b)) && (p a b || p b a)).length

/-- The quadrant of a reach: the two reaches beside one service corner (R20). -/
def quadrant (r : Nat) : Nat := (r + 1) % 8 / 2

/-- The smallest of a list of counts. -/
def least (l : List Nat) : Nat := match l with | [] => 0 | h :: t => t.foldl min h

/-- The sites on the two centre lines, and whether an edge crosses one (R36). -/
def onLine (row : Bool) (t : Nat) : Bool := let p := sitePos t; if row then p.1 == 4 || p.1 == 5 else p.2 == 4 || p.2 == 5
def overLine (row : Bool) (a b : Nat) : Bool := if row then (sitePos a).1 == 4 && (sitePos b).1 == 5 else (sitePos a).2 == 4 && (sitePos b).2 == 5

/-- R36: the rows of the bisection table: edges, GB/s. A row that stands for several cuts (two centre lines, four quadrants, four reaches
of a set, eight bands) reports the least of their counts; the row of one site unavailable, the least count with an available site of the line
left out (DESIGN CHOICE, log 173). -/
def bisection (s : State) : List (Nat × Nat) :=
  let line := least ([true, false].map fun r => edgesOver s (overLine r))
  let less := least ([true, false].flatMap fun r =>
    ((List.range 88).filter fun t => onLine r t && siteAvail s t).map fun t => edgesOver s fun a b => overLine r a b && a != t && b != t)
  let reach (r : Nat) : Nat := edgesOver s fun a b => siteReach a == r && siteReach b != r
  let quad (q : Nat) : Nat := edgesOver s fun a b => quadrant (siteReach a) == q && quadrant (siteReach b) != q
  let band := least ((List.range 8).map fun r => ((List.range 24).filter fun h => halfUp s (24 * r + h)).length)
  let st (n : Nat) : Nat × Nat := (n, n * 6144)
  [st line, st less, st (least ((List.range 4).map quad)), st (least ((List.range 8).filter setA |>.map reach)),
   st (least ((List.range 8).filter (fun r => !setA r) |>.map reach)), (band, band * 12288 / 10), (100, 15360)]

/-- R293: the export region. -/
def exportBytes (s : State) (ver slot : Nat) : Bytes :=
  let mask := (List.range 88).foldl (fun a t => if siteAvail s t then a + 2 ^ t else a) 0
  let head := natLE 4 ver ++ natLE 4 0 ++ natLE 8 s.tide.count ++ natLE 8 slot ++ natLE 12 mask ++ natLE 4 (holeCount s) ++ natLE 24 0
  let cls (d : Nat) : Nat := ringClass (dieSite s d)
  let dd := (List.range 80).flatMap fun a => (List.range 80).flatMap fun b => natLE 8 (distEntry (dieDist s a b))
  let dc := (List.range 80).flatMap fun a => (List.range 64).flatMap fun n => natLE 8 (distEntry (chipDist s a n))
  let ct := (List.range 5).flatMap fun i => (List.range 5).flatMap fun j =>
    natLE 8 (meanEntry (((List.range 80).filter fun a => cls a == i).flatMap fun a => ((List.range 80).filter fun b => cls b == j).filterMap fun b => dieDist s a b))
  let bi := (bisection s).flatMap fun r => natLE 8 (r.1 + r.2 * 65536)
  head ++ dd ++ dc ++ ct ++ bi

/-- R293: after a route commit or a substitution the export region is rewritten and its version advanced. -/
def exportRewrite (slot : Nat) (s : State) : State :=
  let ver := (regLive s 0x7010 0 + 1) % 2 ^ 32
  let base := regLive s 0x7008 0 + 2 ^ 32 * regLive s 0x700C 0
  regSet 0x7010 0 ver (memWrite true base (exportBytes s ver slot) s)

end Sys2Proof.Machine
end

