-- ==== Sys2Proof/Machine/PlaceOps.lean ====
section
/-! DEFINITION. Watershed's working: the job graph (R282 to R284), the rules a placement meets (R280, R286, R287, R290), the report
(R292), shard records (R224), numerics records (R130), cell-program images and their loading (R315, R316), frozen dies (R299). -/
namespace Sys2Proof.Machine

/-! ### Records read at admission (R130, R224) -/

/-- A numerics record as read, where its fields keep their limits (R130). -/
def numRecOf (b : Bytes) : Option NumRec :=
  let f (o n : Nat) : Nat := leField b o n
  let fin (o : Nat) : Bool := match decodeF fp32 (f o 4) with | .fin _ _ _ => true | _ => false
  let v (o : Nat) : FVal := decodeF fp32 (f o 4)
  let zero : FVal := .fin false 0 0
  let e := sgnN 8 (f 33 1)
  if f 0 8 % 64 == 0 && f 8 8 % 64 == 0 && fin 16 && fin 20 && fin 24 && ltV zero (v 16) && !(ltV (v 20) (v 16)) && ltV (.fin false 1 0) (v 24) &&
      decide (1 ≤ f 30 1) && decide (f 30 1 ≤ 16) && f 31 1 < 16 && f 31 1 % 4 != 3 && decide (1 ≤ f 32 1) && decide (f 32 1 ≤ 24) && decide (-127 ≤ e) &&
      f 34 1 < 32 && f 35 1 == 0 && decide (1 ≤ f 36 4) && decide (f 36 4 ≤ 4096) && leNat (sliceB b 40 24) == 0 then
    some {
      scaleTable := f 0 8, healthArea := f 8 8, ratioWarn := f 16 4, ratioHold := f 20 4, spikeFactor := f 24 4, warmup := f 28 2, emaShift := f 30 1,
      lossPolicy := f 31 1 % 4, nfSkipStep := bitN (f 31 1) 2, ovfApply := bitN (f 31 1) 3, headroom := f 32 1, initExp := e, quiet := f 34 1, layers := f 36 4 }
  else none

/-- A shard record from its 128 bytes. -/
def shardRecOf (b : Bytes) : ShardRec :=
  let f (o n : Nat) : Nat := leField b o n
  { id := f 0 4, ctx := f 4 2 % 1024, delta := bitN (f 4 2) 10, owner := bitN (f 4 2) 11, layer := f 6 2 % 4096, nstate := bitsN (f 6 2) 14 12,
    base := f 8 8 % 2 ^ 45, elements := f 16 8 % 2 ^ 36, gblock0 := f 24 8 % 2 ^ 40, wAddr := f 32 8, sAddr := (List.range 4).map fun i => f (40 + 8 * i) 8,
    sfmt := f 72 1, prog := f 73 1 % 16, gAddr := f 80 8, fpAddr := f 88 8, rep0 := f 96 8, rep1 := f 104 8, mat := f 112 8 }

/-- The limits of one shard record (R224). -/
def shardOk (s : State) (c : Nat) (x : Ctx) (u : Bytes) (b : Bytes) : Bool :=
  let f (o n : Nat) : Nat := leField b o n
  let r := shardRecOf b
  let arr (a : Nat) : Bool := a % 2048 == 0 && ((fastBacked a && memStack a == memStack r.fpAddr) || slowAddr a)
  f 4 2 / 4096 == 0 && bitN (f 6 2) 15 == false && f 8 8 / 2 ^ 45 == 0 && f 16 8 / 2 ^ 36 == 0 && f 24 8 / 2 ^ 40 == 0 && leNat (sliceB b 74 6) == 0 &&
  leNat (sliceB b 120 8) == 0 && r.ctx == c && r.delta != x.full && r.layer < x.num.layers && decide (r.nstate ≤ 4) && r.elements % 32 == 0 &&
  decide (32 ≤ r.elements) && arr r.wAddr && ((List.range r.nstate).all fun k => arr (r.sAddr.getD k 0) && bitsN r.sfmt (2 * k + 1) (2 * k) != 3) &&
  f 73 1 < 16 && bitN (updDir u r.prog) 31 && progOk u r.prog && r.gAddr % 2048 == 0 && fastBacked r.gAddr && memStack r.gAddr == memStack r.fpAddr &&
  r.fpAddr % 64 == 0 && fastBacked r.fpAddr && (r.owner || r.rep1 == 0) && (r.mat == 0 || slowAddr r.mat) &&
  (s.full || !((List.range (r.nstate + 1)).any fun q => slowAddr (qAddr r q)))

/-- R224: identifiers are unique, and no two owner records overlap. -/
def shardsOk : List ShardRec → Bool
  | [] => true
  | r :: rs => rs.all (fun t => t.id != r.id && (!(r.owner && t.owner) || decide (r.base + r.elements ≤ t.base) || decide (t.base + t.elements ≤ r.base))) && shardsOk rs

/-- The shard records a placement wrote, as raw bytes. -/
def shardRaws (s : State) (p : Plan) : List Bytes := (List.range p.nshards).map fun i => memRead s (p.shardTab + 128 * i) 128

/-! ### The job graph (R283, R284) -/

/-- Offsets of the sections: groups, tensors, streams, reductions, relocations, end. -/
def graphOffs (b : Bytes) : List Nat :=
  let n (o : Nat) : Nat := leField b o 4
  let g := 64
  let t := g + 32 * n 16
  let st := t + 32 * n 20
  let r := st + 24 * n 24
  let l := r + 16 * n 28
  [g, t, st, r, l, l + 16 * n 48]

/-- The entries of a section. -/
def graphEnts (b : Bytes) (o size n : Nat) : List Bytes := (List.range n).map fun i => sliceB b (o + size * i) size

def groupOf (b : Bytes) : GGroup :=
  let f (o n : Nat) : Nat := leField b o n
  { cells := f 0 4, replica := f 4 2, kind := f 6 1, gang := bitN (f 7 1) 0, oneDie := bitN (f 7 1) 1, rows := f 8 2, cols := f 10 2, streamMb := f 12 4,
    near := f 16 4, progBytes := f 20 4, progAddr := f 24 8 }

def tensorOf (b : Bytes) : GTensor :=
  let f (o n : Nat) : Nat := leField b o n
  { ident := f 0 8, elements := f 8 8, role := f 16 1, residency := f 17 1, nstate := f 18 1, sfmt := f 19 1, layer := f 20 4, prog := f 24 1, gran := f 28 4 }

def streamOf (b : Bytes) : GStream :=
  let f (o n : Nat) : Nat := leField b o n
  { tensor := f 0 4, group := f 4 4, outFmt := f 8 2, tRows := f 10 1, cnt := f 11 1, span0 := f 12 1, nspans := f 13 1, phase := f 14 2, due0 := f 16 4, interval := f 20 4 }

def redOf (b : Bytes) : GRed :=
  let f (o n : Nat) : Nat := leField b o n
  { tensor := f 0 4, group := f 4 4, nsteps := f 8 1, backup := bitN (f 9 1) 0, conv := bitN (f 9 1) 1, deadline := f 10 2, fwd := f 12 2 }

def relocOf (b : Bytes) : GReloc :=
  let f (o n : Nat) : Nat := leField b o n
  { group := f 0 4, offset := f 4 2, kind := f 6 1, target := f 8 4, addend := f 12 4 }

/-- A graph as copied. -/
def graphOf (b : Bytes) : Graph :=
  let n (o : Nat) : Nat := leField b o 4
  let o := graphOffs b
  let fl := leField b 2 2
  { full := bitN fl 0, locFirst := bitN fl 1, spanOk := bitN fl 2, layers := leField b 12 2, replicas := leField b 14 1, fleet := n 32, index := n 36,
    baseTag := leField b 40 8,
    groups := (graphEnts b (o.getD 0 0) 32 (n 16)).map groupOf, tensors := (graphEnts b (o.getD 1 0) 32 (n 20)).map tensorOf,
    streams := (graphEnts b (o.getD 2 0) 24 (n 24)).map streamOf, reds := (graphEnts b (o.getD 3 0) 16 (n 28)).map redOf,
    relocs := (graphEnts b (o.getD 4 0) 16 (n 48)).map relocOf }

/-- Header limits (R283). -/
def headOk (s : State) (x : Ctx) (b : Bytes) : Bool :=
  let n (o : Nat) : Nat := leField b o 4
  let full := bitN (leField b 2 2) 0
  leField b 0 2 == 1 && leField b 2 2 < 8 && decide (64 ≤ n 4) && decide (n 4 ≤ 64 * 2 ^ 20) && (graphOffs b).getD 5 0 == n 4 &&
  crcOf profile0 (fitB (b.take 8 ++ List.replicate 4 0 ++ b.drop 12) (n 4)) == n 8 && decide (1 ≤ leField b 12 2) && decide (leField b 12 2 ≤ 4096) &&
  leField b 12 2 == x.num.layers && decide (1 ≤ leField b 14 1) && decide (leField b 14 1 ≤ 64) && leField b 15 1 == 0 && decide (1 ≤ n 16) &&
  decide (n 16 ≤ 65536) && decide (1 ≤ n 20) && decide (n 20 ≤ 1048576) && decide (n 24 ≤ 1048576) && decide (n 28 ≤ 1048576) && decide (1 ≤ n 32) &&
  decide (n 32 ≤ 4096) && (s.full || n 32 == 1) && n 36 < n 32 && (leField b 40 8 == 0) == full && decide (n 48 ≤ 16777215) && leNat (sliceB b 52 12) == 0

/-- Limits of the entries (R284, R463 note 2); the index of the first entry that breaks one. -/
def entBad (g : Graph) (b : Bytes) : Option Nat :=
  let o := graphOffs b
  let raw (k size i : Nat) : Bytes := sliceB b (o.getD k 0 + size * i) size
  let at_ (n : Nat) (ok : Nat → Bool) : Option Nat := (List.range n).find? fun i => !(ok i)
  let ng := g.groups.length
  let nt := g.tensors.length
  let bg := at_ ng fun i => match g.groups[i]? with
    | some x => decide (1 ≤ x.cells) && decide (x.cells ≤ if g.spanOk then 256000 else 128000) && x.replica < g.replicas && decide (x.kind ≤ 1) && leField (raw 0 32 i) 7 1 < 4 &&
        decide (1 ≤ x.rows) && decide (1 ≤ x.cols) && (!x.gang || (x.rows % 4 == 0 && x.cols % 4 == 0)) && (x.near < ng || x.near == 0xFFFFFFFF)
    | none => true
  let bt := at_ nt fun i => match g.tensors[i]? with
    | some x => decide (x.role ≤ 2) && decide (x.residency ≤ 3) && decide (x.nstate ≤ 4) && ((List.range x.nstate).all fun k => bitsN x.sfmt (2 * k + 1) (2 * k) != 3) &&
        x.layer < g.layers && x.prog < 16 && leNat (sliceB (raw 1 32 i) 25 3) == 0 && identValid x.ident && x.ident != 0 &&
        (x.role != 0 || idClass x.ident == 1) && (x.role != 1 || idClass x.ident == 2)
    | none => true
  let bs := at_ g.streams.length fun i => match g.streams[i]? with | some x => x.tensor < nt && x.group < ng | none => true
  let br := at_ g.reds.length fun i => match g.reds[i]? with
    | some x => x.group < ng && (g.tensors[x.tensor]?).any (·.role == 1) && decide (1 ≤ x.nsteps) && decide (x.nsteps ≤ 64) && leField (raw 3 16 i) 9 1 < 4 && (!x.conv || x.nsteps == 1) && leField (raw 3 16 i) 14 2 == 0
    | none => true
  let bl := at_ g.relocs.length fun i => leField (raw 4 16 i) 7 1 == 0
  [bg, bt, bs, br, bl].findSome? id

/-- R291 code 9: the first relocation out of range. -/
def relocBad (g : Graph) : Option Nat :=
  g.relocs.findIdx? fun r => !(match g.groups[r.group]? with
    | some x => r.offset % 4 == 0 && decide (r.offset + 4 ≤ x.progBytes) && decide (r.kind ≤ 2) && (if r.kind == 0 then r.target < g.groups.length else r.target < g.tensors.length)
    | none => false)

/-- R304: whether a base tag is resident: another admitted delta context carries it. -/
def baseResident (s : State) (c tag : Nat) : Bool := s.ctxs.any fun e => e.1 != c && e.2.st != .free && e.2.st != .admitting && !e.2.full && e.2.job.baseTag == tag

/-- Whether a valid window covers a slow-tier address. -/
def slowWin (s : State) (a : Nat) : Bool := s.rsv.wins.any fun w => winInUse s w.2 && decide (w.2.base ≤ a) && decide (a < w.2.base + w.2.size)

/-- R291: what a graph is refused for before it is placed: code and entry. -/
def graphBad (s : State) (c : Nat) (x : Ctx) (b : Bytes) : Option (Nat × Nat) :=
  let g := graphOf b
  if !(headOk s x b) then some (1, 0)
  else match entBad g b with
    | some i => some (1, i)
    | none =>
      if g.full != x.full then some (2, 0)
      else if !g.full && !(baseResident s c g.baseTag) && !(g.tensors.any (·.role == 0)) then some (8, 0)
      else match relocBad g with
        | some i => some (9, i)
        | none => if s.full && s.rsv.wins.any (winInUse s ·.2) then none else (g.tensors.findIdx? (·.residency == 3)).map fun i => (5, i)

/-! ### What a placement must meet (R280, R286, R287, R290) -/

/-- Whether two rectangles share a cell. -/
def rectMeet (a b : Rect) : Bool :=
  a.die == b.die && decide (a.row0 ≤ b.row1) && decide (b.row0 ≤ a.row1) && decide (a.col0 ≤ b.col1) && decide (b.col0 ≤ a.col1)

/-- No two rectangles of a list share a cell. -/
def rectsApart : List Rect → Bool
  | [] => true
  | r :: rs => rs.all (fun t => !(rectMeet r t)) && rectsApart rs

/-- Cells of a rectangle. -/
def rectSize (r : Rect) : Nat := (r.row1 + 1 - r.row0) * (r.col1 + 1 - r.col0)

/-- R280, R298: a die open to new placements: available, below heat level 2, under no notice. -/
def dieOpen (s : State) (die : Nat) : Bool :=
  let t := dieSite s die
  siteAvail s t && decide (tget s.net.heat t 0 ≤ 1) && !(s.wsh.notices.any (·.site == t)) && !(s.wsh.freezes.any (·.site == t))

/-- R286: one rectangle of a group. -/
def rectOk (s : State) (g : GGroup) (r : Rect) : Bool :=
  r.die < 80 && decide (r.row0 ≤ r.row1) && r.row1 < 100 && decide (r.col0 ≤ r.col1) && r.col1 < 128 &&
  (r.row1 + 1 - r.row0) % g.rows == 0 && (r.col1 + 1 - r.col0) % g.cols == 0 && dieOpen s r.die && (rectCells r).all (cellUsable s) &&
  (!g.gang || (r.row0 % 4 == 0 && (r.row1 + 1) % 4 == 0 && r.col0 % 4 == 0 && (r.col1 + 1) % 4 == 0))

/-- R286, R287: a group's rectangles. -/
def groupOk (s : State) (g : GGroup) (rs : List Rect) : Bool :=
  !rs.isEmpty && rs.all (rectOk s g) && decide (g.cells ≤ (rs.map rectSize).foldl (· + ·) 0) && (!g.oneDie || (rs.map (·.die)).eraseDups.length == 1)

/-- R287: the reaches a replica may take. -/
def reachesOk (span : Bool) (reaches : List Nat) : Bool :=
  let l := reaches.eraseDups
  decide (l.length ≤ 1) || (span && l.length == 2 && (l.map quadrant).eraseDups.length == 1)

/-- Rectangles of the other contexts, of a placement computed, and of a move's old cells. -/
def rectsOther (s : State) (c : Nat) : List Rect :=
  s.ctxs.flatMap fun e => if e.1 == c then [] else e.2.plan.rects.flatMap id ++ (match e.2.replan with | some p => p.rects.flatMap id | none => [])

/-- R290: contributions of the block that receives most. -/
def blockBound (g : Graph) (p : Plan) : Nat := g.fleet * g.replicas * ((g.reds.map (·.nsteps)).foldl max 1) * max p.blockCells 1

/-- R401: nothing new is placed on a suspect cluster, and none of its cells is in a slice. -/
def testFree (s : State) (c : Nat) (p : Plan) : Bool :=
  (s.bst.suspect.isEmpty && s.bst.slices.isEmpty) ||
  (p.rects.flatMap id).all fun r => (rectCells r).all fun l =>
    !(sliced s l) && ((tget? s.bst.suspect (gangLeader l)).isNone || (getCtx s c).plan.rects.any (·.any (rectHas · l)))

/-- R172: no rectangle takes cells that a running pass still delivers to for a killed context. -/
def passFree (s : State) (p : Plan) : Bool :=
  s.frs.all fun e => e.2.passes.all fun q => q.lost.all fun t => (p.rects.flatMap id).all fun r => !(rectMeet r t)

/-- R286, R287: whether a placement of a graph may stand. -/
def planOk (s : State) (c : Nat) (g : Graph) (p : Plan) : Bool :=
  testFree s c p && passFree s p &&
  p.rects.length == g.groups.length && p.tensors.length == g.tensors.length &&
  ((g.groups.zip p.rects).all fun e => groupOk s e.1 e.2) && rectsApart (p.rects.flatMap id) &&
  ((p.rects.flatMap id).all fun r => (rectsOther s c).all fun t => !(rectMeet r t)) &&
  ((List.range g.replicas).all fun k => reachesOk g.spanOk ((g.groups.zip p.rects).flatMap fun e => if e.1.replica == k then e.2.map fun r => r.die / 10 else [])) &&
  ((g.tensors.zip p.tensors).all fun e => decide (e.2.where_ ≤ 3) && decide (e.2.copies ≤ 3) && (e.1.residency != 1 || e.2.where_ == 0 || e.2.where_ == 2) &&
    (e.1.residency != 3 || (e.2.where_ == 1 && slowWin s e.2.addr)) && (e.2.where_ != 1 || decide (2 ≤ e.1.residency)))

/-! ### How Watershed chooses (R287, R288) -/

/-- The order of keys, first difference first. -/
def lexLt : List Nat → List Nat → Bool
  | a :: as, b :: bs => decide (a < b) || (a == b && lexLt as bs)
  | _, _ => false

/-- A distance as a key: its typical time (R294); what is unreachable comes last. -/
def distKey : Option (Nat × Nat) → Nat
  | some (h, x) => 2 * h + 24 * x
  | none => 2 ^ 20

/-- The stacks of the fast-tier tensors that stream into a group. -/
def streamStacks (g : Graph) (p : Plan) (i : Nat) : List Nat :=
  ((g.streams.filter (·.group == i)).filterMap fun t => (p.tensors[t.tensor]?).bind fun x => if x.addr < 0x080000000000 then some (memStack x.addr) else none).eraseDups

/-- R288: how far a die lies for a group: from the stacks of its streams, from its near group; several add (DESIGN CHOICE, log 196). -/
def groupFar (s : State) (g : Graph) (p : Plan) (i die : Nat) : Nat :=
  match g.groups[i]? with
  | none => 0
  | some x =>
    if x.kind == 1 then ((streamStacks g p i).map fun n => distKey (chipDist s die n)).foldl (· + ·) 0
    else ((p.rects.getD x.near []).head?.map fun r => distKey (dieDist s die r.die)).getD 0

/-- R288: keys 1 to 3 of a die for a group, 1 and 2 exchanged with locality_first; then key 4's die. -/
def dieKey (s : State) (g : Graph) (p : Plan) (i die : Nat) : List Nat :=
  let heat := [tget s.net.heat (dieSite s die) 0]
  let cls := ringClass (dieSite s die)
  let near := [if (g.groups[i]?).any (·.kind == 1) then cls else 10 - cls, groupFar s g p i die]
  (if g.locFirst then near ++ heat else heat ++ near) ++ [b2n (tget? s.net.dieMap die).isSome, die]

/-- The rectangles of the same shape that the keys of R288 put before one of a group. -/
def rectsBefore (s : State) (g : Graph) (p : Plan) (i : Nat) (r : Rect) : List Rect :=
  let h := r.row1 - r.row0
  let w := r.col1 - r.col0
  let k := dieKey s g p i r.die
  (List.range 80).flatMap fun d =>
    if d == r.die then
      (List.range (r.row0 + 1)).flatMap fun a => (List.range (if a < r.row0 then 128 - w else r.col0)).map fun b =>
        { die := d, row0 := a, row1 := a + h, col0 := b, col1 := b + w }
    else if lexLt (dieKey s g p i d) k then
      (List.range (100 - h)).flatMap fun a => (List.range (128 - w)).map fun b => { die := d, row0 := a, row1 := a + h, col0 := b, col1 := b + w }
    else []

/-- A placement with one rectangle of a group elsewhere. -/
def swapRect (p : Plan) (i j : Nat) (r : Rect) : Plan := { p with rects := lmod p.rects i fun l => lmod l j fun _ => r }

/-- R288: no rectangle of the groups `moved` could stand where the keys put it earlier (DESIGN CHOICE, log 196: one rectangle at a time). -/
def keysOk (s : State) (c : Nat) (g : Graph) (p : Plan) (moved : Nat → Bool) : Bool :=
  ((List.range p.rects.length).filter moved).all fun i =>
    let l := p.rects.getD i []
    (List.range l.length).all fun j => match l[j]? with
      | some r => (rectsBefore s g p i r).all fun t => !(planOk s c g (swapRect p i j t))
      | none => true

/-- The reaches of a replica's groups. -/
def repReaches (g : Graph) (p : Plan) (k : Nat) : List Nat :=
  ((g.groups.zip p.rects).flatMap fun e => if e.1.replica == k then e.2.map fun r => r.die / 10 else []).eraseDups

/-- Usable cells of a reach that other contexts and the replicas below `k` leave (R26, R287). -/
def reachLeft (s : State) (c : Nat) (g : Graph) (p : Plan) (k reach : Nat) : Nat :=
  let has := ((List.range 10).map fun d => if siteAvail s (dieSite s (10 * reach + d)) then dieCells - siteHoles s (dieSite s (10 * reach + d)) else 0).foldl (· + ·) 0
  let used := (rectsOther s c ++ (g.groups.zip p.rects).flatMap fun e => if e.1.replica < k then e.2 else []).filter fun r => r.die / 10 == reach
  has - (used.map rectSize).foldl (· + ·) 0

/-- R287: each replica of which every group is placed now goes to the reach with the most usable cells left; one in two reaches, to the quadrant. -/
def spreadOk (s : State) (c : Nat) (g : Graph) (p : Plan) (moved : Nat → Bool) : Bool :=
  (List.range g.replicas).all fun k =>
    let own := (List.range g.groups.length).filter fun i => (g.groups[i]?).any (·.replica == k)
    if !(own.all moved) then true
    else match repReaches g p k with
      | [r] => (List.range 8).all fun q => decide (reachLeft s c g p k q ≤ reachLeft s c g p k r)
      | [r, t] => (List.range 8).all fun q => (List.range 8).all fun u => q == u || quadrant q != quadrant u ||
          decide (reachLeft s c g p k q + reachLeft s c g p k u ≤ reachLeft s c g p k r + reachLeft s c g p k t)
      | _ => true

/-- R286 to R288: whether Watershed may answer with a placement; `moved`: the groups it places now. -/
def choiceOk (s : State) (c : Nat) (g : Graph) (p : Plan) (moved : Nat → Bool) : Bool :=
  planOk s c g p && spreadOk s c g p moved && keysOk s c g p moved

/-- R287: the reach of shard `id`'s owner on its module: (id div M) mod 8, the next one in service where it is lost. -/
def ownerReach (s : State) (g : Graph) (id : Nat) : Nat :=
  let r := id / g.fleet % 8
  ((List.range 8).map fun k => (r + k) % 8).find? (fun q => !(s.net.reachOut.contains q)) |>.getD r

/-- R287: shards by owner and by reach; a copy in this module lies in another reach than the owner and the other copy (DEDUCED, log 197: a
shard's index is its shard_id). -/
def shardPlaced (s : State) (g : Graph) (r : ShardRec) : Bool :=
  let here (a : Nat) : List Nat := if a != 0 && a / 2 ^ 48 == 0 then [memStack a / 8] else []
  r.owner == (r.id % g.fleet == g.index) &&
  (!r.owner || (homeOf r / 8 == ownerReach s g r.id &&
    (here r.rep0 ++ here r.rep1).all (· != homeOf r / 8) && (here r.rep0 ++ here r.rep1).eraseDups.length == (here r.rep0 ++ here r.rep1).length))

/-- R124, R290: a placement that may take a context's place: within its rules, and within 2^h contributions to a block. -/
def replanOk (s : State) (c : Nat) (p : Plan) : Bool :=
  planOk s c (getCtx s c).job p && decide (blockBound (getCtx s c).job p ≤ 2 ^ (getCtx s c).num.headroom)

/-- R295: the groups that a new placement moves. -/
def movedGroups (x : Ctx) (p : Plan) (i : Nat) : Bool := p.rects.getD i [] != x.plan.rects.getD i []

/-! ### The report (R292) -/

/-- Whether a group's cells lie in one cluster and are at most 16 (R289). -/
def oneCluster (rs : List Rect) : Bool :=
  let cs := rs.flatMap rectCells
  decide (cs.length ≤ 16) && ((cs.map cluster).eraseDups.length == 1)

/-- Sort-and-merge in the descriptors of a group (R289). -/
def groupSm (rs : List Rect) : Bool := !(oneCluster rs)

/-- The group record of R292. -/
def groupRecord (s : State) (i rect0 : Nat) (g : GGroup) (rs : List Rect) : Bytes :=
  let reaches := (List.range 8).foldl (fun a k => if rs.any (fun r => r.die / 10 == k) then a + 2 ^ k else a) 0
  let fl := b2n (groupSm rs) + 2 * b2n g.gang + 4 * b2n (rs.any fun r => (tget? s.net.dieMap r.die).isSome) + 8 * b2n (rs.any fun r => tget s.net.heat (dieSite s r.die) 0 == 1)
  natLE 4 i ++ natLE 1 reaches ++ natLE 1 fl ++ natLE 2 rs.length ++ natLE 4 rect0 ++ natLE 4 ((rs.map rectSize).foldl (· + ·) 0)

/-- A placed context's report. -/
def reportBytes (s : State) (c : Nat) (g : Graph) (p : Plan) (ver step cause : Nat) : Bytes :=
  let n := p.rects.length
  let r0 (i : Nat) : Nat := ((p.rects.take i).map List.length).foldl (· + ·) 0
  natLE 2 c ++ natLE 2 0 ++ natLE 4 ver ++ natLE 4 step ++ natLE 4 n ++ natLE 8 s.tide.count ++ natLE 4 p.tensors.length ++ natLE 4 (r0 n) ++ natLE 4 0 ++
  natLE 4 cause ++ natLE 8 p.shardTab ++ natLE 16 0 ++
  ((List.range n).flatMap fun i => match g.groups[i]? with | some x => groupRecord s i (r0 i) x (p.rects.getD i []) | none => []) ++
  ((p.rects.flatMap id).flatMap fun r => natLE 8 (r.die + r.row0 * 2 ^ 7 + r.row1 * 2 ^ 14 + r.col0 * 2 ^ 21 + r.col1 * 2 ^ 28)) ++
  ((List.range p.tensors.length).flatMap fun i => match p.tensors[i]? with
    | some t => natLE 4 i ++ natLE 1 t.where_ ++ natLE 1 t.copies ++ natLE 2 0 ++ natLE 4 t.shards ++ natLE 4 t.shard0 ++ natLE 8 t.addr ++ natLE 8 0
    | none => [])

/-- The report of a refused admission: its header alone. -/
def refusalBytes (s : State) (c code detail step : Nat) : Bytes :=
  natLE 2 c ++ natLE 2 code ++ natLE 4 1 ++ natLE 4 step ++ natLE 4 0 ++ natLE 8 s.tide.count ++ natLE 4 0 ++ natLE 4 0 ++ natLE 4 detail ++ natLE 4 0 ++ natLE 8 0 ++ natLE 16 0

/-- Watershed writes a report version (R292). -/
def writeReport (c : Nat) (p : Plan) (step cause : Nat) (s : State) : State :=
  let x := getCtx s c
  modCtx c (fun x => { x with ver := x.ver + 1 }) (recPut bWSH unitTR c x.report (reportBytes s c x.job p (x.ver + 1) step cause) s)

/-! ### Cell-program images (R315) -/

/-- An image's fields. -/
structure Image where
  seq : List Nat
  roles : List Bytes
  map : List Nat
  loads : List Bytes
  deriving DecidableEq, Repr

/-- The image's sections. -/
def imageOf (b : Bytes) : Image :=
  let n (o k : Nat) : Nat := leField b o k
  { seq := (sliceB b (n 28 4) (n 2 2)).map (·.toNat),
    roles := (List.range (n 12 2)).map fun i => sliceB b (n 20 4 + 272 * i) 272,
    map := (sliceB b (n 24 4) (n 8 4)).map (·.toNat),
    loads := (List.range (n 36 4)).map fun i => sliceB b (n 32 4 + 16 * i) 16 }

/-- The load entries of a role. -/
def roleLoads (m : Image) (r : Bytes) : List Bytes := (m.loads.drop (leField r 256 4)).take (leField r 260 4)

/-- Whether a load entry covers a slot. -/
def loadHas (e : Bytes) (k : Nat) : Bool := decide (leField e 0 1 ≤ k) && decide (k < leField e 0 1 + leField e 1 1)

/-- R57, R86, R315: a program-table descriptor of a role. -/
def descOk (m : Image) (r : Bytes) (i : Nat) : Bool :=
  let d := sliceB r (16 * i) 16
  let w := leField d 0 4
  w % 4096 == 0 &&
  (!(bitN w 12) ||
    (decide (leField d 4 4 % 2 ^ 18 ≤ 262112) && (List.range 4).all fun j =>
      let a := leField d (8 + 2 * j) 2
      a == 0xFFFF || (a % 4 == 0 && a / 256 < 255 && (roleLoads m r).any fun e => loadHas e (a / 256) && leField e 2 1 == 0)))

/-- R315: a load entry. -/
def loadOk (len : Nat) (e : Bytes) : Bool :=
  let f (o n : Nat) : Nat := leField e o n
  decide (1 ≤ f 1 1) && decide (f 0 1 + f 1 1 ≤ 255) && decide (f 2 1 ≤ 1) && (if f 2 1 == 1 then decide (1 ≤ f 3 1) && decide (f 3 1 ≤ 15) else f 3 1 == 0) &&
  f 4 4 % 64 == 0 && decide (f 4 4 + 256 * f 1 1 ≤ len)

/-- Load entries of one role do not overlap. -/
def loadsApart : List Bytes → Bool
  | [] => true
  | e :: es => es.all (fun t => decide (leField e 0 1 + leField e 1 1 ≤ leField t 0 1) || decide (leField t 0 1 + leField t 1 1 ≤ leField e 0 1)) && loadsApart es

/-- R57, R86, R315: whether an image's fields keep their limits; reserved bytes of its role and load entries have none (R9). -/
def imageForm (g : GGroup) (b : Bytes) : Bool :=
  let n (o k : Nat) : Nat := leField b o k
  let m := imageOf b
  let len := g.progBytes
  decide (64 ≤ len) && n 0 2 == 1 && decide (1 ≤ n 2 2) && n 4 4 == len && n 8 4 == g.cells && decide (1 ≤ n 12 2) && decide (n 12 2 ≤ 256) && n 14 2 == 0 &&
  n 20 4 % 8 == 0 && n 32 4 % 16 == 0 && decide (n 36 4 ≤ 1048576) &&
  leNat (sliceB b 40 24) == 0 && decide (n 20 4 + 272 * n 12 2 ≤ len) && decide (n 24 4 + n 8 4 ≤ len) && decide (n 28 4 + n 2 2 ≤ len) &&
  decide (n 32 4 + 16 * n 36 4 ≤ len) && m.map.all (· < n 12 2) && m.seq.all (fun v => v < 16 || v == 0xFF) && m.loads.all (loadOk len) &&
  m.roles.all fun r => decide (leField r 256 4 + leField r 260 4 ≤ n 36 4) && loadsApart (roleLoads m r) && (List.range 16).all (descOk m r)

/-- R315: whether an image, as submitted, may be loaded. -/
def imageOk (g : GGroup) (b : Bytes) : Bool :=
  crcOf profile0 (fitB (b.take 16 ++ List.replicate 4 0 ++ b.drop 20) g.progBytes) == leField b 16 4 && imageForm g b

/-- The cells of a group by ordinal (R284). -/
def planCells (rs : List Rect) : List Nat := rs.flatMap rectCells

/-- R284: one relocation applied to an image. -/
def relocate (p : Plan) (r : GReloc) (b : Bytes) : Bytes :=
  let v := match r.kind with
    | 0 => (planCells (p.rects.getD r.target [])).getD (leField b r.offset 4) (leField b r.offset 4)
    | 1 => ((p.tensors[r.target]?).map (·.addr)).getD 0 + r.addend
    | _ => ((p.tensors[r.target]?).map (·.addr)).getD 0 + r.addend
  b.take r.offset ++ natLE 4 (if r.kind == 1 then v / 2 ^ 32 else v) ++ b.drop (r.offset + 4)

/-- A group's image, patched for a placement. -/
def patched (s : State) (x : Ctx) (p : Plan) (i : Nat) : Bytes :=
  match x.job.groups[i]? with
  | some g => (x.job.relocs.filter (·.group == i)).foldl (fun b r => relocate p r b) (memRead s g.progAddr g.progBytes)
  | none => []

/-- R86, R315: whether every image of a placement may be loaded, as submitted and as patched. -/
def imagesOk (s : State) (x : Ctx) (p : Plan) : Bool :=
  (List.range x.job.groups.length).all fun i =>
    match x.job.groups[i]? with
    | some g => imageOk g (memRead s g.progAddr g.progBytes) && imageForm g (patched s x p i)
    | none => true

/-- R81, R316 step 1: slots 0 to 254 of a cell pass to a context through SCRUB, whatever is under way on them. -/
def cellScrub (l c : Nat) (s : State) : State :=
  modCell l (fun x => { scrubFinish { slots := List.range 255, owner := c, kill := none } x with scrubs := [], ops := [] }) (scrubSlots l (List.range 255) c none s)

/-- The program table of a role on a cell (R85, R316 step 2). -/
def roleTable (c : Nat) (gang sm : Bool) (r : Bytes) : Bytes :=
  (List.range 16).flatMap fun i =>
    let d := sliceB r (16 * i) 16
    natLE 4 (4096 * b2n (bitN (leField d 0 4) 12) + c + 1024 * b2n gang + 2048 * b2n sm) ++ natLE 4 (leField d 4 4 % 2 ^ 18) ++ d.drop 8

/-- R316 steps 2 and 3: slot 255 holds the program table of the cell's role, the role's load entries their slots. -/
def cellImage (c : Nat) (b : Bytes) (m : Image) (gang sm : Bool) (ord : Nat) (x : Cell) : Cell :=
  let r := m.roles.getD (m.map.getD ord 0) []
  (roleLoads m r).foldl (fun x e =>
    let k0 := leField e 0 1
    let n := leField e 1 1
    let t : Tag := if leField e 2 1 == 0 then { st := .resident, owner := c } else { st := .full, cnt := leField e 3 1, owner := c }
    let x := { x with mem := bwrite x.mem (256 * k0) (sliceB b (leField e 4 4) (256 * n)) }
    (List.range n).foldl (fun x j => setTag (k0 + j) t x) x) { x with mem := bwrite x.mem 0xFF00 (roleTable c gang sm r) }

/-- IMAGE_LOAD (R316) as an inner step: a group's cells are loaded; `only` restricts it to these cells. R86: a cell whose table may not be loaded,
for a gang without its whole cluster or an image that no longer keeps its limits, runs nothing. -/
def loadGroup (c i : Nat) (p : Plan) (only : Option (List Nat)) (s : State) : State :=
  let x := getCtx s c
  let b := patched s x p i
  let m := imageOf b
  let rs := p.rects.getD i []
  let cs := planCells rs
  let gang := ((x.job.groups[i]?).map (·.gang)).getD false
  let fits := match x.job.groups[i]? with | some g => imageOk g (memRead s g.progAddr g.progBytes) && imageForm g b | none => false
  (List.range cs.length).foldl (fun s j =>
    let l := cs.getD j 0
    if (match only with | some o => o.contains l | none => true) && cellUsable s l then
      let s := modCell l (fun x => { x with mem := bzero x.mem 0xFF00 256 }) (cellScrub l c s)
      if fits && (!gang || (clusterCells l).all (cellUsable s)) then modCell l (cellImage c b m gang (groupSm rs) j) s else s
    else s) s

/-- Every group of a context is loaded. -/
def loadAll (c : Nat) (p : Plan) (s : State) : State := (List.range p.rects.length).foldl (fun s i => loadGroup c i p none s) s

/-- The cells a placement gives. -/
def planAll (p : Plan) : List Nat := p.rects.flatMap planCells

/-- R80, R81: a cell of a context is left: it becomes unassigned once its slots are zeroed. -/
def cellLeave (l c : Nat) (s : State) : State := scrubSlots l (ownedSlots (getCell s l) c) ownerNone none s

/-! ### Passes drop a context (R172, R180) -/

/-- From the next boundary no delivery goes to a group of the context alone; shared groups continue. -/
def frsDropCtx (c : Nat) (s : State) : State :=
  { s with frs := s.frs.map fun e => (e.1, { e.2 with passes := e.2.passes.map fun p => { p with
      ctxs := delN p.ctxs c,
      skip := (List.range p.grps.length).foldl (fun t k => match p.grps[k]? with
        | some g => if !g.all && g.ctx == c && (tget? t k).isNone then tset t k s.tide.bnd else t
        | none => t) p.skip } }) }

/-- R172: the cells of a killed context are not reassigned until the passes that served it have ended. -/
def frsHold (c : Nat) (s : State) : State :=
  let keep (p : Pass) : Pass := if p.ctxs.contains c then { p with lost := p.lost ++ (getCtx s c).plan.rects.flatMap id } else p
  { s with frs := s.frs.map fun e => (e.1, { e.2 with passes := e.2.passes.map keep }) }

end Sys2Proof.Machine
end

