-- ==== Sys2Proof/Machine/Reservoir.lean ====
section
/-! DEFINITION. Meanings: the Reservoir agents, windows, exports and peers (R204 to R215). -/
namespace Sys2Proof.Machine

/-! ### Windows and exports (R205, R213, R217) -/

/-- R205: whether the fields written for a window may become valid. -/
def winOk (s : State) (w : Nat) : Bool :=
  let base := regW s 0xD008 w 17 0
  let size := regW s 0xD00C w 17 0
  let typ := regW s 0xD010 w 1 0
  let others := s.rsv.wins.filter (·.1 != w)
  s.full && decide (0x4000 ≤ base) && decide (1 ≤ size) && decide (size ≤ 238418) && decide (base + size ≤ 0x40000) && typ != 0 &&
  regWritten s 0xD014 w % 4096 == 0 && (!(bitN (regWritten s 0xD01C w) 4) || (profileOf s (regW s 0xD01C w 3 0)).valid) &&
  !(others.any fun o => decide (o.2.base / 2 ^ 30 < base + size) && decide (base < (o.2.base + o.2.size) / 2 ^ 30)) &&
  decide ((others.foldl (fun a o => a + o.2.size / 2 ^ 30) 0) + size ≤ 238418)

/-- A window enters use. -/
def winSet (w : Nat) (s : State) : State :=
  let t := regWritten s 0xD010 w
  { s with rsv := { s.rsv with wins := tset s.rsv.wins w {
      base := regW s 0xD008 w 17 0 * 2 ^ 30, size := regW s 0xD00C w 17 0 * 2 ^ 30, typ := bitsN t 1 0, node := bitsN t 17 2,
      eng := bitsN t 23 18, engAlt := bitsN t 29 24, altEn := bitN t 30, rbase := regWritten s 0xD014 w + 2 ^ 32 * regWritten s 0xD018 w,
      prof := regW s 0xD01C w 3 0, chkEn := bitN (regWritten s 0xD01C w) 4, since := s.tide.bnd } } }

/-- WINDOW_CLOSE (R205): a cleared window closes at the next boundary. -/
def execWindowClose (w : Fin 64) (s : State) : Result :=
  .next (match tget? s.rsv.wins w with
    | some x => match x.closing with
      | some b => if b < s.tide.bnd then { s with rsv := { s.rsv with wins := tdel s.rsv.wins w } } else s
      | none => s
    | none => s)

/-- R213: whether an export's fields may become valid. -/
def expOk (s : State) (i : Nat) : Bool :=
  let base := regW s 0xD024 i 12 0
  let size := regW s 0xD028 i 13 0
  s.full && decide (1 ≤ size) && decide (base + size ≤ 8192)

/-- An export enters use. -/
def expSet (i : Nat) (s : State) : State :=
  { s with rsv := { s.rsv with exps := tset s.rsv.exps i {
      base := regW s 0xD024 i 12 0, size := regW s 0xD028 i 13 0, node := regW s 0xD02C i 15 0, wr := bitN (regWritten s 0xD02C i) 16, since := s.tide.bnd } } }

/-! ### Messages (R207 to R209) -/

/-- A Reservoir header (R207). -/
structure RsvHdr where
  op : Nat
  last : Bool
  trl : Bool
  ack : Bool
  tag : Nat
  ctx : Nat
  status : Nat
  addr : Nat
  len : Nat
  offset : Nat
  chkW : Nat
  deriving DecidableEq, Repr

/-- Its 32 bytes. -/
def rsvHdrBytes (h : RsvHdr) : Bytes :=
  natLE 1 h.op ++ natLE 1 (b2n h.last + 2 * b2n h.trl + 4 * b2n h.ack) ++ natLE 2 h.tag ++ natLE 2 h.ctx ++ natLE 2 h.status ++ natLE 8 h.addr ++
  natLE 4 h.len ++ natLE 4 h.offset ++ natLE 1 h.chkW ++ natLE 7 0

/-- A header from bytes. -/
def rsvHdrOf (b : Bytes) : RsvHdr :=
  let f := leField b 1 1
  { op := leField b 0 1, last := bitN f 0, trl := bitN f 1, ack := bitN f 2, tag := leField b 2 2, ctx := leField b 4 2 % 1024, status := leField b 6 2,
    addr := leField b 8 8, len := leField b 16 4, offset := leField b 20 4, chkW := leField b 24 1 }

/-- Append the end-to-end check of a profile, or none (R154, R206). -/
def rsvBody (p : Option Profile) (h : RsvHdr) (data : Bytes) : Bytes :=
  match p with
  | some p => let b := rsvHdrBytes { h with chkW := checkBytes p } ++ data; b ++ natLE (checkBytes p) (checkOf p b)
  | none => rsvHdrBytes { h with chkW := 0 } ++ data

/-- Strip and compare the check: header and data, none where it differs (R154). -/
def rsvStrip (p : Option Profile) (b : Bytes) : Option (RsvHdr × Bytes) :=
  let w := match p with | some p => checkBytes p | none => 0
  let h := rsvHdrOf b
  let n := b.length - w
  if h.chkW != w || b.length < 32 + w then none
  else match p with
    | some p => if leNat (b.drop n) == checkOf p (b.take n) then some (h, (b.take n).drop 32) else none
    | none => some (h, b.drop 32)

/-- The check profile of a window. -/
def winProf (s : State) (w : RsvWin) : Option Profile := if w.chkEn then some (profileOf s w.prof) else none

/-- Data of an operation in parts of at most 2,080 bytes (R208). -/
def cut2080 : Nat → Nat → Bytes → List (Nat × Bytes)
  | 0, _, _ => []
  | n + 1, o, b => if b.isEmpty then [] else (o, b.take 2080) :: cut2080 n (o + 2080) (b.drop 2080)

/-- Who serves an engine's side of a message: the partner's engine number. -/
def dstEngOf (s : State) (e : Nat) : Nat := ((engPartner s e).map (·.eng)).getD 0

/-- R376: where a READ straight to a node goes: that node's own addresses, through the agent's engine, with no check. -/
def directWin (agent node : Nat) : RsvWin :=
  { base := 0, size := 2 ^ 48, typ := 2, node := node, eng := agent, engAlt := agent, altEn := false, rbase := 0, prof := 0, chkEn := false, since := 0 }

/-- The unit of an agent's stream for a context (R152, R206), by number of its job. -/
def rsvJob (agent : Nat) : Nat := 1 + agent

/-- R206: a stream that carries checks has a unit bound to it while an operation of it is outstanding. -/
def rsvBind (o : RsvOp) (s : State) : State :=
  if !o.window.chkEn || s.chk.bound.any (fun e => e.2.ctx == o.w.ctx && e.2.job == some (rsvJob o.w.agent)) then s
  else unitBind o.w.agent { ctx := o.w.ctx, prof := o.window.prof, append := true, run := chkInit (profileOf s o.window.prof), done := 0, job := some (rsvJob o.w.agent) } s

/-- The unit is free once the stream has no operation left. -/
def rsvFree (agent ctx : Nat) (s : State) : State :=
  if s.rsv.ops.any (fun o => o.w.agent == agent && o.w.ctx == ctx && o.window.chkEn) then s
  else unitFree (fun b => b.ctx == ctx && b.job == some (rsvJob agent)) s

/-- A message of an operation leaves through its engine, with the window's check (R206). -/
def rsvOut (o : RsvOp) (h : RsvHdr) (d : Bytes) (s : State) : State :=
  csnSend o.eng o.window.node (dstEngOf s o.eng) 0x20 o.w.cls o.w.ctx (rsvBody (winProf s o.window) h d) s

/-- The header of an operation's messages (R207): its address in the target's space; `trl` where the range is a tile with its trailer. -/
def rsvHdr (o : RsvOp) (op : Nat) : RsvHdr :=
  { op := op, last := true, trl := o.w.len == 2080, ack := op != 9 && o.w.ack, tag := o.w.agent * 1024 + o.slot, ctx := o.w.ctx, status := 0,
    addr := o.w.addr - o.window.base + o.window.rbase, len := o.w.len, offset := 0, chkW := 0 }

/-- The messages of an operation leave (R206, R208, R214). -/
def rsvEmit (o : RsvOp) (s : State) : State :=
  if o.window.typ == 3 then
    match o.w.act with
    | .write d => emit (.hostWrite (rsvHdr o 3).addr d) s
    | _ => emit (.hostRead (rsvHdr o 1).addr o.w.len) s
  else
    match o.w.act with
    | .read => rsvOut o (rsvHdr o 1) [] s
    | .flush => rsvOut o (rsvHdr o 5) [] s
    | .query => rsvOut o (rsvHdr o 7) [] s
    | .write d =>
      (cut2080 17 0 d).foldl (fun s p =>
        let last := p.1 + p.2.length == d.length
        rsvOut o { rsvHdr o 3 with offset := p.1, last := last, ack := o.w.ack && last } p.2 s) s

/-- The lowest free slot of an agent (R206); one aborted, with parts that may still arrive, only where no other is free. -/
def rsvSlot (s : State) (agent : Nat) : Option Nat :=
  let idle (k : Nat) : Bool := !(s.rsv.ops.any fun o => o.w.agent == agent && o.slot == k)
  match (List.range 1024).find? fun k => idle k && !(s.rsv.aborted.contains (agent * 1024 + k)) with
  | some k => some k
  | none => (List.range 1024).find? idle

/-- The operation under a tag. -/
def rsvOp (s : State) (agent slot : Nat) : Option RsvOp := s.rsv.ops.find? fun o => o.w.agent == agent && o.slot == slot

/-- Change an operation. -/
def modRsv (agent slot : Nat) (f : RsvOp → RsvOp) (s : State) : State :=
  { s with rsv := { s.rsv with ops := s.rsv.ops.map fun o => if o.w.agent == agent && o.slot == slot then f o else o } }

/-- An operation ends; its requester has its data or fails as under R183 (R211). -/
def rsvOver (o : RsvOp) (status : Nat) (data : Bytes) (s : State) : State :=
  let s := rsvFree o.w.agent o.w.ctx { s with rsv := { s.rsv with ops := s.rsv.ops.filter fun p => !(p.w.agent == o.w.agent && p.slot == o.slot) } }
  match o.w.by_ with
  | .cell l op =>
    match findOp (getCell s l) op with
    | none => s
    | some r =>
      if status != 0 then send (.refuse l op) s
      else match r.kind with
        | .ldx => send (.ldxData l op (some (leNat data))) s
        | .fetch =>
          send (.fill { kind := .fetch op, cell := l, addr := r.loc, len := r.len, cnt := r.cnt, ctx := r.ctx, data := data.take r.len, trailer := data.drop r.len } [l]) s
        | .send => s
  | b =>
    let s := if status == 0 && o.w.act == .read && o.w.node.isNone then winKeep o.w.addr data s else s
    if ownWrite b then s else { s with rsv := { s.rsv with done := s.rsv.done ++ [{ by_ := b, ctx := o.w.ctx, addr := o.w.addr, status := status, data := data }] } }

/-- R211: an operation fails with a contained record that names the window, the address and the cause. -/
def rsvFail (o : RsvOp) (status : Nat) (s : State) : State :=
  rsvOver o (if status == 0 then 4 else status) []
    (raise (ringUnit o.w.agent) bRSV sCont 0x06 (some o.w.ctx) o.w.addr (o.win + o.eng * 2 ^ 16) status s)

/-- RSV_REQUEST_ISSUE (R206, R210): the `i`-th waiting request of an agent leaves through its window's primary engine; one that
overlaps a write of the agent not yet acknowledged waits; one outside every window meets R183. -/
def execRsvRequestIssue (agent : Fin 64) (i : Nat) (s : State) : Result :=
  .next (
    match (s.rsv.want.filter (·.agent == agent.val))[i]? with
    | none => s
    | some w =>
      let drop (s : State) : State := { s with rsv := { s.rsv with want := s.rsv.want.erase w } }
      match (match w.node with
        | some n => if s.full then some (64, directWin agent n) else none
        | none => s.rsv.wins.find? fun e => decide (e.2.base ≤ w.addr) && decide (w.addr + w.len ≤ e.2.base + e.2.size) && winInUse s e.2 && s.full) with
      | none =>
        rsvOver { w := w, slot := 1024, win := 0, eng := 0, window := directWin agent 0, at_ := 0 } 1 []
          (memDiscard (ringUnit agent) (some w.ctx) w.addr (drop s))
      | some (k, win) =>
        let clash := s.rsv.ops.any fun o => o.w.agent == w.agent && w.act == .read && (match o.w.act with | .write _ => true | _ => false) &&
          decide (o.w.addr < w.addr + w.len) && decide (w.addr < o.w.addr + o.w.len)
        match rsvSlot s agent with
        | some slot =>
          if clash then s
          else
            let o : RsvOp := { w := w, slot := slot, win := k, eng := win.eng, window := win, at_ := s.now }
            let s := countCtx bRSV 0 0 agent (some w.ctx) (drop s)
            rsvEmit o (rsvBind o { s with rsv := { s.rsv with ops := s.rsv.ops ++ [o] } })
        | none => s)

/-- R212: a failed check of a received message: counted, and but for an unknown tag an info record with the row of the table. -/
def rsvBad (e row : Nat) (ctx : Nat) (s : State) : State :=
  let s := countCtx bRSV 3 0 e (some ctx) s
  if row == 3 then s else raise (ringUnit e) bRSV sInfo 0x07 (some ctx) row 0 (3 + 256 * row) s

/-- The operation code of a message, as far as R208 knows it. -/
def rsvKnown (op : Nat) : Bool := decide (1 ≤ op) && decide (op ≤ 9)

/-- The answer that an act waits for (R208). -/
def RsvAct.answer : RsvAct → Nat
  | .read => 2 | .write _ => 4 | .flush => 6 | .query => 8

/-- R212: the first failed row for a response: check, op, tag, lengths, ctx; 0 where all hold. -/
def rsvCheck (s : State) (body : Bytes) (op : Nat) : Nat × Option (RsvOp × RsvHdr × Bytes) :=
  let h := rsvHdrOf body
  match rsvOp s (h.tag / 1024) (h.tag % 1024) with
  | none => (3, none)
  | some o =>
    match rsvStrip (winProf s o.window) body with
    | none => (1, none)
    | some (h, d) =>
      if h.op != op || op != o.w.act.answer then (2, none)
      else if (op != 8 && h.len != o.w.len) || h.len < h.offset + d.length || 2080 < d.length || d.length % 4 != 0 then (4, none)
      else if h.ctx != o.w.ctx then (5, none)
      else (0, some (o, h, d))

/-- R209: what a status other than OK does to its operation; an aborted one ends without a record. -/
def rsvStatus (o : RsvOp) (status : Nat) (s : State) : State :=
  if status == 3 && !o.reissued then modRsv o.w.agent o.slot (fun o => { o with busy := some s.now }) s
  else if status == 7 then rsvOver o 7 [] s
  else rsvFail o status s

/-- The unit of a stream counts a check made (R158): 0 pass, 1 fail. -/
def rsvUnit (h : RsvHdr) (num : Nat) (s : State) : State :=
  match rsvOp s (h.tag / 1024) (h.tag % 1024) with
  | some o => if o.window.chkEn then unitCount num o.w.ctx (rsvJob o.w.agent) s else s
  | none => s

/-- A response arrives at its agent (R208, R212): an unknown or aborted tag is discarded and counted; a message of no operation of R208 is
discarded by the first command that meets it, without an answer (DESIGN CHOICE, log 194). -/
def rsvResponse (e i op : Nat) (f : RsvOp → RsvHdr → Bytes → State → State) (s : State) : State :=
  match csnMsg s e i 0x20 with
  | none => s
  | some m =>
    let h0 := rsvHdrOf m.body
    if !(rsvKnown h0.op) then rsvBad e 2 m.ctx (csnTake e i s)
    else if h0.op != op then s
    else
      let s := csnTake e i s
      match rsvCheck s m.body op with
      | (_, some (o, h, d)) => let s := rsvUnit h 0 s; if h.status != 0 then rsvStatus o h.status s else f o h d s
      | (row, none) => rsvBad e row m.ctx (if row == 1 then rsvUnit h0 1 s else s)

/-- Bytes of an operation from its parts. -/
def rsvGather (got : List (Nat × Bytes)) (len : Nat) : Bytes :=
  fitB (((got.foldl (fun t p => bwrite t p.1 p.2) ([] : Tab Byte)) |> fun t => bread t 0 len)) len

/-- READ_DATA (R208): a part in any order; the operation ends once the parts cover it. -/
def execReadData (e : Fin 64) (i : Nat) (s : State) : Result :=
  .next (rsvResponse e i 2 (fun o h d s =>
    let got := (h.offset, d) :: o.got.filter (·.1 != h.offset)
    if o.w.len ≤ got.foldl (fun a p => a + p.2.length) 0 then rsvOver o 0 (rsvGather got o.w.len) s
    else modRsv o.w.agent o.slot (fun o => { o with got := got }) s) s)

/-- WRITE_ACK (R210). -/
def execWriteAck (e : Fin 64) (i : Nat) (s : State) : Result := .next (rsvResponse e i 4 (fun o _ _ s => rsvOver o 0 [] s) s)

/-- FLUSH_ACK (R210). -/
def execFlushAck (e : Fin 64) (i : Nat) (s : State) : Result := .next (rsvResponse e i 6 (fun o _ _ s => rsvOver o 0 [] s) s)

/-- QUERY_DATA (R208). -/
def execQueryData (e : Fin 64) (i : Nat) (s : State) : Result := .next (rsvResponse e i 8 (fun o _ d s => rsvOver o 0 d s) s)

/-- An operation leaves again, under a new tag where its agent has one free, and through an engine; late parts of the old tag are discarded
(R208, R211). -/
def rsvAgain (o : RsvOp) (eng : Nat) (s : State) : State :=
  let slot := (rsvSlot s o.w.agent).getD o.slot
  let o' : RsvOp := { o with slot := slot, eng := eng, at_ := s.now, reissued := true, busy := none, got := [] }
  let s := { s with rsv := { s.rsv with
    ops := (s.rsv.ops.filter fun p => !(p.w.agent == o.w.agent && p.slot == o.slot)) ++ [o'],
    aborted := if slot == o.slot then s.rsv.aborted else addN s.rsv.aborted (o.w.agent * 1024 + o.slot) } }
  countCtx bRSV 1 0 o.w.agent (some o.w.ctx) (rsvEmit o' s)

/-- The engine of a second issue: the window's alternate where alt_en is 1 (R211). -/
def againEng (o : RsvOp) : Nat := if o.window.altEn then o.window.engAlt else o.window.eng

/-- ABORT for an operation (R208). -/
def rsvAbortMsg (o : RsvOp) (s : State) : State := if o.window.typ == 3 then s else rsvOut o (rsvHdr o 9) [] s

/-- RSV_TIMEOUT (R211): timeout_us after issue the operation is aborted and issued once more, through the alternate engine
where alt_en is 1; a second timeout ends it. -/
def execRsvTimeout (agent : Fin 64) (slot : Fin 1024) (s : State) : Result :=
  .next (match rsvOp s agent slot with
    | some o =>
      if o.busy.isSome then s
      else
        let s := until_ (o.at_ + usTicks (max (regL s 0xD000 0 15 0) 10)) s
        let s := countCtx bRSV 2 0 agent (some o.w.ctx) (rsvAbortMsg o s)
        if o.reissued then
          rsvFail o 0 { s with rsv := { s.rsv with aborted := addN s.rsv.aborted (agent.val * 1024 + slot.val) } }
        else rsvAgain o (againEng o) s
    | none => s)

/-- RSV_BUSY_RETRY (R209, R211): 10 µs after a busy status. -/
def execRsvBusyRetry (agent : Fin 64) (slot : Fin 1024) (s : State) : Result :=
  .next (match rsvOp s agent slot with
    | some o => match o.busy with
      | some t =>
        rsvAgain o (againEng o) (until_ (t + usTicks 10) s)
      | none => s
    | none => s)

/-- CXL_IO_COMPLETION (R214): a completion for a host-memory window; an error status counts as status 4. -/
def execCxlIoCompletion (agent : Fin 64) (slot : Fin 1024) (ok : Bool) (data : Bytes) (s : State) : Result :=
  .next (match rsvOp s agent slot with
    | some o =>
      if o.window.typ == 3 then
        if ok then rsvOver o 0 (match o.w.act with | .read => fitB data o.w.len | _ => []) s else rsvFail o 4 s
      else s
    | none => s)

/-- CXL_IO_COMPLETION_TIMEOUT (R214): no completion in time counts as status 4. -/
def execCxlIoCompletionTimeout (agent : Fin 64) (slot : Fin 1024) (s : State) : Result :=
  .next (match rsvOp s agent slot with
    | some o => if o.window.typ == 3 then rsvFail o 4 s else s
    | none => s)

/-! ### Serving peers (R213) -/

/-- An answer to a peer on the engine and class of its request. -/
def peerAnswer (e : Nat) (m : CsnMsg) (h : RsvHdr) (data : Bytes) (s : State) : State :=
  csnSend e m.srcNode m.srcEng 0x20 m.cls m.ctx (rsvBody (if (rsvHdrOf m.body).chkW == 0 then none else some (tileProfile s)) h data) s

/-- Whether an export serves a node's access to a range. -/
def exported (s : State) (node addr len : Nat) (write : Bool) : Bool :=
  s.rsv.exps.any fun e => decide (e.2.since < s.tide.bnd) && (match e.2.closing with | some b => decide (s.tide.bnd ≤ b) | none => true) && decide (e.2.base * 2 ^ 30 ≤ addr) && decide (addr + len ≤ (e.2.base + e.2.size) * 2 ^ 30) &&
    (e.2.node == 0xFFFF || e.2.node == node) && (!write || e.2.wr)

/-- The write of a peer that a part belongs to (R208). -/
def peerWrite (s : State) (m : CsnMsg) (h : RsvHdr) : Option PeerWrite := s.rsv.peer.find? fun p => p.node == m.srcNode && p.tag == h.tag

/-- Its entry set, or gone. -/
def peerSet (m : CsnMsg) (h : RsvHdr) (w : Option PeerWrite) (s : State) : State :=
  { s with rsv := { s.rsv with peer := (s.rsv.peer.filter fun p => !(p.node == m.srcNode && p.tag == h.tag)) ++ w.toList } }

/-- Whether a part belongs to a write already aborted or answered: one at offset 0 begins anew (R208, R210). -/
def partDead (s : State) (m : CsnMsg) (h : RsvHdr) : Bool := h.op == 3 && h.offset != 0 && (peerWrite s m h).any (·.dead)

/-- R209, R210: a request is answered with a failing status, once; parts of a write still to come are then discarded. -/
def peerDeny (e : Nat) (m : CsnMsg) (h : RsvHdr) (st : Nat) (s : State) : State :=
  let ans := if h.op == 1 then 2 else if h.op == 3 then 4 else if h.op == 5 then 6 else if h.op == 7 then 8 else 0
  let s := if h.op != 3 then s
    else peerSet m h (if h.last then none else some { node := m.srcNode, tag := h.tag, ctx := h.ctx, addr := h.addr, len := h.len, next := 0, ack := h.ack, dead := true }) s
  if ans == 0 then s else peerAnswer e m { h with op := ans, last := true, ack := false, status := st, offset := 0 } [] s

/-- A peer's request: licence (R204: a Standard module answers none), its checks (R212) and exports (R213); `f` serves it. -/
def peerRequest (e i op : Nat) (f : CsnMsg → RsvHdr → Bytes → State → State) (s : State) : State :=
  match csnMsg s e i 0x20 with
  | none => s
  | some m =>
    let h0 := rsvHdrOf m.body
    if !(rsvKnown h0.op) then rsvBad e 2 m.ctx (csnTake e i s)
    else if h0.op != op then s
    else if !s.full then csnTake e i s
    else if partDead s m h0 then peerSet m h0 (if h0.last then none else peerWrite s m h0) (csnTake e i s)
    else
      match rsvStrip (if h0.chkW == 0 then none else some (tileProfile s)) m.body with
      | none => let s := rsvBad e 1 m.ctx (csnTake e i s); if 4 ≤ m.body.length then peerDeny e m h0 5 s else s
      | some (h, d) =>
        if h.len < 4 || 33280 < h.len || h.len % 4 != 0 || h.addr % 4 != 0 || h.len < h.offset + d.length || 2080 < d.length || d.length % 4 != 0 then
          peerDeny e m h 5 (rsvBad e 4 m.ctx (csnTake e i s))
        else f m h d s

/-- READ (R213): a peer's read within the exports, once it has its slot (R194); poison is a media error. `ecc`: what it finds on lines (R188). -/
def execRead (e : Fin 64) (i : Nat) (ecc : List (Nat × MemEcc)) (s : State) : Result :=
  .next (peerRequest e i 1 (fun m h _ s =>
    let t := csnTake e i s
    if !(exported s m.srcNode h.addr h.len false) then peerDeny e m h 2 t
    else if !(fastOk s h.addr h.len) then peerDeny e m h 1 t
    else unitGate .reservoir [(h.addr, h.len)] (fun s =>
      let t := ownLines (memStack h.addr) none ecc (csnTake e i s)
      if memPoisoned t h.addr h.len then peerDeny e m h 4 t
      else
        (cut2080 17 0 (memRead t h.addr h.len)).foldl (fun s p =>
          peerAnswer e m { h with op := 2, status := 0, offset := p.1, last := p.1 + p.2.length == h.len } p.2 s) t) s) s)

/-- WRITE (R213): a part of a peer's write, in offset order, accepted into the fast tier once it has its slot; the last is acknowledged where
asked. -/
def execWrite (e : Fin 64) (i : Nat) (s : State) : Result :=
  .next (peerRequest e i 3 (fun m h d s =>
    let t := csnTake e i s
    let next := if h.offset == 0 then 0 else ((peerWrite s m h).map (·.next)).getD 0
    if !(exported s m.srcNode h.addr h.len true) then peerDeny e m h 2 t
    else if !(fastOk s h.addr h.len) then peerDeny e m h 1 t
    else if guarded s h.addr h.len then peerDeny e m h 2 (guardRecord h.addr m.srcNode none t)
    else if h.offset != next then peerDeny e m h 5 t
    else if !(memRoom s .reservoir (h.addr + h.offset) d.length) then s
    else
      let t := peerSet m h (if h.last then none else
        some { node := m.srcNode, tag := h.tag, ctx := h.ctx, addr := h.addr, len := h.len, next := h.offset + d.length, ack := h.ack })
          (memWrite true (h.addr + h.offset) d t)
      if h.last && h.ack then peerAnswer e m { h with op := 4, last := true, ack := false, status := 0, offset := 0 } [] t else t) s)

/-- FLUSH (R213): answered inside the exports: every write that the stream carried before it has been accepted. -/
def execFlush (e : Fin 64) (i : Nat) (s : State) : Result :=
  .next (peerRequest e i 5 (fun m h _ s =>
    let s := csnTake e i s
    if exported s m.srcNode h.addr h.len false then peerAnswer e m { h with op := 6, last := true, status := 0, offset := 0 } [] s else peerDeny e m h 2 s) s)

/-- QUERY (R208, R213): inside the exports: the capacity of those that serve the node, the largest len, requests accepted, not persistent. -/
def execQuery (e : Fin 64) (i : Nat) (s : State) : Result :=
  .next (peerRequest e i 7 (fun m h _ s =>
    let s := csnTake e i s
    let cap := (s.rsv.exps.filter fun x => decide (x.2.since < s.tide.bnd) && (x.2.node == 0xFFFF || x.2.node == m.srcNode)).foldl (fun a x => a + x.2.size * 2 ^ 30) 0
    if exported s m.srcNode h.addr h.len false then
      peerAnswer e m { h with op := 8, last := true, status := 0, offset := 0, len := 64 }
        (natLE 8 cap ++ natLE 4 33280 ++ natLE 4 Config.queryOutstanding.toNat ++ List.replicate 48 0) s
    else peerDeny e m h 2 s) s)

/-- ABORT (R208): the operation of a peer ends; later parts for its tag are discarded. -/
def execAbort (e : Fin 64) (i : Nat) (s : State) : Result :=
  .next (peerRequest e i 9 (fun m h _ s =>
    let s := csnTake e i s
    match peerWrite s m h with
    | some w => peerSet m h (some { w with dead := true }) s
    | none => s) s)

end Sys2Proof.Machine
end

