-- ==== Sys2Proof/Machine/SlcOps.lean ====
section
/-! DEFINITION. Sluice's working: descriptors and their checks (R305, R312 to R325), what a completion frees, the start and end of
steps (R327, R328), holds, kills (R331, R332), queue pairs (R309, R335). -/
namespace Sys2Proof.Machine

/-! ### Queue pairs (R307, R309, R335) -/

/-- Change the host port. -/
def modHst (f : Hst → Hst) (s : State) : State := { s with hst := f s.hst }

/-- R340, R344: whether the module may use CXL.cache: fetch descriptors, write completions. -/
def cacheUp (s : State) : Bool := s.hst.link == .up && s.hst.cxl && !s.hst.d3

/-- Lines of host memory enter the device cache in Shared, or leave it (R345). -/
def cacheAdd (ls : List Nat) (s : State) : State := modHst (fun h => { h with cache := ls.foldl addN h.cache }) s
def cacheDel (ls : List Nat) (s : State) : State := modHst (fun h => { h with cache := h.cache.filter fun l => !(ls.contains l) }) s

/-- A queue pair stops (R335): what it has fetched and not taken is fetched again on restart. -/
def pairStop (q : Nat) (s : State) : State :=
  modPair q (fun p => { p with
    err := true, halted := true, fetching := 0, sqHead := (p.sqHead + p.sqSize - p.fetched.length) % p.sqSize, fetched := [],
    buf := p.buf ++ p.posted, posted := [] }) s

/-- Whether a pair runs: enabled and not stopped. -/
def pairUp (p : Pair) : Bool := p.en && !p.halted

/-- Occupied entries of a completion ring. -/
def cqUsed (p : Pair) : Nat := (p.cqTail + p.cqSize - p.cqHead) % p.cqSize

/-- Records in the completion buffer (R311). -/
def cbufAll (s : State) : Nat := (s.slc.pairs.map fun e => e.2.buf.length).foldl (· + ·) 0

/-- Entries a fetch takes: up to 16, with those not yet taken (R309, R345), not past the ring's end. -/
def fetchLen (p : Pair) : Nat := min (min ((p.sqTail + p.sqSize - p.sqHead) % p.sqSize) (p.sqSize - p.sqHead)) (16 - p.fetched.length)

/-- R309: Sluice fetches entries from its own head up to the tail. -/
def fetchStart (q : Nat) (s : State) : State :=
  let p := getPair s q
  let n := fetchLen p
  if !(pairUp p) || !(cacheUp s) || p.fetching != 0 || n == 0 then s
  else emit (.hostRead (p.sqBase + 64 * p.sqHead) (64 * n)) (modPair q (fun p => { p with fetching := n, retried := false, fetchAt := s.now }) s)

/-- R308, R309, R335: a pair's doorbell entry as read. -/
def doorbell (poll : Bool) (q : Nat) (e : Bytes) (s : State) : State :=
  let p := getPair s q
  let tail := leField e 0 2
  let head := leField e 2 2
  if !(pairUp p) || !(cacheUp s) then s
  else if p.sqSize ≤ tail || p.cqSize ≤ head || cqUsed p < (p.cqTail + p.cqSize - head) % p.cqSize then
    raise unitTL bSLC sDef 0x07 none q (leField e 0 8) (1 + 256 * q) (pairStop q s)
  else
    let s := if poll && tail != p.sqTail then count bSLC 20 0 q s else s
    fetchStart q (modPair q (fun p => { p with sqTail := tail, cqHead := head }) s)

/-- A line of eight pairs, held in the device cache where one of them is enabled (R308, R309). -/
def doorbellLine (poll : Bool) (j : Nat) (b : Bytes) (s : State) : State :=
  if !((List.range 8).any fun i => (getPair s (8 * j + i)).en) then s
  else
  let s := if cacheUp s then cacheAdd [s.slc.dbBase / 64 + j] s else s
  (List.range 8).foldl (fun s i => doorbell poll (8 * j + i) (sliceB b (8 * i) 8) s) s

/-! ### Descriptors (R312) -/

/-- Fields of a descriptor. -/
def dOp (d : Bytes) : Nat := leField d 0 1
def dFlags (d : Bytes) : Nat := leField d 1 1
def dCtx (d : Bytes) : Nat := leField d 2 2 % 1024
def dTag (d : Bytes) : Nat := leField d 4 4

/-- Byte offset of the first bad field. -/
def badAt : List (Bool × Nat) → Option Nat
  | [] => none
  | (b, o) :: r => if b then some o else badAt r

/-- Reserved bits [15:10] of the header. -/
def dHead (d : Bytes) : Bool × Nat := (leField d 2 2 / 1024 != 0, 2)

/-- Reserved bytes. -/
def dZero (d : Bytes) (o n : Nat) : Bool × Nat := (leNat (sliceB d o n) != 0, o)

/-- A memory-space address, 64-byte aligned (R182, R313). -/
def memAddrOk (a : Nat) : Bool := a % 64 == 0 && (fastBacked a || slowAddr a)

/-- A refusal: completion, count by status; a malformed descriptor raises an info record (R335). -/
def dRefuse (q : Nat) (d : Bytes) (head status detail : Nat) (s : State) : State :=
  let s := countCtx bSLC status 0 q (if dOp d == 3 && bitN (dFlags d) 2 then none else some (dCtx d)) s
  let s := if status == 1 then raise unitTL bSLC sInfo 0x05 none 0 (dTag d) detail s else s
  postDesc q (dTag d) (dCtx d) (dOp d) status detail 0 head s

/-- Malformed operations at the head of what a pair has fetched are refused as they are reached. -/
def dropBadOps (q : Nat) : Nat → State → State
  | 0, s => s
  | n + 1, s =>
    match (getPair s q).fetched with
    | (d, h) :: rest =>
      if dOp d == 0 || 6 < dOp d then dropBadOps q n (dRefuse q d h 1 0 (modPair q (fun p => { p with fetched := rest }) s)) else s
    | [] => s

/-- The descriptor a pair takes next, when it has this operation, with the SQ index after it. -/
def dNext (s : State) (q op : Nat) : Option (Bytes × Nat) :=
  let p := getPair s q
  match p.fetched with
  | (d, h) :: _ => if pairUp p && dOp d == op then some (d, h) else none
  | [] => none

/-- It is taken; its line leaves the device cache, and further entries may be fetched. -/
def dTake (q : Nat) (s : State) : State :=
  let p := getPair s q
  let s := match p.fetched with
    | (_, h) :: _ => cacheDel [p.sqBase / 64 + (h + p.sqSize - 1) % p.sqSize] s
    | [] => s
  fetchStart q (dropBadOps q 16 (modPair q (fun p => { p with fetched := p.fetched.drop 1 }) s))

/-- R304, R337: whether a context's ID is licensed. -/
def ctxLicensed (s : State) (c : Nat) : Bool := s.full || c < 256

/-- R305, R312, R325: what refuses a descriptor that names a context: licence, state, queue pair. -/
def ctxRefuse (s : State) (q c : Nat) (states : List CtxSt) : Option (Nat × Nat) :=
  let x := getCtx s c
  if !(ctxLicensed s c) then some (3, 0)
  else if !(states.contains x.st) || (x.st != .free && x.qp != q) then some (2, x.st.code)
  else none

/-- A descriptor is dispatched: refused by its layout, refused by its context, or accepted. -/
def dispatch (q op : Nat) (bad : Bytes → List (Bool × Nat)) (named : State → Bytes → Option (Nat × Nat)) (act : Bytes → Nat → State → State) (s : State) : State :=
  match dNext s q op with
  | none => s
  | some (d, h) =>
    let s := dTake q s
    match badAt (bad d) with
    | some o => dRefuse q d h 1 o s
    | none =>
      match named s d with
      | some (st, de) => dRefuse q d h st de s
      | none => countCtx bSLC 0 0 q (if op == 3 && bitN (dFlags d) 2 then none else some (dCtx d)) (act d h s)

/-! ### Contexts -/

/-- Privileged contexts (R306). -/
def privCount (s : State) : Nat := (s.ctxs.filter fun e => e.2.st != .free && e.2.priv).length

/-- R328: the cohort of a context: delta contexts of one base tag; a full context alone. -/
def cohortOf (c : Nat) (x : Ctx) : Nat := if x.full then 2 * c + 1 else 2 * x.job.baseTag

/-- R266: steps in a window of a context. -/
def winSteps (x : Ctx) : Nat := (x.job.reds.map (·.nsteps)).foldl max 1

/-- R266, R327: whether a step is the last of its window. -/
def lastOfWindow (x : Ctx) (n : Nat) : Bool := (n + 2 ^ 32 - x.firstStep) % winSteps x == winSteps x - 1

/-- The step to start next. -/
def nextQueued (x : Ctx) : Option Step :=
  (x.steps.filter (·.st == .queued)).foldl (fun b t => match b with | some u => if seqNewer 32 u.num t.num then some t else b | none => some t) none

/-- The next step number a STEP may name (R317). -/
def numAfter : Nat → List Step → Nat → Nat
  | 0, _, n => n
  | k + 1, l, n => if l.any (·.num == n) then numAfter k l ((n + 1) % 2 ^ 32) else n

/-- R311, R321, R327, R297, R299: whether a context's next step can start now. -/
def canStart (s : State) (c : Nat) : Bool :=
  let x := getCtx s c
  (x.st == .idle || x.st == .running) && x.roll.isNone && x.holdDue == 0 && !x.licHeld && x.kill.isNone && x.frozen.isNone && x.moving.isNone &&
  x.replan.isNone && x.cause == 0 && (getPair s x.qp).buf.isEmpty && !x.inRound &&
  !(x.steps.any fun t => t.st == .running || t.st == .reduced) &&
  match nextQueued x with
  | some t => !(x.copies.any fun k => seqEqOrNewer 32 t.num k.after) && !(x.steps.any fun u => u.st == .reading && seqNewer 32 t.num u.num)
  | none => false

/-- R328: at a boundary, since when each context could start its next step. -/
def readyMark (s : State) : State :=
  { s with ctxs := s.ctxs.map fun e => (e.1, { e.2 with readyAt := if canStart s e.1 then some (e.2.readyAt.getD s.tide.bnd) else none }) }

/-- A step leaves the context's list. -/
def dropStep (c n : Nat) (s : State) : State := modCtx c (fun x => { x with steps := x.steps.filter (·.num != n) }) s

/-- A STEP is refused after it was accepted (R318, R337): its number is the next expected again. -/
def refuseStep (c : Nat) (t : Step) (detail : Nat) (s : State) : State :=
  let q := (getCtx s c).qp
  let s := postStep c t 5 detail (countCtx bSLC 5 0 q (some c) s)
  modCtx c (fun x => { x with nextStep := if seqNewer 32 x.nextStep t.num then t.num else x.nextStep, inRound := false }) (dropStep c t.num s)

/-- The stream of a context under its update record (R241); at admission its sequence starts as the record says. -/
def setStrm (c : Nat) (u : Bytes) (fresh resync : Bool) (s : State) : State :=
  let f (o n : Nat) : Nat := leField u o n
  let set (st : Strm) : Strm := { st with
    sink := f 160 1 % 4, prof := f 161 1 % 16, chkEn := bitN (f 161 1) 4, keyInt := f 162 2, sinkAddr := f 168 8, sinkBytes := f 176 8, bufBytes := f 192 4 * 2 ^ 20,
    resync := st.resync || resync }
  let s := if fresh then { s with edy := { s.edy with streams := tset s.edy.streams c { seq := f 196 4 + 2 ^ 32 * f 200 2 } } } else s
  let s := unitFree (fun b => b.ctx == c && b.job == some 0) s
  let s := if f 160 1 % 4 != 0 && bitN (f 161 1) 4 then
      unitBind (memStack (f 184 8)) { ctx := c, prof := f 161 1 % 16, append := true, run := chkInit (profileOf s (f 161 1 % 16)), done := 0, job := some 0 } s
    else s
  { modStrm c set s with edy := { (modStrm c set s).edy with upd := tset s.edy.upd c u } }

/-- An update record as read (R225). -/
def updRead (s : State) (a : Nat) : Bytes := memRead s a updBytes

/-- R327.1: a step starts: records flagged changed are re-read and refuse it where they break their limits. -/
def startStep (c : Nat) (s : State) : State :=
  let x := getCtx s c
  match nextQueued x with
  | none => s
  | some t =>
    let slow := t.numChanged && slowAddr x.numAddr
    let bad := slow && slowFailed s bSLC c x.numAddr 64
    let num := if bad then none else if t.numChanged then numRecOf (memRead s x.numAddr 64) else some x.num
    -- a changed record in the slow tier is read through its window before the step starts
    if slow && !bad && !(slowBack s bSLC c x.numAddr 64) then slowAsk bSLC c c x.numAddr 64 s
    else
    let s := if slow then slowTake bSLC c x.numAddr 64 s else s
    match num with
    | none => refuseStep c t 1 s
    | some n =>
      let u := updRead s x.updAddr
      if t.updChanged && !(updOk s u) then refuseStep c t 2 s
      else
        let s := if t.updChanged then setStrm c u false t.resync s else if t.resync then modStrm c (fun st => { st with resync := true }) s else s
        modCtx c (fun x => { x with
          st := .running, num := n, inRound := true, readyAt := none,
          steps := x.steps.map fun k => if k.num == t.num then { k with st := .running, holdover := inHoldover s, startSlot := slotNow s } else k }) s

/-- R133, R331, R337: a hold that is due takes effect where no step runs. -/
def applyHold (c : Nat) (s : State) : State :=
  let x := getCtx s c
  let lic := !(ctxLicensed s c)
  if x.steps.any (fun t => t.st == .running || t.st == .reduced || t.st == .sweeping) || (x.holdDue == 0 && !lic) || !(x.st == .idle || x.st == .running) then s
  else
    let s := if x.holdDue % 16 == 0 then s else raise unitTL bSLC sDef 0x09 (some c) x.lastDone 0 (4 + 256 * (x.holdDue % 16)) s
    countCtx bSLC 17 0 x.qp (some c) (modCtx c (fun x => { x with st := .held, holdDue := 0, licHeld := x.licHeld || lic }) s)

/-- A context with no step in progress is IDLE (R305). -/
def settle (c : Nat) (s : State) : State :=
  let s := applyHold c s
  modCtx c (fun x =>
    if x.st == .running && !(x.steps.any fun t => t.st == .running || t.st == .reduced || t.st == .sweeping) then { x with st := .idle } else x) s

/-- The hold bit for a STEP's own hold flag: it holds, and has no cause in R495. -/
def holdFlag : Nat := 32

/-! ### Rollback, release, kill (R321, R330, R332) -/

/-- The cells on which a context owns slots or runs a program. -/
def ctxCells (s : State) (c : Nat) : List Nat :=
  (s.cells.filter fun e => e.2.tags.any (fun t => t.2.owner == c) || progCtx e.2 == some c || e.2.sel.any (fun k => k.2.1 == c)).map (·.1)

/-- A context's programs stop, its selections and contributions go. -/
def quitCells (c : Nat) (s : State) : State :=
  (ctxCells s c).foldl (fun s l =>
    let s := if progCtx (getCell s l) == some c then modCell l (fun x => { x with prog := none, threads := x.threads.map fun e => (e.1, { e.2 with st := .idle }) }) (abandon l s) else s
    modCell l (fun x => { x with ops := x.ops.filter (·.ctx != c), sel := x.sel.filter (·.2.1 != c), contrib := x.contrib.filter (·.ctx != c) }) s) s

/-- R330: a context returns to its last completed window. Where an image may no longer be loaded (R86), it is held (DESIGN CHOICE, log 183). -/
def rollback (c : Nat) (hold : Bool) (s : State) : State :=
  let x := getCtx s c
  let s := frsDropCtx c (windowsEnd c s)
  let hold := hold || !(imagesOk s x x.plan)
  let s := quitCells c s
  let s := match x.moving with | some ps => (ps.map (·.2)).foldl (fun s l => if (planAll x.plan).contains l then s else cellLeave l c s) s | none => s
  let s := loadAll c x.plan s
  let s := { s with edy := { s.edy with engs := s.edy.engs.map fun e => (e.1, { e.2 with sweeps := e.2.sweeps.filter (·.ctx != c) }) } }
  countCtx bSLC 16 0 x.qp (some c) (modCtx c (fun x => { x with
    roll := none, dec := none, attempt := 0, inRound := false, frozen := none, moving := none, readyAt := none,
    st := if x.st == .running || x.st == .idle then (if hold then .held else .idle) else x.st,
    steps := x.steps.map fun t => match t.st with
      | .reading => t
      | .queued => t
      | _ => { t with st := .queued, rerun := true, attempts := t.attempts + 1 } }) s)

/-- The tier areas of a context that a KILL with zero_tiers overwrites (R322). -/
def tierAreas (s : State) (c : Nat) : List (Nat × Nat) :=
  let x := getCtx s c
  let blocks := ((shardsOf s c).map fun h => h.r.gblock0 + (h.r.elements + 31) / 32).foldl max 0
  ((shardsOf s c).flatMap fun h =>
    ((List.range (h.r.nstate + 1)).map fun q => (qAddr h.r q, 2080 * qTiles h.r q)) ++
    (if h.r.owner then [(h.r.gAddr, 2112 * ((h.r.elements + 511) / 512))] else []) ++
    [(h.r.fpAddr, 64 + 8 * ((List.range (h.r.nstate + 1)).foldl (fun a q => a + qTiles h.r q) 0))]) ++
  [(x.num.scaleTable, 2 * (blocks + 1)), (leField (tget s.edy.upd c []) 184 8, (strmOf s c).bufBytes), (x.save, 4096)]

/-- Zeros over a tier area: the fast tier by the internal class, the slow tier by writes of its window's agent. -/
def zeroArea (c : Nat) (a n : Nat) (s : State) : State :=
  if n == 0 then s
  else if slowAddr a then
    (slowParts a n).foldl (fun s p =>
      if (winAt s p.1 p.2).isNone then s
      else rsvAsk { agent := winAgent s p.1 p.2, by_ := .unit bSLC (c + 1024) p.1, ctx := c + 1024, addr := p.1, len := p.2, act := .write (List.replicate p.2 0), ack := true } s) s
  else if fastBacked a then memZero a n s else s

/-- R278, R301, R332: what ends at the kill boundary beside the cells. -/
def killRest (c : Nat) (k : Kill) (s : State) : State :=
  let x := getCtx s c
  let s := ((x.steps.foldl (fun (l : List Step) t => l.filter (fun u => seqNewer 32 t.num u.num) ++ [t] ++ l.filter (fun u => !(seqNewer 32 t.num u.num))) []).foldl (fun s t => postStep c t 7 0 s) s)
  let s := x.copies.foldl (fun s y => postDesc y.qp y.tag c 3 7 0 0 y.sqHead s) s
  let step := match x.dec with | some d => some d.step | none => none
  let s := match step with
    | some n => if (sweepsOf s c).isEmpty then s else
        let s := { s with edy := { s.edy with engs := s.edy.engs.map fun e => (e.1, { e.2 with sweeps := e.2.sweeps.filter (·.ctx != c) }) } }
        strmStepEnd c n 3 0 s
    | none => s
  let s := frsDropCtx c (frsHold c (windowsEnd c s))
  let s := (s.rsv.ops.filter (·.w.ctx == c)).foldl (fun s o => rsvAbortMsg o s) s
  let s := memDropCtx c s
  -- R156: check-value units and their save records
  let s := modChk (fun k => { k with bound := k.bound.filter (·.2.ctx != c), held := k.held.filter fun e => !(decide (x.save ≤ e.1) && decide (e.1 < x.save + 4096)) }) s
  let s := memZero x.save 4096 s
  let s := if k.zero then (tierAreas s c).foldl (fun s a => zeroArea c a.1 a.2 s) s else s
  { modCtx c (fun x => { x with steps := [], copies := [], dec := none, roll := none, holdDue := 0, replan := none, cause := 0, frozen := none, moving := none }) s with
    edy := { s.edy with shards := tdel s.edy.shards c, audits := s.edy.audits.filter (·.ctx != c) },
    wsh := { s.wsh with reskews := s.wsh.reskews.filter (·.ctx != c), freezes := s.wsh.freezes.map fun f => { f with ctxs := delN f.ctxs c } } }

/-- A KILL is accepted, or an FLR kills (R332, R344): the boundary lies at least 2 µs ahead. -/
def killStart (c : Nat) (k : Kill) (s : State) : State :=
  let slot := if s.now + usTicks 2 ≤ s.tide.slotAt + s.tide.len then slotNow s + 1 else slotNow s + 2
  let s := countCtx bSLC 18 0 k.qp (some c) s
  csnKill c (rillSend unitTL rillCells 1 0x32 [c, slot] (modCtx c (fun x => { x with st := .killing, kill := some { k with slot := slot } }) s))

/-- Regions, reaches or dies lost under a context: it rolls back and is placed anew (R296 rows 3 and 5, R331). -/
def ctxLost (c bits : Nat) (s : State) : State := rollNoHold c (modCtx c (fun x => if ctxLive x then { x with cause := x.cause ||| bits } else x) s)

end Sys2Proof.Machine
end

