-- ==== Sys2Proof/Machine/OwnOps.lean ====
section
/-! DEFINITION. Ownership (R353 to R358): elections, leases, tokens, announcements, the limits of R359 and R456; MGMT messages (R377). -/
namespace Sys2Proof.Machine

/-- Change ownership. -/
def modOwn (f : Own → Own) (s : State) : State := { s with own := f s.own }

/-- R353: whether a master owns the module now; a lease whose end has come has expired (R356). -/
def isOwner (s : State) (m : Master) : Bool := s.own.owner == some m && decide (s.now < s.own.leaseEnd)

/-- The owner's ID; 0: none. -/
def ownerId (s : State) : Nat := match s.own.owner with | some m => m.id | none => 0

/-- Milliseconds left of the lease, rounded up. -/
def leaseMs (s : State) : Nat := if s.own.owner.isSome then (s.own.leaseEnd - s.now + 149999) / 150000 else 0

/-- The response of R354. -/
def ownRsp (s : State) (status : Nat) : Bytes :=
  natLE 1 status ++ natLE 1 (ownerId s) ++ natLE 2 0 ++ natLE 4 (leaseMs s) ++ natLE 4 s.own.gen ++ natLE 4 0

/-- A MGMT body (R377). -/
def mgmtBody (op tag : Nat) (data : Bytes) : Bytes := natLE 2 op ++ natLE 2 data.length ++ natLE 4 tag ++ data

/-- An answer goes back on a request's own path. -/
def ownAnswer (m : Master) (path : Option (Nat × Nat × Nat × Nat)) (status : Nat) (s : State) : State :=
  let b := ownRsp s status
  let s := if status == 0 || status == 1 then s else count bHST 7 0 m.id s
  match m, path with
  | .host, _ => modOwn (fun o => { o with hostStatus := status }) (emit (.ownAnswer m b) s)
  | _, some (e, node, dst, tag) => csnCtl e node dst 0x08 (mgmtBody 2 tag b) (emit (.ownAnswer m b) s)
  | _, none => emit (.ownAnswer m b) s

/-- R358: an ownership event is announced to all three masters, with an info record: 0 grant, 1 handover, 2 release, 3 expiry. -/
def ownAnnounce (event : Nat) (s : State) : State :=
  let b := natLE 1 (ownerId s) ++ natLE 3 0 ++ natLE 4 s.own.gen ++ natLE 1 event
  let s := modOwn (fun o => { o with changed := true }) s
  let s := emit (.mctp 0x11 b) (emit (.msix 65) s)
  let s := csnFleet 3 0 b s
  raise unitTL bHST sInfo 0x0F none event (ownerId s + s.own.gen * 2 ^ 8) 0 s

/-- A lease of 10,000 ms from now (R355 to R357). -/
def leaseStart (s : State) : State := modOwn (fun o => { o with leaseEnd := s.now + msTicks 10000 }) s

/-- R356: the lease has ended: no owner. -/
def ownExpire (s : State) : State :=
  if s.own.owner.isSome && s.own.leaseEnd ≤ s.now then ownAnnounce 3 (modOwn (fun o => { o with owner := none, token := 0 }) s) else s

/-- R355: the better of two claims: the higher priority, then the higher master ID. -/
def claimBest (a b : Claim) : Claim := if a.pri < b.pri || (a.pri == b.pri && a.m.id < b.m.id) then b else a

/-- R355: the election window closes: the best claim wins. -/
def electionEnd (s : State) : State :=
  match s.own.windowEnd, s.own.claims with
  | some _, c :: cs =>
    let w := cs.foldl claimBest c
    let s := modOwn (fun o => { o with windowEnd := none, claims := [], owner := some w.m, token := w.token, gen := (o.gen + 1) % 2 ^ 32 }) s
    let s := leaseStart s
    let s := (c :: cs).foldl (fun s k => ownAnswer k.m k.path (if k.m == w.m then 0 else 5) s) s
    ownAnnounce 0 s
  | some _, [] => modOwn (fun o => { o with windowEnd := none }) s
  | none, _ => s

/-- Timers that have run out before a request is handled (R356). -/
def ownClock (s : State) : State :=
  let s := match s.own.windowEnd with | some t => if t ≤ s.now then electionEnd s else s | none => s
  ownExpire s

/-- R359, R456: a request of a master is counted; whether the sliding second already held 64. Key 1 to 3 by master. -/
def rateHit (k : Nat) (s : State) : State × Bool :=
  let l := (tget s.own.recent k []).filter fun t => decide (s.now < t + msTicks 1000)
  (modOwn (fun o => { o with recent := tset o.recent k (l ++ [s.now]) }) s, decide (64 ≤ l.length))

/-- R359: a malformed request: status 4 and an info record. -/
def ownMalformed (m : Master) (path : Option (Nat × Nat × Nat × Nat)) (body : Bytes) (s : State) : State :=
  ownAnswer m path 4 (raise unitTL bHST sInfo 0x07 none m.id (leField body 0 8) 0 s)

/-- R354, R359: the layout of a request that arrived on a master's path. -/
def ownLayoutOk (m : Master) (body : Bytes) : Bool :=
  let op := leField body 0 1
  body.length == 16 && decide (1 ≤ op) && decide (op ≤ 5) && leField body 1 1 == m.id && (op != 3 || (decide (1 ≤ leField body 3 1) && decide (leField body 3 1 ≤ 3))) &&
  leField body 12 4 == 0 && (decide (op ≤ 2) || leField body 8 4 == 0)

/-- A master by ID. -/
def masterOf (n : Nat) : Master := match n with | 1 => .host | 2 => .bmc | _ => .fleet

/-- R355 to R357: a request within its layout. -/
def ownAct (m : Master) (path : Option (Nat × Nat × Nat × Nat)) (body : Bytes) (s : State) : State :=
  let op := leField body 0 1
  let tok := leField body 4 4
  let ntok := leField body 8 4
  let mine := s.own.owner == some m
  if op == 5 then ownAnswer m path 0 s
  else if op == 1 && !mine then
    if ntok != 0 then ownMalformed m path body s
    else if s.own.owner.isSome then ownAnswer m path 2 s
    else
      let s := modOwn (fun o => { o with
        windowEnd := match o.windowEnd with | some t => some t | none => some (s.now + msTicks 100),
        claims := o.claims.filter (·.m != m) ++ [{ m := m, pri := leField body 2 1, token := tok, path := path }] }) s
      ownAnswer m path 1 s
  else if !mine then ownAnswer m path 2 s
  else if tok != s.own.token then ownAnswer m path 3 s
  else if op == 1 || op == 2 then
    ownAnswer m path 0 (modOwn (fun o => { o with token := if ntok == 0 then o.token else ntok }) (leaseStart s))
  else if op == 3 then
    let s := leaseStart (modOwn (fun o => { o with owner := some (masterOf (leField body 3 1)), gen := (o.gen + 1) % 2 ^ 32 }) s)
    ownAnnounce 1 (ownAnswer m path 0 s)
  else ownAnnounce 2 (ownAnswer m path 0 (modOwn (fun o => { o with owner := none, token := 0 }) s))

/-- A request received on a master's path (R356, R359). -/
def ownRequest (m : Master) (path : Option (Nat × Nat × Nat × Nat)) (body : Bytes) (s : State) : State :=
  let s := ownClock s
  match rateHit m.id s with
  | (s, true) => ownAnswer m path 2 s
  | (s, false) => if ownLayoutOk m body then ownAct m path body s else ownMalformed m path body s

/-- A MGMT message of an engine's inbox: the message, op, tag, data (R377); it waits while the link layer's image is replaced (R413). -/
def mgmtMsg (s : State) (e i : Nat) : Option (CsnMsg × Nat × Nat × Bytes) :=
  (if updating s 7 then none else csnMsg s e i 0x08).map fun m => (m, leField m.body 0 2, leField m.body 4 4, (m.body.drop 8).take (leField m.body 2 2))

/-- R377: whether the sender may manage the module. -/
def mgmtAllowed (s : State) (m : CsnMsg) : Bool := fleetNode s != 0 && m.srcNode == fleetNode s

/-- The body that HST_OWN_REQ submits (R354, R361). -/
def hostBody (s : State) (op pri target : Nat) : Bytes :=
  natLE 1 op ++ natLE 1 1 ++ natLE 1 pri ++ natLE 1 target ++ natLE 4 (regLive s 0xF018 0) ++ natLE 4 (regLive s 0xF028 0) ++ natLE 4 0

/-- An ownership command with a given op; `any`: it also takes requests whose op is none of the five. Requests
wait while the runtime's image is replaced (R413). -/
def ownCommand (op : Nat) (any : Bool) (x : OwnIn) (s : State) : State :=
  if updating s 1 then s
  else
  let fits (b : Bytes) : Bool := leField b 0 1 == op || (any && !(decide (1 ≤ leField b 0 1) && decide (leField b 0 1 ≤ 5)))
  match x with
  | .host pri target => if s.hst.link == .up then ownRequest .host none (hostBody s op pri.toNat target.toNat) s else s
  | .mctp body => if fits body then ownRequest .bmc none body s else s
  | .csn e i =>
    match mgmtMsg s e i with
    | some (m, 1, tag, data) =>
      if !(fits data) then s
      else
        let path := some (e.val, m.srcNode, m.srcEng, tag)
        let s := csnTake e i s
        if mgmtAllowed s m then ownRequest .fleet path data s
        else csnCtl e m.srcNode m.srcEng 0x08 (mgmtBody 2 tag (ownRsp s 2)) s
    | _ => s

end Sys2Proof.Machine
end

