-- ==== Sys2Proof/Machine/Watershed.lean ====
section
/-! DEFINITION. Meanings: re-planning, moves, notices, freezes, re-skews (R295 to R301). -/
namespace Sys2Proof.Machine

/-- Change Watershed. -/
def modWsh (f : Wsh → Wsh) (s : State) : State := { s with wsh := f s.wsh }

/-- Contexts with a rectangle on a site's die, in either placement. -/
def ctxsOn (s : State) (site : Nat) : List Nat :=
  (s.ctxs.filter fun e => e.2.st != .free && (e.2.plan.rects.any (·.any fun r => dieSite s r.die == site))).map (·.1)

/-- R298: whether a die holds a context's slots; slots in SCRUB have been left. -/
def dieHeld (s : State) (site : Nat) : Bool :=
  slicedDie s site || s.cells.any fun e => dieSite s (logDie80 e.1) == site && e.2.tags.any fun t => t.2.owner < 1024 && t.2.st != .scrub

/-- A die leaves with the next commit (R31, R63). -/
def dieLeave (site : Nat) (why : OutWhy) (s : State) : State :=
  modNet (fun n => { n with toLeave := n.toLeave.filter (·.1 != site) ++ [(site, why)], routesDue := true }) s

/-- R298: a die under notice that holds no context's slots is reported clear, and its route commit is due. -/
def dieClear (s : State) : State :=
  s.wsh.notices.foldl (fun s n =>
    if n.clear.isSome || dieHeld s n.site then s
    else
      let s := modWsh (fun w => { w with notices := w.notices.map fun m => if m.site == n.site then { m with clear := some (slotNow s) } else m }) s
      rillSend unitTR rillBlocks 2 0x33 [n.site, slotNow s] (dieLeave n.site n.why s)) s

/-- R295: a placement keeps every group that still meets the rules. -/
def keepsGroups (s : State) (x : Ctx) (p : Plan) : Bool :=
  (List.range x.job.groups.length).all fun i =>
    match x.job.groups[i]? with
    | some g => !(groupOk s g (x.plan.rects.getD i [])) || p.rects.getD i [] == x.plan.rects.getD i []
    | none => true

/-- The step that a report version governs first. -/
def nextGoverned (x : Ctx) : Nat := match nextQueued x with | some t => t.num | none => x.nextStep

/-- REPLAN (R292, R295, R296, R301): Watershed answers the triggers of a context with a placement, reported before it takes effect, or
finds none: the context is held. -/
def execReplan (ctx : Fin 1024) (a : Admission) (s : State) : Result :=
  let c := ctx.val
  .next (
    let x := getCtx s c
    if updating s 4 || !(ctxLive x) || x.cause == 0 || x.roll.isSome || x.replan.isSome || x.moving.isSome then s
    else match a with
      | .place p =>
        if replanOk s c p && choiceOk s c x.job p (movedGroups x p) && keepsGroups s x p then
          let s := p.writes.foldl (fun s w => memWrite true w.1 w.2 s) s
          countCtx bWSH 0 0 unitTR (some c) (modCtx c (fun x => { x with replan := some p }) (writeReport c p (nextGoverned x) x.cause s))
        else s
      | .refuse code _ =>
        let s := raise unitTR bWSH sDef 0x0A (some c) (nextGoverned x) 0 code s
        let s := modCtx c (fun x => { x with cause := 0 }) s
        if (stepInProgress x).isSome then stepFail c 7 code s else settle c (holdDue c 16 s))

/-- Cells left and cells reached by a new placement, group by group in ordinal order. -/
def movePairs (x : Ctx) (p : Plan) : List (Nat × Nat) :=
  (List.range p.rects.length).flatMap fun i =>
    let old := planCells (x.plan.rects.getD i [])
    let new := planCells (p.rects.getD i [])
    if x.plan.rects.getD i [] == p.rects.getD i [] then [] else (old.zip new).filter fun e => e.1 != e.2

/-- MOVE (R297, R301): at a step boundary the new cells are scrubbed for the context and the copy begins; a target die under notice
since sends the move back to be computed again. -/
def execMove (ctx : Fin 1024) (s : State) : Result :=
  let c := ctx.val
  .next (
    let x := getCtx s c
    match x.replan with
    | none => s
    | some p =>
      if !(ctxLive x) || x.roll.isSome || x.moving.isSome || x.frozen.isSome || (stepInProgress x).isSome then s
      else if !(replanOk s c p) then modCtx c (fun x => { x with replan := none }) s
      else
        let ps := movePairs x p
        let s := (ps.map (·.2)).foldl (fun s l => if (ps.map (·.1)).contains l then s else cellScrub l c s) s
        modCtx c (fun x => { x with moving := some ps }) s)

/-- The FULL and RESIDENT slots of a context on a cell, with data, tag words and trailers, as another cell receives them (R297). -/
def copySlots (c : Nat) (old : Cell) (new : Cell) : Cell :=
  let ks := (old.tags.filter fun t => t.2.owner == c && (t.2.st == .full || t.2.st == .resident)).map (·.1)
  let y := ks.foldl (fun y k => setTag k (tagOf old k) { y with mem := bwrite y.mem (256 * k) (bread old.mem (256 * k) 256) }) new
  (ks.map (· / 8)).eraseDups.foldl (fun y sp => { y with
    trailers := match tget? old.trailers sp with | some t => if (tagOf old (8 * sp)).tile then tset y.trailers sp t else y.trailers | none => y.trailers,
    flags := match tget? old.flags sp with | some f => tset y.flags sp f | none => y.flags }) y

/-- The program table of a cell, and the RESIDENT load entries that hold a patched word, written anew (R297 step 4). -/
def patchCell (c i : Nat) (p : Plan) (ord l : Nat) (s : State) : State :=
  let x := getCtx s c
  let b := patched s x p i
  let m := imageOf b
  let r := m.roles.getD (m.map.getD ord 0) []
  let gang := ((x.job.groups[i]?).map (·.gang)).getD false
  let sm := groupSm (p.rects.getD i [])
  let table := roleTable c gang sm r
  let hit (e : Bytes) : Bool := x.job.relocs.any fun q => q.group == i && decide (leField e 4 4 ≤ q.offset) && decide (q.offset < leField e 4 4 + 256 * leField e 1 1)
  modCell l (fun y =>
    let y := { y with mem := bwrite y.mem 0xFF00 table }
    ((roleLoads m r).filter fun e => leField e 2 1 == 0 && hit e).foldl (fun y e =>
      { y with mem := bwrite y.mem (256 * leField e 0 1) (sliceB b (leField e 4 4) (256 * leField e 1 1)) }) y) s

/-- Every cell of a context's placement is patched. -/
def patchAll (c : Nat) (p : Plan) (s : State) : State :=
  (List.range p.rects.length).foldl (fun s i =>
    let cs := planCells (p.rects.getD i [])
    (List.range cs.length).foldl (fun s j => if cellUsable s (cs.getD j 0) then patchCell c i p j (cs.getD j 0) s else s) s) s

/-- The new cells of a move whose old cells are gone are loaded as at admission. -/
def freshCells (s : State) (ps : List (Nat × Nat)) : List Nat := (ps.filter fun e => !(cellUsable s e.1)).map (·.2)

/-- A number under an old-to-new map. -/
def remap (m : List (Nat × Nat)) (l : Nat) : Nat := match m.find? (·.1 == l) with | some e => e.2 | none => l

/-- Freshet's rings, deliveries and what is in flight follow the old-to-new map (R299). -/
def remapAll (m : List (Nat × Nat)) (old new : List Rect) (s : State) : State :=
  let rmap (g : Grp) : Grp :=
    match (old.zip new).find? fun e => e.1.die == g.die && decide (e.1.row0 ≤ g.row0) && decide (g.row1 ≤ e.1.row1) && decide (e.1.col0 ≤ g.col0) && decide (g.col1 ≤ e.1.col1) with
    | some (a, b) => { g with die := b.die, row0 := g.row0 - a.row0 + b.row0, row1 := g.row1 - a.row0 + b.row0, col0 := g.col0 - a.col0 + b.col0, col1 := g.col1 - a.col0 + b.col0 }
    | none => g
  let dels (d : Del) : Del := { d with waiting := d.waiting.map (remap m), stale := d.stale.map (remap m), only := d.only.map (remap m), rf := d.rf.map fun r => (remap m r.1, r.2) }
  { s with
    frs := s.frs.map fun e => (e.1, { e.2 with
      passes := e.2.passes.map fun p => { p with grps := p.grps.map rmap }, past := e.2.past.map fun p => { p with grps := p.grps.map rmap }, dels := e.2.dels.map dels }),
    fly := s.fly.map fun e => (e.1, match e.2 with
      | .fill f cs => .fill { f with cell := remap m f.cell } (cs.map (remap m))
      | .readReq a op d ad n c b => .readReq (remap m a) op (remap m d) ad n c b
      | .refuse a op => .refuse (remap m a) op
      | .ldxData a op v => .ldxData (remap m a) op v
      | .sendReq a op b => .sendReq (remap m a) op b
      | .refetchReq l sp i d => .refetchReq (remap m l) sp i d
      | x => x) }

/-- MOVE_COPY_DONE (R297, R298): the copy ends: old cells are scrubbed, patched images loaded, the new placement is in force; a die that
this clears is reported. -/
def execMoveCopyDone (ctx : Fin 1024) (s : State) : Result :=
  let c := ctx.val
  .next (
    let x := getCtx s c
    match x.moving, x.replan with
    | some ps, some p =>
      if ps.any (fun e => sliced s e.1 || sliced s e.2) then s
      else
      let olds := ps.map fun e => (e.1, getCell s e.1)
      let s := ps.foldl (fun s e =>
        if cellUsable s e.1 then modCell e.2 (fun y => copySlots c (match olds.find? (·.1 == e.1) with | some o => o.2 | none => {}) { y with tags := (List.range 255).map fun k => (k, { owner := c }) }) s
        else s) s
      let s := (ps.map (·.1)).foldl (fun s l => if (planAll p).contains l || !(cellUsable s l) then s else cellLeave l c s) s
      let fresh := freshCells s ps
      let s := (List.range p.rects.length).foldl (fun s i => loadGroup c i p (some fresh) s) s
      let s := patchAll c p s
      -- R180: the group tables and what is under way follow the move
      let s := remapAll ps (x.plan.rects.flatMap id) (p.rects.flatMap id) s
      let s := modCtx c (fun x => { x with plan := p, replan := none, moving := none, cause := 0 }) s
      dieClear (countCtx bWSH 1 0 unitTR (some c) s)
    | _, _ => s)

/-- SWITCHOFF_NOTICE (R298, R301): Watershed takes Levee's oldest notice: the die is shut to new placements, its contexts are to move. -/
def execSwitchoffNotice (s : State) : Result :=
  .next (match s.wsh.asked with
    | [] => s
    | n :: rest =>
      let s := modWsh (fun w => { w with asked := rest, notices := w.notices.filter (·.site != n.site) ++ [{ n with bnd := s.tide.bnd }] }) s
      let s := (ctxsOn s n.site).foldl (fun s c => modCtx c (fun x => { x with cause := x.cause ||| 2 }) s) s
      let s := { s with ctxs := s.ctxs.map fun e => (e.1,
        if e.2.moving.isNone && (match e.2.replan with | some p => p.rects.any (·.any fun r => dieSite s r.die == n.site) | none => false) then { e.2 with replan := none, cause := e.2.cause ||| 2 } else e.2) }
      dieClear s)

/-- R299, R301: a die's contexts freeze from the next boundary; a third emergency in a reach rolls them back. -/
def freezeStart (site : Nat) (s : State) : State :=
  let cs := ctxsOn s site ++ (s.ctxs.filter fun e => e.2.moving.isSome && (match e.2.replan with | some p => p.rects.any (·.any fun r => dieSite s r.die == site) | none => false)).map (·.1)
  let cs := cs.eraseDups.filter fun c => ctxLive (getCtx s c)
  let r := siteReach site
  let s := cs.foldl (fun s c =>
    let x := getCtx s c
    let s := match x.moving with | some ps => (ps.map (·.2)).foldl (fun s l => if (planAll x.plan).contains l then s else cellLeave l c s) s | none => s
    modCtx c (fun x => { x with moving := none, replan := none, cause := x.cause ||| 4 }) s) s
  if 2 ≤ tget s.wsh.drains r 0 then
    dieLeave site .heat (cs.foldl (fun s c => countCtx bWSH 4 0 unitTR (some c) (rollNoHold c s)) s)
  else
    let s := cs.foldl (fun s c => countCtx bWSH 2 0 unitTR (some c) (modCtx c (fun x => { x with frozen := some (s.tide.bnd + 1) }) s)) s
    modWsh (fun w => { w with drains := tmod w.drains r 0 (· + 1), freezes := w.freezes.filter (·.site != site) ++ [{ site := site, f := s.tide.bnd + 1, ctxs := cs }] }) s

/-- MIGRATE_LIMIT (R298): a die not clear migrate_limit_slots after its notice is frozen. -/
def execMigrateLimit (site : Fin 88) (s : State) : Result :=
  .next (match s.wsh.notices.find? (·.site == site.val) with
    | some n =>
      let lim := if regL s 0x7000 0 15 8 == 0 then 255 else regL s 0x7000 0 15 8
      if n.clear.isSome || s.wsh.freezes.any (·.site == site.val) || s.tide.bnd < n.bnd + lim then s else freezeStart site s
    | none => s)

/-- FREEZE (R299): Watershed takes Levee's oldest thermal emergency. -/
def execFreeze (s : State) : Result :=
  .next (match s.wsh.emerg with
    | [] => s
    | t :: rest =>
      if slicedDie s t then
        { s with bst := { s.bst with slices := s.bst.slices.map fun x => if dieSite s (logDie80 x.head) == t && x.st != .restored then { x with st := .restore } else x } }
      else
        let s := modWsh (fun w => { w with emerg := rest }) s
        if s.wsh.freezes.any (·.site == t) then s else freezeStart t s)

/-- Whether a context runs a slot program on any cell. -/
def ctxRuns (s : State) (c : Nat) : Bool := s.cells.any fun e => progCtx e.2 == some c

/-- FREEZE_STOP (R299): at boundary f + 2 a program still running is stopped and its context rolls back. -/
def execFreezeStop (site : Fin 88) (s : State) : Result :=
  .next (match s.wsh.freezes.find? (·.site == site.val) with
    | some z =>
      if s.tide.bnd < z.f + 2 then s
      else
        let late := z.ctxs.filter (ctxRuns s)
        let s := late.foldl (fun s c => countCtx bWSH 4 0 unitTR (some c) (rollNoHold c (modCtx c (fun x => { x with frozen := none }) (quitCells c s)))) s
        modWsh (fun w => { w with freezes := w.freezes.map fun y => if y.site == site.val then { y with ctxs := y.ctxs.filter fun c => !(late.contains c) } else y }) s
    | none => s)

/-- R299: a new placement of a frozen context: the rectangles on the die take identical shapes elsewhere, the others stay. -/
def sameShape (s : State) (site : Nat) (old new : List (List Rect)) : Bool :=
  old.length == new.length && (old.zip new).all fun e => e.1.length == e.2.length && (e.1.zip e.2).all fun r =>
    if dieSite s r.1.die == site then r.1.row1 - r.1.row0 == r.2.row1 - r.2.row0 && r.1.col1 - r.1.col0 == r.2.col1 - r.2.col0 else r.1 == r.2

/-- A cell's slots move whole, but for those in SCRUB, unassigned or the module's (R299). -/
def drainCell (old : Cell) : Cell :=
  { old with
    tags := old.tags.filter fun t => t.2.st != .scrub && t.2.owner != ownerModule && t.2.owner != ownerNone,
    scrubs := [], prog := none, threads := [], streams := [], aouts := [], sel := [] }

/-- One frozen context is restored on its new rectangles, or rolls back (R299). -/
def drainCtx (site : Nat) (plans : List (Fin 1024 × Plan)) (c : Nat) (s : State) : State :=
  let x := getCtx s c
  match plans.find? (·.1.val == c) with
  | some (_, p) =>
    if replanOk s c p && sameShape s site x.plan.rects p.rects then
      let s := p.writes.foldl (fun s w => memWrite true w.1 w.2 s) s
      let ps := movePairs x p
      let olds := ps.map fun e => (e.2, drainCell (getCell s e.1))
      let s := (ps.map (·.1)).foldl (fun s l => modCell l (fun _ => {}) s) s
      let s := olds.foldl (fun s e => modCell e.1 (fun _ => e.2) s) s
      let s := remapAll ps (x.plan.rects.flatMap id) (p.rects.flatMap id) s
      let s := writeReport c p (nextGoverned x) x.cause s
      let s := patchAll c p s
      countCtx bWSH 3 0 unitTR (some c) (modCtx c (fun x => { x with plan := p, frozen := none, cause := 0 }) s)
    else countCtx bWSH 4 0 unitTR (some c) (rollNoHold c (modCtx c (fun x => { x with frozen := none }) s))
  | none => countCtx bWSH 4 0 unitTR (some c) (rollNoHold c (modCtx c (fun x => { x with frozen := none }) s))

/-- DRAIN_DONE (R299): past boundary f, once the die's programs have finished and its DMAs are idle, its slots are drained and its
contexts restored on rectangles of identical shape, where Watershed has found some; the die leaves service. -/
def execDrainDone (site : Fin 88) (plans : List (Fin 1024 × Plan)) (s : State) : Result :=
  .next (match s.wsh.freezes.find? (·.site == site.val) with
    | some z =>
      let busy := s.cells.any fun e => dieSite s (logDie80 e.1) == site.val && (e.2.prog.isSome || !e.2.ops.isEmpty)
      if s.tide.bnd < z.f || busy then s
      else
        let s := z.ctxs.foldl (fun s c => drainCtx site plans c s) s
        let s := modWsh (fun w => { w with
          freezes := w.freezes.filter (·.site != site.val), drains := tmod w.drains (siteReach site) 0 (· - 1),
          notices := w.notices.map fun n => if n.site == site.val then { n with clear := some (slotNow s) } else n }) s
        if s.lev.halved.contains site.val then s
        else dieLeave site (match s.wsh.notices.find? (·.site == site.val) with | some n => n.why | none => .heat) s
    | none => s)

/-- RESKEW_START (R300): after the sweep a concentration report is answered: an array of a tensor of the context on the reported stack
starts moving to an offset at least 4 MiB away, once in 64 slots. -/
def execReskewStart (ctx : Fin 1024) (tensor : Nat) (src dst : BitVec 48) (bytes : Nat) (s : State) : Result :=
  let c := ctx.val
  .next (
    let x := getCtx s c
    let a := src.toNat
    let b := dst.toNat
    match s.mem.conc with
    | [] => s
    | rep :: rest =>
      let s' := { s with mem := { s.mem with conc := rest } }
      if !(rep.ctxs.any fun k => ctxLive (getCtx s k)) then s'
      else if !(bitN (regLive s 0x7000 0) 1) || !(bitN (regLive s 0x7000 0) 0) then s'
      else
        let key := c * 2 ^ 20 + tensor
        let last := tget? s.wsh.skewAt key
        let named := (x.plan.tensors[tensor]?).any (·.addr == a) || (shardsOf s c).any fun h => h.r.wAddr == a
        if ctxLive x && rep.ctxs.contains c && (sweepsOf s c).isEmpty && named && 0 < bytes && memStack a == rep.stack && memStack b == rep.stack && fastOk s a bytes && fastOk s b bytes &&
            b % 2048 == 0 && decide (4 * 2 ^ 20 ≤ max a b - min a b) && decide (a + bytes ≤ b ∨ b + bytes ≤ a) &&
            (match last with | some t => decide (t + 64 ≤ slotNow s) | none => true) then
          { s' with wsh := { s.wsh with reskews := s.wsh.reskews ++ [{ ctx := c, tensor := tensor, src := a, dst := b, bytes := bytes }], skewAt := tset s.wsh.skewAt key (slotNow s) } }
        else s)

/-- R300: a pass record not yet begun that reads the array moved reads it at its new place. -/
def repoint (k : Reskew) (p : Pass) : Pass :=
  if !p.active && !p.slow && decide (k.src ≤ p.srcPay) && decide (p.srcPay < k.src + k.bytes) then
    { p with srcPay := p.srcPay - k.src + k.dst, srcTrl := p.srcTrl - k.src + k.dst }
  else p

/-- RESKEW_DONE (R300): the copy ends and, at a step boundary, the records point at the new place. -/
def execReskewDone (ctx : Fin 1024) (s : State) : Result :=
  let c := ctx.val
  .next (match s.wsh.reskews.find? (·.ctx == c) with
    | some k =>
      if (stepInProgress (getCtx s c)).isSome || !(memRoom s .internal k.src 64) || !(memRoom s .internal k.dst 64) then s
      else
        let s := memWrite true k.dst (memRead s k.src k.bytes) s
        let s := modWsh (fun w => { w with reskews := w.reskews.filter (· != k) }) s
        let s := modCtx c (fun x => { x with plan := { x.plan with tensors := x.plan.tensors.map fun t => if t.addr == k.src then { t with addr := k.dst } else t } }) s
        let swap (a : Nat) : Nat := if a == k.src then k.dst else a
        let point (h : Shard) : Shard := { h with r := { h.r with wAddr := swap h.r.wAddr, rep0 := swap h.r.rep0, rep1 := swap h.r.rep1 } }
        let s := (List.range (getCtx s c).plan.nshards).foldl (fun s i =>
          let a := (getCtx s c).plan.shardTab + 128 * i
          [32, 96, 104].foldl (fun s o => if leNat (memRead s (a + o) 8) == k.src then memWrite true (a + o) (natLE 8 k.dst) s else s) s) s
        let s := { s with edy := { s.edy with shards := tset s.edy.shards c ((shardsOf s c).map point) } }
        let s := { s with frs := s.frs.map fun e => (e.1, { e.2 with passes := e.2.passes.map (repoint k) }) }
        let x := getCtx s c
        countCtx bWSH 5 0 unitTR (some c) (writeReport c x.plan (nextGoverned x) (x.cause ||| 16) s)
    | none => s)

end Sys2Proof.Machine
end

