-- ==== Sys2Proof/Machine/SysOps.lean ====
section
/-! DEFINITION. What chapters 13 to 17 share: cells added to the hole map (R395, R396), dies, chiplets and reaches lost (R22, R62, R438),
refused writes, the loss of power. -/
namespace Sys2Proof.Machine

/-- Change bring-up, Headwater, Levee. -/
def modBst (f : Bst → Bst) (s : State) : State := { s with bst := f s.bst }
def modHdw (f : Hdw → Hdw) (s : State) : State := { s with hdw := f s.hdw }
def modLev (f : Lev → Lev) (s : State) : State := { s with lev := f s.lev }

/-! ### The hole map (R394 to R398) -/

/-- The logical cell of a physical address, where one is; else the address with bit 63 set. -/
def logicalOf (s : State) (a : Nat) : Nat :=
  match siteDie s (physSite a) with
  | some d => logCell d (bitsN a 13 7) (bitsN a 6 0)
  | none => 2 ^ 63 + a

/-- R296 bit 0, R302, R401: contexts with a rectangle on new holes are placed anew; those with slots there roll back first. -/
def holeHit (new : Nat → Bool) (s : State) : State :=
  s.ctxs.foldl (fun s e =>
    let c := e.1
    if !(ctxLive e.2) then s
    else
      let s := if (planAll e.2.plan).any new && bitN (regLive s 0x7000 0) 0 then modCtx c (fun x => { x with cause := x.cause ||| 1 }) s else s
      if s.cells.any (fun k => new k.1 && !(ownedSlots k.2 c).isEmpty) then rollNoHold c s else s) s

/-- A gang that loses a cell stops (R100). -/
def gangsBreak (new : Nat → Bool) (s : State) : State :=
  ((s.cells.filter fun k => k.2.streams.any (·.gang) && (clusterCells k.1).any new).map (·.1)).foldl (fun s l => gangBreak l s) s

/-- R395, R396: cells enter the hole map for a cause (0 to 5 in the order of R395), with one record that names the first logical cell
and their number, at a severity. -/
def addHoles (cause sev : Nat) (phys : List Nat) (s : State) : State :=
  let new := (phys.filter fun a => physValid a && !(isHole s a)).eraseDups
  match new with
  | [] => s
  | a :: _ =>
    let ls := new.map (logicalOf s)
    let s := gangsBreak (fun l => ls.contains l) s
    let s := modNet (fun n => { n with holes := n.holes ++ new }) s
    let s := countN bBST (6 + cause) 0 0 new.length s
    let s := raise (physSite a) bBST sev 0x0F none (logicalOf s a) new.length 0 s
    holeHit (fun l => ls.contains l) (modBst (fun b => { b with undurable := true }) s)

/-- R27, R395: every cell of a die enters the hole map; the record names the logical die. `lev`: Levee raises the record. -/
def addDie (cause sev : Nat) (lev : Bool) (site : Nat) (s : State) : State :=
  if s.net.dieHoles.contains site then s
  else
    let n := dieCells - siteHoles s site
    let s := modNet (fun n => { n with dieHoles := n.dieHoles ++ [site], holes := n.holes.filter fun a => physSite a != site }) s
    let s := countN bBST (6 + cause) 0 0 n s
    let s := if lev then s else raise site bBST sev 0x0F none ((siteDie s site).getD (2 ^ 63 + site)) n 0 s
    let on (l : Nat) : Bool := dieSite s (logDie80 l) == site
    holeHit on (modBst (fun b => { b with undurable := true }) s)

/-- R394, R396: the map is written to the store's older copy and is durable. -/
def mapDurable (s : State) : State :=
  modBst (fun b => { b with
    copies := ({ seq := ((b.copies.head?.map (·.seq)).getD 0) + 1, cells := s.net.holes, dies := s.net.dieHoles } :: b.copies).take 2, undurable := false, storeBad := false }) s

/-! ### Elements lost -/

/-- Deliveries and messages no longer wait for cells that are gone (R32, R180): each delivery counts as dropped there. -/
def cellsGone (gone : Nat → Bool) (s : State) : State :=
  let s := s.frs.foldl (fun s e => countN bFRS 6 0 e.1 ((e.2.dels.map fun d => (d.waiting.filter gone).length).foldl (· + ·) 0) s) s
  { s with
    cells := s.cells.filter fun e => !(gone e.1),
    frs := s.frs.map fun e => (e.1, { e.2 with dels := e.2.dels.map fun d =>
      { d with waiting := d.waiting.filter (fun l => !(gone l)), stale := d.stale.filter (fun l => !(gone l)) } }),
    fly := s.fly.filterMap fun e => match e.2 with
      | .fill f cs => let k := cs.filter fun l => !(gone l); if k.isEmpty then none else some (e.1, .fill f k)
      | .refuse l _ => if gone l then none else some e
      | .ldxData l _ _ => if gone l then none else some e
      | .refetchReq l _ _ _ => if gone l then none else some e
      | _ => some e }

/-- R33: after a loss, sites no longer joined to the top-left corner are unavailable, and their contexts roll back and are placed anew. -/
def cutNow (s : State) : State :=
  let s' := cutJudge s
  (List.range 88).foldl (fun s' t => if siteAvail s t && !(siteAvail s' t) then (ctxsOn s' t).foldl (fun s c => ctxLost c 8 s) s' else s') s'

/-- R62, R435, R438: a die is lost with what its cells hold: its contexts roll back without a hold; a drain, a notice, a freeze, a slice or
a return to service on it ends (R301, R405, R442); routes are computed anew. -/
def siteLost (site : Nat) (why : OutWhy) (s : State) : State :=
  let s := (ctxsOn s site).foldl (fun s c => ctxLost c 8 s) s
  let s := cellsGone (fun l => dieSite s (logDie80 l) == site) s
  let s := (s.wsh.freezes.filter (·.site == site)).foldl (fun s z => modWsh (fun w => { w with drains := tmod w.drains (siteReach z.site) 0 (· - 1) }) s) s
  let s := modWsh (fun w => { w with
    asked := w.asked.filter (·.site != site), emerg := w.emerg.filter (· != site),
    notices := w.notices.filter (·.site != site), freezes := w.freezes.filter (·.site != site) }) s
  let s := modBst (fun b => { b with
    slices := b.slices.filter fun x => dieSite s (logDie80 x.head) != site, tests := b.tests.filter (·.site != site) }) s
  let s := modLev (fun l => { l with halved := l.halved.filter (· != site) }) s
  let s := modNet (fun n => { n with
    toLeave := n.toLeave.filter (·.1 != site), toJoin := n.toJoin.filter (· != site), leaving := tdel n.leaving site, rejoin := tdel n.rejoin site }) s
  cutNow (routesChanged (siteOut site why s))

/-- Contexts with shards or windows on a ring position. -/
def chipCtxs (s : State) (n : Nat) : List Nat :=
  (s.ctxs.filter fun e => ctxLive e.2 &&
    ((shardsOf s e.1).any (fun h => homeOf h.r == n || memStack h.r.wAddr == n || (h.r.owner && memStack h.r.gAddr == n)) ||
     (getEst s n).wins.any (·.ctx == e.1) || e.2.plan.tensors.any fun t => t.where_ != 1 && memStack t.addr == n)).map (·.1)

/-- R22, R247, R278, R437: a ring chiplet is lost with its stack, its optical engine and its blocks. A context whose sweep runs there is
held with a region-fatal record. -/
def chipLost (n : Nat) (s : State) : State :=
  let cs := chipCtxs s n
  let swept := (getEdy s n).sweeps.map (·.ctx)
  let s := modNet (fun x => { x with chipOut := addN x.chipOut n, engOut := addN x.engOut n }) s
  let s := stackLost n s
  let s := if (getEng s n).held.isSome || !(getEng s n).tx.isEmpty then linkFail n 2 s else s
  let s := modEng n (fun x => { x with lanes := x.lanes.map fun l => (l.1, { l.2 with st := .disabled }) }) s
  let s := (s.rsv.ops.filter fun o => o.w.agent == n || o.eng == n).foldl (fun s o => rsvFail o 4 s) s
  let s := { s with frs := tdel s.frs n, est := { s.est with engs := tdel s.est.engs n } }
  let s := swept.foldl (fun s c =>
    let s := raise (ringUnit n) bEDY sRegion 0x10 (some c) n 0 0 s
    modCtx c (fun x => if ctxLive x && x.roll.isNone then { x with roll := some { hold := true } } else x) s) s
  let s := { s with edy := { s.edy with engs := tdel s.edy.engs n } }
  routesChanged (cs.foldl (fun s c => ctxLost c 32 s) s)

/-- R22: a reach is lost: its sites, stacks and engines. -/
def reachDown (r : Nat) (s : State) : State :=
  let sites := (List.range 11).map (11 * r + ·)
  let cs := (sites.flatMap (ctxsOn s)).eraseDups
  let s := cs.foldl (fun s c => ctxLost c 32 s) s
  let s := cellsGone (fun l => logReach l == r) s
  let s := modNet (fun n => { n with reachOut := addN n.reachOut r }) s
  let s := (List.range 8).foldl (fun s k => chipLost (8 * r + k) s) s
  let s := modBst (fun b => { b with slices := b.slices.filter fun x => logReach x.head != r, tests := b.tests.filter (siteReach ·.site != r), recov := tdel b.recov r }) s
  let s := modWsh (fun w => { w with
    asked := w.asked.filter (siteReach ·.site != r), emerg := w.emerg.filter (siteReach · != r), notices := w.notices.filter (siteReach ·.site != r),
    freezes := w.freezes.filter (siteReach ·.site != r), drains := tdel w.drains r }) s
  cutNow (routesChanged s)

/-- R22, R39: a reach is lost with its controller, and with it every reach left without a Rill path to the top-left or to the bottom-right
service corner. -/
def reachLost (r : Nat) (s : State) : State :=
  let s := reachDown r (modNet (fun n => { n with ctlOut := addN n.ctlOut r }) s)
  ((List.range 8).filter fun q => !(s.net.reachOut.contains q) && !(rillPath s (152 + q) unitTL && rillPath s (152 + q) unitBR)).foldl (fun s q => reachDown q s) s

/-- R404: whether a site has failed: isolated after a fault, failed at bring-up, or every one of its cells a hole. -/
def siteFailed (s : State) (site : Nat) : Bool :=
  s.net.dieHoles.contains site || siteHoles s site == dieCells || (siteReasons s site).contains .isolated || (siteReasons s site).contains .bringup

/-- R447, R448, R453: a refused write: counted, with an info record. Detail 1 static while running, 2 not owner, 3 refused by a field check,
4 undefined offset. -/
def refuseWrite (m : Master) (off val detail : Nat) (s : State) : State :=
  raise unitTL (regBlock off) sInfo 0x0E none off (val % 2 ^ 56 + m.id * 2 ^ 56) detail (count bERR 2 0 m.id s)

/-- R402: a die is to be tested whole, once. -/
def testAsk (site : Nat) (s : State) : State :=
  if s.bst.tests.any (·.site == site) then s else modBst (fun b => { b with tests := b.tests ++ [{ site := site }] }) s

/-! ### Power (R441, R444) -/

/-- The module without supply: what is kept is the non-volatile store, the OTP bits, the repair list (R190, R391, R394, R407) and the
licence in force; everything else is as at reset. -/
def powerOff (s : State) : State :=
  { pending := s.pending, now := s.now, out := s.out, free := s.free, full := s.full
    mem := { stks := s.mem.stks.filterMap fun e => if e.2.retired.isEmpty then none else some (e.1, { retired := e.2.retired, remaps := e.2.remaps }) }
    bst := { boot := s.bst.boot, bootNext := s.bst.bootNext, factory := s.bst.factory, copies := s.bst.copies, powers := s.bst.powers, storeBad := s.bst.storeBad }
    hdw := { banks := s.hdw.banks, minima := s.hdw.minima, revoked := s.hdw.revoked, lic := s.hdw.lic, licNext := s.hdw.licNext, factory := s.hdw.factory
             gen := s.hdw.gen, burned := s.hdw.burned, certs := s.hdw.certs, seeds := s.hdw.seeds, requests := s.hdw.requests
             resetMask := s.hdw.resetMask, resets := s.hdw.resets, tests := s.hdw.tests }
    lev := { standAt := s.now, readings := s.lev.readings, pins := s.lev.pins } }

/-- R441: shutdown begins: no program is selected from the next boundary. -/
def shutdownStart (s : State) : State :=
  match s.lev.power with
  | .stopping _ _ => s
  | _ => modLev (fun l => { l with power := .stopping s.now s.tide.bnd }) s

/-- The hot-swap opens: the module-fatal record leaves first (R434, R441). -/
def hotSwapOpen (unit cls loc0 val : Nat) (s : State) : State :=
  let s := raise unit bLEV sModule cls none loc0 val 0 s
  let r : ErrRec := { sev := sModule, block := bLEV, cls := cls, unit := unit, first := s.tide.count, last := s.tide.count, loc0 := loc0, loc1 := val }
  let s := emit (.mctp 0x10 (errBytes r)) s
  let s := if bitN (regLive s 0xC004 0) 28 then csnFleet 7 0 (errBytes r) s else s
  emit (.pin 0x30 0) (powerOff s)

end Sys2Proof.Machine
end

