-- ==== Sys2Proof/Machine/Levee.lean ====
section
/-! DEFINITION. Meanings: Levee (R429 to R444): sensors, heat, coolant, throttle, faults, shutdown. -/
namespace Sys2Proof.Machine

/-! ### Sensors (R434) -/

/-- The last reading of a sensor; its value while the sensor is not failed. -/
def reading (s : State) (k : Sensor) : Option Reading := (s.lev.readings.find? (·.1 == k)).map (·.2)
def sensed (s : State) (k : Sensor) : Option Int := (reading s k).bind fun r => if r.failed then none else some r.val
def sensorFailed (s : State) (k : Sensor) : Bool := match reading s k with | some r => r.failed | none => false

/-- A sensor's number in records: kind × 2^16 + place. -/
def Sensor.code : Sensor → Nat
  | .volt i => i | .amp i => 65536 + i | .die t i => 2 * 65536 + 16 * t + i | .ring n b => 3 * 65536 + 2 * n + b2n b | .carrier t => 4 * 65536 + t
  | .flow i => 5 * 65536 + i | .inlet i => 6 * 65536 + i | .outlet i => 7 * 65536 + i | .rail r => 8 * 65536 + r

/-- The region a sensor sits in; none for those of the supply and the coolant. -/
def Sensor.region : Sensor → Option Nat
  | .die t _ => some t | .ring n _ => some (88 + n) | .carrier t => some t | .rail r => some r | _ => none

/-- R434: whether a reading is plausible after an earlier one. -/
def plausible (k : Sensor) (old : Option Reading) (v : Int) (now : Nat) : Bool :=
  let temp := decide (-200 ≤ v) && decide (v ≤ 1500) && match old with
    | some r => decide ((v - r.val).natAbs ≤ 200 * max 1 ((now - r.at_) / msTicks 1))
    | none => true
  match k with
  | .die _ _ => temp | .ring _ _ => temp | .carrier _ => temp | _ => true

/-- SENSOR_FAIL (R434): marked failed, counted, an info record. -/
def sensorFail (k : Sensor) (v : Int) (s : State) : State :=
  raise (k.region.getD unitAON) bLEV sInfo 0x07 none k.code (unsN 64 v) 7 (count bLEV 6 0 0 s)

/-- Set a sensor's reading. -/
def setReading (k : Sensor) (r : Reading) (s : State) : State :=
  modLev (fun l => { l with readings := (l.readings.filter (·.1 != k)) ++ [(k, r)] }) s

/-- The extreme of a list of readings. -/
def highest (l : List Int) : Option Int := match l with | [] => none | h :: t => some (t.foldl max h)
def lowest (l : List Int) : Option Int := match l with | [] => none | h :: t => some (t.foldl min h)

/-- Pairs of supply and coolant sensors: the lower voltage, the higher current, the lower flow (0 where both have failed), the higher
inlet and outlet temperatures. -/
def two (f : Fin 2 → Sensor) (s : State) : List Int := [sensed s (f 0), sensed s (f 1)].filterMap id
def voltNow (s : State) : Option Int := lowest (two .volt s)
def ampNow (s : State) : Option Int := highest (two .amp s)
def flowNow (s : State) : Option Int :=
  match lowest (two .flow s) with
  | some f => some f
  | none => if sensorFailed s (.flow 0) && sensorFailed s (.flow 1) then some 0 else none
def inletNow (s : State) : Option Int := highest (two .inlet s)
def outletNow (s : State) : Option Int := highest (two .outlet s)

/-- Whether a reading, where there is one, satisfies a test. -/
def is? (v : Option Int) (p : Int → Bool) : Bool := match v with | some x => p x | none => false

/-- Keep since when a condition holds. -/
def hold (cond : Bool) (now k : Nat) (t : Tab Nat) : Tab Nat := if cond then (if (tget? t k).isSome then t else tset t k now) else tdel t k

/-! ### Heat levels (R435, R437) -/

/-- Entry of a level in 0.1 °C, with the lowering of LEV_THERM_CFG.derate_c. -/
def heatEntry (s : State) (k : Nat) : Int :=
  let d : Int := 10 * (regL s 0xA010 0 11 8 : Nat)
  match k with | 1 => 950 - d | 2 => 1050 - d | 3 => 1100 - d | _ => 1200

/-- How long a condition must have held, in local ticks. -/
def heatHold (k : Nat) : Nat := match k with | 1 => msTicks 10 | 2 => msTicks 10 | 3 => usTicks 100 | _ => usTicks 10

/-- Valid temperatures of a die, or of a ring position's chiplet; those that a level 4 trip counts. -/
def temps (s : State) (region : Nat) : List Int :=
  if h : region < 88 then (List.finRange 9).filterMap fun i => sensed s (.die ⟨region, h⟩ i)
  else if h : region - 88 < 64 then [sensed s (.ring ⟨region - 88, h⟩ false)].filterMap id
  else []
def tripTemps (s : State) (region : Nat) : List Int :=
  if h : region - 88 < 64 then (if 88 ≤ region then [sensed s (.ring ⟨region - 88, h⟩ false), sensed s (.ring ⟨region - 88, h⟩ true)].filterMap id else temps s region)
  else temps s region

/-- A region's heat level. -/
def heatLevel (s : State) (region : Nat) : Nat := if region < 88 then tget s.net.heat region 0 else tget s.lev.ringHeat (region - 88) 0

/-- R434: the level a die has at least, by its failed sensors. -/
def forcedLevel (s : State) (region : Nat) : Nat :=
  if h : region < 88 then
    let bad := ((List.finRange 9).filter fun i => sensorFailed s (.die ⟨region, h⟩ i)).length
    if bad == 9 then 3 else if 5 ≤ bad then 2 else 0
  else 0

/-- Conditions on a region's temperature, kept from reading to reading. -/
def heatConds (region : Nat) (s : State) : State :=
  let hot := highest (temps s region)
  modLev (fun l => { l with
    hot := [1, 2, 3, 4].foldl (fun t k => hold (if k == 4 then decide (2 ≤ ((tripTemps s region).filter (heatEntry s 4 ≤ ·)).length) else is? hot (heatEntry s k ≤ ·)) s.now (8 * region + k) t) l.hot,
    cool := hold (is? hot (· ≤ heatEntry s (heatLevel s region) - 50)) s.now region l.cool }) s

/-- Conditions of R434, R436, R437, R440 and R444 that a reading of a sensor touches. -/
def conds (k : Sensor) (s : State) : State :=
  let now := s.now
  match k with
  | .die t _ => heatConds t s
  | .ring n stack =>
    let s := heatConds (88 + n) s
    if stack then modLev (fun l => { l with
      stackHot := hold (is? (sensed s k) (1050 ≤ ·)) now n l.stackHot, stackOk := hold (is? (sensed s k) (· ≤ 950)) now n l.stackOk }) s
    else s
  | .carrier t => modLev (fun l => { l with carrierOk := hold (is? (sensed s k) (· < 850)) now t l.carrierOk }) s
  | .rail _ => s
  | _ =>
    let f := flowNow s
    let i := inletNow s
    let c := [is? f (480 ≤ ·) && is? i (· ≤ 400), is? f (fun x => decide (240 ≤ x) && decide (x < 480)), is? i (fun x => decide (400 < x) && decide (x ≤ 450)),
              is? f (· < 240), is? f (· < 120) || is? i (450 < ·) || is? (outletNow s) (600 < ·), is? i (· < 180),
              is? (voltNow s) (· < 4800), is? (voltNow s) (5850 < ·), is? (ampNow s) (8000 < ·)]
    let good := is? f (400 ≤ ·) && is? i (fun x => decide (180 ≤ x) && decide (x ≤ 400))
    modLev (fun l => { l with
      coolant := (List.range 9).foldl (fun t j => hold (c.getD j false) now j t) l.coolant,
      gate := if good then (if l.gate.isSome then l.gate else some now) else none }) s

/-- SENSOR_SAMPLE (R434): a reading is checked; a failed sensor is believed again after 1 s of plausible readings. -/
def execSensorSample (k : Sensor) (v : Int) (s : State) : Result :=
  .next (
    let old := reading s k
    let ok := plausible k old v s.now
    let was := match old with | some r => r.failed | none => false
    let good := if ok then (match old with | some r => if was || r.failed then (if r.good ≤ s.now then r.good else s.now) else r.good | none => s.now) else s.now
    let back := was && ok && decide (good + msTicks 1000 ≤ s.now)
    let failed := if ok then was && !back else true
    let s := setReading k { val := v, at_ := s.now, failed := failed, good := if ok then good else s.now } s
    conds k (if !ok && !was then sensorFail k v s else s))

/-- The time without a reading after which a sensor is failed: 10 ms for temperatures, 100 ms for coolant; none for the supply. -/
def sensorTimeout (k : Sensor) : Option Nat :=
  match k with
  | .volt _ => none | .amp _ => none | .rail _ => none
  | .flow _ => some (msTicks 100) | .inlet _ => some (msTicks 100) | .outlet _ => some (msTicks 100)
  | _ => some (msTicks 10)

/-- SENSOR_TIMEOUT (R434): no update in time: the sensor is failed. -/
def execSensorTimeout (k : Sensor) (s : State) : Result :=
  .next (match sensorTimeout k, reading s k with
    | some t, some r =>
      if r.failed then s
      else
        let s := until_ (r.at_ + t) s
        conds k (sensorFail k r.val (setReading k { r with failed := true, good := s.now } s))
    | _, _ => s)

/-! ### Supply (R429, R434, R444) -/

/-- POWER_SEQUENCE_START (R444): the hot-swap has charged and coolant has been good for 1 s. -/
def execPowerSequenceStart (s : State) : Result :=
  .next (match s.lev.power, s.lev.gate with
    | .standby, some t => modLev (fun l => { l with power := .go }) (until_ (t + msTicks 1000) s)
    | _, _ => s)

/-- COOLANT_WAIT_TIMEOUT (R444): 60 s without coolant: a deferred record; the module keeps waiting. -/
def execCoolantWaitTimeout (s : State) : Result :=
  .next (match s.lev.power, s.lev.gate with
    | .standby, none =>
      let s := until_ (s.lev.standAt + msTicks 60000) s
      raise unitAON bLEV sDef 0x0C none 0 0 0 (modLev (fun l => { l with standAt := s.now }) s)
    | _, _ => s)

/-- A throttle one sixteenth higher (R432). -/
def throttleUp (s : State) : State := modLev (fun l => { l with throttle := min (l.throttle + 1) 16 }) s

/-- Whether the module is supplied. -/
def powered (s : State) : Bool := match s.lev.power with | .on => true | .stopping _ _ => true | _ => false

/-- UNDERVOLTAGE (R434): between 48.0 and 51.3 V a deferred record; below 48.0 V for 1 ms shutdown (R441). -/
def execUndervoltage (deep : Bool) (s : State) : Result :=
  .next (
    if !(powered s) then s
    else match voltNow s with
      | some v =>
        if deep then
          match tget? s.lev.coolant 6 with
          | some t => shutdownStart (until_ (t + msTicks 1) s)
          | none => s
        else if 4800 ≤ v && v < 5130 then raise unitAON bLEV sDef 0x0C none 0 v.toNat 0 s
        else s
      | none => s)

/-- OVERVOLTAGE (R434): above 58.5 V for 100 µs the hot-swap opens. -/
def execOvervoltage (s : State) : Result :=
  .next (match tget? s.lev.coolant 7, powered s with
    | some t, true => hotSwapOpen unitAON 0x12 0 ((voltNow s).getD 0).toNat (until_ (t + usTicks 100) s)
    | _, _ => s)

/-- OVERCURRENT (R434): above 720 A the throttle rises at once; above 800 A for 20 µs the hot-swap opens. -/
def execOvercurrent (hard : Bool) (s : State) : Result :=
  .next (
    if !(powered s) then s
    else if hard then
      match tget? s.lev.coolant 8 with
      | some t => hotSwapOpen unitAON 0x12 0 ((ampNow s).getD 0).toNat (until_ (t + usTicks 20) s)
      | none => s
    else if is? (ampNow s) (7200 < ·) then throttleUp s
    else s)

/-! ### The cap (R432, R436) -/

/-- The coolant limit in W (R436). -/
def coolantLimit (s : State) : Nat := s.lev.flowLimit - s.lev.inletCut

/-- LEV_PWR_CAP in W, as it acts. -/
def capReg (s : State) : Nat := 100 * min (max (regL s 0xA000 0 15 0) 30) 360

/-- R432: the module's power cap in W. -/
def capNow (s : State) : Nat :=
  let c := min (capReg s) (coolantLimit s)
  match voltNow s with | some v => min c (720 * v.toNat / 100) | none => c

/-- R432: what Levee does with a slot's input power, at its boundary. -/
def levBoundary (s : State) : State :=
  let w := match voltNow s, ampNow s with | some v, some a => v.toNat * a.toNat / 1000 | _, _ => s.lev.watts
  let cap := capNow s
  let s := if 0 < s.lev.throttle then count bLEV 3 0 0 s else s
  let s := if cap < w then count bLEV 4 0 0 s else s
  let s := if cap < w && coolantLimit s == cap then count bLEV 5 0 0 s else s
  modLev (fun l => { l with watts := w, overs := if cap < w then l.overs + 1 else 0, under := if 100 * w < 95 * cap then l.under + 1 else 0 }) s

/-- THROTTLE_RAISE (R432, R442): eight slots over the cap; at 9 kW and the full throttle shutdown follows. -/
def execThrottleRaise (s : State) : Result :=
  .next (if s.lev.overs < 8 then s
    else
      let full := s.lev.throttle == 16 && decide (coolantLimit s ≤ 9000)
      let s := modLev (fun l => { l with overs := 0 }) (throttleUp s)
      if full then shutdownStart s else s)

/-- THROTTLE_LOWER (R432): 64 slots below 95 % of the cap. -/
def execThrottleLower (s : State) : Result :=
  .next (if s.lev.under < 64 then s else modLev (fun l => { l with throttle := l.throttle - 1, under := 0 }) s)

/-- The lowering for a warm inlet that stays: none once the inlet is back at 40 °C (R436). -/
def keptCut (inlet : Nat) (l : Lev) : Nat := if inlet ≤ 400 then 0 else l.inletCut

/-- COOLANT_CONDITION (R436): a row of the table has held for its time. -/
def execCoolantCondition (row : Fin 6) (s : State) : Result :=
  .next (match tget? s.lev.coolant row with
    | none => s
    | some t =>
      let f := ((flowNow s).getD 0).toNat
      let i := ((inletNow s).getD 0).toNat
      let sec (s : State) : State := until_ (t + msTicks 1000) s
      match row.val with
      | 0 => modLev (fun l => { l with flowLimit := 36000, inletCut := 0 }) s
      | 1 => modLev (fun l => { l with flowLimit := 36000 * f / 480, inletCut := keptCut i l }) (sec s)
      | 2 => raise unitAON bLEV sDef 0x0C none 0 i 0
          (modLev (fun l => { l with inletCut := 2000 * (i - 400) / 10, flowLimit := if 480 ≤ f then 36000 else l.flowLimit }) (sec s))
      | 3 => raise unitAON bLEV sDef 0x0C none 0 f 0 (modLev (fun l => { l with flowLimit := 9000, inletCut := keptCut i l }) (sec s))
      | 4 => if powered s then shutdownStart (until_ (t + msTicks 500) s) else s
      | _ => raise unitAON bLEV sInfo 0x0C none 0 i 0 (sec s))

/-! ### Heat (R435, R437, R439) -/

/-- R439: whether a die may be switched off: the others stay joined, every reach keeps one of its sites 0 to 2, fewer than two other dies
of the reach drain or wait. -/
def canLose (s : State) (site : Nat) : Bool :=
  let t := siteOut site .heat s
  let main := mainland t
  let rest := (List.range 88).filter fun x => x != site && siteAvail s x
  let r := siteReach site
  rest.all main.contains &&
  ((List.range 8).all fun q => s.net.reachOut.contains q || [0, 1, 2].any fun k => rest.contains (11 * q + k)) &&
  decide (((List.range 11).filter fun k =>
    let x := 11 * r + k
    x != site && (s.wsh.asked.any (·.site == x) || s.wsh.notices.any (·.site == x) || s.wsh.freezes.any (·.site == x) || (tget? s.net.leaving x).isSome)).length < 2)

/-- The switch-off notice for a die (R439): the earliest slot it names. -/
def noticeSend (site : Nat) (why : OutWhy) (s : State) : State :=
  modWsh (fun w => { w with asked := w.asked ++ [{ site := site, slot := slotNow s + max (regL s 0xA010 0 7 0) 1, why := why, bnd := s.tide.bnd }] }) s

/-- HEAT_NOTICE (R439): a die at level 2: a notice where the grid bears it; else half its slots, and its contexts move. -/
def heatNotice (site : Nat) (s : State) : State :=
  if s.wsh.asked.any (·.site == site) || s.wsh.notices.any (·.site == site) then s
  else if canLose s site then noticeSend site .heat s
  else (ctxsOn s site).foldl (fun s c => modCtx c (fun x => { x with cause := x.cause ||| 2 }) s) (modLev (fun l => { l with halved := addN l.halved site }) s)

/-- A region's level changes: counted per die, reported to Watershed at priority 0 for levels 3 and 4, else 2. -/
def setLevel (region k : Nat) (s : State) : State :=
  let s := rillSend unitBL unitTR (if 3 ≤ k then 0 else 2) 0x34 [region, k] s
  let s := if region < 88 then count bLEV 0 0 region (modNet (fun n => { n with heat := tset n.heat region k }) s)
    else modLev (fun l => { l with ringHeat := tset l.ringHeat (region - 88) k }) s
  heatConds region (modLev (fun l => { l with cool := tdel l.cool region }) s)

/-- The level a region rises to next, with the local tick: the condition whose time is up first; ties to the higher. -/
def riseTo (s : State) (region : Nat) : Option (Nat × Nat) :=
  let cands := [3, 2, 1].filterMap fun k =>
    if k ≤ heatLevel s region then none
    else if k ≤ forcedLevel s region then some (k, s.now)
    else (tget? s.lev.hot (8 * region + k)).map fun t => (k, t + heatHold k)
  cands.foldl (fun b c => match b with | some x => if c.2 < x.2 then some c else b | none => some c) none

/-- HEAT_LEVEL_RISE (R435, R437, R439): a die or ring chiplet reaches a level, and its action is taken. -/
def execHeatLevelRise (region : Fin 152) (s : State) : Result :=
  .next (match if updating s 2 then none else riseTo s region with
    | some (k, t) =>
      let s := setLevel region k (until_ t s)
      if 88 ≤ region.val || !(siteAvail s region) then s
      else if k == 2 then heatNotice region s
      else if k == 3 then modWsh (fun w => { w with emerg := addN w.emerg region }) s
      else s
    | none => s)

/-- HEAT_LEVEL_FALL (R435): 100 ms at 5 °C below the entry: one level down. -/
def execHeatLevelFall (region : Fin 152) (s : State) : Result :=
  .next (
    let k := heatLevel s region
    match tget? s.lev.cool region with
    | some t =>
      if k == 0 || k ≤ forcedLevel s region then s
      else
        let s := setLevel region (k - 1) (until_ (t + msTicks 100) s)
        if k - 1 < 2 then modLev (fun l => { l with halved := delN l.halved region.val }) s else s
    | none => s)

/-- HEAT_TRIP (R435, R437): level 4: the region switch opens within 2 µs, with no drain. -/
def execHeatTrip (region : Fin 152) (s : State) : Result :=
  .next (match tget? s.lev.hot (8 * region + 4) with
    | none => s
    | some t =>
      if heatLevel s region == 4 then s
      else
        let s := count bLEV 1 0 region (setLevel region 4 (until_ (t + usTicks 10) s))
        let s := emit (.pin 0x22 region) (modLev (fun l => { l with region := tset l.region region 1, offAt := tset l.offAt region s.now, tripped := addN l.tripped region }) s)
        if region.val < 88 then siteLost region .heat s else chipLost (region - 88) s)

/-- STACK_OVERHEAT (R437): 105 °C for 1 ms: self-refresh with the data kept; the stack is unavailable. -/
def execStackOverheat (stk : Fin 64) (s : State) : Result :=
  .next (match tget? s.lev.stackHot stk with
    | some t =>
      if s.lev.selfRef.contains stk.val || !(stackUp s stk) then s
      else modLev (fun l => { l with selfRef := addN l.selfRef stk.val }) (stackLost stk (until_ (t + msTicks 1) s))
    | none => s)

/-- STACK_COOLDOWN (R437): 95 °C or less for 1 s: the stack returns through retraining (R203). -/
def execStackCooldown (stk : Fin 64) (s : State) : Result :=
  .next (match tget? s.lev.stackOk stk with
    | some t => if s.lev.selfRef.contains stk.val then modStk stk (fun x => { x with retrainWant := true }) (until_ (t + msTicks 1000) s) else s
    | none => s)

/-! ### Faults, switch-off, return (R438 to R442) -/

/-- REGION_FAULT (R438): a region's bank isolates it; the record is raised in its unit, and the notice goes out at priority 0. -/
def execRegionFault (region : Fin 164) (value : Word) (s : State) : Result :=
  .next (
    let r := region.val
    if !(powered s) || (tget? s.lev.region r).isSome || (isOxbow r && r < 88 && (siteReasons s r).contains .oxbowIdle) then s
    else
      let s := emit (.pin 0x22 r) (count bLEV 2 0 r (modLev (fun l => { l with region := tset l.region r 3, offAt := tset l.offAt r s.now }) s))
      let fatal (s : State) : State := rillSend unitBL unitTL 0 0x35 [r] (rillSend unitBL unitTR 0 0x35 [r] (raise r bLEV sRegion 0x0C none r value.toNat 0 s))
      if r < 88 then fatal (siteLost r .isolated (addDie 5 sRegion true r s))
      else if r < 152 then fatal (chipLost (r - 88) s)
      else if r < 160 then fatal (reachLost (r - 152) s)
      else shutdownStart (modBst (fun b => { b with cornerBad := addN b.cornerBad r }) (raise r bLEV sModule 0x12 none r value.toNat 0 s)))

/-- What a refused request leaves: an info record of a refused write (R447, R448). -/
def reqRefused (off val : Nat) (m : Master) (s : State) : State :=
  refuseWrite m off val 3 s

/-- R439: a request to switch a die off: the notice, or refused and logged. -/
def switchOff (m : Master) (region : Nat) (s : State) : State :=
  if region < 88 && siteAvail s region && !(s.wsh.asked.any (·.site == region)) && !(s.wsh.notices.any (·.site == region)) && canLose s region then
    noticeSend region .command s
  else reqRefused 0xA01C 1 m s

/-- R64, R440: a die's supply is restored before the boundary of a slot. -/
def regionOn (site slot : Nat) (s : State) : State :=
  rillSend unitBL unitTR 2 0x36 [site, slot] (emit (.pin 0x23 site) (modNet (fun n => { n with rejoin := tset n.rejoin site { slot := slot, started := false, misses := 0, relocked := false } }) s))

/-- R440, R442: a request to switch a region on: only a die off by command. -/
def switchOn (m : Master) (region : Nat) (s : State) : State :=
  if region < 88 && tget? s.lev.region region == some 2 && (tget? s.net.rejoin region).isNone then regionOn region (slotNow s + 1) s
  else reqRefused 0xA01C 2 m s

/-- HEAT_REENABLE (R440): a die off for heat returns at a named slot; one tripped at level 4 is tested whole first. -/
def execHeatReenable (site : Fin 88) (slot : BitVec 50) (s : State) : Result :=
  .next (match tget? s.lev.region site, tget? s.lev.carrierOk site, tget? s.lev.offAt site with
    | some 1, some t, some o =>
      if (tget? s.net.rejoin site).isSome || slot.toNat ≤ slotNow s || s.bst.tests.any (·.site == site.val) then s
      else
        let s := until_ (max (t + msTicks 100) (o + msTicks 1000)) s
        let s := modNet (fun n => { n with heat := tset n.heat site 0 }) s
        if s.lev.tripped.contains site.val then testAsk site (modLev (fun l => { l with tripped := delN l.tripped site.val, region := tdel l.region site }) s)
        else regionOn site slot.toNat s
    | _, _, _ => s)

/-- SHUTDOWN_COMPLETE (R441): past the boundary, with store writes done, the regions are ramped down in reverse order, the record is sent and
the hot-swap opens. -/
def execShutdownComplete (s : State) : Result :=
  .next (match s.lev.power with
    | .stopping _ b =>
      if s.tide.bnd ≤ b then s
      else hotSwapOpen unitAON 0x0C 0 s.lev.watts (if s.bst.undurable then mapDurable s else s)
    | _ => s)

/-- BUSBAR_LOSS (R441, R444): as a shutdown without its first step; the hold-up lets a store write in progress end. -/
def execBusbarLoss (s : State) : Result :=
  .next (hotSwapOpen unitAON 0x0C 0 s.lev.watts (if s.bst.undurable then mapDurable s else s))

end Sys2Proof.Machine
end

