-- ==== Sys2Proof/Machine/HdwOps.lean ====
section
/-! DEFINITION. Headwater's working: signed objects and their checks (R409, R410), minima (R411), measurements (R414), the boot path (R412,
R413, R416), identity indices (R418 to R420), reports (R422, R423). -/
namespace Sys2Proof.Machine

/-! ### Signed objects (R409, R410) -/

/-- Fields of the header, the signature, the body. -/
def oKind (b : Bytes) : Nat := leField b 4 1
def oSlot (b : Bytes) : Nat := leField b 5 1
def oSub (b : Bytes) : Nat := leField b 6 2
def oSvn (b : Bytes) : Nat := leField b 16 4
def oHead (b : Bytes) : Bytes := b.take 136
def oSig (b : Bytes) : Bytes := sliceB b 136 2820
def oBody (b : Bytes) : Bytes := b.drop 2956

/-- Check 1: magic, kind, lengths, reserved field. -/
def objFormed (b : Bytes) : Bool :=
  let k := oKind b
  let n := leField b 24 8
  decide (2956 ≤ b.length) && leField b 0 4 == 0x4B585347 && decide (1 ≤ k) && decide (k ≤ 5) && decide (oSlot b ≤ 3) &&
  (if k == 1 then decide (1 ≤ oSub b) && decide (oSub b ≤ 11) else oSub b == 0) && decide (oSvn b ≤ 64) &&
  n == b.length - 2956 && decide (n ≤ 64 * 2 ^ 20 - 2956) && leField b 132 4 == 0 &&
  match k with
  | 2 => n == 16 && decide (leField (oBody b) 0 1 ≤ 1)
  | 3 => n == 16
  | 4 => n == 112
  | 5 => n == 1 && decide (leField (oBody b) 0 1 ≤ 3)
  | _ => true

/-- The anti-rollback domain of an object (R411); none for a re-key certificate. -/
def objDomain (b : Bytes) : Option Nat := match oKind b with | 1 => some (oSub b) | 2 => some 12 | 3 => some 13 | 5 => some 14 | _ => none

/-- The minimum of a domain. -/
def svnMin (s : State) (d : Nat) : Nat := tget s.hdw.minima d 0

/-- Checks 1 to 7 in order: the first that fails, or 0. -/
def objCheck (s : State) (b : Bytes) : Nat :=
  if !(objFormed b) then 1
  else if digest32 (sliceB b 64 68) != Config.vendorDigest (oSlot b) then 2
  else if s.hdw.revoked.contains (oSlot b) then 3
  else if !(Config.xmssVerify (sliceB b 64 68) (oHead b) (oSig b)) then 4
  else if digest32 (oBody b) != sliceB b 32 32 then 5
  else if leField b 8 8 != Config.serial.toNat && !(leField b 8 8 == 0 && oKind b == 1) then 6
  else match objDomain b with
    | some d => if oSvn b < svnMin s d then 7 else 0
    | none => 0

/-- The pending re-key request (R421): serial, new generation, new public key, digest of the old one. -/
def rekeyRequest (s : State) : Bytes :=
  natLE 8 Config.serial.toNat ++ natLE 4 (s.hdw.gen + 1) ++ fitB (Config.identityKey (s.hdw.gen + 1)) 68 ++ digest32 (Config.identityKey s.hdw.gen)

/-- Check 8: the kind is acceptable now. -/
def objNow (s : State) (b : Bytes) : Bool :=
  match oKind b with
  | 4 => s.hdw.rekey == some .ready && oBody b == rekeyRequest s
  | 5 => ((List.range 4).filter fun k => k != leField (oBody b) 0 1 && !(s.hdw.revoked.contains k)).length != 0
  | _ => true

/-- Check 10: no update of the same subsystem, or install of the same kind, is in progress. -/
def objFree (s : State) (b : Bytes) : Bool :=
  match oKind b with
  | 1 => (tget? s.hdw.updates (oSub b)).isNone
  | 2 => s.hdw.licNext.isNone
  | _ => true

/-! ### Minima and measurements (R411, R414) -/

/-- Bits of a domain's thermometer are burned up to an svn. -/
def burnSvn (d svn : Nat) (s : State) : State := modHdw (fun h => { h with minima := tset h.minima d (max (svnMin s d) svn) }) s

/-- A measurement register; unlisted: zeros. -/
def measAt (s : State) (i : Nat) : Bytes := fitB (tget s.hdw.meas i []) 32

/-- Extend a register with a digest. -/
def measure (i : Nat) (d : Bytes) (s : State) : State := modHdw (fun h => { h with meas := tset h.meas i (digest32 (measAt s i ++ d)) }) s

/-- Digest of the hole map as it stands: one bit for each physical cell, in address order of site, row, column (R394, R414). -/
def holeMapDigest (s : State) : Bytes :=
  digest32 ((List.range 88).flatMap fun t => (List.range 100).flatMap fun r => (List.range 16).map fun j =>
    BitVec.ofNat 8 ((List.range 8).foldl (fun a i => a + 2 ^ i * b2n (isHole s (physAddr t r (8 * j + i)))) 0))

/-! ### The boot path (R412, R413, R416) -/

/-- Mandatory subsystems (R413). -/
def mandatory (k : Nat) : Bool := k != 7 && k != 10

/-- An image bank. -/
def bankAtH (s : State) (k bank : Nat) : Bytes := tget s.hdw.banks (2 * k + bank) []

/-- Whether a bank holds an accepted image of its subsystem. -/
def bankOk (s : State) (k bank : Nat) : Bool := oKind (bankAtH s k bank) == 1 && oSub (bankAtH s k bank) == k && objCheck s (bankAtH s k bank) == 0

/-- R412: the accepted bank with the higher svn, A on a tie. -/
def bankPick (s : State) (k : Nat) : Option Nat :=
  match bankOk s k 0, bankOk s k 1 with
  | true, true => some (if oSvn (bankAtH s k 0) < oSvn (bankAtH s k 1) then 1 else 0)
  | true, false => some 0
  | false, true => some 1
  | false, false => none

/-- R390, R413: a subsystem with no accepted bank is stopped; the record is deferred where it is not mandatory. -/
def imageMissing (k : Nat) (s : State) : State :=
  if s.hdw.stopped.contains k then s
  else
    let s := modHdw (fun h => { h with stopped := h.stopped ++ [k], active := tdel h.active k }) s
    let s := if k == 7 then modNet (fun n => { n with engOut := List.range 64 }) s else s
    raise unitBR bHDW (if mandatory k then sCont else sDef) 0x0D none k 0 0 s

/-- An image starts: minimum, measurement. -/
def imageStart (k bank : Nat) (s : State) : State :=
  let b := bankAtH s k bank
  measure k (digest32 b) (burnSvn k (oSvn b) (modHdw (fun h => { h with active := tset h.active k bank, stopped := delN h.stopped k }) s))

/-- R412: the ROM and the runtime choose, measure and start every image; without a runtime none other is looked at. -/
def verifyImages (s : State) : State :=
  let s := modHdw (fun h => { h with meas := [], active := [], stopped := [] }) s
  let s := measure 0 (Config.romDigest s.hdw.revoked s.hdw.minima) s
  match bankPick s 1 with
  | none => imageMissing 1 s
  | some b => (List.range 10).foldl (fun s i => match bankPick s (i + 2) with | some k => imageStart (i + 2) k s | none => imageMissing (i + 2) s) (imageStart 1 b s)

/-- R416: the licence in force at boot. -/
def bootLicence (s : State) : State :=
  let cand := match s.hdw.licNext with | some (b, _) => some b | none => s.hdw.lic
  match cand with
  | some b =>
    if oKind b == 2 && objCheck s b == 0 then
      measure 12 (digest32 b) (burnSvn 12 (oSvn b) { modHdw (fun h => { h with lic := some b, licNext := none, factory := false }) s with full := leField (oBody b) 0 1 == 1 })
    else
      measure 12 (digest32 Config.factoryLicence) (raise unitBR bHDW sDef 0x0D none 0 (oSvn b) (objCheck s b) { modHdw (fun h => { h with licNext := none, factory := true }) s with full := false })
  | none => measure 12 (digest32 Config.factoryLicence) { modHdw (fun h => { h with factory := true }) s with full := false }

/-- The boot configuration record as bytes. -/
def bootBytes (s : State) : Bytes := (List.range 4).flatMap fun i => natLE 4 (s.bst.boot.getD i 0)

/-- R391: the boot configuration record is applied. -/
def bootConfig (s : State) : State :=
  let s := regSet 0xC000 0 (s.bst.boot.getD 0 0) s
  let s := if bitN (s.bst.boot.getD 2 0) 1 then
      let v := s.bst.boot.getD 1 0 &&& 0xFFFF3FF3
      { regSet 0x9000 0 v s with tide := { s.tide with src := v % 4, useTidein := v % 4 != 1 } }
    else s
  measure 13 (digest32 (bootBytes s)) s

/-- Step 2 ends: the licence and the record, unless the recovery loader runs. -/
def bootDone (s : State) : State := if s.hdw.stopped.contains 1 then s else bootConfig (bootLicence s)

/-! ### The identity key (R418 to R421) -/

/-- Signatures left. -/
def remaining (s : State) : Nat := 2 ^ 20 - s.hdw.next

/-- R420: fewer than 65,536 are left. -/
def lowRecord (s : State) : State := if remaining s < 65536 then raise unitBR bHDW sDef 0x0D none 0 s.hdw.next 0 s else s

/-- R419, R420: at power-on the next index follows the burned blocks; the nonce of R381 is drawn (R425). -/
def keyStart (s : State) : State :=
  let s := modHdw (fun h => { h with next := 64 * tget h.burned h.gen 0 }) s
  let s := { s with free := s.free + 1, csn := { s.csn with nonce := (Config.random s.free).toNat % 2 ^ 32 } }
  lowRecord s

/-- SIGN_INDEX_BURN (R419): a new block's bit is burned; bits that do not read back are skipped, each with a deferred record. -/
def indexBurn (bad : Nat) (s : State) : State :=
  if s.hdw.next % 64 != 0 then s
  else
    let blk := s.hdw.next / 64 + bad
    let s := (List.range bad).foldl (fun s i => raise unitBR bHDW sDef 0x0D none 0 (s.hdw.next / 64 + i) 0 s) s
    modHdw (fun h => { h with burned := tset h.burned h.gen (min (blk + 1) 16384), next := min (64 * blk) (2 ^ 20) }) s

/-- An index is taken: it advances before the signature is released. `last`: block 16,383 may be used. -/
def indexTake (last : Bool) (bad : Nat) (s : State) : State × Option Nat :=
  let s := indexBurn bad s
  let i := s.hdw.next
  if 2 ^ 20 ≤ i || (!last && 16383 * 64 ≤ i) then (s, none)
  else
    let before := remaining s
    let s := modHdw (fun h => { h with next := i + 1 }) s
    (if 65536 ≤ before then lowRecord s else s, some i)

/-! ### Reports (R422, R423) -/

/-- A response: status and length before what follows. -/
def attRsp (status : Nat) (b : Bytes) : Bytes := natLE 1 status ++ natLE 3 0 ++ natLE 4 b.length ++ b

/-- The entry of a subsystem. -/
def subEntry (s : State) (k : Nat) : Bytes :=
  match tget? s.hdw.active k with
  | some bank => natLE 1 k ++ natLE 1 bank ++ natLE 2 0 ++ natLE 4 (oSvn (bankAtH s k bank)) ++ digest32 (bankAtH s k bank)
  | none => natLE 1 k ++ List.replicate 39 0

/-- Usable logical cells. -/
def usableCells (s : State) : Nat := ((List.range 80).map fun d => if siteAvail s (dieSite s d) then dieCells - siteHoles s (dieSite s d) else 0).foldl (· + ·) 0

/-- R392: a ready module that is degraded. -/
def degraded (s : State) : Bool :=
  s.bst.ready && (!s.net.reachOut.isEmpty || (List.range 64).any (fun n => !(stackUp s n)) || (List.range 80).any (fun d => !(siteAvail s (dieSite s d))) ||
    s.bst.edgeLeft || !s.net.edgeOut.isEmpty || usableCells s < 1000000)

/-- The report's 1,152 bytes. -/
def attReport (s : State) (nonce : Bytes) (index : Nat) : Bytes :=
  natLE 4 1 ++ natLE 4 1152 ++ natLE 8 Config.serial.toNat ++ fitB nonce 32 ++ natLE 8 s.tide.count ++ natLE 4 (powerOnCount s) ++
  natLE 1 (b2n s.full) ++ natLE 1 s.hdw.gen ++
  natLE 2 (b2n s.bst.ready + 2 * b2n (degraded s) + 4 * b2n (s.bst.step == 15) + 8 * b2n s.hdw.factory) ++ natLE 4 index ++ natLE 4 (remaining s) ++
  digest32 (if s.hdw.factory then Config.factoryLicence else s.hdw.lic.getD []) ++
  ((List.range 16).flatMap fun i => measAt s i) ++ ((List.range 11).flatMap fun i => subEntry s (i + 1)) ++
  natLE 4 (holeCount s) ++ natLE 4 s.hdw.tests ++ fitB (Config.identityKey s.hdw.gen) 68 ++ List.replicate 20 0

end Sys2Proof.Machine
end

