-- ==== Sys2Proof/Machine/BringUp.lean ====
section
/-! DEFINITION. Meanings: power-on and bring-up (R388 to R393, R400, R403), a die PLL's loss and a die's return (R62, R64). -/
namespace Sys2Proof.Machine

/-! ### The steps (R388) -/

/-- The step in progress, as BST_STATUS reports it: step 3 has ended once the tide unit has left ACQUIRE. -/
def bstStep (s : State) : Nat := if s.bst.step == 3 && s.tide.st != .acquire then 4 else s.bst.step

/-- A step ends; its time in µs goes into its counter. -/
def stepEnd (s : State) : State :=
  let k := bstStep s
  countN bBST (11 + k) 0 0 ((s.now - s.bst.at_) / usTicks 1) (modBst (fun b => { b with step := k + 1, at_ := s.now }) s)

/-- R390: a failure of bring-up raises a contained record. -/
def bringUpRecord (unit cls loc0 loc1 : Nat) (s : State) : State := raise unit bBST sCont cls none loc0 loc1 0 s

/-- R393: ready: the export region, the status, the host link, the announcement; the measurement of the hole map (R414). -/
def readyDeclare (s : State) : State :=
  let s := exportRewrite (slotNow s) s
  let s := measure 13 (holeMapDigest s) s
  let s := modBst (fun b => { b with ready := true, passAt := s.now }) s
  let s := if s.hst.perst then s else modHst (fun h => { h with link := .train }) s
  raise unitBR bBST sInfo 0x0F none 5 0 0 s

/-- R392: not ready: the cause is 1 an image, 2 a corner, 3 no stack or die, 4 the store. -/
def moduleFailed (cause : Nat) (s : State) : State :=
  raise unitBR bBST sModule 0x12 none s.bst.step cause 0 (modBst (fun b => { b with step := 15 }) s)

/-- R392: what keeps the module from ready, if anything. -/
def notReady (s : State) : Option Nat :=
  if s.hdw.stopped.any mandatory then some 1
  else if !s.bst.cornerBad.isEmpty then some 2
  else if !((List.range 64).any (stackUp s)) || !((List.range 80).any fun d => siteAvail s (dieSite s d) && decide (siteHoles s (dieSite s d) < dieCells)) then some 3
  else if s.bst.undurable || s.bst.storeBad then some 4
  else none

/-- Step 10 (R389, R392): opt_wait keeps the module waiting while a lane is past DETECT. -/
def optWaiting (s : State) : Bool :=
  bitN (s.bst.boot.getD 2 0) 0 && s.csn.engs.any fun e => e.2.lanes.any fun l => match l.2.st with
    | .train => true | .range => true | .caps => true | .qualify => true | .retrain => true | _ => false

/-- The end of bring-up. -/
def bringUpJudge (s : State) : State :=
  if s.bst.step != 10 || s.bst.ready || optWaiting s then s
  else match notReady s with
    | some c => moduleFailed c s
    | none => readyDeclare s

/-! ### What each step does with what has failed or is unfinished (R390) -/

/-- Step 1: regions that failed to ramp. -/
def rampFail (r : Nat) (s : State) : State :=
  let s := bringUpRecord (min r 163) 0x0C r 0 (modLev (fun l => { l with region := tset l.region r 5 }) s)
  if r < 88 then siteOut r .bringup s
  else if r < 152 then chipLost (r - 88) s
  else if r < 160 then reachLost (r - 152) s
  else modBst (fun b => { b with cornerBad := addN b.cornerBad r }) s

/-- Step 4: a die whose PLL did not lock. -/
def pllFail (t : Nat) (s : State) : State := bringUpRecord t 0x10 t 0 (siteOut t .bringup s)

/-- Steps 5 and 9: an edge or half-link left out; in step 5 a die's port that fails its loopback fails its die (R27). -/
def edgeFail (ports : Bool) (e : Nat × Nat × List Nat) (s : State) : State :=
  let bad := if ports then e.2.2.filter fun t => t == e.1 || t == e.2.1 else []
  let s := bringUpRecord (min e.1 e.2.1) 0x0B (edgeNum e.1 e.2.1) 0 s
  if bad.isEmpty then modBst (fun b => { b with edgeLeft := true }) (modNet (fun n => { n with edgeOut := addN n.edgeOut (edgeNum e.1 e.2.1) }) s)
  else bad.foldl (fun s t => addDie 1 sCont false t s) s

/-- A half-link left out, or the die whose slot it takes failed (R17, R27). -/
def halfFail (ports : Bool) (h : Nat × Bool) (s : State) : State :=
  let s := bringUpRecord (if 192 ≤ h.1 then unitTL else ringUnit (h.1 / 3)) 0x0B (2 ^ 16 + h.1) 0 s
  if ports && h.2 then addDie 1 sCont false (halfSite h.1) s else modNet (fun n => { n with halfOut := addN n.halfOut h.1 }) s

/-- R397: before step 6 the sites of a hole-map reset return to the factory map. -/
def holeReset (s : State) : State :=
  if s.hdw.resetMask == 0 then s
  else
    let on (t : Nat) : Bool := bitN s.hdw.resetMask t
    let s := s.hdw.resets.foldl (fun s d => measure 14 d.1 (burnSvn 13 d.2 s)) s
    modBst (fun b => { b with undurable := true }) (modHdw (fun h => { h with resetMask := 0, resets := [] }) (modNet (fun n => { n with
      holes := n.holes.filter (fun a => !(on (physSite a))) ++ s.bst.factory.cells.filter (fun a => on (physSite a)),
      dieHoles := n.dieHoles.filter (fun t => !(on t)) ++ s.bst.factory.dies.filter on }) s))

/-- Step 6 (R390, R395, R400): what the start-up test found; an oxbow with a faulty router or no cell left has failed it. -/
def testFail (u : BringUp) (s : State) : State :=
  let s := u.cells.foldl (fun s a => addHoles 0 sInfo [a] s) s
  let s := u.dies.foldl (fun s t => addDie 1 sCont false t s) s
  let s := u.clusters.foldl (fun s a => addHoles 2 sCont ((List.range 16).map fun i => a + i / 4 * 128 + i % 4) s) s
  let s := u.chips.foldl (fun s n => bringUpRecord (ringUnit n) 0x10 n 0 (chipLost n s)) s
  modBst (fun b => { b with oxbowBad := (List.range 8).filter fun r => s.net.dieHoles.contains (11 * r + 10) }) s

/-- R403: the site of a reach that its oxbow replaces, if any. -/
def oxbowPick (s : State) (r : Nat) : Option Nat :=
  let ox := 11 * r + 10
  let sites := (List.range 10).map (11 * r + ·)
  let dead := sites.filter fun t => !(siteAvail s t) || siteHoles s t == dieCells
  let thresh := regL s 0x10008 0 17 4
  if !((siteReasons s ox).filter (· != .oxbowIdle)).isEmpty || s.bst.oxbowBad.contains r || s.net.reachOut.contains r then none
  else match dead with
    | t :: _ => some t
    | [] => (sites.filter fun t => decide (thresh < siteHoles s t) && decide (siteHoles s ox < siteHoles s t)).foldl
        (fun b t => match b with | some x => if siteHoles s x < siteHoles s t then some t else b | none => some t) none

/-- OXBOW_SUBSTITUTION (R34): the oxbow backs the failed site's logical die; the failed site is isolated; the chiplets that had a link on
it get their half-link to the oxbow. -/
def substitute (r t : Nat) (s : State) : State :=
  let had := (List.range 8).filter fun k => linkSite k 0 == t % 11 || linkSite k 1 == t % 11
  let s := modNet (fun n => { n with
    dieMap := tset n.dieMap (10 * r + t % 11) 10, out := tset n.out (11 * r + 10) [],
    oxLinks := had.foldl (fun l k => addN l (8 * r + k)) n.oxLinks }) s
  siteOut t .isolated s

/-- Step 7's choice in every reach (R403). -/
def substituteAll (s : State) : State := (List.range 8).foldl (fun s r => match oxbowPick s r with | some t => substitute r t s | none => s) s

/-- Step 8: a stack that fails training; the keys are drawn, every line is zero, the maps are empty (R187, R388). -/
def memoryUp (bad : List Nat) (s : State) : State :=
  let s := bad.foldl (fun s n => bringUpRecord (ringUnit n) 0x10 n 0 (stackLost n s)) s
  let s := (List.range 64).foldl (fun s n => { modStk n (fun x => { x with key := (Config.random (s.free + n)).toNat, poison := [] }) s with free := s.free }) s
  { s with free := s.free + 64, mem := { s.mem with data := [], epochs := [] } }

/-- Step 9: stacks that fail again. -/
def qualifyFail (u : BringUp) (s : State) : State :=
  let s := u.edges.foldl (fun s e => edgeFail false e s) s
  let s := u.halves.foldl (fun s h => halfFail false h s) s
  u.stks.foldl (fun s n => bringUpRecord (ringUnit n) 0x0B (2 ^ 17 + n) 0 (stackLost n s)) s

/-- Step 2: no image of these subsystems was verified in time. -/
def imagesFail (l : List Nat) (s : State) : State := l.foldl (fun s k => imageMissing k s) s

/-- A step ends with what failed in it; the next begins. -/
def bringUpStep (k : Nat) (u : BringUp) (s : State) : State :=
  let cut (s : State) : State := routesChanged (cutJudge s)
  match k with
  | 1 => stepEnd (u.regions.foldl (fun s r => rampFail r s) s)
  | 2 =>
    let s := bootDone (imagesFail u.images s)
    if s.hdw.stopped.contains 1 then moduleFailed 1 s else tideStart (stepEnd s)
  | 4 => stepEnd (cut (u.plls.foldl (fun s t => pllFail t s) s))
  | 5 => stepEnd (holeReset (cut (u.halves.foldl (fun s h => halfFail true h s) (u.edges.foldl (fun s e => edgeFail true e s) s))))
  | 6 => stepEnd (exportSet <| cut (substituteAll (testFail u s)))
  | 7 => stepEnd s
  | 8 => stepEnd (memoryUp u.stks s)
  | 9 => bringUpJudge (stepEnd (cut (qualifyFail u s)))
  | _ => s
where
  /-- Watershed places the export region before the first commit (R302, R471). -/
  exportSet (s : State) : State :=
    regSet 0x700C 0 (Config.exportBase.toNat / 2 ^ 32) (regSet 0x7008 0 (Config.exportBase.toNat / 4096 * 4096 % 2 ^ 32) s)
  /-- Step 3 begins: ACQUIRE (R47). -/
  tideStart (s : State) : State := { s with tide := { s.tide with acqAt := s.now, st := .acquire, powerOnAcquire := true } }

/-! ### Commands -/

/-- Bring-up begins: the newer valid hole map, the boot configuration record committed last, the next index after the last burned
block (R388, R391, R394, R419). -/
def bringUpStart (pins : Nat) (s : State) : State :=
  let s := powerOff s
  let map := s.bst.copies.head?.getD s.bst.factory
  let s := { s with
    net := { s.net with holes := map.cells, dieHoles := map.dies },
    bst := { s.bst with boot := s.bst.bootNext.getD s.bst.boot, bootNext := none, step := 1, at_ := s.now },
    lev := { s.lev with power := .on, pins := pins } }
  keyStart s

/-- POWER_ON (R388, R491): the sequence begins; the SLOT pins are sampled. -/
def execPowerOn (pins : Fin 8) (s : State) : Result :=
  .next (match s.lev.power with
    | .go => bringUpStart pins (modBst (fun b => { b with powers := b.powers + 1 }) s)
    | _ => s)

/-- RAMP_DONE (R388, R390). -/
def execRampDone (u : BringUp) (s : State) : Result := .next (if bstStep s == 1 then bringUpStep 1 u s else s)

/-- IMAGE_VERIFY_DONE (R412, R413): step 2 ends with the choice of a bank for every subsystem. -/
def execImageVerifyDone (s : State) : Result := .next (if bstStep s == 2 then bringUpStep 2 {} (verifyImages s) else s)

/-- PLL_LOCK_DONE (R388, R390). -/
def execPllLockDone (u : BringUp) (s : State) : Result := .next (if bstStep s == 4 then bringUpStep 4 u s else s)

/-- LINK_TRAINING_DONE (R388, R390, R397). -/
def execLinkTrainingDone (u : BringUp) (s : State) : Result := .next (if bstStep s == 5 then bringUpStep 5 u s else s)

/-- STARTUP_TEST_DONE (R400, R403). -/
def execStartupTestDone (u : BringUp) (s : State) : Result := .next (if bstStep s == 6 then bringUpStep 6 u s else s)

/-- SUBSTITUTION_DONE (R403): the first route commit is in effect. -/
def execSubstitutionDone (s : State) : Result :=
  .next (if bstStep s == 7 && s.net.commit.isNone && !s.net.routesDue then bringUpStep 7 {} s else s)

/-- MEMORY_TRAINING_DONE (R187, R388). -/
def execMemoryTrainingDone (u : BringUp) (s : State) : Result := .next (if bstStep s == 8 then bringUpStep 8 u s else s)

/-- QUALIFICATION_DONE (R388, R392, R393). -/
def execQualificationDone (u : BringUp) (s : State) : Result := .next (if bstStep s == 9 then bringUpStep 9 u s else s)

/-- The budget of a step in local ticks (R388). -/
def bringUpBudget (k : Nat) : Nat :=
  match k with
  | 1 => msTicks 500 | 2 => msTicks 3000 | 3 => msTicks 1200 | 4 => msTicks 1 | 5 => msTicks 10 | 6 => msTicks 4000 | 7 => msTicks 50 | 8 => msTicks 600 | _ => msTicks 300

/-- BRINGUP_BUDGET_EXPIRY (R388, R390): the unfinished parts of the step count as failed. -/
def execBringupBudgetExpiry (u : BringUp) (s : State) : Result :=
  .next (
    let k := bstStep s
    if k == 0 || 10 ≤ k then s
    else
      let s := until_ (s.bst.at_ + bringUpBudget k) s
      if k == 3 then modBst (fun b => { b with at_ := s.now }) (enterTide .free s)
      else if k == 2 then bringUpStep 2 u (verifyImages s)
      else bringUpStep k u s)

/-- OPTICAL_WAIT_DONE (R389). -/
def execOpticalWaitDone (s : State) : Result := .next (bringUpJudge s)

/-! ### A die's clocks (R62, R64) -/

/-- Whether a die's PLL runs: it is in service, cut off, in its test, relocked and not yet rejoined, or not yet gated on its way out. -/
def pllRuns (s : State) (site : Nat) : Bool :=
  (siteReasons s site).all (fun w => w == .cutOff || w == .dieTest) || (tget? s.net.leaving site).isSome ||
    (match tget? s.net.rejoin site with | some r => r.started | none => false)

/-- PLL_LOCK_LOSS (R62): the die stops its CCLK; its site is unavailable; a region-fatal record; the in-service test decides. -/
def execPllLockLoss (site : Fin 88) (s : State) : Result :=
  .next (if pllRuns s site then
      testAsk site (raise site bTID sRegion 0x10 none site 0 0 (siteLost site .pll s))
    else s)

/-- DIE_REENABLE (R64): at the named boundary the PLL starts and the ports begin retraining. -/
def execDieReenable (site : Fin 88) (s : State) : Result :=
  .next (match tget? s.net.rejoin site with
    | some r => if !r.started && r.slot ≤ slotNow s then modNet (fun n => { n with rejoin := tset n.rejoin site { r with started := true } }) s else s
    | none => s)

/-- DIE_RELOCK_DONE (R64): relock and retraining succeed; the rejoining commit is due. -/
def execDieRelockDone (site : Fin 88) (s : State) : Result :=
  .next (match tget? s.net.rejoin site with
    | some r =>
      if r.started && !r.relocked then
        modNet (fun n => { n with rejoin := tset n.rejoin site { r with relocked := true }, toJoin := addN n.toJoin site, routesDue := true }) s
      else s
    | none => s)

/-- DIE_RELOCK_MISS (R64): a contained record; the attempt repeats from the next boundary; after three misses the site is left to the
in-service test. -/
def execDieRelockMiss (site : Fin 88) (s : State) : Result :=
  .next (match tget? s.net.rejoin site with
    | some r =>
      if r.started && !r.relocked then
        let s := raise site bTID sCont 0x10 none site (r.misses + 1) 0 s
        if 3 ≤ r.misses + 1 then testAsk site (modNet (fun n => { n with rejoin := tdel n.rejoin site }) s)
        else modNet (fun n => { n with rejoin := tset n.rejoin site { r with slot := slotNow s + 1, started := false, misses := r.misses + 1 } }) s
      else s
    | none => s)

end Sys2Proof.Machine
end

