-- ==== Sys2Proof/Machine/Cells.lean ====
section
/-! DEFINITION. Meanings: a cell's instructions and events (R66 to R106). -/
namespace Sys2Proof.Machine

/-! ### Sirdor instructions -/

/-- LDN (R68, R102). -/
def execLdn (l : Fin 1024000) (th : Fin 4) (rt rb : Fin 32) (sz : Fin 4) (sxb : Bool) (off : BitVec 12) (e : Ecc) (s : State) : Result :=
  .next (issue l th (.ldn rt rb sz sxb off) e s)

/-- STN (R68, R102). -/
def execStn (l : Fin 1024000) (th : Fin 4) (rt rb : Fin 32) (sz : Fin 4) (off : BitVec 12) (e : Ecc) (s : State) : Result :=
  .next (issue l th (.stn rt rb sz off) e s)

/-- VLD (R102). -/
def execVld (l : Fin 1024000) (th : Fin 4) (vt : Fin 8) (rb : Fin 32) (rel : Bool) (off : BitVec 10) (e : Ecc) (s : State) : Result :=
  .next (issue l th (.vld vt rb rel off) e s)

/-- VST (R102). -/
def execVst (l : Fin 1024000) (th : Fin 4) (vt : Fin 8) (rb : Fin 32) (off : BitVec 10) (e : Ecc) (s : State) : Result :=
  .next (issue l th (.vst vt rb off) e s)

/-- FETCH (R92, R102). -/
def execFetch (l : Fin 1024000) (th : Fin 4) (ra rl : Fin 32) (len : Fin 8) (cnt : Fin 16) (e : Ecc) (s : State) : Result :=
  .next (issue l th (.fetch ra rl len cnt) e s)

/-- SEND (R92, R102). -/
def execSend (l : Fin 1024000) (th : Fin 4) (ra rl : Fin 32) (len : Fin 8) (cnt : Fin 16) (rel : Bool) (e : Ecc) (s : State) : Result :=
  .next (issue l th (.send ra rl len cnt rel) e s)

/-- LDX (R92, R102). -/
def execLdx (l : Fin 1024000) (th : Fin 4) (rt ra : Fin 32) (e : Ecc) (s : State) : Result := .next (issue l th (.ldx rt ra) e s)

/-- TWAIT (R79). -/
def execTwait (l : Fin 1024000) (th : Fin 4) (rs : Fin 32) (n : Fin 16) (slot : BitVec 8) (e : Ecc) (s : State) : Result :=
  .next (issue l th (.tag 0 rs 0 n slot) e s)

/-- TWAITE (R79). -/
def execTwaite (l : Fin 1024000) (th : Fin 4) (rs : Fin 32) (n : Fin 16) (slot : BitVec 8) (e : Ecc) (s : State) : Result :=
  .next (issue l th (.tag 1 rs 0 n slot) e s)

/-- TFULL (R79). -/
def execTfull (l : Fin 1024000) (th : Fin 4) (rs rc : Fin 32) (n : Fin 16) (slot : BitVec 8) (e : Ecc) (s : State) : Result :=
  .next (issue l th (.tag 2 rs rc n slot) e s)

/-- TREL (R79). -/
def execTrel (l : Fin 1024000) (th : Fin 4) (rs : Fin 32) (n : Fin 16) (slot : BitVec 8) (e : Ecc) (s : State) : Result :=
  .next (issue l th (.tag 3 rs 0 n slot) e s)

/-- TPIN (R79). -/
def execTpin (l : Fin 1024000) (th : Fin 4) (rs : Fin 32) (n : Fin 16) (slot : BitVec 8) (e : Ecc) (s : State) : Result :=
  .next (issue l th (.tag 4 rs 0 n slot) e s)

/-- TUNPIN (R79). -/
def execTunpin (l : Fin 1024000) (th : Fin 4) (rs : Fin 32) (n : Fin 16) (slot : BitVec 8) (e : Ecc) (s : State) : Result :=
  .next (issue l th (.tag 5 rs 0 n slot) e s)

/-- TSTAT (R79). -/
def execTstat (l : Fin 1024000) (th : Fin 4) (rs rc : Fin 32) (n : Fin 16) (slot : BitVec 8) (e : Ecc) (s : State) : Result :=
  .next (issue l th (.tag 6 rs rc n slot) e s)

/-- AMM (R99, R104). -/
def execAmm (l : Fin 1024000) (th : Fin 4) (ra rb rk : Fin 32) (fmt : Fin 8) (acc : Bool) (bank : Fin 2) (relA relB : Bool) (e : Ecc) (s : State) : Result :=
  .next (issue l th (.amm ra rb rk fmt acc bank relA relB) e s)

/-- AOUT (R99, R104). -/
def execAout (l : Fin 1024000) (th : Fin 4) (rd rc : Fin 32) (ofmt : Fin 4) (pub : Bool) (bank : Fin 2) (e : Ecc) (s : State) : Result :=
  .next (issue l th (.aout rd rc ofmt pub bank) e s)

/-- A fetched instruction of a class described by its behaviour: its word spells none of R101's instructions. -/
def plain (l th : Nat) (e : Ecc) (f : Prog → State → State) (s : State) : State :=
  fetchGo l th e (fun p s => if (sirOf (codeWord (getCell s l) (getTh (getCell s l) th).pc)).isNone then f p s else s) s

/-- R89, R103: a fetched word with an undefined opcode value, a TAG word with op 0x7 to 0xF among them, traps with the illegal cause. -/
def undefinedOp (l th : Nat) (e : Ecc) (s : State) : State :=
  fetchGo l th e (fun _ s =>
    if (match sirOf (codeWord (getCell s l) (getTh (getCell s l) th).pc) with | none => true | some (.tag op _ _ _ _) => decide (7 ≤ op.val) | _ => false)
    then trap l th .illegal s else s) s

/-- TRAIL (R144): the template from g[n] to g[n + 3]: format, alive, ident low, ident high. -/
def execTrail (l : Fin 1024000) (th : Fin 4) (n : Fin 32) (e : Ecc) (s : State) : Result :=
  .next (plain l th e (fun _ s => done l th (fun t =>
    let g (i : Nat) : Nat := getG t ((n.val + i) % 32)
    { t with tmpl := (g 0 % 65536, g 1 % 65536, g 2 + 2 ^ 32 * g 3) }) s) s)

/-- R88: when every started thread has halted or trapped, the slot program finishes. -/
def finishProgram (l : Nat) (s : State) : State :=
  let x := getCell s l
  if x.threads.all (fun e => match e.2.st with | .run => false | .wait _ _ => false | .ldx _ => false | _ => true) then
    modCell l (fun x => { x with prog := none }) s
  else s

/-- HALT (R88). -/
def execHalt (l : Fin 1024000) (th : Fin 4) (e : Ecc) (s : State) : Result :=
  .next (plain l th e (fun _ s => finishProgram l (modCell l (modTh th fun t => { t with st := .halted }) s)) s)

/-- BRANCH (R88): a taken branch fetches at its target. -/
def execBranch (l : Fin 1024000) (th : Fin 4) (taken : Bool) (target : BitVec 16) (e : Ecc) (s : State) : Result :=
  .next (plain l th e (fun _ s => modCell l (modTh th fun t => if taken then { t with pc := target.toNat } else stepPc t) s) s)

/-- INTEGER_OP: the operation code, where one is defined, on two registers and an immediate (R105). An undefined opcode
value traps with the illegal cause (R89). -/
def execIntegerOp (l : Fin 1024000) (th : Fin 4) (op : Option (BitVec 8)) (rt ra rb : Fin 32) (imm : Word) (e : Ecc) (s : State) : Result :=
  .next (match op with
    | none => undefinedOp l th e s
    | some o => plain l th e (fun _ s => done l th (fun t => setG rt (Config.aluResult o.toNat (getG t ra) (getG t rb) imm.toNat).toNat t) s) s)

/-! ### The vector unit (R94, R95, R115 to R123, R128) -/

/-- The pairwise tree in lane order (R121): each level combines neighbours. -/
def treeRed (f : Nat → Nat → Nat) : Nat → List Nat → Nat
  | 0, l => l.headD 0
  | n + 1, l => treeRed f n ((List.range (l.length / 2)).map fun i => f (l.getD (2 * i) 0) (l.getD (2 * i + 1) 0))

/-- IEEE maximum and minimum on FP32 codes: a NaN gives the canonical NaN, −0 is below +0. -/
def max32 (a b : Nat) : Nat :=
  let x := decodeF fp32 a
  let y := decodeF fp32 b
  if isNan x || isNan y then 0x7FC00000 else if ltV x y then b else if ltV y x then a else if bitN a 31 then b else a
def min32 (a b : Nat) : Nat :=
  let x := decodeF fp32 a
  let y := decodeF fp32 b
  if isNan x || isNan y then 0x7FC00000 else if ltV x y then a else if ltV y x then b else if bitN a 31 then a else b

/-- A BF16 code as the FP32 code of its value (R107), and the value of an FP32 code rounded to BF16 by RNE. -/
def bf32 (v : Nat) : Nat := v * 65536
def to16 (v : FVal) : Nat := roundF bf16 v

/-- One lane of a vector operation in FP32 or BF16, one rounding (R121). -/
def laneOp (op : VOp) (half : Bool) (a b c : Nat) : Nat :=
  let f : FFmt := if half then bf16 else fp32
  let x := decodeF f a
  let y := decodeF f b
  let z := decodeF f c
  match op with
  | .fma => roundF f (addV (mulV x y) z)
  | .add => roundF f (addV x y)
  | .mul => roundF f (mulV x y)
  | .min => if half then min32 (bf32 a) (bf32 b) / 65536 else min32 a b
  | .max => if half then max32 (bf32 a) (bf32 b) / 65536 else max32 a b
  | .cmp => (Config.cmpResult a b).toNat % 2 ^ f.width
  | .exp => if half then to16 (decodeF fp32 (exp32 (Config.expPick (bf32 a)) x)) else exp32 (Config.expPick a) x
  | .rsqrt => if half then to16 (decodeF fp32 (rsqrt32 (Config.rsqPick (bf32 a)) x)) else rsqrt32 (Config.rsqPick a) x
  | _ => 0

/-- A whole vector operation on three registers; `fr` numbers the free lanes of a reduction. A shuffle in BF16 permutes each 16-lane half by the
same 16 nibbles (DESIGN CHOICE, log 184). -/
def vecOp (op : VOp) (half : Bool) (fr : Nat) (a b c : Bytes) : Bytes :=
  let w := if half then 2 else 4
  let ls (x : Bytes) : List Nat := if half then lanes16 x else lanes32 x
  let n := 64 / w
  let red (f : Nat → Nat → Nat) : Bytes :=
    ofLanes w (treeRed f (if half then 5 else 4) (ls a) :: (List.range (n - 1)).map fun i => (Config.laneRest fr (i + 1)).toNat % 2 ^ (8 * w))
  match op with
  | .shuffle perm => ofLanes w ((List.range n).map fun i => (ls a).getD (i / 16 * 16 + bitsN perm.toNat (4 * (i % 16) + 3) (4 * (i % 16))) 0)
  | .reduceAdd => red (laneOp .add half · · 0)
  | .reduceMax => red (laneOp .max half · · 0)
  | .reduceMin => red (laneOp .min half · · 0)
  | op => ofLanes w ((List.range n).map fun i => laneOp op half ((ls a).getD i 0) ((ls b).getD i 0) ((ls c).getD i 0))

/-- VECTOR_ARITH (R94, R121). -/
def execVectorArith (l : Fin 1024000) (th : Fin 4) (op : VOp) (half : Bool) (vd va vb vc : Fin 8) (e : Ecc) (s : State) : Result :=
  .next (plain l th e (fun _ s =>
    let s' := done l th (fun t => setV vd (vecOp op half s.free (getV t va) (getV t vb) (getV t vc)) t) s
    { s' with free := s.free + 1 }) s)

/-- What a conversion yields: register bytes, saturations, non-finite results, block flags for a row. -/
structure ConvOut where
  bytes : Bytes
  sats : Nat := 0
  nonfin : Nat := 0
  ovf : Bool := false
  hot : Bool := false
  nf : Bool := false
  deriving DecidableEq, Repr

/-- The FP32 values of a run of registers from `r` on. -/
def valsFrom (t : Thread) (r n : Nat) : List FVal :=
  ((List.range n).flatMap fun i => lanes32 (getV t ((r + i) % 8))).map (decodeF fp32)

/-- Narrow a list of values to a scalar format (R115, R119), counting. -/
def narrowAll (f : FFmt) (sr : Bool) (draw : Nat → Nat) (vs : List FVal) : List (Nat × NarrowNote) :=
  (List.range vs.length).map fun i => narrowF f (if sr then .sr (draw i) else .rne) (vs.getD i (.fin false 0 0))

/-- Values narrowed to a scalar format, as a conversion's output. -/
def scalarOut (f : FFmt) (sr : Bool) (draw : Nat → Nat) (vs : List FVal) : ConvOut :=
  let rs := narrowAll f sr draw vs
  { bytes := ofLanes (f.width / 8) (rs.map (·.1)), sats := (rs.filter (·.2.sat)).length, nonfin := (rs.filter (·.2.nonfin)).length }

/-- 32 values as one MX block: elements, then the scale (R108, R120). -/
def mxOut (code : Nat) (sr : Bool) (draw : Nat → Nat) (vs : List FVal) : ConvOut :=
  match elemOf code with
  | some e =>
    let sc := mxScale e vs
    let bits := match elemFmt e with | some f => f.width | none => 8
    let rs := (List.range 32).map fun i => mxElem e (if sr then .sr (draw i) else .rne) sc (vs.getD i (.fin false 0 0))
    { bytes := natLE (4 * bits) (rs.foldr (fun r acc => r.1 % 2 ^ bits + 2 ^ bits * acc) 0) ++ [BitVec.ofNat 8 sc],
      sats := (rs.filter (·.2)).length, nonfin := b2n (sc == 0xFF) }
  | none => { bytes := [] }

/-- One conversion (R95, R110, R111, R115, R119, R120, R123, R128). -/
def convert (cv : VConv) (sr : Bool) (draw : Nat → Nat) (t : Thread) (a : Nat) : ConvOut :=
  match cv with
  | .narrow code =>
    match (elemOf code).bind elemFmt with
    | some f =>
      scalarOut f sr draw (valsFrom t a (4 / (f.width / 8)))
    | none => { bytes := getV t a }
  | .widen code =>
    match (elemOf code).bind elemFmt with
    | some f =>
      let w := f.width / 8
      { bytes := ofLanes 4 ((List.range 16).map fun i => roundF fp32 (decodeF f (leField (getV t a) (w * i) w))) }
    | none => { bytes := getV t a }
  | .mx code => mxOut code sr draw (valsFrom t a 2)
  | .sw12 =>
    let b := sw12Encode true draw (valsFrom t a 1)
    { bytes := BitVec.ofNat 8 b.exp :: natLE 24 (b.fields.foldr (fun f acc => f % 4096 + 4096 * acc) 0), sats := b.sats, nonfin := b2n b.nonfin }
  | .unsw12 =>
    let r := getV t a
    { bytes := ofLanes 4 ((List.range 16).map fun i => roundF fp32 (sw12Val (leField r 0 1) (bitsN (leField r 1 24) (12 * i + 11) (12 * i)))) }
  | .fromSw12 code =>
    -- R115: exact values of SW12 blocks, narrowed by RNE
    let sw (r : Nat) : List FVal := let b := getV t (r % 8); (List.range 16).map fun i => sw12Val (leField b 0 1) (bitsN (leField b 1 24) (12 * i + 11) (12 * i))
    if isMx code then mxOut code false draw (sw a ++ sw (a + 1))
    else match (elemOf code).bind elemFmt with
      | some f => scalarOut f false draw (sw a)
      | none => { bytes := getV t a }
  | .dbi exp h _ =>
    let vs := valsFrom t a 1
    let es := (List.range 16).map fun i => dbiConvert h exp (draw i) (vs.getD i (.fin false 0 0))
    { bytes := ofLanes 4 (es.map fun e => unsN 32 e.q), sats := (es.filter (·.ovf)).length, nonfin := (es.filter (·.nf)).length,
      ovf := es.any (·.ovf), hot := es.any (·.hot), nf := es.any (·.nf) }
  | .health exp h _ =>
    let ls := lanes32 (getV t a)
    let loss := decodeF fp32 (ls.getD 0 0)
    let e0 := dbiConvert h exp (draw 0) loss
    let cl (v : Nat) : Nat × Bool := if dbiLim h < v then ((dbiLim h).toNat, true) else (v, false)
    let c1 := cl (ls.getD 1 0)
    let c2 := cl (ls.getD 2 0 + b2n e0.nf)
    { bytes := ofLanes 4 ([unsN 32 e0.q, c1.1, c2.1, ls.getD 3 0] ++ List.replicate 12 0), sats := b2n e0.ovf, nonfin := b2n e0.nf,
      ovf := e0.ovf || c1.2 || c2.2, hot := e0.hot, nf := e0.nf }

/-- The row whose span's block flags a conversion sets, and the block's bit (R95). -/
def convRow (cv : VConv) : Option (Nat × Nat) :=
  match cv with
  | .dbi _ _ row => some (row, bitsN row 10 7)
  | .health _ _ row => some (row, 0)
  | _ => none

/-- R95: OR a block's flags into the span's word. -/
def orFlags (row bit : Nat) (o : ConvOut) (x : Cell) : Cell :=
  let w := tget x.flags (row / 2048) 0
  let w' := w ||| (b2n o.ovf * 2 ^ bit) ||| (b2n o.hot * 2 ^ (16 + bit)) ||| (b2n o.nf * 2 ^ (32 + bit))
  if w' == 0 then x else { x with flags := tset x.flags (row / 2048) w' }

/-- Whether a conversion rounds stochastically (R115). -/
def convSr (cv : VConv) (sr : Bool) : Bool :=
  match cv with
  | .dbi _ _ _ => true | .health _ _ _ => true | .sw12 => true | .narrow _ => sr | .mx _ => sr | _ => false

/-- Whether a conversion names formats that exist (R89: an undefined format code is illegal). -/
def convOk (cv : VConv) : Bool :=
  match cv with
  | .narrow c => c == 2 || c == 3 || c == 4
  | .widen c => c == 2 || c == 3 || c == 4
  | .mx c => isMx c
  | .fromSw12 c => c == 2 || c == 3 || c == 4 || isMx c
  | .dbi _ h _ => decide (1 ≤ h) && decide (h ≤ 24)
  | .health _ h _ => decide (1 ≤ h) && decide (h ≤ 24)
  | _ => true

/-- VECTOR_CONVERT (R94, R95, R115). The draws of its SR are keyed by slot, cell, context, thread, ordinal, lane (R117). -/
def execVectorConvert (l : Fin 1024000) (th : Fin 4) (cv : VConv) (sr : Bool) (vd va : Fin 8) (e : Ecc) (s : State) : Result :=
  .next (plain l th e (fun p s =>
    let t := getTh (getCell s l) th
    if !(convOk cv) then trap l th .illegal s
    else match convRow cv with
      | some (row, bit) =>
        if row % 64 != 0 then trap l th .alignment s
        else if row > 0xFEFF then trap l th .address s
        else
          let s := flagRead l row e s
          let o := convert cv true (srDraw (srKey (p.slot * 16384) l p.ctx) th t.srN) t va
          let s := countN bCEL 6 2 l o.sats (countN bCEL 7 2 l o.nonfin s)
          done l th (fun t => { setV vd o.bytes t with srN := t.srN + 1 }) (modCell l (orFlags row bit o) s)
      | none =>
        let o := convert cv (convSr cv sr) (srDraw (srKey (p.slot * 16384) l p.ctx) th t.srN) t va
        let s := countN bCEL 6 2 l o.sats (countN bCEL 7 2 l o.nonfin s)
        done l th (fun t => { setV vd o.bytes t with srN := t.srN + b2n (convSr cv sr) }) s) s)

/-! ### Waits (R75, R77, R98) -/

/-- ACCESS_WAKE: what waits proceeds once its slot's tag allows it (R75, R98). -/
def execAccessWake (l : Fin 1024000) (w : Wake) (e : Ecc) (s : State) : Result :=
  .next (match w with
    | .thread th =>
      match (getTh (getCell s l) th).st with
      | .wait (.aout _ _ _ _ _) _ => s
      | .wait i since => doSir l th i since e s
      | _ => s
    | .fill i => if sliced s l then s else retryFill l i s
    | .array => if (getCell s l).streams.any (·.st == .held) then arrayGo l (hitAt (heldRow s l) e) s else s)

/-- CEL_WAIT_LIMIT.wait_slots; 0 acts as 255 (R77, R106). -/
def waitLimit (s : State) : Nat := let v := regL s 0x1008 0 7 0; if v == 0 then 255 else v

/-- Whether a wait since a boundary count has reached the limit. -/
def limitHit (s : State) (since : Nat) : Bool := decide (since + waitLimit s ≤ s.tide.bnd)

/-- R180: the record of a delivery dropped at the wait limit names its pass, by the source address, and its group (DESIGN CHOICE, log 191). -/
def delDropped (e did ctx : Nat) (s : State) : State :=
  let d := (getFrs s e).dels.find? (·.did == did)
  let p := d.bind fun d => ((getFrs s e).passes ++ (getFrs s e).past).find? (·.id == d.pass)
  raise (ringUnit e) bFRS sCont 0x06 (some ctx) ((p.map (·.srcPay)).getD 0) ((d.map (·.grp)).getD 0) 0 s

/-- WAIT_LIMIT (R77): the thread traps, at its own instruction or at its stream's; the fill, remote read or SEND is dropped and its requester
refused. -/
def execWaitLimit (w : Waiter) (s : State) : Result :=
  .next (match w with
    | .thread l th =>
      match (getTh (getCell s l) th).st with
      | .wait _ since => if !(ctxFrozen s (progCtx (getCell s l))) && limitHit s since then trap l th .waitLimit s else s
      | _ => s
    | .fill l i =>
      match (getCell s l).fills[i]? with
      | some f =>
        if !(ctxFrozen s (some f.ctx)) && limitHit s f.bnd then
          let s := modCell l (fun x => { x with fills := ldel x.fills i }) s
          match f.kind with
          | .fetch op => refuseOp l op s
          | .send src op _ => send (.refuse src op) s
          | .delivery e did => delDropped e did f.ctx (countDel 6 e did (fillOver l f false s))
          | .refetch (some e) did => delDropped e did f.ctx (countDel 6 e did (fillOver l f false s))
          | _ => fillOver l f false s
        else s
      | none => s
    | .read m =>
      match tget? s.fly m with
      | some (.readReq src op _ _ _ _ (some since)) => if limitHit s since then send (.refuse src op) (unfly m s) else s
      | some (.sendReq src op (some since)) => if limitHit s since then send (.refuse src op) (unfly m s) else s
      | _ => s
    | .array l =>
      match (getCell s l).streams.find? (·.st == .held) with
      | some m => if !(ctxFrozen s (some m.ctx)) && limitHit s m.since then streamTrap l m .waitLimit s else s
      | none => s)

/-! ### Fills and remote operations -/

/-- FILL_ARRIVAL (R93): a fill, send, delivery, refetch or poison notice reaches a cell; SENDs of one thread land in issue order. `alter`: its payload and trailer as
altered on the way; none: as it left. -/
def execFillArrival (m : Nat) (l : Fin 1024000) (alter : Option Bytes) (s : State) : Result :=
  .next (match tget? s.fly m with
    | some (.fill f cells) =>
      let first := match f.kind with | .send src op th => !(sendAhead s src th l op) | _ => true
      if cells.contains l.val && !(sliced s l) && first then
        let left := cells.filter (· != l.val)
        let s := if left.isEmpty then unfly m s else refly m (.fill f left) s
        let f := match alter with
          | some b => { f with data := fitB b f.len, trailer := sliceB b f.len 32 }
          | none => f
        landFill l { f with cell := l, bnd := s.tide.bnd } s
      else s
    | _ => s)

/-- ECC_WRITEBACK (R83): a corrected word is written back. -/
def execEccWriteback (l : Fin 1024000) (s : State) : Result :=
  .next (modCell l (fun x => { x with writeback := x.writeback.drop 1 }) s)

/-- LDX_RETURN (R92): the data arrives and the thread is ready; a poisoned line traps with the poison cause (R188). -/
def execLdxReturn (m : Nat) (s : State) : Result :=
  .next (match tget? s.fly m with
    | some (.ldxData l op v) =>
      let s := unfly m s
      match findOp (getCell s l) op with
      | some o =>
        let s := dropOp l op s
        if (getTh (getCell s l) o.th).st == .ldx op then
          match v with
          | some v => done l o.th (setG o.rt v) s
          | none => trap l o.th .poison s
        else s
      | none => s
    | _ => s)

/-- The counter of a packet discarded for a cell: its router meets a hole (R27), or its site is unavailable (R32). -/
def dropNum (s : State) (l : Nat) : Nat := if siteAvail s (dieSite s (logDie80 l)) then 0 else 1

/-- R27, R32: a message of a traffic class from one cell to another that is not usable is discarded, counted and recorded by the hole's router,
or by the last available router on the committed route. -/
def cellDrop (src dst ctx cls : Nat) (s : State) : State :=
  let at_ := if dropNum s dst == 0 then cellUnit s dst else lastRouter s (cellUnit s dst) 88 (cellUnit s src)
  raise at_ bRIL sCont 0x07 (some ctx) src (dst + cls * 2 ^ 32) 0 (count bRIL (dropNum s dst) 0 at_ s)

/-- REMOTE_READ_SERVE (R76, R93): a target cell serves, holds or refuses a remote read. -/
def execRemoteReadServe (m : Nat) (e : Ecc) (s : State) : Result :=
  .next (match tget? s.fly m with
    | some (.readReq src op dst a n ctx since) =>
      if !(cellUsable s dst) then
        -- R27: a packet addressed to a hole cell is discarded, counted and reported
        cellDrop src dst ctx 0 (unfly m s)
      else if sliced s dst then s
      else
        let slots := slotsOf a n
        let held (s : State) : State := refly m (.readReq src op dst a n ctx (some (since.getD s.tide.bnd))) (cellStall dst s)
        match accessAll (getCell s dst) ctx slots false with
        | .trap _ => send (.refuse src op) (unfly m s)
        | .wait => held s
        | .ok =>
          let (s, fine) := eccRead dst a e s
          if !fine then
            match accessAll (getCell s dst) ctx slots false with
            | .trap _ => send (.refuse src op) (unfly m s)
            | _ => held s
          else
            let data := bread (getCell s dst).mem a n
            let s := unfly m s
            match findOp (getCell s src) op with
            | none => s
            | some o =>
              if !(opFirst (getCell s src) o) || sendAhead s src o.th dst op then refly m (.readReq src op dst a n ctx since) s
              else if o.kind == .ldx then send (.ldxData src op (some (leNat data))) s
              else
                let f : Fill := { kind := .fetch op, cell := src, addr := o.loc, len := n, cnt := o.cnt, ctx := ctx, data := data,
                                  trailer := if n == 2048 then serveTrailer s dst a else [] }
                send (.fill f [src]) s
    | _ => s)

/-- REMOTE_REFUSAL (R89). -/
def execRemoteRefusal (m : Nat) (s : State) : Result :=
  .next (match tget? s.fly m with
    | some (.refuse l op) => refuseOp l op (unfly m s)
    | _ => s)

/-- SEND_DELIVER (R75, R77, R92): a cell-space destination accepts a SEND, its source is read and its data leaves; until then the SEND waits. -/
def execSendDeliver (m : Nat) (e : Ecc) (s : State) : Result :=
  .next (match tget? s.fly m with
    | some (.sendReq src op since) =>
      match findOp (getCell s src) op with
      | none => unfly m s
      | some o =>
        let dst := remCell o.remote
        let a := remSpad o.remote
        let slots := slotsOf a o.len
        let x := getCell s dst
        let held (s : State) : State := refly m (.sendReq src op (some (since.getD s.tide.bnd))) s
        if !(cellUsable s dst) then
          cellDrop src dst o.ctx 0 (unfly m s)
        else if sliced s dst then s
        else if !(slots.all fun k => (tagOf x k).owner == o.ctx) then send (.refuse src op) (unfly m s)
        else if slots.any (fun k => (tagOf x k).st == .scrub) then count bCHK 2 2 dst (dropOp src op (unfly m s))
        else if !(slots.all fun k => (tagOf x k).st == .empty && !(tagOf x k).pend) then held (cellStall src s)
        else if !(opFirst (getCell s src) o) then s
        else match readSend src o e s with
          | (s, .gone) => unfly m s
          | (s, .wait) => held s
          | (s, .ok) =>
            let s := modCell dst (fun x => slots.foldl (fun x k => setTag k { tagOf x k with pend := true } x) x) (unfly m s)
            let f : Fill := { kind := .send src op o.th, cell := dst, addr := a, len := o.len, cnt := o.cnt, ctx := o.ctx,
                              data := bread (getCell s src).mem o.loc o.len,
                              trailer := if o.len == 2048 then sendTrailer s src o else [] }
            modOp src op (fun o => { o with st := .leaving }) (send (.fill f [dst]) s)
    | _ => s)

/-- SEND_DONE (R79, R93): the last byte has left; rel consumes the source once, and traps where it is not FULL. -/
def execSendDone (l : Fin 1024000) (op : Nat) (s : State) : Result :=
  .next (match findOp (getCell s l) op with
    | some o =>
      if o.kind == .send && o.st == .leaving then
        let s := dropOp l op s
        let slots := tagAll (getCell s l) (slotsOf o.loc o.len)
        if !o.rel then s
        else if slots.all (fun k => (tagOf (getCell s l) k).st == .full) then
          modCell l (fun x => (unitHeads x (slotsOf o.loc o.len)).foldl (fun x k => consume k x) x) s
        else opTrap l o .tagProtocol s
      else s
    | none => s)

/-! ### Scrub, kill, patrol (R80, R81, R84) -/

/-- SCRUB_COMMAND (R81): slots 0 to 254 whose owner is to change. -/
def execScrubCommand (l : Fin 1024000) (slots : List (Fin 255)) (owner : Fin 2048) (s : State) : Result :=
  .next (if sliced s l then s else scrubSlots l ((slots.map (·.val)).eraseDups) owner none s)

/-- A cell's report of a kill reaches the context (R81, R332). -/
def killReport (l c : Nat) (s : State) : State :=
  modCtx c (fun x => { x with kill := x.kill.map fun k => { k with waiting := k.waiting.filter (· != l), tide := max k.tide s.tide.count } }) s

/-- SCRUB_DONE (R80, R81): the oldest scrub of a cell ends and is reported over Rill at priority 2. -/
def execScrubDone (l : Fin 1024000) (s : State) : Result :=
  .next (match (if sliced s l then [] else (getCell s l).scrubs) with
    | [] => s
    | sc :: rest =>
      let s := modCell l (fun x => scrubFinish sc { x with scrubs := rest }) s
      let s := rillSend (cellUnit s l) unitTL 2 0x51 [l, s.tide.count] s
      match sc.kill with
      | some c => if rest.any (·.kill == some c) then s else killReport l c s
      | none => s)

/-- CELL_KILL (R81): a kill whose boundary has passed takes effect on a cell that it waits for; a cell with no slot to scrub
reports at once. -/
def execCellKill (l : Fin 1024000) (c : Fin 1024) (s : State) : Result :=
  .next (match (getCtx s c).kill with
    | some k =>
      if k.started && k.waiting.contains l.val && !(sliced s l) && !((getCell s l).scrubs.any (·.kill == some c.val)) then
        let s := cellKill l c s
        if (getCell s l).scrubs.any (·.kill == some c.val) then s else killReport l c s
      else s
    | none => s)

/-- PATROL_READ (R84): one wide row; rows of SCRUB slots are skipped. -/
def execPatrolRead (l : Fin 1024000) (e : Ecc) (s : State) : Result :=
  .next (if bitN (regLive s 0x100C 0) 0 && !(sliced s l) then
      let row := (getCell s l).patrolRow % 1024
      let s := modCell l (fun x => { x with patrolRow := (row + 1) % 1024 }) s
      if (tagOf (getCell s l) (row / 4)).st == .scrub then s else (eccRead l (64 * row) e s).1
    else s)

/-! ### Slot programs (R58, R85, R87) -/

/-- The context whose placement holds a cell. -/
def cellCtx (s : State) (l : Nat) : Option Nat :=
  (s.ctxs.find? fun e => e.2.plan.rects.any fun rs => rs.any fun r => rectHas r l).map (·.1)

/-- R432, R439: whether a cluster takes no program in a slot: t of every 16 slots at throttle t, 8 of every 16 on a die at heat level 2
that cannot be switched off, in a pattern staggered by the cluster's number (DESIGN CHOICE); nor while the module shuts down (R441) or Sluice's image changes
(R413). -/
def throttled (s : State) (cl slot : Nat) : Bool :=
  let die := if s.lev.halved.contains (dieSite s (cl / 800)) then 8 else 0
  decide ((slot + cl) % 16 < max s.lev.throttle die) || s.lev.power != .on || updating s 5

/-- SLOT_SELECTION (R87, R252): one message for a cluster names a descriptor index, or none, for each context. -/
def execSlotSelection (cl : Fin 64000) (slot : BitVec 50) (picks : List (Fin 1024 × Option (Fin 16))) (ps : List Contrib) (s : State) : Result :=
  let l0 := logCell (cl / 800) (cl % 800 / 32 * 4) (cl % 32 * 4)
  .next ((clusterCells l0).foldl (fun s l =>
    match cellCtx s l with
    | none => s
    | some c =>
      match (if ctxFrozen s (some c) then none else picks.find? (·.1.val == c)) with
      | none => s
      | some (_, pick) =>
        modCell l (fun x => { x with
          sel := (match (if throttled s cl slot.toNat || sliced s l then none else pick) with | some i => x.sel ++ [(slot.toNat, c, i.val)] | none => x.sel ++ [(slot.toNat, c, 16)]),
          contrib := x.contrib.filter (·.ctx != c) ++ ps.filter (·.ctx == c) }) s) s)

/-- A program-table descriptor (R85): the first word, sched_cycles, four entries. -/
def progDesc (x : Cell) (i : Nat) : Nat × Nat × List Nat :=
  let b := bread x.mem (0xFF00 + 16 * i) 16
  (leField b 0 4, leField b 4 4, (List.range 4).map fun j => leField b (8 + 2 * j) 2)

/-- SLOT_PROGRAM_START (R58, R87): the program, if it names one, of the earliest selected slot whose boundary has passed starts. -/
def execSlotProgramStart (l : Fin 1024000) (s : State) : Result :=
  let x := getCell s l
  .next (if x.prog.isSome || x.suspect || sliced s l || !(cellUsable s l) then s
    else match x.sel with
      | [] => s
      | (slot, c, i) :: rest =>
        if slotNow s < slot then s
        else
          let s := modCell l (fun x => { x with sel := rest }) s
          let (w, _, ents) := progDesc x i
          if slot < x.noStart then s
          else if i == 16 || !(bitN w 12) || bitsN w 9 0 != c then s
          else telStarted l (modCell l (fun x => { x with
            progs := x.progs + 1,
            prog := some { num := x.progs + 1, ctx := c, idx := i, slot := slot, gang := bitN w 10, sortmerge := bitN w 11 },
            threads := (List.range 4).map fun j =>
              (j, if ents.getD j 0xFFFF == 0xFFFF then {} else { st := .run, pc := ents.getD j 0 }) }) s))

/-! ### The array (R98 to R100) -/

/-- AMM_STREAM_START (R99): the first queued stream begins; one operand row of a source cell may need correction. -/
def execAmmStreamStart (l : Fin 1024000) (at_ : Option (Fin 1024000 × BitVec 16)) (e : Ecc) (s : State) : Result :=
  .next (if (getCell s l).streams.any (·.st == .queued) && !((getCell s l).streams.any (·.st == .held)) then
      arrayGo l (hitAt (at_.map fun a => (a.1.val, a.2.toNat)) e) s
    else s)

/-- BANK_READY (R99): three cycles after its last k-step a bank is ready for AOUT and its queue entry is free. -/
def execBankReady (l : Fin 1024000) (bank : Fin 2) (s : State) : Result :=
  .next (modCell l (fun x => { x with streams := x.streams.filter fun m => !(m.bank == bank.val && m.st == .running) }) s)

/-- AOUT_WRITE (R59, R99, R100): the oldest AOUT whose bank is ready and whose destination it need not wait for writes; one that waits is
counted as a stall. -/
def execAoutWrite (l : Fin 1024000) (s : State) : Result :=
  let x := getCell s l
  .next (match x.prog with
    | some p =>
      let cells := gangCells p.gang l
      let ready := x.aouts.filter fun o => !(x.streams.any (·.bank == o.bank))
      match ready.find? fun o => aoutAccess s cells p o != .wait with
      | some o =>
        match aoutAccess s cells p o with
        | .trap c => trap l o.th c s
        | _ => aoutGo l cells o p s
      | none => if ready.isEmpty then s else cellStall l s
    | none => s)

end Sys2Proof.Machine
end

