-- ==== Sys2Proof/Machine/CheckUnits.lean ====
section
/-! DEFINITION. Meanings: the check-value units (R152 to R156). -/
namespace Sys2Proof.Machine

/-- R154: a record of a stripped stream fails its check: the owning block is told. A Reservoir message is a failed check of R212; a
stream with no rule of its own raises a contained record. -/
def chkFail (u : Nat) (b : ChkBind) (got : Nat) (s : State) : State :=
  match b.job with
  | some (k + 1) => raise (ringUnit (k / 1024)) bRSV sInfo 0x07 (some b.ctx) 1 0 (3 + 256 * 1) (count bRSV 3 0 (k / 1024) s)
  | _ => raise (ringUnit (unitChip u)) bCHK sCont 0x07 (some b.ctx) u got 0 s

/-- CHK_RECORD (R154, R155): a unit, bound to a context's stream of a profile, processes bytes of a record. `last`: the record
ends here, its check is appended, or compared and stripped; `close`: the stream ends and the unit is free. A stripped record is given on
whole once its check agrees. -/
def execChkRecord (u : Fin 256) (ctx : Fin 1024) (prof : Fin 16) (append last close : Bool) (data : Bytes) (s : State) : Result :=
  .next (
    let p := profileOf s prof
    let w := checkBytes p
    let b := (tget? s.chk.bound u).getD { ctx := ctx, prof := prof, append := append, run := chkInit p, done := 0 }
    if b.ctx != ctx.val || b.prof != prof.val || b.append != append || !p.valid || (last && !append && data.length < w) then s
    else
      let body := if last && !append then data.take (data.length - w) else data
      let run := chkRun p b.run b.done body
      let whole := b.buf ++ body
      let end_ (s : State) : State :=
        if close then modChk (fun c => { c with bound := tdel c.bound u, run := tset c.run u run }) s
        else modChk (fun c => { c with bound := tset c.bound u { b with
          run := if last then chkInit p else run, done := if last then 0 else b.done + body.length, buf := if append || last then [] else whole } }) s
      if append then
        if !last then emit (.mesh 0x60 [u, b.ctx] body) (end_ s)
        else count bCHK 0 0 u (emit (.mesh 0x60 [u, b.ctx] (body ++ natLE w (chkOut p run))) (end_ s))
      else if !last then end_ s
      else if leNat (data.drop body.length) == chkOut p run then count bCHK 0 0 u (emit (.mesh 0x61 [u, b.ctx] whole) (end_ s))
      else chkFail u b (leNat (data.drop body.length)) (count bCHK 2 0 u (count bCHK 1 0 u (end_ s))))

/-- R156: whether a save record lies in its context's save area. -/
def saveOk (s : State) (ctx save : Nat) : Bool :=
  let a := (getCtx s ctx).save
  fastOk s save 16 && decide (a ≤ save) && decide (save + 16 ≤ a + 4096)

/-- CHK_SLICE_SAVE (R156): a unit sliced out mid-record writes its 16-byte record to the context's save area. -/
def execChkSliceSave (u : Fin 256) (save : Nat) (s : State) : Result :=
  .next (match tget? s.chk.bound u with
    | some b =>
      if b.done == 0 || !(saveOk s b.ctx save) then s
      else
        let mode := b2n (profileOf s b.prof).linear + 2 * b2n (!b.append)
        modChk (fun c => { c with bound := tdel c.bound u, run := tset c.run u b.run, held := if b.buf.isEmpty then tdel c.held save else tset c.held save b.buf })
          (memWrite true save (natLE 8 b.run ++ natLE 6 b.done ++ natLE 1 b.prof ++ natLE 1 mode) s)
    | none => s)

/-- CHK_SLICE_RESTORE (R156): the stream's next slice starts from the saved record. -/
def execChkSliceRestore (u : Fin 256) (ctx : Fin 1024) (save : Nat) (s : State) : Result :=
  .next (
    if (tget? s.chk.bound u).isSome || !(saveOk s ctx save) then s
    else
      let r := memRead s save 16
      modChk (fun c => { c with held := tdel c.held save, bound := tset c.bound u {
        ctx := ctx, prof := leField r 14 1 % 16, append := !bitN (leField r 15 1) 1, run := leField r 0 8, done := leField r 8 6, buf := tget c.held save [] } }) s)

end Sys2Proof.Machine
end

