-- ==== Sys2Proof/Machine/TideCmds.lean ====
section
/-! DEFINITION. Meanings: the tide inputs and the tide unit (R43 to R53, R496). -/
namespace Sys2Proof.Machine

/-- TIDE_FRAME (R43, R46): the symbols of a slot's first 52 ticks, and the module's count at the marker. -/
def execTideFrame (syms : List TideSym) (capture : BitVec 64) (s : State) : Result :=
  if syms.length != 52 then .fault .illFormed
  else .next (match frameRead syms with
    | some n => inputSlot true true n ((capture.toNat : Int) - (n * 16384 + tideinDelay s)) s
    | none => inputSlot true false 0 0 s)

/-- TIDE_EDGE_LOSS (R46): 64 ticks without an edge: the input is lost at once. -/
def execTideEdgeLoss (s : State) : Result := .next (inputFail true 1 (until_ (s.now + 64) s))

/-- FREQUENCY_WINDOW (R46): input ticks counted in 1 ms of the local oscillator, within 20 ppm of 150,000. -/
def execFrequencyWindow (tidein : Bool) (ticks : Nat) (s : State) : Result :=
  .next (
    let ok := decide (149997 ≤ ticks) && decide (ticks ≤ 150003)
    let s := modIn tidein (fun i => { i with freqOk := ok }) s
    if ok then s else inputFail tidein 2 s)

/-- TIDE_MESSAGE_ABSENT (R46): four slots without a valid Cisan tide message. -/
def execTideMessageAbsent (s : State) : Result := .next (inputFail false 6 (until_ (s.tide.csnAt + 4 * 16384) s))

/-- INPUT_QUALIFIED (R46, R47, R49, R50, R51, R496): an input with 16 good slots is judged. -/
def execInputQualified (tidein : Bool) (s : State) : Result :=
  .next (
    let i := tideIn s tidein
    -- R42: in automatic selection TIDE_IN is used while it passes its checks
    if i.qual < 16 || !i.freqOk || !(inputAllowed s tidein) || (!tidein && s.tide.src == 2 && 16 ≤ s.tide.tin.qual) then s
    else
      let same := s.tide.useTidein == tidein
      let use (s : State) : State := modTide (fun t => { t with useTidein := tidein }) s
      match s.tide.st with
      | .acquire =>
        if s.tide.powerOnAcquire then
          let s := use (setCount (inputCount s tidein) s)
          enterTide .locked (modTide (fun t => { t with powerOnAcquire := false, offset := 0 }) s)
        else judge i.off (use s)
      -- R50: after a count mismatch only TID_REBASE leads out
      | .holdover => if s.tide.stuck then s else judge i.off (use s)
      | .free =>
        let s := use s
        if i.off.natAbs ≤ 64 then judge i.off (modTide (fun t => { t with hAt := s.now }) s)
        else if s.tide.adopt then s
        else mismatch (modTide (fun t => { t with offset := i.off, adopt := true }) s)
      | .locked => if same then s else judge i.off (use (modTide (fun t => { t with hAt := s.now }) s))
      | .slew => if same then s else judge i.off (use (modTide (fun t => { t with hAt := s.now }) s)))

/-- ACQUIRE_TIMEOUT (R47): 1 s in ACQUIRE without a qualified input: FREE, with no step of the count. -/
def execAcquireTimeout (s : State) : Result :=
  .next (if s.tide.st == .acquire then
      enterTide .free (modTide (fun t => { t with powerOnAcquire := false }) (until_ (s.tide.acqAt + 150000000) s))
    else s)

/-- SRC_SEL_APPLY (R496): at the boundary after the write: ACQUIRE, or FREE for source 3, without a step of the count. -/
def execSrcSelApply (s : State) : Result :=
  .next (match s.tide.srcPend with
    | some (v, b) =>
      if s.tide.bnd ≤ b || !(atBoundary s) then s
      else
        let s := modTide (fun t => { t with src := v, srcPend := none, adopt := false, stuck := false, powerOnAcquire := false }) s
        if v == 3 then enterTide .free s
        else
          let s := enterTide .acquire s
          modTide (fun t => { t with
            acqAt := s.now, hAt := s.now, useTidein := v != 1,
            tin := { t.tin with qual := 0 }, csn := { t.csn with qual := 0 } }) s
    | none => s)

/-- REBASE_APPLY (R50): at the boundary after the write the count is replaced, and a qualified input's offset judged with h = 0. -/
def execRebaseApply (s : State) : Result :=
  .next (match s.tide.rebasePend with
    | some (v, b) =>
      if s.tide.bnd ≤ b || !(atBoundary s) then s
      else
        let s := setCount v (modTide (fun t => { t with rebasePend := none, stuck := false }) s)
        let s := modTide (fun t => { t with hAt := s.now }) s
        let t := s.tide
        if (t.st == .locked || t.st == .slew || t.st == .holdover) && decide (16 ≤ (tideIn s t.useTidein).qual) && inputAllowed s t.useTidein then
          judge (tideIn s t.useTidein).off s
        else s
    | none => s)

/-- COUNT_ADOPT (R51): from FREE, at the first boundary with no context in RUNNING, the input's count is adopted. -/
def execCountAdopt (s : State) : Result :=
  .next (if s.tide.st == .free && s.tide.adopt && atBoundary s && !(anyRunning s) && decide (16 ≤ (tideIn s s.tide.useTidein).qual) then
      let s := setCount (inputCount s s.tide.useTidein) s
      tideRec sInfo 4 0 (enterTide .locked (modTide (fun t => { t with adopt := false, offset := 0 }) s))
    else s)

/-- SLOT_MARKER_SEND (R53): at tick 8,192 the number and length of the next slot go to every endpoint at priority 1. -/
def execSlotMarkerSend (s : State) : Result :=
  .next (if s.tide.markerSent then s
    else
      let s := until_ (s.tide.slotAt + 8192) s
      rillSend unitBR rillAll 1 0x30 [(slotNow s + 1) % 2 ^ 50, nextLen s.tide] (modTide (fun t => { t with markerSent := true }) s))

/-- SLOT_MARKER (R53): an endpoint, by its unit number, receives a marker. One that disagrees with its own count raises a
record, and its values are taken from the next boundary. An endpoint that has seen none takes its first as agreeing, its counter at the
module's tick (DESIGN CHOICE, log 176). -/
def execSlotMarker (ep : Fin 164) (slot : BitVec 50) (len : Nat) (s : State) : Result :=
  .next (
    let put (e : Endpoint) (s : State) : State := modTide (fun t => { t with eps := tset t.eps ep { e with next := some (slot.toNat, len) } }) s
    match tget? s.tide.eps ep with
    | some e =>
      let s' := put e s
      if slot.toNat == (e.slot + 1) % 2 ^ 50 then s'
      else raise ep bTID sCont 0x08 none s.tide.count (unsN 64 ((slot.toNat : Int) - (e.slot + 1))) 5 s'
    | none => put { slot := slot.toNat - 1, len := s.tide.len, tick := (s.now - s.tide.slotAt) % 16384, next := none } s)

end Sys2Proof.Machine
end

