-- ==== Sys2Proof/Machine/Cisan.lean ====
section
/-! DEFINITION. Meanings: Cisan (R362 to R387). -/
namespace Sys2Proof.Machine

/-! ### Lanes (R372, R379, R383) -/

/-- A lane takes its codewords: from RANGE on, and while it is drained for recalibration. -/
def laneAligned (x : Lane) : Bool := decide (4 ≤ x.st.code)

/-- A drained lane's streams are bound anew, and it trains (R372, R379, R383). -/
def drainCheck (e l : Nat) (s : State) : State :=
  let x := getLane s e l
  if x.st == .retrain && x.replay.isEmpty && x.txq.isEmpty then
    laneMove e l (modLane e l (fun x => { x with st := .train, since := s.now, wasReady := wasReadyNow s x }) s)
  else s

/-- R383: the next recalibration of an engine, where none of its lanes is in RETRAIN. -/
def recalNext (e : Nat) (s : State) : State :=
  if (List.range 16).any fun l => (getLane s e l).retrain then s
  else match (readyLanes s e).find? fun l => (getLane s e l).recal with
    | some l => linkJudge e (drainCheck e l (modLane e l (fun x => { x with st := .retrain, retrain := true, recal := false }) s))
    | none => s

/-- A lane goes out or fails a check: it falls, and the link and the queue of recalibrations are judged. -/
def laneOut (e l cause : Nat) (s : State) : State := recalNext e (linkJudge e (laneFall e l cause s))

/-- A lane's acknowledged flits leave the replay buffer; more may be sent (R368). -/
def ackTake (e l ack : Nat) (s : State) : State :=
  let x := getLane s e l
  let rest := x.replay.filter fun r => !(seqEqOrNewer 12 ack r.1)
  let moved := decide (rest.length < x.replay.length)
  let s := modLane e l (fun x => { x with replay := rest, resends := if moved then 0 else x.resends }) s
  recalNext e (drainCheck e l (lanePump e l 600 s))

/-- R368: the unacknowledged flits are sent again, oldest first; the eighth time in a row takes the lane out. -/
def resend (e l : Nat) (s : State) : State :=
  let x := getLane s e l
  if x.replay.isEmpty then s
  else
    let s := x.replay.foldl (fun s r => count bCSN 1 0 (16 * e + l) (flitOut e l r.1 1 r.2.2.off r.2.2.data s)) s
    let s := modLane e l (fun x => { x with resends := x.resends + 1, replay := x.replay.map fun r => (r.1, s.now, r.2.2) }) s
    if 8 ≤ x.resends + 1 then laneOut e l 8 s else s

/-! ### Messages in flits (R369, R385) -/

/-- R371, R374: whether a message type may have a class. -/
def typeClass (t c : Nat) : Bool :=
  if t == 0x20 then c == 4 || c == 5 || c == 6
  else if t == 0x10 then c == 1
  else if t == 0x11 then c == 2
  else if t == 0x18 then c == 3
  else (t == 1 || t == 2 || t == 3 || t == 4 || t == 8) && c == 0

/-- R385: a header that fails its checks: discarded, with an info record at most once a second for the engine. -/
def headerBad (e l : Nat) (b : Bytes) (s : State) : State :=
  let s := count bCSN 10 0 (16 * e + l) s
  match (getEng s e).recAt with
  | some t => if t + 150000000 ≤ s.now then
      raise (ringUnit e) bCSN sInfo 0x07 none (16 * e + l) (leField b 0 8) 4 (modEng e (fun x => { x with recAt := some s.now }) s) else s
  | none => raise (ringUnit e) bCSN sInfo 0x07 none (16 * e + l) (leField b 0 8) 4 (modEng e (fun x => { x with recAt := some s.now }) s)

/-- The fields of a message. -/
def msgOf (b : Bytes) : CsnMsg :=
  { mtype := leField b 0 1, dstEng := leField b 1 1 % 64, dstNode := leField b 2 2, srcNode := leField b 4 2, srcEng := leField b 6 1 % 64,
    cls := leField b 7 1 % 8, ctx := leField b 8 2 % 1024, stream := leField b 10 2 % 4096, body := b.drop 16 }

/-- R385: whether a header passes. -/
def headerOk (b : Bytes) : Bool :=
  leField b 14 2 == crcOf profile3740 (b.take 14) && typeClass (leField b 0 1) (leField b 7 1 % 8) && decide (leField b 12 2 ≤ 4096)

/-- A message received whole, with a good header: the destination, stream and context checks of R385; then it waits for its block. -/
def msgArrive (e l : Nat) (b : Bytes) (s : State) : State :=
  let m := msgOf b
  let drop (s : State) : State := count bCSN 10 0 (16 * e + l) s
  if m.dstNode != nodeId s || ((m.mtype == 0x10 || m.mtype == 0x11 || m.mtype == 0x18) && m.dstEng != e) then drop s
  else if m.cls == 0 then modEng e (fun x => { x with inbox := x.inbox ++ [m], bufUsed := x.bufUsed + csnUnits m }) s
  else match (getEng s e).rx.find? fun r => r.id == m.stream && r.node == m.srcNode && r.eng == m.srcEng && r.cls == m.cls && r.ctx == m.ctx with
    | some r =>
      if r.credit < csnUnits m then
        let s := csnCtl e m.srcNode m.srcEng 0x04 (natLE 2 m.stream ++ natLE 1 2 ++ natLE 1 0) (modEng e (fun x => { x with rx := x.rx.filter (·.id != r.id) }) (drop s))
        raise (ringUnit e) bCSN sInfo 0x07 none (16 * e + l) (leField b 0 8) 5 s
      else if !(ctxLicensed s m.ctx) then
        -- the units are returned: what the sender counted as sent left no message behind
        drop (modEng e (fun x => { x with rx := x.rx.map fun t => if t.id == r.id then { t with credit := t.credit - csnUnits m, owed := t.owed + csnUnits m } else t }) s)
      else modEng e (fun x => { x with
        inbox := x.inbox ++ [m], bufUsed := x.bufUsed + csnUnits m,
        rx := x.rx.map fun t => if t.id == r.id then { t with credit := t.credit - csnUnits m } else t }) s
    | none =>
      let s := csnCtl e m.srcNode m.srcEng 0x04 (natLE 2 m.stream ++ natLE 1 2 ++ natLE 1 0) (drop s)
      raise (ringUnit e) bCSN sInfo 0x07 none (16 * e + l) (leField b 0 8) 5 s

/-- Bytes of a message: header and body. -/
def msgLen (b : Bytes) : Nat := 16 + leField b 12 2

/-- Messages that start in a flit's payload, from a boundary on; the last may run on into the next flit (R369). -/
def msgParse (e l : Nat) : Nat → Bytes → State → State
  | 0, _, s => s
  | n + 1, b, s =>
    if b.isEmpty || leField b 0 1 == 0 then s
    else if !(headerOk b) then headerBad e l b s
    else if b.length < msgLen b then modLane e l (fun x => { x with part := b }) s
    else msgParse e l n (b.drop ((msgLen b + 15) / 16 * 16)) (msgArrive e l (b.take (msgLen b)) s)

/-- The payload of an accepted DATA flit: the message in progress, then those that start here (R369). -/
def payloadTake (e l off : Nat) (p : Bytes) (s : State) : State :=
  let x := getLane s e l
  let start := if off ≤ 14 then 16 * off else 240
  let s := modLane e l (fun x => { x with part := [] }) s
  let s :=
    if x.part.isEmpty then s
    else
      let need := msgLen x.part - x.part.length
      if need ≤ start then msgArrive e l (x.part ++ p.take need) s
      else if start == 240 then modLane e l (fun y => { y with part := x.part ++ p }) s
      else headerBad e l x.part s
  if start == 240 then s else msgParse e l 16 (p.drop start) s

/-- A flit arrives on a lane (R366 to R369, R385). The lane answers with a NULL flit that carries the acknowledgement, and the nak where
one is owed. -/
def flitTake (e l : Nat) (flit : Bytes) (s : State) : State :=
    if !(laneAligned (getLane s e l)) then s
    else
      let answer (s : State) : State := if laneAligned (getLane s e l) then flitOut e l (getLane s e l).txSeq 0 0 [] s else s
      let discard (s : State) : State :=
        let first := !(getLane s e l).rxBad
        let s := count bCSN 2 0 (16 * e + l) (modLane e l (fun x => { x with nak := x.nak || first, rxBad := true }) s)
        if first then count bCSN 3 0 (16 * e + l) s else s
      if leNat (flit.drop 248) != crcOf profileXZ (flit.take 248) then answer (discard s)
      else
        let ftype := leField flit 0 2 / 4096
        let nak := bitN (leField flit 2 2) 12
        let s := ackTake e l (leField flit 2 2 % 4096) s
        let s := if nak then resend e l s else s
        let x := getLane s e l
        if ftype != 1 then s
        else if !(x.st == .ready || x.st == .retrain) || leField flit 0 2 % 4096 != x.rxNext then answer (discard s)
        else
          let s := modLane e l (fun x => { x with rxLast := some x.rxNext, rxNext := (x.rxNext + 1) % 4096, rxBad := false }) s
          answer (payloadTake e l (leField flit 4 1) ((flit.drop 8).take 240) s)

/-- FLIT_RECEIVE (R364 to R369, R385): a flit arrives on a lane, or codewords that are corrected, descrambled and rid of their idle blocks
give flits. -/
def execFlitReceive (e : Fin 64) (l : Fin 16) (f : FlitIn) (s : State) : Result :=
  match f with
  | .flit b => if b.length != 256 then .fault .illFormed else .next (flitTake e l b s)
  | .line ws => .next (if !(laneAligned (getLane s e l)) then s
      else
        let x := getLane s e l
        let d := dataBlocks x.rxScr ws
        let r := flitsOf (20 * ws.length) (x.rxBlk ++ d.1)
        r.1.foldl (fun s b => flitTake e l b s) (modLane e l (fun x => { x with rxScr := d.2, rxBlk := r.2 }) s))

/-- REPLAY_TIMEOUT (R368): the oldest unacknowledged flit has waited replay_us. -/
def execReplayTimeout (e : Fin 64) (l : Fin 16) (s : State) : Result :=
  .next (match (getLane s e l).replay with
    | [] => s
    | r :: _ => if (getLane s e l).st == .ready || (getLane s e l).st == .retrain then
        resend e l (until_ (r.2.1 + usTicks (max 2 (regL s 0xC004 0 7 0))) s) else s)

/-! ### Streams (R370, R374) -/

/-- Units that a receiver's grants and messages hold of its buffer (R370). -/
def bufHeld (x : CsnEng) : Nat := x.bufUsed + (x.rx.map fun r => r.credit + r.owed).foldl (· + ·) 0

/-- OPEN (R370, R385): an OPEN of an engine's inbox is answered with GRANT; credit 0 refuses. -/
def execOpen (e : Fin 64) (i : Nat) (s : State) : Result :=
  .next (match csnMsg s e i 0x01 with
    | none => s
    | some m =>
      let s := csnTake e i s
      let cls := leField m.body 0 1
      let ctx := leField m.body 2 2
      let credit := max 8 (regL s 0xC004 0 27 20)
      let x := getEng s e
      let id := (List.range 4096).find? fun k => k != 0 && !(x.rx.any (·.id == k))
      let answer (id credit : Nat) (s : State) : State := csnCtl e m.srcNode m.srcEng 0x02 (natLE 2 id ++ natLE 2 (ctx % 1024) ++ natLE 4 credit) s
      match id with
      | some k =>
        if m.body.length != 8 || cls == 0 || 7 ≤ cls || 1024 ≤ ctx || !(ctxLicensed s ctx) || decide (131072 < bufHeld x + credit) then
          count bCSN 8 0 e (answer 0 0 s)
        else answer k credit (modEng e (fun x => { x with rx := x.rx ++ [{ id := k, node := m.srcNode, eng := m.srcEng, cls := cls, ctx := ctx, credit := credit }] }) s)
      | none => count bCSN 8 0 e (answer 0 0 s))

/-- GRANT (R370, R371): the oldest OPEN of that context to that partner is answered. -/
def execGrant (e : Fin 64) (i : Nat) (s : State) : Result :=
  .next (match csnMsg s e i 0x02 with
    | none => s
    | some m =>
      let s := csnTake e i s
      let id := leField m.body 0 2 % 4096
      let ctx := leField m.body 2 2
      let credit := leField m.body 4 4
      match (getEng s e).tx.find? fun t => t.asked && t.node == m.srcNode && t.eng == m.srcEng && t.ctx % 1024 == ctx with
      | some t =>
        if credit == 0 then count bCSN 8 0 e (modTx e t.node t.eng t.cls t.ctx (fun t => { t with asked := false, refused := some s.now }) s)
        else
          let lane := if clsOrdered t.cls then leastBound s e else none
          let s := modTx e t.node t.eng t.cls t.ctx (fun t => { t with asked := false, id := some id, credit := credit, lane := lane }) s
          txPump e t.node t.eng t.cls t.ctx 256 s
      | none => if credit == 0 then s else csnCtl e m.srcNode m.srcEng 0x04 (natLE 2 id ++ natLE 1 1 ++ natLE 1 0) s)

/-- OPEN_RETRY (R370): 100 µs after a refusal the sender asks again; `k`: which of the engine's streams. -/
def execOpenRetry (e : Fin 64) (k : Nat) (s : State) : Result :=
  .next (match (getEng s e).tx[k]? with
    | some t => match t.refused with
      | some r => openAsk e t.node t.eng t.cls t.ctx (until_ (r + usTicks 100) s)
      | none => s
    | none => s)

/-- One entry of a CREDIT message: what exceeds the units sent is ignored (R385). -/
def creditEntry (e : Nat) (m : CsnMsg) (id units : Nat) (s : State) : State :=
  match (getEng s e).tx.find? fun t => t.id == some id && t.node == m.srcNode && t.eng == m.srcEng with
  | some t =>
    let s := modTx e t.node t.eng t.cls t.ctx (fun t => { t with credit := t.credit + min units t.sent, sent := t.sent - min units t.sent }) s
    let s := if t.sent < units then raise (ringUnit e) bCSN sInfo 0x07 none e units 5 s else s
    txPump e t.node t.eng t.cls t.ctx 256 s
  | none => s

/-- CREDIT (R370, R374, R385): credit of streams is returned. -/
def execCredit (e : Fin 64) (i : Nat) (s : State) : Result :=
  .next (match csnMsg s e i 0x03 with
    | none => s
    | some m =>
      let s := csnTake e i s
      let n := m.body.length / 8
      (List.range (min n 64)).foldl (fun s k => creditEntry e m (leField m.body (8 * k) 2) (leField m.body (8 * k + 4) 4) s) s)

/-- CREDIT messages of at most 64 entries. -/
def creditSend (e node dst : Nat) : Nat → List RxStream → State → State
  | 0, _, s => s
  | n + 1, rs, s =>
    if rs.isEmpty then s
    else creditSend e node dst n (rs.drop 64) (csnCtl e node dst 0x03 ((rs.take 64).flatMap fun r => natLE 2 r.id ++ natLE 2 0 ++ natLE 4 r.owed) s)

/-- CREDIT_RETURN_TIMER (R370): credit owed on an engine's streams is returned. -/
def execCreditReturnTimer (e : Fin 64) (s : State) : Result :=
  .next (
    let owed := (getEng s e).rx.filter fun r => decide (0 < r.owed)
    if owed.isEmpty || !(linkReady s e) then s
    else
      let s := modEng e (fun x => { x with rx := x.rx.map fun r => { r with credit := r.credit + r.owed, owed := 0 } }) s
      let peers := (owed.map fun r => (r.node, r.eng)).eraseDups
      peers.foldl (fun s p => creditSend e p.1 p.2 64 (owed.filter fun r => r.node == p.1 && r.eng == p.2) s) s)

/-- CLOSE (R370, R374, R386): reasons 0 and 1 come from a stream's sender, reason 2 from its receiver. A stream that an error
closed is opened anew where messages wait on it. -/
def execClose (e : Fin 64) (i : Nat) (s : State) : Result :=
  .next (match csnMsg s e i 0x04 with
    | none => s
    | some m =>
      let s := csnTake e i s
      let id := leField m.body 0 2
      let reason := leField m.body 2 1
      if reason == 2 then
        match (getEng s e).tx.find? fun t => t.id == some id && t.node == m.srcNode && t.eng == m.srcEng with
        | some t =>
          let s := modTx e t.node t.eng t.cls t.ctx (fun t => { t with id := none, credit := 0, sent := 0, lane := none }) s
          if t.queue.isEmpty then modEng e (fun x => { x with tx := x.tx.filter fun u => !(u.node == t.node && u.eng == t.eng && u.cls == t.cls && u.ctx == t.ctx) }) s
          else openAsk e t.node t.eng t.cls t.ctx s
        | none => s
      else match (getEng s e).rx.find? fun r => r.id == id && r.node == m.srcNode && r.eng == m.srcEng with
        | some r =>
          let gone (q : CsnMsg) : Bool := reason == 1 && q.cls != 0 && q.stream == r.id && q.srcNode == r.node && q.srcEng == r.eng
          modEng e (fun x => { x with
            rx := x.rx.filter (·.id != r.id), inbox := x.inbox.filter fun q => !(gone q),
            bufUsed := x.bufUsed - ((x.inbox.filter gone).map csnUnits).foldl (· + ·) 0 }) s
        | none => s)

/-! ### Closures and holds (R372, R373) -/

/-- Chunks that a sequence number leaves unaccepted: the messages whose last byte it covers are delivered. -/
def unaccepted (last : Nat) (old : List (Nat × Nat × Chunk)) (q : List Chunk) : List (Nat × Nat × Chunk) × List Chunk :=
  let done := (old.filter fun r => seqEqOrNewer 12 last r.1 && r.2.2.last).map fun r => r.2.2.msg.num
  (old.filter fun r => !(done.contains r.2.2.msg.num), q.filter fun c => !(done.contains c.msg.num))

/-- LANE_CLOSE (R372): the partner names a lane and the last seq it accepted there. A lane that is still READY here goes out. -/
def execLaneClose (e : Fin 64) (l : Fin 16) (last : BitVec 12) (s : State) : Result :=
  .next (
    if (readyLanes s e).isEmpty then s
    else
      let y := getLane s e l
      let s := if (y.st == .ready || y.st == .retrain) && !y.closing then laneOut e l 10 s else s
      let x := getLane s e l
      let keep := unaccepted last.toNat x.old x.oldq
      laneMove e l (modLane e l (fun x => { x with old := keep.1, oldq := keep.2, closing := false }) s))

/-- LINK_HOLD_EXPIRY (R373): the link has not been ready for hold_ms: every stream of the engine fails. -/
def execLinkHoldExpiry (e : Fin 64) (s : State) : Result :=
  .next (match (getEng s e).downAt with
    | some t =>
      if linkReady s e then s
      else
        let cause := ((List.range 16).map fun l => (getLane s e l).cause).foldl max 0
        linkFail e cause (until_ (t + msTicks (max 1 (regL s 0xC004 0 19 8))) s)
    | none => s)

/-! ### Bring-up (R379 to R382) -/

/-- LANE_ENABLE (R379, R389): from the end of step 2 of bring-up, a lane of an enabled and licensed engine leaves DISABLED. -/
def execLaneEnable (e : Fin 64) (l : Fin 16) (s : State) : Result :=
  .next (if 2 < s.bst.step && engOn s e && (getLane s e l).st == .disabled then
      modLane e l (fun x => { st := .down, since := s.now, hold := x.hold, cause := x.cause }) s
    else s)

/-- R378, R389: the lane that the tide is taken from goes first: whether another lane waits for it to leave its first DOWN (DEDUCED, log 200). -/
def tideFirst (s : State) (e l : Nat) : Bool :=
  let te := regL s 0x9000 0 9 4
  let tl := regL s 0x9000 0 13 10
  let x := getLane s te tl
  !(te == e && tl == l) && engOn s te && !x.hold && (x.st == .disabled || x.st == .down) && x.wait == 0

/-- LANE_WAIT_EXPIRY (R379, R387): the wait in DOWN ends; a lane held in DOWN, or of a module without node ID, stays. -/
def execLaneWaitExpiry (e : Fin 64) (l : Fin 16) (s : State) : Result :=
  .next (
    let x := getLane s e l
    if x.st == .down && !x.hold && nodeId s != 0 && engOn s e && !(x.wait == 0 && tideFirst s e l) then
      let s := until_ (x.since + x.wait) s
      modLane e l (fun x => { x with st := .detect, since := s.now }) s
    else s)

/-- DETECT_DONE (R379): receive power, in 0.01 dBm, above −12 dBm and held for 1 ms. -/
def execDetectDone (e : Fin 64) (l : Fin 16) (rx : BitVec 16) (s : State) : Result :=
  .next (
    let x := getLane s e l
    if x.st == .detect && decide (-1200 < rx.toInt) then
      let s := until_ (x.since + msTicks 1) s
      modLane e l (fun x => { x with st := .train, since := s.now, rx := rx.toInt }) s
    else s)

/-- TRAIN_DONE (R379, R380): clock recovery, equalisation and alignment are done: the lane's 1,024 probes leave. -/
def execTrainDone (e : Fin 64) (l : Fin 16) (s : State) : Result :=
  let x := getLane s e l
  .next (if x.st == .train then
      flitRun e l ((List.range 1024).map fun i => csnFlit x.txSeq 2 (ackOf x) (x.nak && i == 0) 0 (natLE 1 1 ++ natLE 1 0 ++ natLE 2 i))
        (modLane e l (fun x => { x with st := .range, since := s.now, rxBlk := [] }) s)
    else s)

/-- RANGE_PROBE (R380): the partner's probe is echoed with its turnaround time, in units of 0.1 ns. -/
def execRangeProbe (e : Fin 64) (l : Fin 16) (probe : Fin 1024) (turnaround : BitVec 32) (s : State) : Result :=
  .next (if laneAligned (getLane s e l) then
      flitOut e l (getLane s e l).txSeq 2 0 (natLE 1 2 ++ natLE 1 0 ++ natLE 2 probe.val ++ natLE 4 turnaround.toNat) s
    else s)

/-- The module's capability record on an engine (R381). -/
def capRecord (s : State) (e : Nat) : Bytes :=
  let p := tileProfile s
  natLE 2 1 ++ natLE 2 (nodeId s) ++ natLE 1 e ++ natLE 1 1 ++ natLE 2 0xFFFF ++ natLE 4 s.csn.nonce ++
  natLE 2 Config.txLatency.toNat ++ natLE 2 Config.rxLatency.toNat ++
  natLE 1 p.width ++ natLE 1 (b2n p.refin + 2 * b2n p.refout + 4 * b2n p.xorout + 8 * b2n p.linear) ++ natLE 8 p.poly ++ natLE 8 p.init ++
  natLE 2 0x7F ++ natLE 4 (max 8 (regL s 0xC004 0 27 20)) ++ natLE 2 4096 ++ natLE 22 0

/-- Twice the one-way fibre delay in units of 0.1 ns, of means in the same units (R380). -/
def delay2 (rtt turn ptx prx : Nat) : Int :=
  (rtt : Int) - turn - Config.txLatency.toNat - Config.rxLatency.toNat - ptx - prx

/-- RANGE_DONE (R380, R385): the probes' mean round trip, mean and largest turnaround and how many were answered, with the partner's
latencies. A good length leads to CAPS, where the record leaves in CTRL flits. -/
def execRangeDone (e : Fin 64) (l : Fin 16) (rtt turn maxTurn answered ptx prx : Nat) (s : State) : Result :=
  .next (
    if (getLane s e l).st != .range then s
    else
      let d2 := delay2 rtt turn ptx prx
      -- length d / 4.90 ns/m, in decimetres: 10 d / 49 = 5 d2 / 49, between 0.5 m and 400 m
      if answered < 1024 || 100000 ≤ maxTurn || decide (5 * d2 < 5 * 49) || decide (4000 * 49 < 5 * d2) then laneOut e l 3 s
      else
        let n := d2.toNat
        let s := modLane e l (fun x => { x with st := .caps, since := s.now, delay := n / 2, lengthDm := (10 * n + 49) / 98 }) s
        flitOut e l (getLane s e l).txSeq 2 0 (natLE 1 4 ++ capRecord s e) s)

/-- A partner from its record (R381). -/
def partnerOf (b : Bytes) : Partner :=
  { node := leField b 2 2, eng := leField b 4 1 % 64, typ := leField b 5 1, nonce := leField b 8 4, classes := leField b 34 2,
    credit := leField b 36 4, maxBody := leField b 40 2, txLat := leField b 12 2, rxLat := leField b 14 2 }

/-- R381: the cause with which a partner's record fails, if any. -/
def capBad (s : State) (e l : Nat) (b : Bytes) : Option Nat :=
  let p := partnerOf b
  let own := capRecord s e
  let others := (List.range 16).filterMap fun k =>
    let x := getLane s e k
    if k != l && (x.st == .qualify || x.st == .ready || x.st == .retrain) then x.partner else none
  if leField b 0 2 != 1 || p.node == 0 || p.node == 0xFFFF || p.node == nodeId s ||
     others.any (fun q => q.node != p.node || q.eng != p.eng || q.nonce != p.nonce) ||
     (p.typ == 1 && p.classes % 128 != 127) || p.maxBody < 4096 then some 4
  else if leField b 16 1 != leField own 16 1 || leField b 17 1 % 16 != leField own 17 1 || leField b 18 8 != leField own 18 8 || leField b 26 8 != leField own 26 8 then some 5
  else none

/-- CAPS_DONE (R381, R385): the records are exchanged and the partner's is checked. -/
def execCapsDone (e : Fin 64) (l : Fin 16) (rec_ : Bytes) (s : State) : Result :=
  if rec_.length != 64 then .fault .illFormed
  else .next (
    if (getLane s e l).st != .caps then s
    else match capBad s e l rec_ with
      | some c => laneOut e l c s
      | none => modLane e l (fun x => { x with st := .qualify, since := s.now, partner := some (partnerOf rec_) }) s)

/-- R382: whether a lane dwells 200 ms: READY within the past 600 s to the same partner. -/
def shortDwell (s : State) (x : Lane) : Bool :=
  match x.wasReady, x.partner with
  | some (t, n, k), some p => n == p.node && k == p.nonce && decide (s.now ≤ t + 90000000000)
  | _, _ => false

/-- QUALIFY_DONE (R363, R382): the dwell ends with the corrected bits, uncorrectable codewords and least and greatest average power
(0.01 dBm) of this direction, and the partner's result. -/
def execQualifyDone (e : Fin 64) (l : Fin 16) (corrected uncorrectable : Nat) (rxMin rxMax : BitVec 16) (remoteOk : Bool) (s : State) : Result :=
  .next (
    let x := getLane s e l
    if x.st != .qualify then s
    else
      let short := shortDwell s x
      let s := until_ (x.since + msTicks (if short then 200 else 20000)) s
      let s := countN bCSN 5 0 (16 * e.val + l.val) uncorrectable (countN bCSN 4 0 (16 * e.val + l.val) corrected s)
      let s := modLane e l (fun x => { x with rx := rxMin.toInt }) s
      if 0 < uncorrectable then laneOut e l 9 s
      else if (if short then 850000 else 85000000) ≤ corrected then laneOut e l 6 s
      else if decide (rxMin.toInt < -700) || decide (350 < rxMax.toInt) then laneOut e l 7 s
      else if !remoteOk then laneOut e l 10 s
      else
        let s := modLane e l (fun x =>
          let x := { x with st := .ready, since := s.now, wait := 0, resends := 0, retrain := false }
          if (getLane s e l).retrain then x
          else { x with txSeq := 0, rxNext := 0, rxLast := none, rxBad := false, nak := false, part := [] }) s
        recalNext e (linkJudge e s))

/-- The budget of a state in ticks and the cause of missing it (R379). -/
def laneBudget (s : State) (x : Lane) : Option (Nat × Nat) :=
  match x.st with
  | .detect => some (msTicks 100, 1)
  | .train => some (msTicks 50, 2)
  | .range => some (msTicks 5, 3)
  | .caps => some (msTicks 5, 4)
  | .qualify => some (msTicks (if shortDwell s x then 200 else 20000), 10)
  | _ => none

/-- LANE_BUDGET_EXPIRY (R379): a state's budget runs out. -/
def execLaneBudgetExpiry (e : Fin 64) (l : Fin 16) (s : State) : Result :=
  .next (
    let x := getLane s e l
    match laneBudget s x with
    | some (b, c) => laneOut e l c (until_ (x.since + b) s)
    | none => s)

/-! ### READY (R383) -/

/-- LANE_MONITOR (R363, R383): 1 s of a READY lane: corrected bits, uncorrectable codewords, receive power and transmit amplitude in
0.01 dBm, and whether the power stayed below −8.0 dBm for 10 ms. -/
def execLaneMonitor (e : Fin 64) (l : Fin 16) (corrected uncorrectable : Nat) (rx tx : BitVec 16) (dark : Bool) (s : State) : Result :=
  .next (
    if (getLane s e l).st != .ready then s
    else
      let inst := 16 * e.val + l.val
      let s := countN bCSN 5 0 inst uncorrectable (countN bCSN 4 0 inst corrected s)
      let s := modLane e l (fun x => { x with rx := rx.toInt, tx := tx.toInt }) s
      if 42500000 < corrected then laneOut e l 6 s
      else if 8 < uncorrectable then laneOut e l 9 s
      else if dark then laneOut e l 7 s
      else if 21250000 < corrected then
        recalNext e (modLane e l (fun x => { x with recal := true }) (raise (ringUnit e) bCSN sInfo 0x0B none inst corrected 6 s))
      else s)

/-- CSN_LANE_CTRL.recal (R383, R386): the lane is queued for recalibration. -/
def recalAsk (e l : Nat) (s : State) : State :=
  if (getLane s e l).st == .ready then recalNext e (modLane e l (fun x => { x with recal := true }) s) else s

/-- CSN_LANE_CTRL.down (R387): the lane is held in DOWN, or let go. -/
def laneHold (e l : Nat) (v : Bool) (s : State) : State :=
  let st := (getLane s e l).st
  let s := if v && st != .disabled && st != .down then laneOut e l 0 s else s
  modLane e l (fun x => { x with hold := v }) s

/-- CSN_ENG_CTRL (R379, R387): an engine not enabled loses its streams, and its lanes are DISABLED; another link judgement may follow
from min_lanes. -/
def engJudge (e : Nat) (s : State) : State :=
  if engOn s e then linkJudge e s
  else
    let s := if (getEng s e).held.isSome || !(getEng s e).tx.isEmpty then linkFail e 0 s else s
    let s := if regL s 0x9000 0 9 4 == e && laneAligned (getLane s e (regL s 0x9000 0 13 10)) then inputFail false 6 s else s
    modEng e (fun x => { x with lanes := x.lanes.map fun l => (l.1, { l.2 with st := .disabled, retrain := false, recal := false, partner := none }) }) s

/-! ### The tide over Cisan (R378) -/

/-- A TIDE flit's payload, from byte 8 of the flit. -/
def tidePayload (s : State) (x : Lane) : Bytes :=
  natLE 1 (x.tidx % 256) ++ natLE 1 ((x.tidx + 255) % 256) ++ natLE 1 s.tide.st.code ++ natLE 1 0 ++ natLE 2 (x.tideSent % 65536) ++ natLE 2 0 ++ natLE 8 (x.tideSent / 65536)

/-- TIDE_FLIT_SEND (R378): at tick 4,096 a TIDE flit leaves on every lane in RANGE or later; the count of its own departure is
known only then, and the next one states it. -/
def execTideFlitSend (s : State) : Result :=
  .next (
    if s.tide.flitSent then s
    else
      let s := until_ (s.tide.slotAt + 4096) (modTide (fun t => { t with flitSent := true }) s)
      let at_ := (s.tide.count / 16384 * 16384 + 4096) * 65536
      let lanes := s.csn.engs.flatMap fun (g : Nat × CsnEng) => (g.2.lanes.filter fun (l : Nat × Lane) => laneAligned l.2).map fun l => (g.1, l.1)
      let s' := lanes.foldl (fun s p =>
        let x := getLane s p.1 p.2
        modLane p.1 p.2 (fun x => { x with tidx := (x.tidx + 1) % 256, tideSent := at_ + Config.flitDelay s.free p.1 p.2 })
          (flitOut p.1 p.2 x.txSeq 3 0 (tidePayload s x) s)) s
      { s' with free := s'.free + 1 })

/-- The count at which the named flit arrived, in 2^-16 tick: its departure, the fibre, the partner's transmit and the own receive
latency, a tick being 20,000 / 3 ps (R44, R378). -/
def tideArrival (x : Lane) (p : Partner) (sent : Nat) : Nat :=
  sent + (x.delay + p.txLat + Config.rxLatency.toNat) * 3 * 65536 / 200

/-- TIDE_FLIT_RECEIVE (R44, R46, R378): a TIDE flit arrives on a lane, stamped with the module's count in 2^-16 tick. -/
def execTideFlitReceive (e : Fin 64) (l : Fin 16) (flit : Bytes) (stamp : Nat) (s : State) : Result :=
  if flit.length != 256 then .fault .illFormed
  else .next (
    let x := getLane s e l
    if !(laneAligned x) then s
    else
      let reject (s : State) : State := count bCSN 11 0 (16 * e.val + l.val) s
      if leNat (flit.drop 248) != crcOf profileXZ (flit.take 248) || leField flit 0 2 / 4096 != 3 then reject s
      else
        let idx := leField flit 8 1
        let sent := leField flit 16 8 * 65536 + leField flit 12 2
        let locked := bitN (leField flit 10 1) 3 || leField flit 10 1 % 8 == 1
        let s := modLane e l (fun x => { x with tideSeen := some (idx, stamp) }) s
        match x.tideSeen, x.partner with
        | some (k, at_), some p =>
          if k != leField flit 9 1 || !locked then reject s
          else if !(regL s 0x9000 0 9 4 == e.val && regL s 0x9000 0 13 10 == l.val) then s
          else
            let s := modTide (fun t => { t with csnAt := s.now }) s
            let off : Int := ((at_ : Int) - tideArrival x p sent + 32768) / 65536
            inputSlot false true (leField flit 16 8 / 16384) off s
        | _, _ => reject s)

end Sys2Proof.Machine
end

