-- ==== Sys2Proof/Machine/Eddy.lean ====
section
/-! DEFINITION. Meanings: Rill messages (R38) and the Eddy engines (R218 to R247). -/
namespace Sys2Proof.Machine

/-- The fetch that a digest record starts in this module (R238). -/
def ownFetch (x : Shard) (note : Bytes) : Fetch := { note := note, node := 0, w := x.r.wAddr, fp := x.r.fpAddr }

/-- A digest record reaches a replica of an owned shard in this module. -/
def rillDigest (dst : Nat) (note : Bytes) (s : State) : State :=
  let c := leField note 46 2 % 1024
  let id := leField note 0 4
  match shardOf s c id with
  | none => s
  | some x =>
    let go (k a : Nat) (s : State) : State := if a != 0 && a / 2 ^ 48 == 0 && ringUnit (memStack a) == dst then copyNotice c id (some k) (ownFetch x note) s else s
    go 1 x.r.rep1 (go 0 x.r.rep0 s)

/-- R38: whether an earlier message of the same source, destination and priority is still on its way. -/
def rillBehind (s : State) (m : Nat) (r : RillMsg) : Bool :=
  s.fly.any fun e => match e.2 with
    | .rill q => decide (e.1 < m) && q.src == r.src && q.dst == r.dst && q.pri == r.pri
    | _ => false

/-- RILL_MESSAGE (R37 to R39): a message reaches its endpoint, as sent or with the words `got`; one whose check fails is discarded, counted
and sent again. Its source may then send the next one it holds. -/
def execRillMessage (m : Nat) (got : Option (List Word)) (s : State) : Result :=
  .next (match tget? s.fly m with
    | some (.rill r) =>
      if rillBehind s m r || !(rillPath s r.src r.dst) then s
      else
        let ws := match got with | some l => l.map (·.toNat) | none => rillWords r
        if !(rillGood ws) then count bRIL 2 0 (if r.dst < 165 then r.dst else r.src) s
        else
          let s := rillRelease r.src (unfly m s)
          if ws.getD 0 0 % 256 == 0x40 then rillDigest r.dst (((ws.drop 1).take 16).flatMap (natLE 4)) s else s
    | _ => s)

/-- R329: sweeps start in the order their windows completed, privileged contexts first: whether another one goes before that of a context
named at `b`. -/
def sweepBehind (s : State) (c b : Nat) : Bool :=
  s.ctxs.any fun e => e.1 != c && (match e.2.dec with
    | some d => !d.begun && (match d.sweepBnd with
      | some k => decide (k < s.tide.bnd) && (if e.2.priv == (getCtx s c).priv then decide (k < b) else e.2.priv)
      | none => false)
    | none => false)

/-- SWEEP_START (R228, R231): at the boundary Sluice named, every engine that owns shards of the context begins; the module's copy
of the health block's scale entry follows R125. -/
def execSweepStart (ctx : Fin 1024) (s : State) : Result :=
  let c := ctx.val
  .next (match (getCtx s c).dec with
    | some d =>
      match d.sweepBnd with
      | some b =>
        if s.tide.bnd ≤ b || d.begun || sweepBehind s c b then s
        else if !(atBoundary s) then
          -- R55: an event past its boundary takes effect at the next one, and is counted late
          (((shardsOf s c).filter (·.r.owner)).map (fun x => homeOf x.r)).eraseDups.foldl (fun s e => lateEvent (ringUnit e) s)
            (modCtx c (fun x => { x with dec := some { d with sweepBnd := some s.tide.bnd } }) s)
        else
          let n := (getCtx s c).num
          let (en, sat) := scaleStep n.quiet d.ovf d.hot d.nf (tabEntry s c 0)
          let es := ((shardsOf s c).filter (·.r.owner)).map (fun x => homeOf x.r) |>.eraseDups
          let unit := ringUnit (if slowAddr n.scaleTable then es.headD 0 else memStack n.scaleTable)
          let s := if d.failed then s else recPut bEDY unit c n.scaleTable (natLE 2 (scaleBits en)) s
          let s := if sat && !d.failed then raise unit bEDY sDef 0x09 (some c) d.step 0 6 s else s
          let s := modCtx c (fun x => { x with dec := some { d with begun := true } }) s
          let s := es.foldl (fun s e =>
            askAhead e c (modEdy e (fun x => { x with sweeps := x.sweeps.filter (·.ctx != c) ++ [{ ctx := c, step := d.step, tide := s.tide.count, skip := d.skip, failed := d.failed }] }) s)) s
          if es.isEmpty then sweepEnd c s else s
      | none => s
    | none => s)

/-- GRANULE_PROCESS (R229, R234, R247): the engine processes granule `g` of the shard in progress: the next in order, or in the
slow tier one within its window whose tiles have arrived, with the scale entries, and none stale (R150). `flaky`: staging tiles whose first read failed (R275); `fix`: copies
that sources outside the module give (R239); `ecc`: what the accesses find on lines (R188). -/
def execGranuleProcess (e : Fin 64) (ctx : Fin 1024) (g : Nat) (flaky : List Nat) (fix : List TileFix) (ecc : List (Nat × MemEcc)) (s : State) : Result :=
  .next (
    let s := edyAdvance e ctx s
    match sweepOf s e ctx with
    | none => s
    | some w =>
      match (ownShards s e ctx)[w.pos]? with
      | none => s
      | some x =>
        let due := !w.fin && w.wait.isEmpty && decide (g < granules x.r) &&
          (if anySlow x.r && !w.skip then decide (w.gran ≤ g) && decide (g < w.gran + slowWindow s e) && !(w.ahead.contains g) && granBack s e x.r g else g == w.gran)
        let nblk := (min 5120 (x.r.elements - 5120 * g)) / 32
        let b0 := x.r.gblock0 + 160 * g + 1
        if !due then s
        else if !(tabBack s bEDY e ctx b0 nblk) then tabAsk bEDY e ctx b0 nblk s
        else
          let old := if w.skip then [] else staleSlow s e w x g
          if !old.isEmpty then staleAsk e ctx x old s
          else
            unitGate .eddy (if w.skip then [] else granRanges x.r g) (unitGate .estuary (stageRanges x.r g) fun s =>
              let s := ownLines e (some ctx.val) ecc s
              edyAdvance e ctx (askAhead e ctx (granDone e ctx g (tabTake bEDY e ctx b0 nblk (granuleGo e w x g flaky fix s))))) s)

/-- SWEEP_COMPLETE (R232, R134): an engine's part is complete; with the last engine's, the module's. -/
def execSweepComplete (e : Fin 64) (ctx : Fin 1024) (s : State) : Result :=
  .next (
    let s := edyAdvance e ctx s
    match sweepOf s e ctx with
    | none => s
    | some w =>
      if !w.fin || !w.wait.isEmpty || w.closed then s
      else
        let s := modSweep e ctx (fun w => { w with closed := true }) s
        if (sweepsOf s ctx).all (·.closed) then sweepEnd ctx s else s)

/-- SHARD_NOTICE (R238, R376): a digest notice from another module's owner reaches the holder; records from two owners for one
shard are both refused and the context is held. -/
def execShardNotice (e : Fin 64) (i : Nat) (s : State) : Result :=
  .next (match csnMsg s e i 0x18 with
    | none => s
    | some m =>
      let s := csnTake e i s
      let note := m.body.take 64
      let c := leField note 46 2 % 1024
      let id := leField note 0 4
      let f : Fetch := { note := note, node := m.srcNode, w := leField m.body 64 8, fp := leField m.body 72 8, eng := e }
      match shardOf s c id with
      | none => s
      | some x =>
        if x.r.owner then s
        else if x.from_.any (· != (f.node, f.w)) then
          let s := setCopy c id none false none none (modShard c id (fun x => { x with from_ := none, src := none }) s)
          holdDue c 16 (raise (ringUnit m.dstEng) bEDY sDef 0x11 (some c) id (stepSeq s c (leField note 4 4)) 0 s)
        else copyNotice c id none f (modShard c id (fun x => { x with from_ := some (f.node, f.w), src := some f }) s))

/-- SHARD_FETCH_TILE (R238): the next tile of a fetch has arrived: checks 1 to 4 and its fingerprint; one that fails is fetched
again alone. `k`: none for a fetcher's copy, else the replica of an owned shard. -/
def execShardFetchTile (ctx : Fin 1024) (id : Nat) (k : Option (Fin 2)) (s : State) : Result :=
  let c := ctx.val
  .next (match shardOf s c id with
    | none => s
    | some x =>
      let k := k.map (·.val)
      match copyFetch x k with
      | none => s
      | some f =>
        let i := f.got.length
        let (e, w) := copyPlace x k
        if qTiles x.r 0 ≤ i then s
        else unitGate .eddy ((w + 2048 * i, 2048) :: if f.node == 0 then [(f.w + 2048 * i, 2048)] else []) (fun s => match fetchGot s x.r f with
          | none => s
          | some t =>
            let s := fetchTake x.r f s
            match t with
            | none => fetchAsk x.r f s
            | some (p, tr, fp) =>
              let ok := match verifyTile s { ident := some (qIdent x.r 0 i), formats := some [0x20] } p tr with | .corrupt _ => false | _ => true
              if !ok || fingerprint p tr != fp then fetchAsk x.r f (edyCount 9 e c 1 s)
              else
                let f' := { f with got := tset f.got i fp }
                let s := memPutTile (w + 2048 * i) (w + 2048 * qTiles x.r 0 + 32 * i) p tr s
                let s := if k.isNone then memWrite true (fpAt x.r 0 i) fp s else s
                fetchAsk x.r f' (edyCount 7 e c 1 (setCopy c id k false (match k with | none => x.digest | some k => (x.reps.getD k {}).digest) (some f') s))) s)

/-- SHARD_FETCH_VERIFY (R232, R238): the digest of the fetched fingerprints makes the copy ready, or the fetch starts anew; after
three attempts the copy stays not ready. -/
def execShardFetchVerify (ctx : Fin 1024) (id : Nat) (k : Option (Fin 2)) (s : State) : Result :=
  let c := ctx.val
  .next (match shardOf s c id with
    | none => s
    | some x =>
      let k := k.map (·.val)
      match copyFetch x k with
      | none => s
      | some f =>
        if f.got.length < qTiles x.r 0 then s
        else
          let (e, w) := copyPlace x k
          let dig := sliceB f.note 8 32
          let step := leField f.note 4 4
          if shardDigest x.r step (f.got.flatMap (·.2)) == dig then
            let s := setCopy c id k true (some dig) none s
            if k.isNone then memWrite true x.r.fpAddr f.note s else s
          else
            let s := copyFailed c w (qTiles x.r 0) (edyCount 10 e c 1 s)
            if 2 ≤ f.tries then raise (ringUnit e) bEDY sDef 0x11 (some c) id (stepSeq s c step) 0 (setCopy c id k false none none s)
            else let f' := { f with got := [], tries := f.tries + 1 }; fetchAsk x.r f' (setCopy c id k false none (some f') s))

/-! ### Audits (R240) -/

/-- W tiles of a copy whose fingerprint differs from the table. -/
def auditBad (s : State) (r : ShardRec) (w q : Nat) : List Nat :=
  (List.range (qTiles r q)).filter fun i =>
    fingerprint (memRead s (w + 2048 * i) 2048) (memRead s (w + 2048 * qTiles r q + 32 * i) 32) != memRead s (fpAt r q i) 8 ||
      memPoisoned s (w + 2048 * i) 2048 || memPoisoned s (w + 2048 * qTiles r q + 32 * i) 32

/-- One shard's audit at its own engine. -/
def auditShard (e : Nat) (x : Shard) (fix : List TileFix) (s : State) : State :=
  let r := x.r
  if r.owner then
    (List.range (r.nstate + 1)).foldl (fun s q =>
      if qSlow r q then s
      else (auditBad s r (qAddr r q) q).foldl (fun s i =>
        (repairTile e x q i (getCtx s r.ctx).lastDone (fix.filter fun f => f.q == q) (edyCount 9 e r.ctx 1 s)).1) s) s
  else if !x.ready || qSlow r 0 then s
  else
    let bad := auditBad s r r.wAddr 0
    let step := match x.src with | some f => leField f.note 4 4 | none => 0
    if bad.isEmpty && some (shardDigest r step (storedFps s r)) == x.digest then s
    else
      let s := edyCount (if bad.isEmpty then 10 else 9) e r.ctx 1 s
      let s := copyFailed r.ctx r.wAddr (qTiles r 0) s
      let f := x.src.map fun f => { f with got := [], tries := 0 }
      let s := setCopy r.ctx r.id none false none f s
      match f with
      | some f => fetchAsk r f s
      | none => s

/-- A replica of an owned shard is audited at its own engine and its digest goes to the owner. -/
def auditReplica (e : Nat) (x : Shard) (k : Nat) (s : State) : State :=
  let (h, _) := copyPlace x (some k)
  let rep := x.reps.getD k {}
  let a := if k == 0 then x.r.rep0 else x.r.rep1
  if !x.r.owner || a == 0 || a / 2 ^ 48 != 0 || h != e || !rep.ready then s
  else
    let step := leNat (memRead s (x.r.fpAddr + 4) 4)
    { s with edy := { s.edy with audits := s.edy.audits ++ [{ ctx := x.r.ctx, shard := x.r.id, rep := k, digest := shardDigest x.r step (copyFps s x (some k)) }] } }

/-- AUDIT_START (R240): an engine audits every shard copy on its stack, with no sweep and no fetch on the engine. -/
def execAuditStart (e : Fin 64) (fix : List TileFix) (s : State) : Result :=
  .next (
    let per := regL s 0x5008 e 15 0
    let busy := !(getEdy s e).sweeps.isEmpty || s.edy.shards.any fun l => l.2.any fun x =>
      (x.fetch.isSome && homeOf x.r == e.val) || (List.range 2).any fun k => (x.reps.getD k {}).fetch.isSome && (copyPlace x (some k)).1 == e.val
    if per == 0 || busy || (getStk s e).st == .retraining then s
    else
      let s := until_ ((getEdy s e).auditAt + msTicks (60000 * per)) s
      let s := modEdy e (fun x => { x with auditAt := s.now }) (countN bEDY 11 0 e 1 s)
      let all := s.edy.shards.flatMap (·.2)
      let s := (all.filter fun x => homeOf x.r == e.val).foldl (fun s x => auditShard e x fix s) s
      all.foldl (fun s x => auditReplica e x 1 (auditReplica e x 0 s)) s)

/-- AUDIT_REPORT (R240, R274): a replica's audited digest reaches the owner; one that differs is recorded and the replica is told
to fetch anew. -/
def execAuditReport (ctx : Fin 1024) (id : Nat) (k : Fin 2) (digest : Bytes) (s : State) : Result :=
  let c := ctx.val
  .next (match shardOf s c id with
    | none => s
    | some x =>
      let a := if k.val == 0 then x.r.rep0 else x.r.rep1
      let own : AuditRep := { ctx := c, shard := id, rep := k, digest := digest }
      if !x.r.owner || a == 0 || (a / 2 ^ 48 == 0 && !(s.edy.audits.contains own)) then s
      else
        let s := { s with edy := { s.edy with audits := s.edy.audits.erase own } }
        if x.digest == some digest then modReplica c id k (fun r => { r with digest := some digest }) s
        else
          let e := homeOf x.r
          let note := memRead s x.r.fpAddr 64
          let s := raise (ringUnit e) bEDY sDef 0x11 (some c) id (stepSeq s c (leField note 4 4)) 0 (edyCount 10 e c 1 s)
          let s := modReplica c id k (fun r => { r with ready := false, digest := some digest }) (copyFailed c (a % 2 ^ 48) (qTiles x.r 0) s)
          publishTo x.r note a s)

/-! ### The difference stream (R241, R244, R245, R334) -/

/-- Waiting records of an engine enter in order while there is room. -/
def strmRefill (e c : Nat) : Nat → State → State
  | 0, s => s
  | n + 1, s =>
    match sweepOf s e c with
    | some w => match w.wait with
      | x :: rest => match strmPut c x s with
        | (s, true) => strmRefill e c n (modSweep e c (fun w => { w with wait := rest }) s)
        | (s, false) => s
      | [] => s
    | none => s

/-- STREAM_BUFFER_SPACE (R245): waiting records enter, then a waiting type 2 record. -/
def execStreamBufferSpace (ctx : Fin 1024) (s : State) : Result :=
  .next (
    let s := s.edy.engs.foldl (fun s e => match sweepOf s e.1 ctx with | some w => strmRefill e.1 ctx w.wait.length (strmWaited e.1 ctx s) | none => s) s
    match (strmOf s ctx).tail with
    | some x =>
      if (sweepsOf s ctx).any (fun w => !w.wait.isEmpty) then s
      else match strmPut ctx x s with
        | (s, true) => modStrm ctx (fun st => { st with tail := none, stepRecs := 0, swept := 0, first := false, resync := false }) s
        | (s, false) => s
    | none => s)

/-- STREAM_STALL_LIMIT (R245): a wait of stall_limit_slots boundaries ends: the records are dropped, a gap is due, and the dropped
tiles are to be sent whole. -/
def execStreamStallLimit (e : Fin 64) (ctx : Fin 1024) (s : State) : Result :=
  .next (
    let lim := if regL s 0x5004 e 15 8 == 0 then 255 else regL s 0x5004 e 15 8
    match sweepOf s e ctx with
    | some w =>
      if w.wait.isEmpty || s.tide.bnd < w.waitBnd + lim then s
      else
        let s := strmWaited e ctx s
        let first := (w.wait.headD { typ := 0, step := 0 }).shard
        let last := (w.wait.getLastD { typ := 0, step := 0 }).shard
        let s := modStrm ctx (fun st => { st with
          gap := match st.gap with | some (a, _, n) => some (a, last, n + w.wait.length) | none => some (first, last, w.wait.length), gapStep := true,
          whole := st.whole ++ (w.wait.filter fun x => x.typ < 2).map fun x => (x.shard, x.quantity, x.tile) }) s
        let s := raise (ringUnit e) bEDY sDef 0x06 (some ctx) first e 0 (edyCount 14 e ctx 1 s)
        modSweep e ctx (fun w => { w with wait := [] }) s
    | none => s)

/-- R241, R371: bytes of a stream go to a slow-tier region, by WRITEs of whole words in class 6, with ack. -/
def sinkPut (c a : Nat) (d : Bytes) (s : State) : State :=
  let lo := a / 4 * 4
  let n := (a + d.length + 3) / 4 * 4 - lo
  let s := winKeep a d s
  rsvAsk { agent := winAgent s lo n, by_ := slowBy bEDY (64 + c) lo n true, ctx := c, addr := lo, len := n, act := .write (memRead s lo n), ack := true, cls := 6 } s

/-- STREAM_EXPORT (R241, R334): the oldest buffered record goes to the sink: into a host ring while it fits, the count of bytes
produced being written after a step's type 2 record; into a slow-tier region by a WRITE with ack. -/
def execStreamExport (ctx : Fin 1024) (s : State) : Result :=
  .next (
    let st := strmOf s ctx
    match st.buf with
    | [] => s
    | (typ, b) :: rest =>
      let o := st.produced % max st.sinkBytes 1
      let room := st.sinkBytes - o
      let parts : List (Nat × Bytes) := if b.length ≤ room then [(o, b)] else [(o, b.take room), (0, b.drop room)]
      let taken (s : State) : State := modStrm ctx (fun st => { st with buf := rest, produced := st.produced + b.length }) s
      if st.sink == 1 then
        if s.hst.link != .up || st.consumed + st.sinkBytes < st.produced + b.length then s
        else
          let s := parts.foldl (fun s p => emit (.hostWrite (st.sinkAddr + p.1) p.2) s) (taken s)
          if typ == 2 then emit (.hostWrite (st.sinkAddr + st.sinkBytes + 8) (natLE 8 (st.produced + b.length))) s else s
      else
        parts.foldl (fun s p => sinkPut ctx (st.sinkAddr + p.1) p.2 s) (taken s))

end Sys2Proof.Machine
end

