-- ==== Sys2Proof/Machine/Headwater.lean ====
section
/-! DEFINITION. Meanings: Headwater (R409 to R427): objects, firmware updates, the licence, re-keys, attestation, scan, the recovery loader. -/
namespace Sys2Proof.Machine

/-! ### Objects (R410, R415 to R417, R421) -/

/-- OBJECT_INSTALL as an inner step (R415, R428): the object at HDW_OBJ_ADDR is verified; a second one meanwhile is refused with code 10. -/
def objStart (act : Bool) (s : State) : State :=
  let a := regLive s 0xB000 0 + 2 ^ 32 * regLive s 0xB004 0
  let n := regLive s 0xB008 0
  if s.hdw.obj.isSome then raise unitBR bHDW sInfo 0x05 none a 0 10 s
  else
    let b := if decide (2956 ≤ n) && decide (n ≤ 64 * 2 ^ 20) && fastOk s a n && !(memPoisoned s a n) then memRead s a n else []
    modHdw (fun h => { h with obj := some { obj := b, act := act, slot := regLive s 0xB010 0 + 2 ^ 32 * regLive s 0xB014 0 }, objState := 1, objResult := 0, objKind := oKind b }) s

/-- KEY_REVOKE (R417): a slot's revocation bit is burned at once. -/
def keyRevoke (slot : Nat) (s : State) : State := modHdw (fun h => { h with revoked := addN h.revoked slot }) s

/-- What an accepted object does (R397, R415 to R417, R421). -/
def objTake (o : ObjOp) (s : State) : State :=
  let b := o.obj
  let d := digest32 b
  match oKind b with
  | 1 =>
    let k := oSub b
    let bank := match tget? s.hdw.active k with | some x => 1 - x | none => 0
    let s := modHdw (fun h => { h with banks := tset h.banks (2 * k + bank) b }) s
    if o.act then modHdw (fun h => { h with updates := tset h.updates k { bank := bank, slot := o.slot, bnd := s.tide.bnd, act := true } }) s else s
  | 2 => modHdw (fun h => { h with licNext := some (b, s.tide.bnd) }) s
  | 3 => modHdw (fun h => { h with resetMask := h.resetMask ||| (leNat (oBody b) % 2 ^ 88), resets := h.resets ++ [(d, oSvn b)] }) s
  | 4 =>
    let g := s.hdw.gen + 1
    let s := modHdw (fun h => { h with gen := g, certs := tset h.certs g b, seeds := delN h.seeds (g - 1), requests := tdel h.requests g, rekey := none, next := 64 * tget h.burned g 0 }) s
    measure 14 d s
  | _ => measure 14 d (keyRevoke (leField (oBody b) 0 1) (burnSvn 14 (oSvn b) s))

/-- OBJECT_VERIFY_DONE (R410, R413): the object is accepted and installed, or refused with the code of its first failed check. `stored`: the
store or OTP write succeeded (check 9). -/
def execObjectVerifyDone (stored : Bool) (s : State) : Result :=
  .next (match if updating s 1 then none else s.hdw.obj with
    | none => s
    | some o =>
      let c := objCheck s o.obj
      let code := if c != 0 then c else if !(objNow s o.obj) then 8 else if !stored then 9 else if !(objFree s o.obj) then 10 else 0
      let s := modHdw (fun h => { h with obj := none, objState := if code == 0 then 2 else 3, objResult := code }) s
      if code == 0 then objTake o s
      else raise unitBR bHDW sInfo 0x05 none (regLive s 0xB000 0 + 2 ^ 32 * regLive s 0xB004 0) 0 code s)

/-! ### Firmware updates (R413, R415) -/

/-- R413: whether a subsystem may be activated now. -/
def activatable (s : State) (k : Nat) : Bool :=
  match k with
  | 1 => s.hdw.obj.isNone
  | 4 => !(s.ctxs.any fun e => e.2.st == .admitting || e.2.cause != 0 || e.2.replan.isSome)
  | 6 => !(s.mem.stks.any fun e => e.2.st == .retraining || !e.2.retiring.isEmpty)
  | 8 => s.hst.link != .up
  | 9 => s.bst.slices.isEmpty
  | _ => true

/-- IMAGE_ACTIVATE (R413, R415): at the later of the first boundary after the write and the slot named, the new image starts. -/
def execImageActivate (sub : Fin 12) (s : State) : Result :=
  .next (match tget? s.hdw.updates sub with
    | some u =>
      if u.startAt.isSome || s.tide.bnd ≤ u.bnd || slotNow s < u.slot || !(activatable s sub) then s
      else modHdw (fun h => { h with updates := tset h.updates sub { u with startAt := some s.now } }) s
    | none => s)

/-- IMAGE_RUNNING (R411, R414, R415): the bank is committed, the minimum burned, the register extended. -/
def execImageRunning (sub : Fin 12) (s : State) : Result :=
  .next (match tget? s.hdw.updates sub with
    | some u =>
      if u.startAt.isNone then s
      else
        let s := if sub.val == 7 && s.hdw.stopped.contains 7 then modNet (fun n => { n with engOut := n.engOut.filter n.chipOut.contains }) s else s
        imageStart sub u.bank (modHdw (fun h => { h with updates := tdel h.updates sub }) s)
    | none => s)

/-- IMAGE_START_TIMEOUT (R415): not running within 10 ms: discarded; the old one resumes; a deferred record. -/
def execImageStartTimeout (sub : Fin 12) (s : State) : Result :=
  .next (match tget? s.hdw.updates sub with
    | some u =>
      match u.startAt with
      | some t =>
        let s := until_ (t + msTicks 10) s
        raise unitBR bHDW sDef 0x0D none sub 0 0 (modHdw (fun h => { h with updates := tdel h.updates sub, banks := tdel h.banks (2 * sub + u.bank) }) s)
      | none => s
    | none => s)

/-! ### The licence (R416) -/

/-- Whether a context has a tensor resident in the slow tier (R463 note 12). -/
def slowResident (x : Ctx) : Bool := x.plan.tensors.any (·.where_ == 1)

/-- R215, R247, R337, R386: the module is lowered to Standard. -/
def lowered (s : State) : State :=
  let s := s.rsv.ops.foldl (fun s o => rsvFail o 6 s) s
  let s := { s with rsv := { s.rsv with wins := [] } }
  let s := ((List.range 64).filter fun e => 4 ≤ e % 8).foldl (fun s e =>
    let s := if (getEng s e).held.isSome || !(getEng s e).tx.isEmpty then linkFail e 2 s else s
    modEng e (fun x => { x with lanes := x.lanes.map fun l => (l.1, { l.2 with st := .disabled }) }) s) s
  s.ctxs.foldl (fun s e => if ctxLive e.2 && slowResident e.2 then settle e.1 (holdDue e.1 64 s) else if ctxLive e.2 && 256 ≤ e.1 then settle e.1 s else s) s

/-- LICENCE_EFFECT (R2, R411, R416): at the first boundary after acceptance the licence is in force. -/
def execLicenceEffect (s : State) : Result :=
  .next (match s.hdw.licNext with
    | some (b, n) =>
      if s.tide.bnd ≤ n then s
      else
        let full := leField (oBody b) 0 1 == 1
        let was := s.full
        let s := measure 12 (digest32 b) (burnSvn 12 (oSvn b) { modHdw (fun h => { h with lic := some b, licNext := none, factory := false }) s with full := full })
        if was && !full then lowered s else s
    | none => s)

/-! ### Re-key (R421) -/

/-- REKEY_START as an inner step: refused and logged where no later generation is free, or one is under way. -/
def rekeyStart (m : Master) (s : State) : State :=
  if 3 ≤ s.hdw.gen || s.hdw.rekey.isSome || s.hdw.scan != .out then reqRefused 0xB020 1 m s
  else modHdw (fun h => { h with rekey := some (.building s.now), seeds := addN h.seeds (h.gen + 1) }) s

/-- REKEY_TREE_DONE (R421): the tree is built and the request formed and signed with the old key, unless it was signed before. -/
def execRekeyTreeDone (bad : Nat) (s : State) : Result :=
  .next (match s.hdw.rekey with
    | some (.building _) =>
      let g := s.hdw.gen + 1
      let s := modHdw (fun h => { h with rekey := some .ready }) s
      if (tget? s.hdw.requests g).isSome then s
      else
        let req := rekeyRequest s
        match indexTake true bad s with
        | (s, some i) => modHdw (fun h => { h with requests := tset h.requests g (req ++ fitB (Config.xmssSign s.hdw.gen i req) 2820) }) s
        | (s, none) => modHdw (fun h => { h with rekey := none }) s
    | _ => s)

/-! ### Attestation (R422 to R424) -/

/-- The request at the head of the queue is answered over DOE. -/
def attAnswer (b : Bytes) (s : State) : State :=
  emit (.doe 1 b) (modHst (fun h => { h with doe := none }) (modHdw (fun h => { h with attest := h.attest.drop 1 }) s))

/-- R422: whether a request is malformed, whatever its op. -/
def attBad (b : Bytes) : Bool :=
  !(b.length == 40 && leField b 0 1 == 1 && decide (1 ≤ leField b 1 1) && decide (leField b 1 1 ≤ 3))

/-- R422: not ready: before step 2 ends, or during a runtime activation; nor in scan or test mode (R426). -/
def attNotReady (s : State) : Bool :=
  decide (s.bst.step ≤ 2) || updating s 1 || s.hdw.scan != .out

/-- An attestation command takes the oldest request when its op is the command's; `any`: also a malformed one. -/
def attest (op : Nat) (any : Bool) (f : Bytes → State → State) (s : State) : State :=
  match s.hdw.attest with
  | [] => s
  | b :: _ =>
    if attBad b then (if any then attAnswer (attRsp 1 []) s else s)
    else if leField b 1 1 != op then s
    else if attNotReady s then attAnswer (attRsp 4 []) s
    else f b s

/-- Reports signed in the last 24 hours, on the local oscillator. -/
def signedDay (s : State) : List Nat := s.hdw.signedAt.filter fun t => decide (s.now < t + msTicks 86400000)

/-- ATTEST_SIGNED (R419, R422 to R424): op 1; it also answers malformed requests. -/
def execAttestSigned (bad : Nat) (s : State) : Result :=
  .next (attest 1 true (fun b s =>
    if max (regL s 0xB024 0 12 0) 1 ≤ (signedDay s).length then attAnswer (attRsp 2 []) s
    else match indexTake false bad s with
      | (s, none) => attAnswer (attRsp 3 []) s
      | (s, some i) =>
        let r := attReport s (sliceB b 8 32) i
        let cert := if s.hdw.gen == 0 then [] else tget s.hdw.certs s.hdw.gen []
        attAnswer (attRsp 0 (r ++ fitB (Config.xmssSign s.hdw.gen i r) 2820 ++ cert)) (modHdw (fun h => { h with signedAt := signedDay s ++ [s.now] }) s)) s)

/-- ATTEST_UNSIGNED (R422): op 2 uses no index. -/
def execAttestUnsigned (s : State) : Result :=
  .next (attest 2 false (fun b s => attAnswer (attRsp 0 (attReport s (sliceB b 8 32) 0xFFFFFFFF)) s) s)

/-- REKEY_REQUEST_READ (R421, R422): op 3. -/
def execRekeyRequestRead (s : State) : Result :=
  .next (attest 3 false (fun _ s =>
    match s.hdw.rekey, tget? s.hdw.requests (s.hdw.gen + 1) with
    | some .ready, some r => attAnswer (attRsp 0 r) s
    | _, _ => attAnswer (attRsp 5 []) s) s)

/-! ### Scan and test mode (R426), the recovery loader (R412) -/

/-- SCAN_ENTRY (R426, R494): the clear sequence: secrets, scratchpads, buffers and the device cache are zeroed, the stacks lose their
contents, a bit of the test count is burned. -/
def execScanEntry (s : State) : Result :=
  .next (if s.hdw.scan != .out then s
    else
      { modHdw (fun h => { h with scan := .clearing s.now, rekey := none, obj := none, tests := h.tests + 1 }) s with
        ctxs := [], cells := [], fly := [], frs := [], est := {}, edy := {}, rsv := { s.rsv with want := [], ops := [], done := [], peer := [] },
        wsh := {}, slc := { s.slc with copies := [], roundAt := [] }, hst := { s.hst with cache := [] },
        mem := { s.mem with data := [], epochs := [], stks := s.mem.stks.map fun e => (e.1, { e.2 with key := 0, queue := [], sort := [], slots := [] }) } })

/-- CLEAR_DONE (R426): the sequence reports done, within 1 ms; the test-class instruction is executed. -/
def execClearDone (s : State) : Result :=
  .next (match s.hdw.scan with
    | .clearing _ => emit (.pin 0x40 0) (modHdw (fun h => { h with scan := .test }) s)
    | _ => s)

/-- RECOVERY_LOADER_OBJECT (R410, R412): with no runtime, a runtime image that verifies is written to bank A, and the module resets. -/
def execRecoveryLoaderObject (obj : Bytes) (stored : Bool) (s : State) : Result :=
  .next (if !(s.bst.step == 15 && s.hdw.stopped.contains 1) then s
    else
      let c := if oKind obj != 1 || oSub obj != 1 then 1 else objCheck s obj
      let c := if c == 0 && !stored then 9 else c
      if c != 0 then emit (.mctp 0x12 [BitVec.ofNat 8 c]) (raise unitBR bHDW sInfo 0x05 none 0 0 c s)
      else emit (.mctp 0x12 [0]) (bringUpStart s.lev.pins (modHdw (fun h => { h with banks := tset h.banks 2 obj }) s)))

end Sys2Proof.Machine
end

