-- ==== Sys2Proof/Machine/HostPort.lean ====
section
/-! DEFINITION. Meanings: the host port (R339 to R352) and ownership requests (R353 to R360). -/
namespace Sys2Proof.Machine

/-! ### Configuration space and BAR2 (R341, R342) -/

/-- R341: what an item reads as. -/
def cfgValue (s : State) : CfgItem → Nat
  | .vendor => 0xCE4A
  | .device => 0xD150
  | .subVendor => 0xCE4A
  | .subsystem => 1
  | .classCode => 0x120000
  | .revision => Config.stepping.toNat
  -- type 0, one function
  | .headerType => 0
  | .intPin => 0
  | .command => s.hst.cfg.command
  -- 64-bit and not prefetchable
  | .bar k => match k.val with
    | 0 => s.hst.cfg.bar0 % 2 ^ 32 + 4
    | 1 => s.hst.cfg.bar0 / 2 ^ 32
    | 2 => s.hst.cfg.bar2 % 2 ^ 32 + 4
    | 3 => s.hst.cfg.bar2 / 2 ^ 32
    | _ => 0
  | .mpsMax => 512
  | .mrrsMax => 4096
  | .tag10 => 1
  | .tag14 => 1
  | .flrCap => 1
  | .mps => s.hst.cfg.mps
  | .mrrs => s.hst.cfg.mrrs
  | .power => if s.hst.d3 then 3 else 0
  | .noSoftReset => 1
  | .msixVectors => 66
  | .msixTable => 2
  | .msixPba => 0x8002
  | .aer => 1
  | .serial => Config.serial.toNat
  | .doe => 1
  | .cacheCapable => 1
  | .memCapable => 1
  | .hdmCount => 1
  -- milliseconds
  | .gpfPhase2 => 10
  | .flit256 => 1
  | .flit68 => 0
  | .locatorBar => 0
  | .locatorId => 1
  | .locatorOff => 0x800000

/-- The host reads an item: configuration space answers on every link that is up (R340). -/
def cfgLoad (item : CfgItem) (s : State) : State := if s.hst.link == .up then emit (.cfgRead item (cfgValue s item)) s else s

/-- The host sets an item; the others are read-only. BAR0 spans 16 MiB and BAR2 64 KiB, sizes stay within what the endpoint supports. -/
def cfgStore (item : CfgItem) (val : Nat) (s : State) : State :=
  if s.hst.link != .up then s
  else
    let lo (b g : Nat) : Nat := b / 2 ^ 32 * 2 ^ 32 + val % 2 ^ 32 / g * g
    let hi (b : Nat) : Nat := b % 2 ^ 32 + val % 2 ^ 32 * 2 ^ 32
    let set (f : CfgSpace → CfgSpace) : State := modHst (fun h => { h with cfg := f h.cfg }) s
    match item with
    | .command => set fun c => { c with command := val % 2 ^ 16 }
    | .bar k => match k.val with
      | 0 => set fun c => { c with bar0 := lo c.bar0 (2 ^ 24) }
      | 1 => set fun c => { c with bar0 := hi c.bar0 }
      | 2 => set fun c => { c with bar2 := lo c.bar2 (2 ^ 16) }
      | 3 => set fun c => { c with bar2 := hi c.bar2 }
      | _ => s
    | .mps => if val ≤ 2 then set fun c => { c with mps := val } else s
    | .mrrs => if val ≤ 5 then set fun c => { c with mrrs := val } else s
    | _ => s

/-- R340: whether BARs answer: on a link without the CXL protocols only configuration space does. -/
def barOpen (s : State) : Bool := s.bst.ready && s.hst.link == .up && s.hst.cxl

/-- R342: a word of BAR2: the MSI-X table of 66 entries at 0, each with its mask bit set at reset; no vector waits in the PBA at 0x8000. -/
def bar2Value (s : State) (off : Nat) : Nat :=
  if off < 66 * 16 then tget s.hst.msixTab off (if off % 16 == 12 then 1 else 0) else 0

/-- Accesses of the host to a word of BAR2. -/
def bar2Load (off : Nat) (s : State) : State := if barOpen s then emit (.bar2Read off (bar2Value s off)) s else s
def bar2Store (off val : Nat) (s : State) : State :=
  if barOpen s && decide (off < 66 * 16) then modHst (fun h => { h with msixTab := tset h.msixTab off val }) s else s

/-! ### The link (R339, R344, R351, R352, R490) -/

/-- HOST_LINK_TRAIN (R352, R494) as an inner step: a ready module whose PERST_N is high leaves Detect. -/
def linkTrain (s : State) : State := if s.bst.ready && !s.hst.perst then modHst (fun h => { h with link := .train }) s else s

/-- The window of an operation is host memory (R214). -/
def hostOp (o : RsvOp) : Bool := o.window.typ == 3

/-- R351: the port returns to reset. -/
def portReturn (s : State) : State :=
  let s := (s.rsv.ops.filter hostOp).foldl (fun s o => rsvFail o 4 s) s
  let s := s.slc.pairs.foldl (fun s e => if e.2.en then pairStop e.1 s else s) s
  let noHost (l : List MemReq) : List MemReq := l.filter fun r => match r.from_ with | .host _ => false | _ => true
  let s := { s with mem := { s.mem with
    filter := [], snoops := [], hostLost := false,
    stks := s.mem.stks.map fun (e : Nat × Stack) => (e.1, { e.2 with
      queue := noHost e.2.queue, slots := e.2.slots.filter fun r => match r.from_ with | .host _ => r.isWrite | _ => true }) } }
  let s := { s with regs := { s.regs with
    view := s.regs.view.filter fun e => e.1 % 4 != Master.host.id, tidHi := tdel s.regs.tidHi Master.host.id, telHi := tdel s.regs.telHi Master.host.id } }
  modHst (fun h => { h with link := .detect, rate := 0, width := 0, lopt := false, cxl := false, d3 := false, cfg := {}, msixTab := [], hdm := none, hdmErr := false, cache := [], reqs := [], order := [], doe := none }) s

/-- PORT_RETURN (R351): link down, hot reset or a bus reset; a ready module trains again. -/
def execPortReturn (s : State) : Result := .next (if s.hst.link == .up then linkTrain (portReturn s) else s)

/-- FLR (R344, R468): from the owner, or while none owns the module, it kills every resident context and disables every pair;
otherwise it returns the port alone, with an info record. -/
def execFlr (s : State) : Result :=
  .next (if s.hst.link != .up then s
    else
      let s := ownClock s
      if s.own.owner.isNone || s.own.owner == some .host then
        let s := s.ctxs.foldl (fun s e =>
          if e.2.st == .free || e.2.st == .killing then s
          else
            let x := e.2
            let s := if x.st == .admitting then postDesc x.qp x.admitTag e.1 1 7 0 x.firstStep x.admitHead s else s
            killStart e.1 { slot := 0, zero := false, tag := 0, qp := x.qp, sqHead := 0, flr := true } s) s
        let s := portReturn s
        let s := s.slc.pairs.foldl (fun s e => regSet 0x8018 e.1 0 (modPair e.1 (fun p => { p with en := false, err := false, halted := false }) s)) s
        linkTrain s
      else linkTrain (portReturn (raise unitTL bHST sInfo 0x0F none 4 (ownerId s) 0 s)))

/-- PERST (R490): PERST_N low for 100 µs returns the port, and the link stays in Detect while it is low. -/
def execPerst (s : State) : Result :=
  .next (if s.hst.perst then s else modHst (fun h => { h with perst := true }) (portReturn (until_ (s.now + usTicks 100) s)))

/-- PERST_RELEASE (R494): PERST_N rises; a ready module trains. -/
def execPerstRelease (s : State) : Result := .next (if s.hst.perst then linkTrain (modHst (fun h => { h with perst := false }) s) else s)

/-- D3HOT_ENTRY (R344). -/
def execD3hotEntry (s : State) : Result := .next (if s.hst.link == .up then modHst (fun h => { h with d3 := true }) s else s)

/-- D0_RETURN (R344): fetching resumes with the state kept. -/
def execD0Return (s : State) : Result :=
  .next (if s.hst.d3 then s.slc.pairs.foldl (fun s e => fetchStart e.1 s) (modHst (fun h => { h with d3 := false }) s) else s)

/-- LINK_UP (R339, R340): training ends at a rate (1 to 4), a width, with or without the CXL protocols. -/
def execLinkUp (rate : Fin 4) (width : Fin 3) (lopt cxl : Bool) (s : State) : Result :=
  .next (
    let top := if regL s 0xF004 0 2 0 == 0 || 4 < regL s 0xF004 0 2 0 then 4 else regL s 0xF004 0 2 0
    if s.hst.link != .train || top < rate.val + 1 then s
    else
      let s := modHst (fun h => { h with link := .up, rate := rate.val + 1, width := width, lopt := lopt, cxl := cxl }) s
      if cxl then s else raise unitTL bHST sInfo 0x0B none 0 0 0 s)

/-! ### The host-visible window (R346 to R349) -/

/-- R347: the memory-space address of a host physical address inside a valid chunk on a stack that is up. -/
def hostMap (s : State) (h : Nat) : Option Nat :=
  match s.hst.hdm with
  | some (base, size) =>
    if h < base || base + size ≤ h then none
    else
      let w := h - base
      let m := regLive s 0xF00C (w / 2 ^ 30)
      let stk := bitsN m 5 0
      if bitN m 31 && decide (bitsN m 12 6 ≤ 73) && stackUp s stk then some (stk * 2 ^ 37 + bitsN m 12 6 * 2 ^ 30 + w % 2 ^ 30) else none
  | none => none

/-- Whether the CXL.mem protocol runs. -/
def cxlMem (s : State) : Bool := s.hst.link == .up && s.hst.cxl

/-- An access outside the window's valid chunks (R347). -/
def hostMiss (h : Nat) (s : State) : State := raise unitTL bHST sInfo 0x07 none h 0 0 s

/-- HOST_MEM_READ (R347 to R349): a 64-byte read that asks for no copy, a Shared or an Any one. -/
def execHostMemRead (tag : Nat) (addr : BitVec 52) (grant : Option Bool) (s : State) : Result :=
  .next (if !(cxlMem s) || (tget? s.hst.reqs tag).isSome then s
    else
      let h := addr.toNat / 64 * 64
      let s0 := s
      let s := count bHST 0 0 0 s
      match hostMap s h with
      | none => hostMiss h (emit (.hostLink 3 [tag, 1] []) (count bHST 2 0 0 s))
      | some a =>
        let req : MemReq := { id := 0, cls := .host, from_ := .host tag, ctx := none, addr := a, len := 64, act := .read, sm := false, at_ := 0 }
        -- R196: a full source queue holds the port
        if queueFull s0 req then queueHold req s0
        else memEnqueue req (modHst (fun x => { x with reqs := tset x.reqs tag { line := a / 64, grant := grant } }) s))

/-- HOST_MEM_WRITE (R347): bytes of one line, those of `mask`. -/
def execHostMemWrite (tag : Nat) (addr : BitVec 52) (off : Fin 64) (data : Bytes) (s : State) : Result :=
  if data.length == 0 || 64 < off.val + data.length then .fault .illFormed
  else .next (if !(cxlMem s) || (tget? s.hst.reqs tag).isSome then s
    else
      let h := addr.toNat / 64 * 64
      let s0 := s
      let s := count bHST 1 0 0 s
      match hostMap s h with
      | none => hostMiss h (emit (.hostLink 4 [tag] []) s)
      | some a =>
        let req : MemReq := { id := 0, cls := .host, from_ := .host tag, ctx := none, addr := a + off, len := data.length, act := .write data, sm := false, at_ := 0 }
        if guarded s (a + off) data.length then emit (.hostLink 4 [tag] []) (guardRecord (a + off) Master.host.id none s)
        else if queueFull s0 req then queueHold req s0
        else memEnqueue req (modHst (fun x => { x with reqs := tset x.reqs tag { line := a / 64, grant := none } }) s))

/-- The record is dropped, or kept as Shared after a data snoop, and the waiting request may go on. -/
def bisnpDone (line : Nat) (s : State) : State :=
  match tget? s.mem.snoops line with
  | some (inv, _) =>
    let s := { s with mem := { s.mem with snoops := tdel s.mem.snoops line, filter := if inv then tdel s.mem.filter line else if (tget? s.mem.filter line).isSome then tset s.mem.filter line false else s.mem.filter } }
    if inv then modHst (fun h => { h with order := delN h.order line }) s else s
  | none => s

/-- BISNP_RESPONSE (R348, R360): the host answers a snoop; a dirty line is written back first, as a host-class write. -/
def execBisnpResponse (line : Nat) (dirty : Option Bytes) (s : State) : Result :=
  match dirty with
  | some b => if b.length != 64 then .fault .illFormed else .next (bisnpDone line (if fastOk s (64 * line) 64 then memWrite false (64 * line) b s else s))
  | none => .next (bisnpDone line s)

/-- BI_TIMEOUT (R349): no BIRsp: the host is treated as lost. -/
def execBiTimeout (line : Nat) (s : State) : Result :=
  .next (match tget? s.mem.snoops line with
    | some (_, t) =>
      let s := until_ (t + usTicks (max (regL s 0xF010 0 15 0) 10)) s
      let s := { s with mem := { s.mem with filter := [], snoops := [], hostLost := true } }
      raise unitTL bHST sCont 0x06 none (64 * line) 0 0 (count bHST 5 0 0 (modHst (fun h => { h with order := [] }) s))
    | none => s)

/-- HOST_SNOOP (R345): a snoop is answered without data: kind 0 SnpInv drops the line, 1 SnpData and 2 SnpCur leave it Shared; a
dropped doorbell or control line is read again (R309, R334). -/
def execHostSnoop (kind : Fin 3) (line : Nat) (s : State) : Result :=
  .next (if !(cxlMem s) then s
    else
      let held := s.hst.cache.contains line
      let s := emit (.hostLink 5 [line, if held && kind != 0 then 1 else 0] []) s
      if !held || kind != 0 then s
      else
        let s := cacheDel [line] s
        let bell := decide (s.slc.dbBase / 64 ≤ line) && decide (line < s.slc.dbBase / 64 + 8)
        let ctl := s.edy.streams.any fun e => e.2.sink == 1 && (e.2.sinkAddr + e.2.sinkBytes) / 64 == line
        if (bell || ctl) && !s.hst.d3 then emit (.hostRead (64 * line) 64) s else s)

/-- HDM_COMMIT (R346, R352): the decoder is committed, refused or uncommitted. -/
def execHdmCommit (commit : Bool) (base size ways : Nat) (s : State) : Result :=
  .next (if s.hst.link != .up then s
    else if !commit then modHst (fun h => { h with hdm := none, hdmErr := false }) s
    else if base % 2 ^ 28 == 0 && size % 2 ^ 30 == 0 && decide (2 ^ 30 ≤ size) && decide (size ≤ 512 * 2 ^ 30) && ways == 1 && decide (base + size ≤ 2 ^ 52) then
      modHst (fun h => { h with hdm := some (base, size), hdmErr := false }) { s with mem := { s.mem with hostLost := false } }
    else modHst (fun h => { h with hdmErr := true }) s)

/-! ### DOE (R350) -/

/-- A DOE error answer. -/
def doeError (s : State) : State := emit (.doe 0xFF []) s

/-- The protocols of R350 by index: vendor, type. -/
def doeProtocols : List (Nat × Nat) := [(0x0001, 0), (0x1E98, 2), (0xCE4A, 1)]

/-- DOE_REQUEST (R350, R359): a mailbox object, without its header, is served by protocol: discovery and CDAT are answered, an
attestation request goes to Headwater. -/
def execDoeRequest (vendor : BitVec 16) (typ : BitVec 8) (obj : Bytes) (s : State) : Result :=
  .next (if s.hst.link != .up || s.hst.doe.isSome then s
    else if 16384 < obj.length then doeError s
    else match vendor.toNat, typ.toNat with
      | 0x0001, 0 =>
        let i := leField obj 0 1
        match doeProtocols[i]? with
        | some (v, t) => emit (.doe 0 (natLE 2 v ++ natLE 1 t ++ natLE 1 (if i + 1 < 3 then i + 1 else 0))) s
        | none => emit (.doe 0 (natLE 2 0xFFFF ++ natLE 1 0xFF ++ natLE 1 0)) s
      | 0x1E98, 2 => emit (.doe 2 (Config.cdat (leNat obj))) s
      | 0xCE4A, 1 => modHst (fun h => { h with doe := some (s.now, obj) }) { s with hdw := { s.hdw with attest := s.hdw.attest ++ [obj] } }
      | _, _ => doeError s)

/-- DOE_TIMEOUT (R350): a request not completed in 1 s is aborted. -/
def execDoeTimeout (s : State) : Result :=
  .next (match s.hst.doe with
    | some (t, _) =>
      let s := until_ (t + msTicks 1000) s
      doeError (modHst (fun h => { h with doe := none }) { s with hdw := { s.hdw with attest := [] } })
    | none => s)

/-! ### Ownership (R354 to R357) -/

/-- CLAIM (R355, R359): also takes a request whose op is none of the five, which is malformed. -/
def execClaim (x : OwnIn) (s : State) : Result := .next (ownCommand 1 true x s)

/-- RENEW (R356, R357). -/
def execRenew (x : OwnIn) (s : State) : Result := .next (ownCommand 2 false x s)

/-- HANDOVER (R357). -/
def execHandover (x : OwnIn) (s : State) : Result := .next (ownCommand 3 false x s)

/-- RELEASE (R357). -/
def execRelease (x : OwnIn) (s : State) : Result := .next (ownCommand 4 false x s)

/-- OWNERSHIP_QUERY (R354). -/
def execOwnershipQuery (x : OwnIn) (s : State) : Result := .next (ownCommand 5 false x s)

/-- ELECTION_CLOSE (R355): 100 ms after the first CLAIM. -/
def execElectionClose (s : State) : Result :=
  .next (match s.own.windowEnd with | some t => electionEnd (until_ t s) | none => s)

/-- LEASE_EXPIRY (R356). -/
def execLeaseExpiry (s : State) : Result :=
  .next (if s.own.owner.isSome then ownExpire (until_ s.own.leaseEnd s) else s)

/-- MCTP_ASSEMBLY_TIMEOUT (R359): an incomplete message is discarded after 100 ms, and counted. -/
def execMctpAssemblyTimeout (s : State) : Result := .next (modHst (fun h => { h with mctpDrop := h.mctpDrop + 1 }) (until_ (s.now + msTicks 100) s))

end Sys2Proof.Machine
end

