-- ==== Sys2Proof/Machine/SelfTest.lean ====
section
/-! DEFINITION. Meanings: the hole map's store (R394 to R397), cluster slices (R401), die tests (R402), recovery (R404, R405). -/
namespace Sys2Proof.Machine

/-- HOLE_MAP_DURABLE (R394, R396): a store write of the map ends, within 10 ms of the addition; a failed one raises a deferred record. -/
def execHoleMapDurable (ok : Bool) (s : State) : Result :=
  .next (if !s.bst.undurable then s
    else if ok then mapDurable s
    else raise unitBR bBST sDef 0x0D none 0 0 0 (modBst (fun b => { b with storeBad := true }) s))

/-- BOOTCFG_COMMIT as an inner step (R391): the staged record replaces the stored one at the next power-on. -/
def bootCommit (s : State) : State := modBst (fun b => { b with bootNext := some ((List.range 4).map fun i => tget b.staged i 0) }) s

/-! ### Cluster slices (R401) -/

/-- The slice of a cluster. -/
def sliceOf (s : State) (h : Nat) : Option Slice := s.bst.slices.find? (·.head == h)

/-- Change it. -/
def modSlice (h : Nat) (f : Slice → Slice) (s : State) : State := modBst (fun b => { b with slices := b.slices.map fun x => if x.head == h then f x else x }) s

/-- The first cell of a cluster by number. -/
def headOf (cl : Nat) : Nat := logCell (cl / 800) (cl % 800 / 32 * 4) (cl % 32 * 4)

/-- Whether a group of an active pass lies over a cluster. -/
def passOver (s : State) (h : Nat) : Bool :=
  let r := logRow h
  let c := logCol h
  s.frs.any fun e => e.2.passes.any fun p => p.active && p.grps.any fun g =>
    g.die == logDie80 h && decide (g.row0 ≤ r + 3) && decide (r ≤ g.row1) && decide (g.col0 ≤ c + 3) && decide (c ≤ g.col1)

/-- Whether a cluster may be tested in a slice now. -/
def sliceFree (s : State) (h : Nat) : Bool :=
  let site := dieSite s (logDie80 h)
  s.bst.ready && !(updating s 9) && bitN (regLive s 0x10004 0) 0 && siteAvail s site && !(s.bst.tests.any fun t => t.site == site && t.st != .queued) &&
  !(s.bst.slices.any fun x => logReach x.head == logReach h) && !(passOver s h) &&
  (clusterCells h).all fun l => (getCell s l).prog.isNone && (getCell s l).sel.all fun k => k.2.2 == 16

/-- SLICE_START (R401): a cluster that Sluice has named begins its save; suspect clusters of the reach come first. -/
def execSliceStart (cl : Fin 64000) (s : State) : Result :=
  let h := headOf cl
  .next (
    let urgent := s.bst.suspect.any fun e => logReach e.1 == logReach h && sliceFree s e.1
    if !(sliceFree s h) || (urgent && (tget? s.bst.suspect h).isNone) then s
    else modBst (fun b => { b with slices := b.slices ++ [{ head := h, bnd := s.tide.bnd }] }) s)

/-- SLICE_SAVE_DONE (R401): the save ends; the March test and the segment run. -/
def execSliceSaveDone (cl : Fin 64000) (s : State) : Result :=
  .next (match sliceOf s (headOf cl) with
    | some x => if x.st == .save then modSlice x.head (fun x => { x with st := .test }) s else s
    | none => s)

/-- Whether every cluster on an available die has run all its segments (a full pass, R401). -/
def covered (s : State) : Bool :=
  (List.range 64000).all fun cl =>
    let h := headOf cl
    !(siteAvail s (dieSite s (logDie80 h))) || (clusterCells h).all (fun l => isHole s (physOf s l)) || tget s.bst.seg h 0 == 128

/-- A segment of a cluster has passed: the next is due; a suspect cluster that has passed all 128 is cleared; a full pass ends. -/
def segPassed (h : Nat) (s : State) : State :=
  let s := count bBST 3 0 0 (count bBST 0 0 0 s)
  let s := modBst (fun b => { b with again := tdel b.again h, seg := tset b.seg h (min (tget b.seg h 0 + 1) 128) }) s
  let s := match tget? s.bst.suspect h with
    | some n =>
      if 128 ≤ n + 1 then (clusterCells h).foldl (fun s l => modCell l (fun x => { x with suspect := false }) s) (modBst (fun b => { b with suspect := tdel b.suspect h }) s)
      else modBst (fun b => { b with suspect := tset b.suspect h (n + 1) }) s
    | none => s
  if tget s.bst.seg h 0 == 128 && covered s then modBst (fun b => { b with seg := [], passAt := s.now }) s else s

/-- SLICE_TEST_DONE (R395, R399, R401): the signatures and the March test are compared: `bad` lists the cells that mismatch, by place in
the cluster. A mismatch that recurs makes the cells holes. -/
def execSliceTestDone (cl : Fin 64000) (bad : List (Fin 16)) (s : State) : Result :=
  let h := headOf cl
  .next (match sliceOf s h with
    | some x =>
      if x.st != .test then s
      else
        let ls := (bad.map fun i => (clusterCells h).getD i.val 0).eraseDups
        let s := modSlice h (fun x => { x with st := .restore }) s
        if ls.isEmpty then segPassed h s
        else
          let s := count bBST 2 0 0 (count bBST 0 0 0 s)
          let before := tget s.bst.again h []
          let sure := ls.filter before.contains
          let s := if sure.isEmpty then s else addHoles 3 sCont (sure.map (physOf s)) s
          modBst (fun b => { b with again := if sure.isEmpty then tset b.again h ls else tdel b.again h, suspect := if (tget? b.suspect h).isSome then tset b.suspect h 0 else b.suspect }) s
    | none => s)

/-- SLICE_RESTORE_DONE (R401, R405): the restore ends; slots of a context being killed are restored as zeros, EMPTY, unassigned. -/
def execSliceRestoreDone (cl : Fin 64000) (s : State) : Result :=
  let h := headOf cl
  .next (match sliceOf s h with
    | some x =>
      if x.st != .restore then s
      else
        let dying := (s.ctxs.filter fun e => match e.2.kill with | some k => k.started | none => false).map (·.1)
        let s := (clusterCells h).foldl (fun s l =>
          let ks := dying.flatMap (ownedSlots (getCell s l))
          if ks.isEmpty then s else modCell l (scrubFinish { slots := ks, owner := ownerNone, kill := none }) s) s
        modSlice h (fun x => { x with st := .restored, back := s.tide.bnd }) s
    | none => s)

/-- SLICE_RELEASE (R401): at the first boundary after the restore. -/
def execSliceRelease (cl : Fin 64000) (s : State) : Result :=
  .next (match sliceOf s (headOf cl) with
    | some x => if x.st == .restored && decide (x.back < s.tide.bnd) then modBst (fun b => { b with slices := b.slices.filter (·.head != x.head) }) s else s
    | none => s)

/-- SLICE_ABANDON (R401): a slice not finished by boundary slice_slots restores; the overrun is counted. -/
def execSliceAbandon (cl : Fin 64000) (s : State) : Result :=
  .next (match sliceOf s (headOf cl) with
    | some x =>
      if (x.st == .save || x.st == .test) && decide (x.bnd + max (regL s 0x10004 0 7 4) 2 ≤ s.tide.bnd) then
        count bBST 1 0 0 (modSlice x.head (fun x => { x with st := .restore }) s)
      else s
    | none => s)

/-- COVER_TIMEOUT (R401): a full pass has not ended within cover_h hours: an info record; the next period begins. -/
def execCoverTimeout (s : State) : Result :=
  .next (if !s.bst.ready || !(bitN (regLive s 0x10004 0) 0) then s
    else
      let c := regL s 0x10004 0 31 16
      let s := until_ (s.bst.passAt + msTicks (3600000 * (if c == 0 then 24 else c))) s
      raise unitBR bBST sInfo 0x06 none 0 0 0 (modBst (fun b => { b with passAt := s.now }) s))

/-! ### Die tests (R402, R405) -/

/-- A queued test of a die begins: one in a reach at a time, after a slice on the die has ended; Watershed clears the die as for a
switch-off notice; a die already out of service is tested at once. -/
def testStart (site : Nat) (s : State) : State :=
  match s.bst.tests.find? (·.site == site) with
  | some t =>
    if t.st != .queued || s.bst.tests.any (fun u => u.st != .queued && siteReach u.site == siteReach site) || slicedDie s site then s
    else
      let put (st : TestSt) (s : State) : State := modBst (fun b => { b with tests := b.tests.map fun u => if u.site == site then { u with st := st } else u }) s
      if siteAvail s site then modWsh (fun w => { w with asked := w.asked ++ [{ site := site, slot := slotNow s, why := .dieTest, bnd := s.tide.bnd }] }) (put .clearing s)
      else siteOut site .dieTest (put .running s)
  | none => s

/-- Recovery of a reach begins, or is refused and logged (R404, R405). -/
def recoverStart (m : Option Master) (r ldie : Nat) (s : State) : State :=
  let ox := 11 * r + 10
  let site := dieSite s (10 * r + ldie)
  let fine := 10 > ldie && siteReasons s ox == [.oxbowIdle] && !(s.bst.oxbowBad.contains r) && (tget? s.bst.recov r).isNone && siteFailed s site &&
    !(s.net.reachOut.contains r) && (tget? s.net.leaving ox).isNone && !(s.wsh.freezes.any (·.site == ox)) && site != ox
  if fine then modLev (fun l => { l with region := tset l.region site (tget l.region site 3) }) (modBst (fun b => { b with recov := tset b.recov r { ldie := ldie, step := 1 } }) s)
  else match m with
    | some m => reqRefused 0x1000C (r + 8 * ldie + 128) m s
    | none => s

/-- Automatic recovery of a reach whose site has failed, when auto_recover is 1 (R404). -/
def autoRecover (site : Nat) (s : State) : State :=
  match siteDie s site with
  | some d => if bitN (regLive s 0x10008 0) 0 && siteFailed s site then recoverStart none (d / 10) (d % 10) s else s
  | none => s

/-- DIE_TEST_DONE (R395, R402): the start-up test of a die out of service ends: failing cells become holes; the site re-enters service
under R64 while one cell is usable, else it has failed. -/
def execDieTestDone (site : Fin 88) (u : BringUp) (s : State) : Result :=
  .next (match s.bst.tests.find? (·.site == site.val) with
    | some t =>
      if t.st == .queued || !((siteReasons s site).contains .dieTest) then s
      else
        let on (a : Nat) : Bool := physSite a == site.val
        let s := addHoles 4 sInfo (u.cells.filter on) s
        let s := if u.dies.contains site.val then addDie 4 sCont false site s else s
        let s := (u.clusters.filter on).foldl (fun s a => addHoles 4 sCont ((List.range 16).map fun i => a + i / 4 * 128 + i % 4) s) s
        let here (l : Nat) : Bool := dieSite s (logDie80 l) == site.val
        let s := count bBST 4 0 0 (cellsGone here s)
        let s := modWsh (fun w => { w with notices := w.notices.filter (·.site != site.val) }) s
        let s := modBst (fun b => { b with tests := b.tests.filter (·.site != site.val), suspect := b.suspect.filter (fun e => !(here e.1)), again := b.again.filter (fun e => !(here e.1)) }) s
        if siteHoles s site < dieCells then modNet (fun n => { n with rejoin := tset n.rejoin site { slot := slotNow s + 1, started := false, misses := 0, relocked := false } }) s
        else autoRecover site s
    | none => s)

/-! ### Recovery (R404) -/

/-- A recovery that fails a step: the oxbow stays isolated; a deferred record. -/
def recoverFail (r : Nat) (s : State) : State :=
  let s := siteOut (11 * r + 10) .isolated (modBst (fun b => { b with recov := tdel b.recov r }) s)
  let s := modNet (fun n => { n with toJoin := n.toJoin.filter (· != 11 * r + 10) }) s
  raise (152 + r) bBST sDef 0x10 none (11 * r + 10) 0 0 s

/-- RECOVERY_STEP_END (R404): a step of a reach's recovery ends; the fifth ends when the oxbow is in service. `u`: what the oxbow's
start-up test found (step 3). -/
def execRecoveryStepEnd (reach : Fin 8) (ok : Bool) (u : BringUp) (s : State) : Result :=
  let r := reach.val
  let ox := 11 * r + 10
  .next (match tget? s.bst.recov r with
    | none => s
    | some x =>
      let go (s : State) : State := modBst (fun b => { b with recov := tset b.recov r { x with step := x.step + 1 } }) s
      if !ok then recoverFail r s
      else match x.step with
        | 1 => go (emit (.pin 0x23 ox) (siteOut (dieSite s (10 * r + x.ldie)) .isolated s))
        | 3 =>
          let on (a : Nat) : Bool := physSite a == ox
          let s := addHoles 0 sInfo (u.cells.filter on) s
          if u.dies.contains ox then recoverFail r (modBst (fun b => { b with oxbowBad := addN b.oxbowBad r }) (addDie 1 sCont false ox s)) else go s
        | 4 => go (modNet (fun n => { n with dieMap := tset n.dieMap (10 * r + x.ldie) 10, toJoin := addN n.toJoin ox, routesDue := true }) s)
        | 5 => if siteAvail s ox then count bBST 5 0 0 (modBst (fun b => { b with recov := tdel b.recov r }) s) else s
        | _ => go s)

/-- RECOVERY_BUDGET_EXPIRY (R404): a step of a recovery misses its budget. -/
def execRecoveryBudgetExpiry (reach : Fin 8) (s : State) : Result :=
  .next (match tget? s.bst.recov reach with
    | none => s
    | some x => if x.step == 5 && siteAvail s (11 * reach + 10) then s else recoverFail reach s)

end Sys2Proof.Machine
end

