-- ==== Sys2Proof/Machine/RegRead.lean ====
section
/-! DEFINITION. What registers read as (R465 to R482): view registers, selectors, status fields, latched halves. -/
namespace Sys2Proof.Machine

/-! ### Counters (R460) -/

/-- Which counters there are: block, how many numbers, and the kinds of each with their instances. -/
def telRows : List (Nat × Nat × List (Nat × Nat)) :=
  [(bCEL, 8, [(1, 1024), (2, 1024000)]), (bRIL, 3, [(0, 165)]), (bFRS, 23, [(0, 64), (1, 1024)]), (bMEM, 18, [(0, 64), (1, 1024)]),
   (bEDY, 17, [(0, 64), (1, 1024)]), (bEST, 15, [(0, 64), (1, 1024)]), (bWSH, 6, [(1, 1024)]), (bSLC, 22, [(0, 64), (1, 1024)]),
   (bTID, 4, [(0, 165)]), (bLEV, 7, [(0, 164)]), (bCSN, 12, [(0, 1024)]), (bRSV, 4, [(0, 64), (1, 1024)]),
   (bCHK, 5, [(0, 448), (2, 1024000)]), (bHST, 8, [(0, 4)]), (bBST, 22, [(0, 1)]), (bERR, 3, [(0, 165)])]

/-- Values of one counter number of a block. -/
def telSpan (ks : List (Nat × Nat)) : Nat := (ks.map (·.2)).foldl (· + ·) 0

/-- Values in all. -/
def telTotal : Nat := (telRows.map fun r => r.2.1 * telSpan r.2.2).foldl (· + ·) 0

/-- The place of an instance among a number's values. -/
def telInKinds (kind inst : Nat) : List (Nat × Nat) → Nat → Option Nat
  | [], _ => none
  | (k, n) :: r, at_ => if k == kind then (if inst < n then some (at_ + inst) else none) else telInKinds kind inst r (at_ + n)

/-- The place of a counter in the dump. -/
def telPlace (key : Nat) : List (Nat × Nat × List (Nat × Nat)) → Nat → Option Nat
  | [], _ => none
  | (b, n, ks) :: r, at_ =>
    if key / 2 ^ 32 == b then
      let num := key / 2 ^ 22 % 1024
      if num < n then telInKinds (key / 2 ^ 20 % 4) (key % 2 ^ 20) ks (at_ + num * telSpan ks) else none
    else telPlace key r (at_ + n * telSpan ks)

/-! ### Selectors (R469, R470) -/

/-- A master's copy of a view register. -/
def viewReg (s : State) (m : Master) (off : Nat) : Nat := tget s.regs.view (off * 4 + m.id) (regReset off 0)

/-- The instance a master's selectors name for an index; none where they name no instance. -/
def instOf (s : State) (m : Master) (x : Idx) : Option Nat :=
  let v := viewReg s m
  let below (n k : Nat) : Option Nat := if k < n then some k else none
  match x with
  | .none => some 0
  | .frsEng => some (v 0x3000) | .memStk => some (v 0x4000) | .edyEng => some (v 0x5000) | .estEng => some (v 0x6004)
  | .slcQ => some (v 0x8000)
  | .levRegion => below 164 (v 0xA014)
  | .hdwSubsys => if 1 ≤ v 0xB02C && v 0xB02C ≤ 11 then some (v 0xB02C) else none
  | .csnEng => some (v 0xC008)
  | .csnLane => some (16 * v 0xC008 + v 0xC014)
  | .rsvWin => some (v 0xD004) | .rsvExp => some (v 0xD020)
  | .chkProf => some (v 0xE004) | .chkUnit => some (v 0xE01C)
  | .hdm => some (v 0xF008)
  | .bstDie => below 88 (v 0x10014)
  | .holeIdx => below 32000 (v 0x1001C)
  | .bootcfg => some (v 0x10028)
  | .errQ => if s.err.q.any fun e => e.r.seq == v 0x1101C then some (v 0x1101C) else none
  | .errUnit => below 165 (v 0x11080)
  | .tel =>
    let t := v 0x12000
    let k := telKey (bitsN t 5 0) (bitsN t 15 6) (bitsN t 17 16) (v 0x12004)
    if (telPlace k telRows 0).isSome then some k else none

/-! ### Status fields -/

/-- R467: whether the step of R388 that brings a block up has ended, for the blocks that perform one. -/
def blockUp (s : State) (block : Nat) : Bool :=
  let past (k : Nat) : Bool := decide (k < bstStep s)
  if block == bLEV then past 1 else if block == bHDW then past 2 else if block == bTID then past 3
  else if block == bWSH then past 7 else if block == bMEM then past 8 else true

/-- Fields packed from bit 0 upward: width and value of each; a value that does not fit stands at its field's greatest. -/
def packBits : List (Nat × Nat) → Nat
  | [] => 0
  | (w, v) :: r => min v (2 ^ w - 1) + 2 ^ w * packBits r

/-- The site that BST_DIE_SEL names. -/
def selSite (s : State) (i : Nat) : Nat := if i < 80 then dieSite s i else 11 * (i - 80) + 10

/-- What an Eddy engine does (R246): sweeping, fetching, auditing, and for which context. -/
def edyState (s : State) (e : Nat) : Nat × Nat :=
  match (getEdy s e).sweeps with
  | w :: _ => (1, w.ctx)
  | [] =>
    match s.edy.shards.find? fun c => c.2.any fun h => homeOf h.r == e && h.fetch.isSome with
    | some c => (2, c.1)
    | none => match s.edy.audits with
      | a :: _ => if ((tget s.edy.shards a.ctx [])[a.shard]?).any fun h => homeOf h.r == e then (3, a.ctx) else (0, 0)
      | [] => (0, 0)

/-- What Watershed does (R302): freezing, moving, planning, and for which context. -/
def wshState (s : State) : Nat × Nat :=
  let first (l : Tab Ctx) : Nat := match l with | e :: _ => e.1 | [] => 0
  let mv := s.ctxs.filter fun e => e.2.moving.isSome
  let pl := s.ctxs.filter fun e => e.2.st == .admitting || e.2.cause != 0
  match s.wsh.freezes with
  | f :: _ => (3, f.ctxs.headD 0)
  | [] => if !mv.isEmpty then (2, first mv) else match s.wsh.reskews with
    | r :: _ => (2, r.ctx)
    | [] => if !pl.isEmpty then (1, first pl) else (0, 0)

/-- The running value of a check unit (R158). -/
def unitRun (s : State) (u : Nat) : Nat := match tget? s.chk.bound u with | some b => b.run | none => tget s.chk.run u 0

/-- State of a power region (R443). -/
def regionState (s : State) (r : Nat) : Nat :=
  if r < 88 && (siteReasons s r).contains .oxbowIdle then 4 else tget s.lev.region r 0

/-- A subsystem's state, bank and svn (R428). -/
def subsysState (s : State) (k : Nat) : Nat :=
  let bank := tget s.hdw.active k 0
  let upd := updating s k
  packBits [(2, if upd then 1 else if s.hdw.stopped.contains k then 2 else 0), (1, bank), (7, if (tget? s.hdw.active k).isSome then oSvn (bankAtH s k bank) else 0)]

/-- A die's state (R406). -/
def dieState (s : State) (i : Nat) : Nat :=
  let t := selSite s i
  let st := if siteAvail s t then 0 else if (siteReasons s t).contains .oxbowIdle then 3 else if siteFailed s t then 2 else 1
  packBits [(14, siteHoles s t), (2, st), (1, b2n (decide (i < 80) && t % 11 == 10)), (1, b2n (s.bst.suspect.any fun e => dieSite s (logDie80 e.1) == t))]

/-- The value of a register's RO and W1C fields that follow state, by offset and instance; the others hold their reset values. -/
def statusValue (s : State) (m : Master) (off i : Nat) : Nat :=
  let hi (v : Nat) : Nat := v / 2 ^ 32 % 2 ^ 32
  let lo (v : Nat) : Nat := v % 2 ^ 32
  match off with
  | 0x0004 => Config.stepping.toNat + 0x100
  | 0x0008 => lo Config.serial.toNat
  | 0x000C => hi Config.serial.toNat
  | 0x0010 => powerOnCount s
  | 0x3010 => let x := getFrs s i; packBits [(7, (x.passes.filter (!·.active)).length), (3, (x.passes.filter (·.active)).length), (14, x.buf.length)]
  | 0x4020 => let x := getStk s i; packBits [(1, 0), (1, b2n (x.retrainWant || x.st == .retraining))]
  | 0x4024 =>
    let x := getStk s i
    packBits [(12, x.slots.length), (2, if !(stackUp s i) then 2 else match x.st with | .ready => 0 | .retraining => 1 | .unavailable => 2), (2, 0),
              (16, tget s.tel.vals (telKey bMEM 7 0 i) 0)]
  | 0x5010 => packBits [(2, (edyState s i).1), (10, (edyState s i).2)]
  | 0x600C => packBits [(7, (getEst s i).wins.length), (15, accUsed (getEst s i)), (10, ((getEst s i).slice.map (·.1)).getD 0)]
  | 0x7008 => regLive s 0x7008 0
  | 0x700C => regLive s 0x700C 0
  | 0x7010 => regLive s 0x7010 0
  | 0x7018 => packBits [(2, (wshState s).1), (10, (wshState s).2), (4, s.wsh.lastRefusal)]
  | 0x8018 => packBits [(1, 0), (1, b2n (getPair s i).err)]
  | 0x801C => packBits [(16, (getPair s i).sqHead), (16, (getPair s i).cqTail)]
  | 0x802C => packBits [(11, if s.full then 1024 else 256), (7, 64), (5, 16)]
  | 0x8030 => packBits [(11, (s.ctxs.filter (·.2.st != .free)).length), (5, privCount s), (13, cbufAll s)]
  | 0x9004 => packBits [(3, s.tide.st.code), (1, b2n (s.tide.useTidein && (s.tide.st == .locked || s.tide.st == .slew))), (1, b2n s.tide.mismatch)]
  | 0x9008 => unsN 32 s.tide.offset
  | 0x900C => if s.tide.st == .holdover then min ((s.now - s.tide.holdAt) / 150000) (2 ^ 32 - 1) else 0
  | 0x9010 => lo s.tide.count
  | 0x9014 => tget s.regs.tidHi m.id 0
  | 0xA004 => packBits [(16, s.lev.watts / 100), (5, s.lev.throttle), (1, b2n (decide (0 < s.lev.throttle))), (1, b2n (coolantLimit s == capNow s))]
  | 0xA008 => packBits [(16, ((voltNow s).getD 0).toNat), (16, ((ampNow s).getD 0).toNat)]
  | 0xA00C => packBits [(10, ((flowNow s).getD 0).toNat), (10, ((inletNow s).getD 0).toNat), (10, ((outletNow s).getD 0).toNat)]
  | 0xA018 =>
    packBits [(3, regionState s i), (3, if i < 152 then heatLevel s i else 0), (9, ((highest (temps s i)).getD 0).toNat / 5), (1, 0),
              (16, if h : i < 164 then ((sensed s (.rail ⟨i, h⟩)).getD 0).toNat else 0)]
  | 0xB018 => packBits [(2, s.hdw.objState), (4, s.hdw.objResult), (3, s.hdw.objKind)]
  | 0xB01C => packBits [(21, remaining s), (2, s.hdw.gen), (1, b2n (decide (16383 * 64 ≤ s.hdw.next))), (1, b2n s.hdw.rekey.isSome)]
  | 0xB028 => packBits [(1, b2n s.full), (1, b2n s.hdw.factory), (7, svnMin s 12)]
  | 0xB030 => subsysState s i
  | 0xB034 => min s.hdw.tests 0xFFFF
  | 0xC010 =>
    let p := engPartner s i
    packBits [(5, (readyLanes s i).length), (1, b2n (linkReady s i)), (3, (p.map (·.typ)).getD 0), (7, 0), (16, (p.map (·.node)).getD 0)]
  | 0xC01C => let x := getLane s (i / 16) (i % 16); packBits [(4, if x.retrain then 8 else x.st.code), (4, x.cause), (12, x.lengthDm)]
  | 0xC020 => let x := getLane s (i / 16) (i % 16); unsN 16 x.rx + 2 ^ 16 * unsN 16 x.tx
  | 0xE020 => match tget? s.chk.bound i with | some b => packBits [(1, 1), (10, b.ctx), (4, b.prof)] | none => 0
  | 0xF000 => if s.hst.link == .up then packBits [(3, s.hst.rate), (2, s.hst.width), (1, b2n s.hst.lopt), (1, b2n s.hst.cxl)] else 0
  | 0xF014 => s.mem.filter.length
  | 0xF020 =>
    packBits [(3, s.own.hostStatus), (2, ownerId s), (1, b2n (s.own.claims.any (·.m == .host))), (1, b2n s.own.changed), (9, 0), (14, leaseMs s)]
  | 0xF024 => s.own.gen
  | 0x10000 =>
    packBits [(4, bstStep s), (1, b2n s.bst.ready), (1, b2n (degraded s)), (1, b2n (!s.bst.slices.isEmpty || s.bst.tests.any (·.st == .running))), (1, 0),
              (8, (s.bst.recov.map fun e => 2 ^ e.1).foldl (· + ·) 0)]
  | 0x10018 => dieState s i
  | 0x10020 => (List.range 32).foldl (fun a k => a + 2 ^ k * b2n (isHole s (physOf s (32 * i + k)))) 0
  | 0x10024 => holeCount s
  | 0x11014 => packBits [(11, s.err.q.length), (1, b2n s.err.overflow), (3, (s.err.q.map (·.r.sev)).foldl max 0)]
  | 0x11018 => s.err.nextSeq
  | 0x11084 => let u := tget s.err.units i {}; packBits [(7, u.q.length), (1, b2n u.overflow)]
  | 0x12008 => lo (telValue s i)
  | 0x1200C => tget s.regs.telHi m.id 0
  | 0x12018 => packBits [(1, 0), (1, b2n (s.tel.dumpArmed || s.tel.snap.isSome))]
  | _ =>
    if 0x11040 ≤ off && off < 0x11080 then
      match s.err.q.find? fun e => e.r.seq == i with
      | some e => leField (errBytes e.r) (off - 0x11040) 4
      | none => 0
    else match regAt off with
      | some r => (r.fields.filter (·.acc == .ro)).foldl (fun a f => a + f.reset * 2 ^ f.lo) 0
      | none => 0

/-- Registers that serve the host alone (R480). -/
def hostOnly (off : Nat) : Bool := off == 0xF018 || off == 0xF01C || off == 0xF028

/-- RW registers that read as state holds them: the staged record, the running values of a check unit, the enable of a pair. -/
def heldValue (s : State) (off i : Nat) : Option Nat :=
  match off with
  | 0x1002C => some (tget s.bst.staged i 0)
  | 0xE024 => some (unitRun s i % 2 ^ 32)
  | 0xE028 => some (unitRun s i / 2 ^ 32 % 2 ^ 32)
  | 0x8018 => some (b2n (getPair s i).en)
  | _ => none

/-- What a master reads at an offset. -/
def regValue (s : State) (m : Master) (off : Nat) : Nat :=
  match regAt off with
  | none => if 0x801000 ≤ off && off < 0x802000 && m == .host then (Config.cxlComponent off).toNat else 0
  | some r =>
    if r.view then viewReg s m off
    else if hostOnly off && m != .host then 0
    else match instOf s m r.idx with
      | none => 0
      | some i =>
        if !(blockUp s (regBlock off)) then regReset off i &&& fieldMask r (·.acc != .wo)
        else
          let held := match heldValue s off i with | some v => v | none => regWritten s off i
          (held &&& fieldMask r (·.acc == .rw)) ||| (statusValue s m off i &&& fieldMask r (fun f => f.acc == .ro || f.acc == .w1c))

/-- What reading an offset does: TID_COUNT_LO and TEL_VAL_LO latch the upper half for the master (R471). -/
def regLatch (m : Master) (off : Nat) (s : State) : State :=
  if off == 0x9010 then { s with regs := { s.regs with tidHi := tset s.regs.tidHi m.id (s.tide.count / 2 ^ 32) } }
  else if off == 0x12008 then
    { s with regs := { s.regs with telHi := tset s.regs.telHi m.id (((instOf s m .tel).map (telValue s)).getD 0 / 2 ^ 32) } }
  else s

/-- A run of registers read in order, with their latches (R466). -/
def regRun (m : Master) : Nat → Nat → State → List Nat × State
  | 0, _, s => ([], s)
  | n + 1, off, s =>
    let v := regValue s m off
    let r := regRun m n (off + 4) (regLatch m off s)
    (v :: r.1, r.2)

end Sys2Proof.Machine
end

