-- ==== Sys2Proof/Machine/RegWrite.lean ====
section
/-! DEFINITION. Writes to registers (R353, R453 to R455, R466 to R471): who may write, what a class does with a write, what a write sets
off; the paths of the three masters (R377, R456). -/
namespace Sys2Proof.Machine

/-! ### What "running" means (R454, R217) -/

/-- Whether a lane of an engine is past DOWN. -/
def lanesUp (s : State) (e : Nat) : Bool := (List.range 16).any fun l => decide (2 ≤ (getLane s e l).st.code)

/-- R454: whether a static field is running; R217: a window's or export's fields while valid is 1. `f`: the field. -/
def staticNow (s : State) (off i : Nat) (f : Field) : Bool :=
  if f.cls == .s then
    if off == 0x9018 || off == 0x901C then anyRunning s
    else if off == 0xE000 then anyResident s || (List.range 64).any (lanesUp s)
    else if 0xE008 ≤ off && off ≤ 0xE018 then s.chk.bound.any (·.2.prof == i)
    else if 0x8004 ≤ off && off ≤ 0x8014 then (getPair s i).en
    else if off == 0x8020 || off == 0x8024 then s.slc.pairs.any (·.2.en)
    else if off == 0xF00C then s.hst.hdm.isSome
    else if off == 0xC000 then (List.range 64).any (lanesUp s)
    else if off == 0x7014 then anyResident s
    else if 0x11004 ≤ off && off ≤ 0x1100C then bitN (regWritten s 0x11000 0) 0
    else if off == 0x12010 || off == 0x12014 then s.tel.dumpArmed || s.tel.snap.isSome
    else true
  else if 0xD008 ≤ off && off ≤ 0xD01C then bitN (regWritten s 0xD010 i) 31 && !(off == 0xD010 && f.lo == 31)
  else if 0xD024 ≤ off && off ≤ 0xD02C then bitN (regWritten s 0xD02C i) 17 && !(off == 0xD02C && f.lo == 17)
  else false

/-! ### What a write sets off -/

/-- SLC_Q_CTRL.en set (R471): the pair's bases and sizes are read, the doorbell area where no pair was enabled; its line is read. -/
def pairEnable (q : Nat) (s : State) : State :=
  let cfg := regWritten s 0x8014 q
  let size (n : Nat) : Nat := 2 ^ (min n 12 + 4)
  let s := if s.slc.pairs.any (·.2.en) then s
    else { s with slc := { s.slc with dbBase := regWritten s 0x8020 0 + 2 ^ 32 * regWritten s 0x8024 0 } }
  let s := modPair q (fun p => { p with
    en := true, halted := false, sqBase := regWritten s 0x8004 q + 2 ^ 32 * regWritten s 0x8008 q,
    cqBase := regWritten s 0x800C q + 2 ^ 32 * regWritten s 0x8010 q, sqSize := size (bitsN cfg 3 0), cqSize := size (bitsN cfg 7 4),
    sqHead := p.sqHead % size (bitsN cfg 3 0), sqTail := p.sqHead % size (bitsN cfg 3 0),
    cqTail := p.cqTail % size (bitsN cfg 7 4), cqHead := p.cqHead % size (bitsN cfg 7 4) }) s
  if cacheUp s then emit (.hostRead (s.slc.dbBase + 64 * (q / 8)) 64) s else s

/-- SLC_Q_CTRL.en cleared (R335): the pair stops; what it fetched and did not take is fetched again when it restarts. -/
def pairDisable (q : Nat) (s : State) : State :=
  modPair q (fun p => { p with
    en := false, halted := false, fetching := 0, sqHead := (p.sqHead + p.sqSize - p.fetched.length) % p.sqSize, fetched := [],
    buf := p.buf ++ p.posted, posted := [] }) s

/-- ERR_CTRL.ring_en set (R452, R471): the ring's base and size are read; records already delivered without it go to the ring. -/
def ringEnable (s : State) : State :=
  let s := { s with err := { s.err with
    ringBase := regWritten s 0x11004 0 + 2 ^ 32 * regWritten s 0x11008 0, ringLog2 := max 10 (regW s 0x1100C 0 3 0) } }
  let late := s.err.q.filter fun e => e.delivered && !e.ringed
  let s := late.foldl (fun s e => emit (ringWrite s e.r) s) s
  { s with err := { s.err with q := s.err.q.map fun e => if e.delivered then { e with ringed := true } else e } }

/-! ### The dump (R460, R461) -/

/-- Bytes of a dump. -/
def telBytes : Nat := 64 + 8 * telTotal

/-- TEL_DUMP_CTRL.go: a dump is armed for the next boundary, to the address as it stands (R471). -/
def telGo (m : Master) (s : State) : State :=
  let a := regWritten s 0x12010 0 + 2 ^ 32 * regWritten s 0x12014 0
  if s.tel.dumpArmed || s.tel.snap.isSome then s
  else if !(fastOk s a telBytes) then refuseWrite m 0x12018 1 3 s
  else { s with tel := { s.tel with dumpArmed := true, dumpBnd := s.tide.bnd, dumpAddr := a } }

/-- The copy is written: header, then the values in order. -/
def telWrite (tide : Nat) (vals : Tab Nat) (s : State) : State :=
  let a := s.tel.dumpAddr
  let s := memZero a telBytes s
  let s := memWrite true a (natLE 4 1 ++ natLE 4 0 ++ natLE 8 telTotal ++ natLE 8 tide ++ natLE 40 0) s
  vals.foldl (fun s v => match telPlace v.1 telRows 0 with
    | some k => memWrite true (a + 64 + 8 * k) (natLE 8 v.2) s
    | none => s) s

/-! ### Actions -/

/-- R158: whether a profile's fields may become valid. -/
def profOk (s : State) (p : Nat) : Bool :=
  let c := regWritten s 0xE008 p
  let w := bitsN c 6 0
  let poly := regWritten s 0xE00C p + 2 ^ 32 * regWritten s 0xE010 p
  let init := regWritten s 0xE014 p + 2 ^ 32 * regWritten s 0xE018 p
  bitN c 11 || (decide (8 ≤ w) && decide (w ≤ 64) && decide (poly < 2 ^ w) && decide (init < 2 ^ w))

/-- One bit of a register, as written and in effect. -/
def regBit (off i b : Nat) (v : Bool) (s : State) : State :=
  regSet off i (setBitsN (regWritten s off i) b b (b2n v)) s

/-- A valid bit that was refused stands at 0, and the refusal is logged. -/
def validRefused (m : Master) (off i b val : Nat) (s : State) : State := refuseWrite m off val 3 (regBit off i b false s)

/-- What a write that was taken sets off: `sel`: the value's bits that the write selects, `mask`: which it selects, `old`: the
register's written value before. -/
def regAct (m : Master) (off i sel mask old : Nat) (s : State) : State :=
  let new := regWritten s off i
  match off with
  | 0x4020 => if bitN sel 0 then modStk i (fun x => if x.st == .unavailable then x else { x with retrainWant := true }) s else s
  | 0x8018 =>
    let s := if bitN sel 1 then modPair i (fun p => { p with err := false }) s else s
    let en := (getPair s i).en
    if !(bitN mask 0) || bitN sel 0 == en then s else if bitN sel 0 then pairEnable i s else pairDisable i s
  | 0x9000 => if mask % 4 == 0 then s else modTide (fun t => { t with srcPend := some (new % 4, t.bnd) }) s
  | 0x9004 => if bitN sel 4 then modTide (fun t => { t with mismatch := false }) s else s
  | 0x9018 => modTide (fun t => { t with rebaseLo := (t.rebaseLo - (t.rebaseLo &&& mask)) + sel }) s
  | 0x901C => if mask == 0 then s else modTide (fun t => { t with rebasePend := some (t.rebaseLo + 2 ^ 32 * sel, t.bnd) }) s
  | 0xA01C =>
    let s := if bitN sel 0 then switchOff m i s else s
    if bitN sel 1 then switchOn m i s else s
  | 0xA020 => if bitN sel 0 then shutdownStart s else s
  | 0xB00C => if bitN sel 0 then objStart (bitN sel 1) s else s
  | 0xB020 => if bitN sel 0 then rekeyStart m s else s
  | 0xC00C => if bitN old 0 == bitN new 0 then s else engJudge i s
  | 0xC018 =>
    let s := if bitN sel 0 then recalAsk (i / 16) (i % 16) s else s
    if bitN old 1 == bitN new 1 then s else laneHold (i / 16) (i % 16) (bitN new 1) s
  | 0xD010 =>
    if bitN old 31 == bitN new 31 then s
    else if !(bitN new 31) then { s with rsv := { s.rsv with wins := s.rsv.wins.map fun w => if w.1 == i then (i, { w.2 with closing := some s.tide.bnd }) else w } }
    else if winOk s i then winSet i s else validRefused m off i 31 sel s
  | 0xD02C =>
    if bitN old 17 == bitN new 17 then s
    else if !(bitN new 17) then { s with rsv := { s.rsv with exps := s.rsv.exps.map fun w => if w.1 == i then (i, { w.2 with closing := some s.tide.bnd }) else w } }
    else if expOk s i then expSet i s else validRefused m off i 17 sel s
  | 0xE008 => if bitN old 12 == bitN new 12 || !(bitN new 12) then s else if profOk s i then s else validRefused m off i 12 sel s
  | 0xE028 => if mask == 0 then s else { s with chk := { s.chk with run := tset s.chk.run i (regWritten s 0xE024 i + 2 ^ 32 * new) } }
  | 0xF004 => if bitN sel 3 && s.hst.link == .up then count bHST 6 0 0 (modHst (fun h => { h with link := .train }) s) else s
  | 0xF01C => if mask == 0 then s else ownRequest .host none (hostBody s (sel % 8) (bitsN sel 15 8) (bitsN sel 17 16)) s
  | 0xF020 => if bitN sel 6 then modOwn (fun o => { o with changed := false }) s else s
  | 0x1000C => if bitN sel 7 then recoverStart (some m) (sel % 8) (bitsN sel 6 3) s else s
  | 0x10010 => if bitN sel 7 then (if sel % 128 < 80 then testAsk (dieSite s (sel % 128)) s else refuseWrite m off sel 3 s) else s
  | 0x1002C => modBst (fun b => { b with staged := tset b.staged i new }) s
  | 0x10030 => if bitN sel 0 then bootCommit s else s
  | 0x11000 => if !(bitN old 0) && bitN new 0 then ringEnable s else s
  | 0x11010 => if mask == 0 then s else errAck sel s
  | 0x11014 => if bitN sel 11 then { s with err := { s.err with overflow := false } } else s
  | 0x11084 => if bitN sel 7 then { s with err := { s.err with units := tset s.err.units i { tget s.err.units i {} with overflow := false } } } else s
  | 0x12018 => if bitN sel 0 then telGo m s else s
  | _ => s

/-- Writes refused whole by a field check (R138, R158, R215): the new value of the RW fields fails it. -/
def regBad (s : State) (off i new : Nat) : Bool :=
  let minima (o : Nat) : Nat := let v := if o == off then new else regWritten s o i; bitsN v 10 0 + bitsN v 26 16
  if off == 0xE000 then
    let p := profileOf s (new % 16)
    !(p.valid && !p.linear && p.width == 32)
  else if off == 0xE024 || off == 0xE028 then (tget? s.chk.bound i).isSome
  else if 0x4004 ≤ off && off ≤ 0x400C then decide (1984 < minima 0x4004 + minima 0x4008 + minima 0x400C)
  else false

/-- The RW fields of a register take a write under their classes (R453); then what it sets off. -/
def regTake (m : Master) (r : RegDesc) (i val mask : Nat) (s : State) : State :=
  let off := r.off
  -- R157: profile 0 is read-only, and a write to an RO field is ignored silently (R453)
  if 0xE008 ≤ off && off ≤ 0xE018 && i == 0 then s else
  let old := regWritten s off i
  let merged := (old - (old &&& mask)) ||| (val &&& mask)
  let stuck := r.fields.filter fun f => staticNow s off i f &&
    ((f.acc == .rw && bitsN merged f.hi f.lo != bitsN old f.hi f.lo) || (f.acc == .wo && bitsN mask f.hi f.lo != 0))
  let open_ (f : Field) : Bool := !(stuck.contains f)
  let s := if stuck.isEmpty then s else refuseWrite m off (val &&& mask) 1 s
  let take := fieldMask r (fun f => f.acc == .rw && open_ f)
  let new := (merged &&& take) ||| (old &&& (fieldMask r (·.acc == .rw) - take))
  if regBad s off i new then refuseWrite m off (val &&& mask) 3 s
  else
    let selMask := mask &&& fieldMask r open_
    let live := regLive s off i
    let now := fieldMask r (fun f => f.acc == .rw && f.cls != .h)
    let h := fieldMask r (fun f => f.acc == .rw && f.cls == .h)
    let s := { s with regs := { s.regs with
      written := tset s.regs.written (regKey off i) new
      live := tset s.regs.live (regKey off i) ((new &&& now) ||| (live &&& h))
      dirty := if mask &&& h != 0 then tset s.regs.dirty (regKey off i) (new &&& h) else s.regs.dirty } }
    regAct m off i (val &&& selMask) selMask old s

/-- A 32-bit write of a master: the state after it and the status of REG_DATA (R377): 0 done, 1 not owner, 3 bad offset or selector. -/
def regStore (m : Master) (off val mask : Nat) (s : State) : Nat × State :=
  let s := ownClock s
  if 0x800000 ≤ off && off < 0x810000 then (if m == .host then (0, s) else (3, refuseWrite m off (val &&& mask) 4 s))
  else
    match regAt off with
    | some r =>
      if r.view then
        let k := off * 4 + m.id
        let f := fieldMask r fun _ => true
        (0, { s with regs := { s.regs with view := tset s.regs.view k (((viewReg s m off - (viewReg s m off &&& mask)) ||| (val &&& mask)) &&& f) } })
      else if hostOnly off && m != .host then (3, refuseWrite m off (val &&& mask) 4 s)
      else if !(isOwner s m) && !(m == .host && (hostOnly off || off == 0xF020)) then (1, refuseWrite m off (val &&& mask) 2 s)
      else match instOf s m r.idx with
        | none => (3, refuseWrite m off (val &&& mask) 3 s)
        | some i => (0, regTake m r i val mask s)
    | none => if isOwner s m then (3, refuseWrite m off (val &&& mask) 4 s) else (1, refuseWrite m off (val &&& mask) 2 s)

/-! ### Paths (R377, R455, R456, R466) -/

/-- R466: before ready only the board management controller reaches the registers. -/
def pathOpen (s : State) (m : Master) : Bool :=
  match m with
  | .bmc => true
  | .host => barOpen s
  | .fleet => s.bst.ready

/-- REG_DATA goes back where the request came from. -/
def regData (m : Master) (path : Option (Nat × Nat × Nat)) (tag status : Nat) (vals : List Nat) (s : State) : State :=
  let s := emit (.regData m tag status vals) s
  match path with
  | some (e, node, dst) => csnCtl e node dst 0x08 (mgmtBody 6 tag (natLE 1 status ++ natLE 3 0 ++ vals.flatMap fun v => natLE 4 v)) s
  | none => s

/-- A MGMT message that reaches the registers: master, path back, op, tag, data; the state with the message taken and counted; none
where it is not one, or was refused. -/
structure RegMsg where
  m : Master
  path : Option (Nat × Nat × Nat)
  op : Nat
  tag : Nat
  data : Bytes

/-- R456: a message over MCTP is counted; past the limit it is answered busy. R377: a message over Cisan from another node than
fleet_node is refused with status 2. -/
def regMsg (x : RegIn) (s : State) : Option RegMsg × State :=
  match x with
  | .host _ _ _ => (none, s)
  | .config _ _ => (none, s)
  | .bar2 _ _ => (none, s)
  | .mctp b =>
    match rateHit Master.bmc.id s with
    | (s, true) => (none, emit (.mctp 0x1F []) s)
    | (s, false) => (some { m := .bmc, path := none, op := leField b 0 2, tag := leField b 4 4, data := (b.drop 8).take (leField b 2 2) }, s)
  | .csn e i =>
    match mgmtMsg s e i with
    | some (m, op, tag, data) =>
      let s := csnTake e i s
      let path := some (e.val, m.srcNode, m.srcEng)
      if mgmtAllowed s m then (if s.bst.ready then (some { m := .fleet, path := path, op := op, tag := tag, data := data }, s) else (none, s))
      else (none, regData .fleet path tag 2 [] s)
    | none => (none, s)

/-- The op and first field of a message before it is taken: op, offset; none where there is none. -/
def regPeek (x : RegIn) (s : State) : Option (Nat × Nat × Bytes) :=
  match x with
  | .host _ _ _ => none
  | .config _ _ => none
  | .bar2 _ _ => none
  | .mctp b => some (leField b 0 2, leField b 8 4, b.drop 8)
  | .csn e i => match mgmtMsg s e i with | some (_, op, _, data) => some (op, leField data 0 4, data) | none => none

/-- R385: whether an offset lies within BAR0 and is aligned. -/
def offOk (off : Nat) : Bool := decide (off < 2 ^ 24) && off % 4 == 0

/-- A MGMT REG_WRITE is carried out and answered. -/
def mgmtWrite (r : RegMsg) (s : State) : State :=
  let off := leField r.data 0 4
  if r.data.length < 12 || !(offOk off) then regData r.m r.path r.tag 3 [] s
  else match regStore r.m off (leField r.data 4 4) (leField r.data 8 4) s with
    | (st, s) => regData r.m r.path r.tag st [] s

/-- A MGMT REG_READ is carried out and answered. -/
def mgmtRead (r : RegMsg) (s : State) : State :=
  let off := leField r.data 0 4
  let n := leField r.data 4 2
  if r.data.length < 6 || !(offOk off) || n == 0 || 64 < n || !(offOk (off + 4 * (n - 1))) then regData r.m r.path r.tag 3 [] s
  else match regRun r.m n off (ownClock s) with
    | (vs, s) => regData r.m r.path r.tag 0 vs s

/-- Offsets that a store touches. -/
def storeOffs (off size : Nat) : List Nat := if size == 8 then [off, off + 4] else [off]

/-- R353, R469, R480: registers that the host writes whoever owns the module: views and the HST_OWN registers. -/
def openToAll (off : Nat) : Bool := hostOnly off || off == 0xF020 || ((regAt off).map (·.view)).getD false

/-- R353, R455, R482: a store on BAR0. -/
def hostStore (off size val : Nat) (s : State) : State :=
  if !(pathOpen s .host) then s
  else if size == 4 && off % 4 == 0 then (regStore .host off (val % 2 ^ 32) (2 ^ 32 - 1) s).2
  else if size == 8 && off % 8 == 0 then (regStore .host (off + 4) (val / 2 ^ 32) (2 ^ 32 - 1) (regStore .host off (val % 2 ^ 32) (2 ^ 32 - 1) s).2).2
  else
    let s := ownClock s
    let o := off / 4 * 4
    if 0x800000 ≤ off && off < 0x810000 then s
    else refuseWrite .host off val (if isOwner s .host || openToAll o then 3 else 2) s

/-- R455: a load on BAR0. -/
def hostLoad (off size : Nat) (s : State) : State :=
  if !(pathOpen s .host) then s
  else
    let s := ownClock s
    if size == 8 && off % 8 == 0 then
      match regRun .host 2 off s with
      | (vs, s) => emit (.regRead .host off (vs.getD 0 0 + 2 ^ 32 * vs.getD 1 0)) s
    else
      let o := off / 4 * 4
      match regRun .host 1 o s with
      | (vs, s) => emit (.regRead .host off (if size == 4 && off % 4 == 0 then vs.getD 0 0 else vs.getD 0 0 / 256 ^ (off % 4) % 256 ^ size)) s

/-- A write command whose registers satisfy a test, and which carries values for them that satisfy another. -/
def writeCommand (on : State → Nat → Nat → Bool) (x : RegIn) (s : State) : State :=
  match x with
  | .host off size val =>
    let o := off.toNat
    if (storeOffs o size).any fun a => on s a (if a == o then val.toNat % 2 ^ 32 else val.toNat / 2 ^ 32) then hostStore o size val.toNat s else s
  | _ =>
    match regPeek x s with
    | some (5, off, data) =>
      if on s off (leField data 4 4 &&& leField data 8 4) then
        match regMsg x s with
        | (some r, s) => mgmtWrite r s
        | (none, s) => s
      else s
    | _ => s

/-- Whether a read touches an offset that satisfies a test. -/
def readTouches (on : Nat → Bool) (x : RegIn) (s : State) : Bool :=
  match x with
  | .host off size _ => (storeOffs off.toNat size).any on
  | x => match regPeek x s with
    | some (op, off, data) => op == 4 && (List.range (min (leField data 4 2) 64)).any fun k => on (off + 4 * k)
    | none => false

/-- A read command that touches an offset that satisfies a test. `any`: also MGMT messages with no other op of the registers'. -/
def readCommand (on : Nat → Bool) (any : Bool) (x : RegIn) (s : State) : State :=
  match x with
  | .host off size _ => if (storeOffs off.toNat size).any on then hostLoad off.toNat size s else s
  | .config item _ => if any then cfgLoad item s else s
  | .bar2 off _ => if any then bar2Load (4 * off) s else s
  | _ =>
    match regPeek x s with
    | some (op, off, data) =>
      if op == 4 && ((List.range (min (leField data 4 2) 64)).any (fun k => on (off + 4 * k)) || any) then
        match regMsg x s with
        | (some r, s) => mgmtRead r s
        | (none, s) => s
      else if any && op != 1 && op != 4 && op != 5 then
        match regMsg x s with
        | (some r, s) => if 2 ≤ r.op && r.op ≤ 7 then s else regData r.m r.path r.tag 3 [] s
        | (none, s) => s
      else s
    | none => s

/-- Registers whose writes have commands of their own. -/
def ownRow (off : Nat) : Bool :=
  [0x4020, 0x8018, 0x9000, 0x901C, 0xA01C, 0xA020, 0xB00C, 0xB020, 0xC018, 0xD010, 0xD02C, 0xE008, 0xE028, 0xF004, 0x1000C, 0x10010, 0x10030, 0x11000,
   0x11010, 0x12018].contains off

end Sys2Proof.Machine
end

