-- ==== Sys2Proof/Machine/Errors.lean ====
section
/-! DEFINITION. Meanings: error records (R445 to R452, R456), the telemetry dump (R461), and the slot boundary with what takes effect at it
(R40, R56, R58). -/
namespace Sys2Proof.Machine

/-- ERROR_RAISE (R449, R450): a unit raises a record of a class; only classes 0x0B, 0x0C, 0x10 and 0x12 carry severity 4 or 5 (R448). -/
def execErrorRaise (unit : Fin 165) (block : Fin 19) (cls : Fin 19) (sev : Fin 6) (ctx : Option (Fin 1024)) (transient : Bool)
    (loc0 loc1 : BitVec 64) (detail : Word) (s : State) : Result :=
  .next (if cls.val == 0 || (4 ≤ sev.val && !([0x0B, 0x0C, 0x10, 0x12].contains cls.val)) then s
    else raiseRec { sev := sev, ctx := ctx.map (·.val), transient := transient, block := block, cls := cls, unit := unit,
                    loc0 := loc0.toNat, loc1 := loc1.toNat, detail := detail.toNat } s)

/-- ERROR_FORWARD (R450, R451): a unit's next record enters the module queue, when it can be accepted. -/
def execErrorForward (unit : Fin 165) (s : State) : Result := .next (errForward unit s)

/-- ERROR_DELIVER (R452): the ERR engine delivers a record. -/
def execErrorDeliver (s : State) : Result := .next (errDeliver s)

/-- ERROR_RECORD_QUERY (R456): MCTP command 0x03: the record of a sequence, or a zero record. -/
def execErrorRecordQuery (body : Bytes) (s : State) : Result :=
  .next (match rateHit Master.bmc.id s with
    | (s, true) => emit (.mctp 0x1F []) s
    | (s, false) =>
      if body.length != 4 then s
      else match s.err.q.find? fun e => e.r.seq == leNat body with
        | some e => emit (.mctp 0x03 (errBytes e.r)) s
        | none => emit (.mctp 0x03 (List.replicate 64 0)) s)

/-- TEL_DUMP_DONE (R461): the copy has been written, within 50 ms of its boundary; busy clears. -/
def execTelDumpDone (s : State) : Result :=
  .next (match s.tel.snap with
    | some (tide, vals) => { telWrite tide vals s with tel := { s.tel with snap := none } }
    | none => s)

/-! ### The slot boundary (R40, R56, R58) -/

/-- R58: programs that the boundary finds running have overrun: counted for the cell and its context, marked in the step. -/
def overrunCount (s : State) : State :=
  s.cells.foldl (fun s e => match e.2.prog with
    | some p =>
      let s := count bTID 0 0 (cellUnit s e.1) (count bCEL 4 1 p.ctx (count bCEL 4 2 e.1 s))
      match stepInProgress (getCtx s p.ctx) with
      | some t => modStep p.ctx t.num (fun t => { t with overrun := true }) s
      | none => s
    | none => s) s

/-- R461: an armed dump takes its copy at the first boundary after go. -/
def telBoundary (s : State) : State :=
  if s.tel.dumpArmed && decide (s.tel.dumpBnd < s.tide.bnd) then { s with tel := { s.tel with dumpArmed := false, snap := some (s.tide.count, telCopy s) } } else s

/-- R56: class H values written before the boundary are caught for the latch. -/
def latchCatch (s : State) : State :=
  { s with regs := { s.regs with latch := s.regs.dirty.foldl (fun t e => tset t e.1 e.2) s.regs.latch, dirty := [] } }

/-- R213: an export cleared is served no more. -/
def exportClose (s : State) : State :=
  { s with rsv := { s.rsv with exps := s.rsv.exps.filter fun e => match e.2.closing with | some b => decide (s.tide.bnd ≤ b) | none => true } }

/-- SLOT_BOUNDARY (R40, R58, R168, R203, R254, R268, R432): the count reaches a boundary. `over`: stacks whose corrected interface errors of
the slot exceeded 1 in 10^12 bits. -/
def execSlotBoundary (overs : List (Fin 64)) (s : State) : Result :=
  .next (
    let s := tideBoundary s
    let s := overrunCount s
    let s := readyMark (estSlices (estBoundary s))
    let s := levBoundary s
    let s := { s with frs := s.frs.map fun (e : Nat × Frs) => (e.1, { e.2 with readSlot := 0 }) }
    let s := (overs.map (·.val)).foldl (fun s n => modStk n (fun x => if x.st == .ready then { x with retrainWant := true } else x) s) s
    exportClose (telBoundary (latchCatch s)))

/-- The mask of a register's class H fields. -/
def shadowMask (off : Nat) : Nat := match regAt off with | some r => fieldMask r (fun f => f.acc == .rw && f.cls == .h) | none => 0

/-- A caught value takes effect. -/
def latchOne (e : Nat × Nat) (s : State) : State :=
  let off := e.1 / 2 ^ 20
  let inst := e.1 % 2 ^ 20
  let s' := { s with regs := { s.regs with live := tset s.regs.live e.1 ((regLive s off inst - (regLive s off inst &&& shadowMask off)) ||| e.2) } }
  if off == 0xC00C then linkJudge inst s' else s'

/-- SHADOW_LATCH (R56): what was caught takes effect. -/
def execShadowLatch (s : State) : Result :=
  .next (s.regs.latch.foldl (fun s e => latchOne e s) { s with regs := { s.regs with latch := [] } })

end Sys2Proof.Machine
end

