-- ==== Sys2Proof/Machine/Estuary.lean ====
section
/-! DEFINITION. Meanings: Estuary gradient reduction (R248 to R278). -/
namespace Sys2Proof.Machine

/-- WINDOW_RECORD (R254 to R257): a record of 64 bytes is checked and armed, or refused; it ends an earlier attempt at once. -/
def execWindowRecord (e : Fin 64) (rec : Bytes) (s : State) : Result :=
  if rec.length != 64 then .fault .illFormed
  else .next (
    let w := estWinOf rec
    let x := getEst s e
    let others := x.wins.filter fun v => !(v.ctx == w.ctx && v.step == w.step)
    if !(estWinOk s e rec) || 64 ≤ others.length then
      stepFail w.ctx 4 0 (raise (ringUnit e) bEST sCont 0x05 (some w.ctx) w.tileTab w.step 0 s)
    else
      let s := if slotNow s < w.openSlot then s else lateEvent (ringUnit e) s
      let s := if others.length != x.wins.length then remember e w.ctx w.step s else s
      let fresh := others.length == x.wins.length && w.attempt == 0
      let s := modEst e (fun x => { x with wins := others ++ [w], unk := if fresh then x.unk.filter (· != (w.ctx, w.step)) else x.unk }) s
      let owns := !(roleEntries s w 0).isEmpty
      let lead := if (roleEntries s w 2).isEmpty then none else some (e.val, w)
      let m : WinMod := match winMod s w.ctx w.step with
        | some m => if m.attempt == w.attempt then m else { ctx := w.ctx, step := w.step, attempt := w.attempt, rep := w.rep, h := w.h, dl := 0 }
        | none => { ctx := w.ctx, step := w.step, attempt := w.attempt, rep := w.rep, h := w.h, dl := 0 }
      let m := { m with
        dl := max m.dl (w.openSlot + w.deadline), owners := if owns then addN m.owners e else m.owners,
        lead := match lead with | some l => some l | none => m.lead }
      { s with est := { s.est with mods := s.est.mods.filter (fun v => !(v.ctx == w.ctx && v.step == w.step)) ++ [m] } })

/-- The sideband a cell forms (R252): block flags of the source span, contribution parameters of its slot program. -/
def cellSide (s : State) (l : Nat) (o : RemOp) (trl : Bytes) : Bytes :=
  let x := getCell s l
  let f := tget x.flags (o.loc / 2048) 0
  let p := (x.contrib.find? (·.ctx == o.ctx)).getD { step := 0, ctx := o.ctx, attempt := 0, src := 0, backup := false, count := 0 }
  sideBytes p.step p.ctx p.attempt p.backup (trlFormat trl % 256 == 0x01) p.src (bitsN f 15 0) (bitsN f 31 16) (bitsN f 47 32) p.count

/-- CONTRIB_SEND_ARRIVAL (R249, R252, R260): a tile SEND into the collect range of an armed window, or a sum from another engine
of the module, enters the engine's input queue; a full queue holds it. -/
def execContribSendArrival (a : EstArr) (s : State) : Result :=
  .next (match a with
    | .cell l op ecc =>
      match findOp (getCell s l) op with
      | none => s
      | some o =>
        let d := remMem o.remote
        let e := memStack d
        if o.kind != .send || o.len != 2048 || remSpace o.remote != 1 || o.st != .asked || !(opFirst (getCell s l) o) || !(armedAt s d) then s
        -- R126: a backward pass begins once the previous window's sweep is complete
        else if 256 ≤ (getEst s e).inq.length || ((getCell s l).contrib.find? (·.ctx == o.ctx)).any (fun p => sweepDue s o.ctx p.step) then s
        else match readSend l o ecc s with
        | (s, .ok) =>
          let s := flagRead l o.loc ecc s
          let trl := sendTrailer s l o
          let c : EstIn := { from_ := .cell l op, dst := d, payload := bread (getCell s l).mem o.loc 2048, trailer := trl, side := cellSide s l o trl }
          modEst e (fun x => { x with inq := x.inq ++ [c] })
            (modCell l (fun x => { x with flags := tdel x.flags (o.loc / 2048) }) (modOp l op (fun o => { o with st := .leaving }) s))
        | (s, _) => s
    | .mesh e i =>
      match (getEst s e).mesh[i]? with
      | some c => if 256 ≤ (getEst s e).inq.length then s else modEst e (fun x => { x with mesh := ldel x.mesh i, inq := x.inq ++ [c] }) s
      | none => s)

/-- CONTRIB (R375): a CONTRIB message is handed to its Estuary engine; a full input queue keeps its credit. -/
def execContrib (e : Fin 64) (i : Nat) (s : State) : Result :=
  .next (match csnMsg s e i 0x10 with
    | some m =>
      if 256 ≤ (getEst s m.dstEng).inq.length then s
      else
        let b := m.body
        modEst m.dstEng (fun x => { x with inq := x.inq ++ [{
          from_ := .engine m.srcNode m.srcEng, dst := leField b 0 8, payload := sliceB b 8 2048, trailer := sliceB b 2056 32, side := sliceB b 2088 32 }] })
          (csnTake e i s)
    | none => s)

/-! ### Acceptance (R258, R259) -/

/-- R258 check 1: the sideband's check value and reserved bits. -/
def sideOk (b : Bytes) : Bool :=
  leField b 28 4 == crcOf profile0 (sliceB b 0 28) && leField b 6 1 < 64 && leField b 7 1 == 0 && leField b 14 2 == 0 && leField b 16 4 < 2 ^ 25 && leField b 20 8 == 0

/-- The tile of a window that a collect address names. -/
def tileIdx (w : EstWin) (dst : Nat) : Option Nat :=
  if decide (w.collect ≤ dst) && (dst - w.collect) % 2048 == 0 && decide ((dst - w.collect) / 2048 < w.tiles) then some ((dst - w.collect) / 2048) else none

/-- What R258 makes of a contribution: corrupt at a check, late, unknown, redundant, or one that fills its slot. -/
inductive EstVerdict where
  | corrupt (check : Nat) | late | unknown | redundant | fills (j : Nat)
  deriving DecidableEq, Repr

/-- The input slot's mask bit, count and kind of contribution agree with the entry and the source table (R258 checks 4 to 9). -/
def judgeTile (s : State) (w : EstWin) (j : Nat) (i : EstIn) : EstVerdict :=
  let x := entAt s w j
  let t := tileAt w j
  let fp := bitN (leField i.side 4 2) 15
  let src := leField i.side 6 1
  let count := leField i.side 16 4
  let hl := x.role == 2 || x.role == 3
  let id := if hl then mkIdent 2 w.ctx 10 0 else mkIdent 2 w.ctx 8 (idBase x.ident)
  let fmt := if fp && x.conv then 0x01 else if hl then 0x31 else 0x30
  let lim : Int := dbiLim w.h * count
  match verifyTile s { ident := some id, formats := some [fmt] } i.payload i.trailer with
  | .corrupt _ => .corrupt 4
  | _ =>
    if trlAlive i.trailer != w.step % 65536 then .corrupt 5
    else if count != (srcAt s w src).1 || (fp && x.conv && count != 1) then .corrupt 6
    else if !(fp && x.conv) && ((dbiInts i.payload).any (fun q => decide (lim < q.natAbs)) || (hl && ((dbiInts i.payload).drop 32).any (· != 0))) then .corrupt 7
    else if bitN t.filled src then .redundant
    else if t.done || (w.ext.isSome && decide (winDl w ≤ slotNow s)) then .late
    else .fills j

/-- R258: the checks in order. -/
def judgeContrib (s : State) (e : Nat) (i : EstIn) : EstVerdict :=
  let c := leField i.side 4 2 % 1024
  let step := leField i.side 0 4
  if !(sideOk i.side) then .corrupt 1
  else match winOf s e c step with
    | none => if (getEst s e).ended.contains (c, step) then .late else .unknown
    | some w =>
      match tileIdx w i.dst with
      | none => .unknown
      | some j =>
        if !(bitN (entAt s w j).mask (leField i.side 6 1)) then .unknown
        else if bitsN (leField i.side 4 2) 13 10 != w.attempt then .late
        else judgeTile s w j i

/-- R253: an FP32 tile converted at its blocks' scale entries, the draws by the Estuary key in order of acceptance. -/
def convTile (s : State) (e : Nat) (w : EstWin) (x : EstEntry) (payload : Bytes) : List DbiElem :=
  let b0 := idBase x.ident / 32
  let key := srKey (if w.ext.isSome then w.openTide else w.openSlot * 16384) (0x100040 + e) w.ctx
  (List.range 512).map fun k =>
    let sc := tabEntry s w.ctx (b0 + k / 32 + 1)
    let o := w.convN + k
    dbiConvert w.h sc.exp (srDraw key 0 (o / 64) (o % 64)) (decodeF fp32 (leField payload (4 * k) 4))

/-- A bit for each block with a flagged element. -/
def blockBits (l : List DbiElem) (f : DbiElem → Bool) : Nat :=
  (List.range 16).foldl (fun a i => a + if ((l.drop (32 * i)).take 32).any f then 2 ^ i else 0) 0

/-- R259, R260: a contribution fills its slot. -/
def fillSlot (e : Nat) (w : EstWin) (j : Nat) (i : EstIn) (hit : AccHit) (s : State) : State :=
  let x := entAt s w j
  let t := tileAt w j
  let src := leField i.side 6 1
  let fp := bitN (leField i.side 4 2) 15 && x.conv
  let cv := convTile s e w x i.payload
  let q := if fp then cv.map (·.q) else dbiInts i.payload
  let fl (o : Nat) (f : DbiElem → Bool) : Nat := if fp then blockBits cv f else leField i.side o 2
  let spill := t.spilled || (t.filled == 0 && 16384 ≤ accUsed (getEst s e))
  let (old, ok) := sumOf s w j t
  let (sum, wrap) := addTile (hitSum hit old) q
  let t' : EstTile := {
    t with
    filled := t.filled ||| 2 ^ src, sum := if spill then [] else sum, spilled := spill,
    ovf := t.ovf ||| fl 8 (·.ovf), hot := t.hot ||| fl 10 (·.hot), nf := t.nf ||| fl 12 (·.nf),
    lsum := (t.lsum + (if fp then lsumTile 0x30 (dbiBytes q) else trlLsum i.trailer)) % lsumP,
    count := t.count + leField i.side 16 4, conv := t.conv || fp, corrupt := t.corrupt || wrap || !ok || hit == .double }
  let s := estCount 0 e (some w.ctx) s
  let s := if fp then
      countCtxN bEST 13 e w.ctx (cv.filter (·.ovf)).length (countCtxN bEST 14 e w.ctx (cv.filter (·.nf)).length (estCount 10 e (some w.ctx) s))
    else s
  let s := if spill && !t.spilled then estCount 9 e (some w.ctx) s else s
  let s := if hit == .corrected then raise (ringUnit e) bEST sCorr 0x01 (some w.ctx) i.dst 0 0 s else s
  let s := modTile e w.ctx w.step j (fun _ => t') (modWin e w.ctx w.step (fun w => { w with convN := w.convN + if fp then 512 else 0 }) s)
  let s := if spill then
      { memWrite true (w.collect + 2048 * w.tiles + 64 * j) (natLE 64 (Config.stateLine s.free).toNat) (memWrite true (w.collect + 2048 * j) (dbiBytes sum) s) with free := s.free + 1 }
    else s
  if t'.filled &&& x.mask == x.mask then tileReady e w.ctx w.step j s else s

/-- Whether a contribution waits for an accumulator (R260). -/
def waitsAcc (s : State) (e : Nat) (i : EstIn) : Bool :=
  match winOf s e (leField i.side 4 2 % 1024) (leField i.side 0 4) with
  | none => false
  | some w => match tileIdx w i.dst with
    | none => false
    | some j =>
      let t := tileAt w j
      t.filled == 0 && !t.done && !(w.ext.isSome && decide (winDl w ≤ slotNow s)) && decide (16384 ≤ accUsed (getEst s e)) && !bitN (regLive s 0x6000 0) 8

/-- The scale entries that a contribution's conversion needs: context, first entry (R253). -/
def convEntries (s : State) (e : Nat) (i : EstIn) : Option (Nat × Nat) :=
  match winOf s e (leField i.side 4 2 % 1024) (leField i.side 0 4) with
  | none => none
  | some w => match tileIdx w i.dst with
    | none => none
    | some j => if bitN (leField i.side 4 2) 15 && (entAt s w j).conv then some (w.ctx, idBase (entAt s w j).ident / 32 + 1) else none

/-- Whether a contribution waits: for an accumulator (R260), or, to be converted, for the previous sweep (R126) or for scale entries. -/
def waitsIn (s : State) (e : Nat) (i : EstIn) : Bool :=
  waitsAcc s e i || (match convEntries s e i with
    | some (c, b0) => sweepDue s c (leField i.side 0 4) || !(tabBack s bEST e c b0 16)
    | none => false)

/-- Entries in the slow tier are asked for. -/
def convAsk (e : Nat) (i : EstIn) (s : State) : State :=
  match convEntries s e i with
  | some (c, b0) => if sweepDue s c (leField i.side 0 4) || tabBack s bEST e c b0 16 then s else tabAsk bEST e c b0 16 s
  | none => s

/-- The ranges of the fast tier that accepting a contribution reads or writes (R260, R262). -/
def contribRanges (s : State) (e : Nat) (i : EstIn) : List (Nat × Nat) :=
  match winOf s e (leField i.side 4 2 % 1024) (leField i.side 0 4) with
  | none => []
  | some w => match tileIdx w i.dst with
    | none => []
    | some j => spillAt w j ++ stageAt s w j

/-- CONTRIB_ACCEPT (R126, R258 to R260): the first contribution of the queue that does not wait is checked and fills its
slot; `hit` is what the tile's accumulator shows, `ecc` what its accesses find on lines (R188). -/
def execContribAccept (e : Fin 64) (hit : AccHit) (ecc : List (Nat × MemEcc)) (s : State) : Result :=
  .next (
    let x := getEst s e
    let k := x.inq.findIdx fun i => !(waitsIn s e i)
    match x.inq[k]? with
    | none => x.inq.foldl (fun s i => convAsk e i s) s
    | some i => unitGate .estuary (contribRanges s e i) (fun s =>
      let s := ownLines e (some (leField i.side 4 2 % 1024)) ecc s
      let c := leField i.side 4 2 % 1024
      let step := leField i.side 0 4
      let v := judgeContrib s e i
      let s := match convEntries s e i with
        | some (c, b0) => tabTake bEST e c b0 16 s
        | none => s
      let s := chkEng 2 e (match v with | .corrupt n => if n == 4 then 1 else 0 | _ => 0) (match v with | .corrupt n => b2n (decide (4 ≤ n)) | .fills _ => 1 | .redundant => 1 | _ => 0) s
      let s := modEst e (fun x => { x with inq := ldel x.inq k }) s
      match v with
      | .corrupt n =>
        raise (ringUnit e) bEST sCont 0x03 (some c) (i.dst + leField i.side 6 1 % 64 * 2 ^ 48) (trlIdent i.trailer) (n + 256 * (step % 2 ^ 24)) (estCount 1 e (some c) s)
      | .redundant => estCount 2 e (some c) s
      | .late => estCount 3 e (some c) s
      | .unknown =>
        let s := estCount 4 e (some c) s
        if (getEst s e).unk.contains (c, step) then s
        else raise (ringUnit e) bEST sInfo 0x07 (some c) i.dst step 6 (modEst e (fun x => { x with unk := x.unk ++ [(c, step)] }) s)
      | .fills j => match winOf s e c step with
        | some w => fillSlot e w j i hit s
        | none => s) s)

/-! ### Boundaries (R261, R267) -/

/-- SEND_BY_BOUNDARY (R261): at a forwarder's send-by boundary its open tiles complete and are sent. -/
def execSendByBoundary (e : Fin 64) (ctx : Fin 1024) (step : Nat) (s : State) : Result :=
  .next (match winOf s e ctx step with
    | some w =>
      if w.ext.isSome && decide (winSendBy w ≤ slotNow s) then
        unitGate .estuary ((roleEntries s w 1 ++ roleEntries s w 3).flatMap (spillAt w)) (fun s =>
          (roleEntries s w 1 ++ roleEntries s w 3).foldl (fun s j => tileDone e ctx step j s) s) s
      else s
    | none => s)

/-- WINDOW_DEADLINE (R267): at the deadline every open tile completes, short or failed, the counts go to Sluice, and the window
ends. -/
def execWindowDeadline (e : Fin 64) (ctx : Fin 1024) (step : Nat) (s : State) : Result :=
  .next (match winOf s e ctx step with
    | some w =>
      if w.ext.isSome && decide (winDl w ≤ slotNow s) then
        unitGate .estuary ((List.range w.tiles).flatMap fun j => spillAt w j ++ stageAt s w j) (fun s =>
          let s := (List.range w.tiles).foldl (fun s j => tileDone e ctx step j s) s
          remember e ctx step (dropWin e ctx step (estReport e ctx step s))) s
      else s
    | none => s)

/-! ### Health tile and verdicts (R265, R271, R272) -/

/-- What an owner makes of a health message (R258, R265, R271). -/
def healthGo (eng : Nat) (m : HealthMsg) (s : State) : State :=
  let c := leField m.side 4 2 % 1024
  let step := leField m.side 0 4
  let bad (n : Nat) : State := raise (ringUnit eng) bEST sCont 0x03 (some c) 0 (trlIdent m.trailer) (n + 256 * (step % 2 ^ 24)) (estCount 1 eng (some c) s)
  if !(sideOk m.side) then bad 1
  else match winMod s c step with
    | none => estCount (if (getEst s eng).ended.contains (c, step) then 3 else 4) eng (some c) s
    | some w =>
      if w.decided then s
      else if bitsN (leField m.side 4 2) 13 10 != w.attempt then estCount 3 eng (some c) s
      else if m.verdict then windowFailed c step w.rep s
      else match verifyTile s { ident := some (mkIdent 2 c 10 0), formats := some [0x31] } m.payload m.trailer with
        | .corrupt _ => bad 4
        | _ =>
          if trlAlive m.trailer != step % 65536 then bad 5
          else if (dbiInts m.payload).any (fun q => decide (dbiLim w.h * leField m.side 16 4 < q.natAbs)) || ((dbiInts m.payload).drop 32).any (· != 0) then bad 7
          else
            takeDecision c step m.payload (bitN (leField m.side 8 2) 0) (bitN (leField m.side 10 2) 0) (bitN (leField m.side 12 2) 0)
              (modMod c step (fun w => { w with decided := true }) s)

/-- R129: a decision needs entry 0 of the context's table; in the slow tier it is read first. -/
def healthReady (eng : Nat) (side : Bytes) (s : State) : Bool := tabBack s bSLC eng (leField side 4 2 % 1024) 0 2
def healthAsk (eng : Nat) (side : Bytes) (s : State) : State := tabAsk bSLC eng (leField side 4 2 % 1024) 0 2 s

/-- HEALTH (R265, R375): a reduced health tile or a failure verdict reaches an owner. -/
def execHealth (b : HealthBy) (s : State) : Result :=
  .next (match b with
    | .csn e i => match csnMsg s e i 0x11 with
      | some m => if !(healthReady m.dstEng (sliceB m.body 2088 32) s) then healthAsk m.dstEng (sliceB m.body 2088 32) s else healthGo m.dstEng { verdict := leField m.body 0 1 == 1, payload := sliceB m.body 8 2048, trailer := sliceB m.body 2056 32, side := sliceB m.body 2088 32 } (csnTake e i s)
      | none => s
    | .mesh e i => match (getEst s e).health[i]? with
      | some m => if !(healthReady e m.side s) then healthAsk e m.side s else healthGo e m (modEst e (fun x => { x with health := ldel x.health i }) s)
      | none => s)

/-- The pairs a lead's fan-out names, this module as node 0 (R265). -/
def fanPairs (s : State) (w : EstWin) : List (Nat × Nat) :=
  (List.range w.fanCount).map fun i =>
    let v := leNat (memRead s (w.fanTab + 8 * i) 8)
    (if bitsN v 15 0 == nodeId s then 0 else bitsN v 15 0, bitsN v 21 16)

/-- OUTCOME_REPORT (R272): a role 0 engine's outcome reaches the lead of a repeat window; an engine of this module gives the
outcome it reported. -/
def execOutcomeReport (ctx : Fin 1024) (step : Nat) (node : BitVec 16) (eng : Fin 64) (ok : Bool) (s : State) : Result :=
  .next (match winMod s ctx step with
    | some m =>
      match m.lead with
      | some (_, w) =>
        let own := match m.reps.find? (·.1 == eng.val) with | some (_, _, sh, b) => some (sh == 0 && b == 0) | none => none
        if !m.rep || m.fanned || (node == 0 && own != some ok) || !((fanPairs s w).contains (node.toNat, eng.val)) then s
        else
          let outs := m.outs.filter (fun o => !(o.1 == node.toNat && o.2.1 == eng.val)) ++ [(node.toNat, eng.val, ok)]
          let all := (fanPairs s w).all fun p => outs.any fun o => o.1 == p.1 && o.2.1 == p.2
          modMod ctx step (fun m => { m with outs := outs, outsAt := if all && m.outsAt.isNone then some s.tide.bnd else m.outsAt }) s
      | none => s
    | none => s)

/-- LEAD_FANOUT (R272): at the first boundary after it holds every report, the lead sends its tile or a failure verdict. -/
def execLeadFanout (ctx : Fin 1024) (step : Nat) (s : State) : Result :=
  .next (match winMod s ctx step with
    | some m =>
      match m.lead, m.outsAt with
      | some (e, w), some b =>
        if m.fanned || s.tide.bnd ≤ b || (m.leadTile.isNone && !m.leadBad) then s
        else if m.leadBad || m.outs.any (fun o => !o.2.2) then fanOut e w none s
        else fanOut e w m.leadTile s
      | _, _ => s
    | none => s)

/-- REPORT_TIMEOUT (R272): at the deadline plus one slot with reports missing, the lead fails the window. -/
def execReportTimeout (ctx : Fin 1024) (step : Nat) (s : State) : Result :=
  .next (match winMod s ctx step with
    | some m =>
      match m.lead with
      | some (e, w) => if m.rep && !m.fanned && m.outsAt.isNone && decide (m.dl + 1 ≤ slotNow s) then fanOut e w none s else s
      | none => s
    | none => s)

/-- VERDICT_TIMEOUT (R271): an owner with neither tile nor verdict at the deadline plus two slots treats the window as failed. -/
def execVerdictTimeout (ctx : Fin 1024) (step : Nat) (s : State) : Result :=
  .next (match winMod s ctx step with
    | some m => if !m.decided && decide (m.dl + 2 ≤ slotNow s) then windowFailed ctx step m.rep s else s
    | none => s)

/-- SWEEP_NAMING (R267, R327): once the module holds the decision and every owning engine has reported, Sluice names the next
boundary for the sweep. -/
def execSweepNaming (ctx : Fin 1024) (s : State) : Result :=
  .next (match (getCtx s ctx).dec with
    | some d =>
      match winMod s ctx d.step with
      | some m =>
        if d.sweepBnd.isSome || !(m.owners.all fun e => m.reps.any (·.1 == e)) then s
        else
          let short := m.reps.any fun r => r.2.2.1 != 0 || r.2.2.2 != 0
          modCtx ctx (fun x => { x with
            dec := some { d with sweepBnd := some s.tide.bnd, partial_ := d.partial_ || short },
            steps := x.steps.map fun t => if t.num == d.step then { t with st := .sweeping } else t }) s
      | none => s
    | none => s)

/-- DIVERGENCE_NOTICE (R274): the armed windows of a context whose replica was read and found wrong fail. -/
def execDivergenceNotice (ctx : Fin 1024) (s : State) : Result :=
  .next (if s.est.diverged.contains ctx.val then
      let s := { s with est := { s.est with diverged := delN s.est.diverged ctx } }
      (s.est.mods.filter fun m => m.ctx == ctx.val && !m.decided).foldl (fun s m =>
        let s := winFailAll ctx m.step s
        match m.lead with
        | some (e, w) => if m.fanned then s else fanOut e w none s
        | none => windowFailed ctx m.step m.rep (estCount 11 (m.owners.headD 0) (some ctx) s)) s
    else s)

end Sys2Proof.Machine
end

