-- ==== Sys2Proof/Machine/Freshet.lean ====
section
/-! DEFINITION. Meanings: Freshet and Confluence (R159 to R181). -/
namespace Sys2Proof.Machine

/-- PASS_RECORD (R160): a record of 96 bytes enters an engine's queue of 64, or is refused. A late one starts at the next
boundary (R55). -/
def execPassRecord (e : Fin 64) (rec : Bytes) (s : State) : Result :=
  if rec.length != 96 then .fault .illFormed
  else .next (
    let x := getFrs s e
    if 64 ≤ x.passes.length then s
    else
      let p := passOf s x.nextId rec
      if !(passOk s x rec) then passRefuse e p s
      else
        let late := decide (p.start ≤ slotNow s)
        let p := { p with start := if late then slotNow s + 1 else p.start }
        let s := modFrs e (fun x => { x with passes := x.passes ++ [p], nextId := x.nextId + 1 }) s
        if late then lateEvent (ringUnit e) s else s)

/-- PASS_OWNER_SCRUB (R170): destination spans of another owner are scrubbed to the pass's owner. -/
def execPassOwnerScrub (e : Fin 64) (pass : Nat) (s : State) : Result :=
  .next (match (getFrs s e).passes.find? (·.id == pass) with
    | some p =>
      if p.active then s
      else p.grps.foldl (fun s g => (grpLive s g).foldl (fun s l =>
        let slots := (List.range (8 * g.nspans)).map (8 * g.span0 + ·)
        scrubSlots l (slots.filter fun k => (tagOf (getCell s l) k).owner != passOwner p && (tagOf (getCell s l) k).st != .scrub) (passOwner p) none s) s) s
    | none => s)

/-- PASS_START (R167, R232): at its start boundary a pass becomes active, while fewer than four are (R159). -/
def execPassStart (e : Fin 64) (pass : Nat) (s : State) : Result :=
  .next (
    let x := getFrs s e
    match x.passes.find? (·.id == pass) with
    | some p =>
      if !p.active && decide (p.start ≤ slotNow s) && decide ((x.passes.filter (·.active)).length < 4) && passReady s p then
        modPass e pass (fun p => { p with active := true, startTide := slotNow s * 16384, startBnd := s.tide.bnd, startTick := s.tide.slotAt }) s
      else s
    | none => s)

/-- SOURCE_READ_ISSUE (R168): the next source of the engine, once lead, buffer and cap allow. -/
def execSourceReadIssue (e : Fin 64) (pass src : Nat) (s : State) : Result :=
  .next (
    let x := getFrs s e
    match x.passes.find? (·.id == pass) with
    | some p =>
      if readNext s e x == some (pass, src) && readRoom s e 1 then
        let s := modPass e pass (fun p => { p with
          again := delN p.again src, nextSrc := if p.again.contains src then p.nextSrc else max p.nextSrc (src + 1) }) s
        readSource e p src p.grps.length { pass := pass, src := src, bnd := s.tide.bnd } s
      else s
    | none => s)

/-- MERGE_WINDOW_CLOSE (R173): 256 CCLK cycles (16 ticks) after an entry's first request. -/
def execMergeWindowClose (e : Fin 64) (m : Nat) (s : State) : Result :=
  .next (match (getFrs s e).merges.find? (·.id == m) with
    | some k =>
      if k.open_ then
        releaseEntries e (modFrs e (fun x => { x with merges := x.merges.map fun k => if k.id == m then { k with open_ := false } else k })
          (until_ (k.at_ + 16) s))
      else s
    | none => s)

/-- SOURCE_READ_RETURN (R178): the data of a source read is verified against the requester's own expectations; a first
failure is read again, a second leaves the source failed. `alter`: payload and trailer as they arrive, where they differ. -/
def execSourceReadReturn (e : Fin 64) (pass src : Nat) (alter : Option Bytes) (ecc : List (Nat × MemEcc)) (s : State) : Result :=
  .next (
    let x := getFrs s e
    match entryOf x pass src, passAny x pass with
    | some en, some p =>
      if en.tile.isSome || en.failed then s
      else unitGate .freshet (if p.slow then [] else [(srcPayAt p src, 2048), (srcTrlAt p src, 32)]) (fun s =>
        let s := ownLines e p.ctxs.head? ecc s
        let mg := en.merge.bind fun i => x.merges.find? (·.id == i)
        match (match mg.bind (·.data) with | some d => some d | none => sourceData s e p src) with
        | none => s
        | some raw =>
          let raw := match alter, raw with
            | some b, some (_, _, ep) => some (fitB b 2048, sliceB b 2048 32, ep)
            | _, r => r
          let s := if p.slow then rsvTake (.frs e (srcPayAt p src)) (rsvTake (.frs e (srcTrlAt p src)) s) else s
          let s := modFrs e (fun x => { x with merges := x.merges.map fun k => if some k.id == en.merge && k.data.isNone then { k with data := some raw } else k }) s
          let set (f : Entry → Entry) (s : State) : State :=
            modFrs e (fun x => { x with buf := x.buf.map fun n => if n.pass == pass && n.src == src then f n else n }) s
          let again (en' : Entry) (s : State) : State :=
            readSource e p src en'.copies en' (modFrs e (fun x => { x with buf := x.buf.filter fun n => !(n.pass == pass && n.src == src) }) s)
          let bad (s : State) : State :=
            if en.reread then releaseEntries e (set (fun n => { n with failed := true }) s)
            else again { en with reread := true } (countPass 7 e p s)
          -- R168: a re-read takes its place in the slot's cap
          let s0 := s
          match raw with
          | none =>
            if !en.reread && !(readRoom s e 0) then s0
            else bad (if p.slow || srcHere s e p src then s else memDiscard (ringUnit e) p.ctxs.head? (srcPayAt p src) s)
          | some (pay, trl, ep) =>
            match verifyTile s { ident := srcIdentAt p src, alive := some p.alive, formats := some [p.srcFmt] } pay trl with
            | .ok =>
              let s := chkEng 0 e 0 1 s
              let s := if en.reread then chkEng 0 e 4 1 s else s
              let s := set (fun n => { n with tile := some (pay, trl), epoch := ep, bnd := s.tide.bnd }) s
              let s := if en.reread then raise (ringUnit e) bFRS sCorr 0x03 (p.ctxs.head?) (srcPayAt p src) (trlIdent trl) 0 s else s
              releaseEntries e s
            | .corrupt _ => if !en.reread && !(readRoom s e 0) then s0 else bad (chkEng 0 e 1 1 s)
            | .stale _ =>
              if (!en.reread || en.stales < 7) && !(readRoom s e 0) then s0
              else if 7 ≤ en.stales then bad (chkEng 0 e 1 1 s) else again { en with stales := en.stales + 1 } (countPass 5 e p (chkEng 0 e 3 1 s))) s
    | _, _ => s)

/-- Whether the ring position of an output is free in a group (R169). -/
def ringFree (x : Frs) (p : Pass) (i g : Nat) : Bool :=
  match p.grps[g]? with
  | some gr => decide (i < gr.nspans) || delDone x p.id (i - gr.nspans) g
  | none => false

/-- The delivery a command names, with its pass: a new one to a group, or one that stands. -/
def delFor (x : Frs) (pass out : Nat) (k : DelKey) : Option (Pass × Del) :=
  match k with
  | .grp g =>
    match x.passes.find? (·.id == pass) with
    | some p =>
      if decide (out < p.tiles) && decide (g < p.grps.length) && p.active then
        some (p, (delOf x pass out g).getD { did := x.nextId, pass := pass, out := out, grp := g })
      else none
    | none => none
  | .rf did =>
    match x.dels.find? (fun d => d.did == did && d.rf.isSome), passAny x pass with
    | some d, some p => if d.pass == pass && d.out == out then some (p, d) else none
    | _, _ => none

/-- Keep a delivery, a new one under the engine's next number. -/
def putDel (e : Nat) (d : Del) (s : State) : State :=
  modFrs e (fun x =>
    if x.dels.any (·.did == d.did) then { x with dels := x.dels.map fun k => if k.did == d.did then d else k }
    else { x with dels := x.dels ++ [d], nextId := max x.nextId (d.did + 1) }) s

/-- EPOCH_PROBE_ANSWER (R177): the answer fixes the issue point and the expected epoch; a stack's other source pages are
compared at the same point, and a source older than its page is stale. -/
def execEpochProbeAnswer (e : Fin 64) (pass out : Nat) (k : DelKey) (s : State) : Result :=
  .next (
    let x := getFrs s e
    match delFor x pass out k with
    | some (p, d) =>
      if d.issued || d.acked || d.probed.isSome || p.slow then s
      else match k, sourcesOf x p out with
        | key, some es =>
          if (match key with | .grp g => ringFree x p out g | .rf _ => true) && !(es.any (·.failed)) then
            unitGate .freshet (es.map fun en => (srcPayAt p en.src / 4096 * 4096, 4)) (fun s =>
            let s := es.foldl (fun s en => epochTouch (srcPayAt p en.src / 4096) s) s
            let old := (es.drop 1).filter fun en => !(seqEqOrNewer 32 en.epoch (epochAt s (srcPayAt p en.src)))
            if old.isEmpty then
              putDel e { d with probed := some (epochAt s (srcPayAt p (needs p out).1)) } s
            else old.foldl (fun s en => readAgain e p en.src s) (countPass 5 e p s)) s
          else s
        | _, none => s
    | none => s)

/-- DELIVERY_ISSUE (R166, R169, R178): the output is formed and leaves as one packet to its group, or to the cell that asked
for a refetch; a poison notice where a source has failed. A group no longer served is passed over (R172, R180). -/
def execDeliveryIssue (e : Fin 64) (pass out : Nat) (k : DelKey) (s : State) : Result :=
  .next (
    let x := getFrs s e
    match delFor x pass out k with
    | some (p, d) =>
      match p.grps[d.grp]? with
      | some g =>
        if d.issued || d.acked then s
        else if d.rf.isNone && !(ringFree x p out d.grp) then s
        else if d.rf.isNone && grpSkipped s p g d.grp then
          let s := putDel e { d with acked := true } s
          releaseEntries e (if (tget? p.skip d.grp).isSome then s else countGrp 6 e p g s)
        else match sourcesOf x p out with
          | none => s
          | some es =>
            let fail := es.any (·.failed)
            if !fail && !p.slow && d.probed.isNone then s
            else
              let cells := if d.rf.isNone && d.only.isEmpty then grpLive s g else d.only
              let span := match d.rf with | some (_, sp) => sp | none => g.span0 + out % g.nspans
              let ident := outIdent p out
              let (fo, pay, trl) := formTile s p out es
              let kind : FillKind := if fail then .notice e d.did d.rf.isSome else if d.rf.isSome then .refetch (some e) d.did else .delivery e d.did
              let f : Fill := { kind := kind, cell := 0, addr := 2048 * span, len := 2048, cnt := p.cnt, ctx := passOwner p,
                                data := if fail then [] else pay, trailer := if fail then [] else trl,
                                expIdent := if ident == 0 then none else some ident, expAlive := some p.alive, expEpoch := if p.slow then none else d.probed }
              let s := putDel e { d with issued := true, waiting := cells } s
              let s := modFrs e (fun x => { x with buf := x.buf.map fun n => if n.pass == pass && usesSrc p out n.src then { n with used := true } else n }) s
              let s := if fail then s else countN bFRS 22 0 e fo.nonfin (countN bFRS 21 0 e fo.sats s)
              if cells.isEmpty then s else send (.fill f cells) s
      | none => s
    | none => s)

/-- LANDING_ACK (R169): every cell of a delivery has landed or dropped it; stale ones are read and delivered again (R150). -/
def execLandingAck (e : Fin 64) (did : Nat) (s : State) : Result :=
  .next (
    let x := getFrs s e
    match x.dels.find? (·.did == did) with
    | some d =>
      if !d.issued || d.acked || !d.waiting.isEmpty then s
      else match passAny x d.pass with
        | none => modFrs e (fun x => { x with dels := x.dels.filter (·.did != did) }) s
        | some p =>
          if !d.stale.isEmpty then
            let s := modDel e did (fun d => { d with issued := false, probed := none, only := d.stale, stale := [], staleRuns := d.staleRuns + 1 }) s
            ((List.range (needs p d.out).2).map ((needs p d.out).1 + ·)).foldl (fun s j => readAgain e p j s) s
          else
            let s := modDel e did (fun d => { d with acked := true }) s
            if d.rf.isSome then releaseEntries e (modFrs e (fun x => { x with dels := x.dels.filter (·.did != did) }) s)
            else
              let m : Int := (s.now : Int) + dueIn s p d.out - d.landTick
              let s := if d.landed == 0 then s else match p.grps[d.grp]? with
                | some g => addMargins e p g m (countGrp (marginBin m) e p g (countGrp 0 e p g s))
                | none => s
              let s := if d.out + 1 == p.tiles && decide (m < 0) && d.landed != 0 then modPass e d.pass (fun p => { p with late := true }) s else s
              releaseEntries e s
    | none => s)

/-- R170: whether every delivery of a pass has landed or been dropped. -/
def passDone (x : Frs) (p : Pass) : Bool :=
  (List.range p.tiles).all fun i => (List.range p.grps.length).all fun g => delDone x p.id i g

/-- The spans of a pass still FULL, by cell (R170). -/
def unusedSpans (s : State) (p : Pass) : List (Nat × Nat × Grp) :=
  p.grps.flatMap fun g => (grpLive s g).flatMap fun l => ((List.range g.nspans).map (g.span0 + ·)).filterMap fun sp =>
    let t := tagOf (getCell s l) (8 * sp)
    if t.st == .full && t.owner == passOwner p then some (l, sp, g) else none

/-- PASS_END (R170): at a slot boundary, with every delivery done and the grace passed since the last due time. Pass-owned spans still FULL are
scrubbed to no owner; every span still FULL counts as unused. -/
def execPassEnd (e : Fin 64) (pass : Nat) (s : State) : Result :=
  .next (
    let x := getFrs s e
    match x.passes.find? (·.id == pass) with
    | some p =>
      if p.active && atBoundary s && passDone x p && decide (regL s 0x3004 e 23 20 ≤ dueBounds s p (p.tiles - 1)) && decide (dueIn s p (p.tiles - 1) ≤ 0) then
        let left := unusedSpans s p
        let s := left.foldl (fun s u => countGrp 1 e p u.2.2 s) s
        let s := if p.ctxOwned then s else left.foldl (fun s u => modCell u.1 (fun x => { x with reclaimed := addN x.reclaimed u.2.1 }) (scrubSlots u.1 ((List.range 8).map (8 * u.2.1 + ·)) ownerNone none s)) s
        let s := if p.late then countPass 11 e p s else s
        modFrs e (fun x => { x with
          passes := x.passes.filter (·.id != pass), past := x.past ++ [p],
          buf := x.buf.filter (·.pass != pass), dels := x.dels.filter fun d => d.pass != pass || d.rf.isSome }) s
      else s
    | none => s)

/-- EPOCH_WRITE_REPORT (R176): entries on the page not yet delivered are invalidated and read again if still needed. -/
def execEpochWriteReport (e : Fin 64) (page : Nat) (s : State) : Result :=
  .next (
    let x := getFrs s e
    if !(x.reports.contains page) then s
    else
      let hit := x.buf.filter fun en => en.tile.isSome && !en.used && holdsPage { x with buf := [en], passes := x.passes ++ x.past } page
      let s := modFrs e (fun x => { x with reports := delN x.reports page }) s
      hit.foldl (fun s en =>
        match passAny x en.pass with
        | some p => readAgain e p en.src (countPass 3 e p s)
        | none => dropEntry e en.pass en.src s) s)

/-- The prefetch age limit in slots (R181): 0 acts as 255. -/
def maxAge (s : State) (e : Nat) : Nat := if regL s 0x3008 e 31 24 == 0 then 255 else regL s 0x3008 e 31 24

/-- PREFETCH_AGED (R176): an entry that has waited max_age slots is discarded, and read again when it is next needed. -/
def execPrefetchAged (e : Fin 64) (pass src : Nat) (s : State) : Result :=
  .next (
    let x := getFrs s e
    match entryOf x pass src with
    | some en =>
      if en.tile.isSome && decide (en.bnd + maxAge s e ≤ s.tide.bnd) then
        dropEntry e pass src (match passAny x pass with | some p => countPass 4 e p s | none => s)
      else s
    | none => s)

/-- The output of a pass that carries an identifier (R166). -/
def outWithIdent (p : Pass) (ident : Nat) : Option Nat :=
  let src := p.srcFmt % 256
  let c := srcCols src
  let per := max (outsPer src p.outFmt) 1
  if ident == 0 || p.srcIdent == 0 || c == 0 then none
  else
    let d := (idBase ident + 2 ^ 45 - idBase p.srcIdent) % 2 ^ 45
    let j := d / (8 * c)
    let col := d % (8 * c) % c
    let i := if p.outFmt / 256 == 2 then j / max p.tRows 1 * per + col / 8 else j * per + col / max (c / per) 1
    if i < p.tiles && outIdent p i == ident then some i else none

/-- R178: a pass that has ended, its sources at the location that Watershed holds for their tensor; none where no placement holds it. -/
def relocated (s : State) (p : Pass) : Option Pass :=
  let per := 8 * srcCols (p.srcFmt % 256)
  s.ctxs.findSome? fun e => if !(ctxLive e.2) then none else (e.2.job.tensors.zip e.2.plan.tensors).findSome? fun t =>
    let d := (idBase p.srcIdent + 2 ^ 45 - idBase t.1.ident) % 2 ^ 45
    if p.srcIdent != 0 && per != 0 && t.1.ident / 2 ^ 45 == p.srcIdent / 2 ^ 45 && decide (d < t.1.elements) && d % per == 0 && (t.2.where_ == 1) == p.slow then
      some { p with srcPay := t.2.addr + 2048 * (d / per), srcTrl := t.2.addr + 2048 * ((t.1.elements + per - 1) / per) + 32 * (d / per) }
    else none

/-- The live pass of a number, or an ended one at its tensor's place (R178). -/
def passFound (s : State) (x : Frs) (id : Nat) : Option Pass :=
  match x.passes.find? (·.id == id) with
  | some p => some p
  | none => (x.past.find? (·.id == id)).bind (relocated s)

/-- R178: where a tile asked for again is found, through the live passes or after them: pass, output, group. -/
def locate (s : State) (x : Frs) (l span ident : Nat) (did : Option Nat) : Option (Pass × Nat × Nat) :=
  match did.bind fun i => x.dels.find? (·.did == i) with
  | some d => (passFound s x d.pass).map fun p => (p, d.out, d.grp)
  | none =>
    (x.passes ++ x.past.reverse.filterMap (relocated s)).findSome? fun p =>
      (outWithIdent p ident).bind fun i =>
        (List.range p.grps.length).findSome? fun g =>
          match p.grps[g]? with
          | some gr => if (grpCells gr).contains l && decide (gr.span0 ≤ span) && decide (span < gr.span0 + gr.nspans) then some (p, i, g) else none
          | none => none

/-- REFETCH_REQUEST (R148, R178): the tile is located, its sources read once, and delivered to the cell alone; a tile not
located is answered with a poison notice. -/
def execRefetchRequest (e : Fin 64) (m : Nat) (s : State) : Result :=
  .next (match tget? s.fly m with
    | some (.refetchReq l span ident did) =>
      if (match did with | some (e', _) => e' != e.val | none => false) then s
      else
        let x := getFrs s e
        match locate s x l span ident (did.map (·.2)) with
        | some (p, i, g) =>
          -- R168: its reads wait for free entries and for the slot's cap
          let js := (List.range (needs p i).2).map ((needs p i).1 + ·)
          let new := js.filter fun j => match entryOf x p.id j with | some en => en.failed | none => true
          if !new.isEmpty && !(readRoom s e new.length) then s
          else
          let s := modFrs e (fun x => { x with past := x.past.map fun q => if q.id == p.id then p else q }) (unfly m s)
          let d : Del := { did := x.nextId, pass := p.id, out := i, grp := g, rf := some (l, span), only := [l] }
          let s := match p.grps[g]? with | some gr => countGrp 8 e p gr (putDel e d s) | none => putDel e d s
          js.foldl (fun s j =>
            let x := getFrs s e
            match entryOf x p.id j with
            | some en => if en.failed then
                readSource e p j 1 { pass := p.id, src := j, bnd := s.tide.bnd } (modFrs e (fun x => { x with buf := x.buf.filter fun n => !(n.pass == p.id && n.src == j) }) s)
              else s
            | none => readSource e p j 1 { pass := p.id, src := j, bnd := s.tide.bnd } s) s
        | none =>
          let s := unfly m s
          let t := tagOf (getCell s l) (8 * span)
          let f : Fill := { kind := .notice e x.nextId true, cell := l, addr := 2048 * span, len := 2048, cnt := 1, ctx := t.owner, data := [], trailer := [],
                            expIdent := some ident }
          send (.fill f [l]) (modFrs e (fun x => { x with nextId := x.nextId + 1 }) s)
    | _ => s)

end Sys2Proof.Machine
end

