-- ==== Sys2Proof/Machine/Memory.lean ====
section
/-! DEFINITION. Meanings: the fast tier's controllers (R182 to R203). -/
namespace Sys2Proof.Machine

/-- MEM_REQUEST (R183, R196, R201): a request enters its source queue, a sort-and-merge one the sort buffer; one that names no
memory is discarded; one to the slow tier goes to its window's agent (R206). -/
def execMemRequest (q : MemIn) (s : State) : Result :=
  .next (match q with
    | .cell l op e =>
      match findOp (getCell s l) op with
      | none => s
      | some o =>
        let a := remMem o.remote
        let n := if o.kind != .ldx && o.len == 2048 then 2080 else o.len
        let seen := (getStk s (memStack a)).queue ++ (getStk s (memStack a)).sort ++ (getStk s (memStack a)).slots
        let asked := seen.any fun r => r.from_ == .cell l op || r.also.any (·.from_ == .cell l op)
        let data (s : State) : Bytes := bread (getCell s l).mem o.loc o.len ++ (if o.len == 2048 then sendTrailer s l o else [])
        -- R75, R83, R92: a SEND's source is read as the request is taken
        let taken (f : State → State) : State := if o.kind == .send then (match readSend l o e s with | (s, .ok) => f s | (s, _) => s) else f s
        if remSpace o.remote != 1 || o.st != .asked || !(opFirst (getCell s l) o) then s
        else if asked || s.rsv.want.any (·.by_ == .cell l op) || s.rsv.ops.any (·.w.by_ == .cell l op) then s
        else if slowAddr a then
          match s.rsv.wins.find? fun w => decide (w.2.base ≤ a) && decide (a + n ≤ w.2.base + w.2.size) && winInUse s w.2 with
          | some (_, w) =>
            taken fun s =>
              rsvAsk { agent := w.eng, by_ := .cell l op, ctx := o.ctx, addr := a, len := n, ack := o.kind == .send,
                       act := if o.kind == .send then .write (data s) else .read }
                (if o.kind == .send then modOp l op (fun o => { o with st := .leaving }) s else s)
          | none => send (.refuse l op) (memDiscard l (some o.ctx) a s)
        else if !(fastOk s a n) then send (.refuse l op) (memDiscard l (some o.ctx) a s)
        else if o.kind == .send && o.len == 2048 && armedAt s a then s
        -- R249: a tile SEND into a collect range of no armed window is refused; any other write there also leaves a record
        else if o.kind == .send && o.len == 2048 && collectAt s a then send (.refuse l op) s
        else if o.kind == .send && guarded s a o.len then send (.refuse l op) (guardRecord a l (some o.ctx) s)
        else
          let sm := match (getCell s l).prog with | some p => p.sortmerge && p.ctx == o.ctx | none => false
          let req (act : MemAct) : MemReq := { id := 0, cls := .cell, from_ := .cell l op, ctx := some o.ctx, addr := a, len := n, sm := sm, at_ := 0, act := act }
          if queueFull s (req .read) then queueHold (req .read) s
          else taken fun s => memEnqueue (req (if o.kind == .send then .write (data s) else .read)) s
    | .unit cls n num ctx a len act =>
      if len == 0 then s
      else if !(fastOk s a len) then memDiscard n ctx a s
      else if (match act with | .write _ => true | _ => false) && (cls != .estuary || n != memStack a) && cls != .internal && guarded s a len then guardRecord a n ctx s
      else memEnqueue { id := 0, cls := cls, from_ := .unit n num, ctx := ctx, addr := a, len := len, act := act, sm := false, at_ := 0 } s)

/-- MEM_SLOT_GRANT (R175, R193, R194): the next request takes a slot and is accepted. One that waits for the host's answer to
a snoop sends it (R348). -/
def execMemSlotGrant (stk : Fin 64) (s : State) : Result :=
  .next (
    let x := getStk s stk
    if x.st != .ready then s
    else match grantNext s stk x with
      | some r =>
        let s := memAccept stk r s
        match r.from_ with
        | .cell l op => if r.isWrite then modOp l op (fun o => { o with st := .leaving }) s else s
        | _ => s
      | none => x.queue.foldl (fun s r => if r.cls == .host then s else snoopAsk r.isWrite (snoopLines s r.isWrite r.addr r.len) s) s)

/-- MEM_ACCESS_SERVE (R188, R189, R195): a bank serves its next slot; `es`: what the accesses to its lines find, in order. A bank with 32
activations since its last RFM opens no other row before it (R192). -/
def execMemAccessServe (stk : Fin 64) (bank : Fin 4096) (es : List MemEcc) (s : State) : Result :=
  .next (
    let x := getStk s stk
    if x.st != .ready then s
    else match serveNext x bank with
      | none => s
      | some r =>
        let row := rowOf x r.addr
        let hit := tget? x.openRow bank == some row
        if !hit && decide (32 ≤ tget x.acts bank 0) then s
        else
          let s := modStk stk (fun x => { x with
            slots := x.slots.filter (·.id != r.id), openRow := tset x.openRow bank row,
            acts := if hit then x.acts else tmod x.acts bank 0 (· + 1) }) s
          let s := countCtx bMEM (if hit then 2 else 3) 0 stk r.ctx (countCtx bMEM (if r.isWrite then 1 else 0) 0 stk r.ctx s)
          match r.act with
          | .probe => memAnswer r true s
          | .read =>
            let (s, ok) := linesCheck stk (linesOf r.addr r.len) r.ctx es s
            memAnswer r (ok && !(memPoisoned s r.addr r.len)) s
          | .write _ =>
            -- a part-line write is a read-modify-write inside Riffle (R188)
            memAnswer r true (partCheck stk (partLines r.addr r.len) r.ctx es s))

/-- ROW_RETIRE_DONE (R190): the copy ends, through a repair of the bank (`ppr`) or the remap table; with neither left the
retirement is refused. -/
def execRowRetireDone (stk : Fin 64) (row : Nat) (ppr : Bool) (s : State) : Result :=
  .next (
    let x := getStk s stk
    if !(x.retiring.contains row) then s
    else
      let s := modStk stk (fun x => { x with retiring := delN x.retiring row }) s
      if ppr || decide (x.remaps < 1024) then
        count bMEM 7 0 stk (modStk stk (fun x => { x with
          retired := addN x.retired row, remaps := if ppr then x.remaps else x.remaps + 1, rows := tdel x.rows row }) s)
      else raise (ringUnit stk) bMEM sDef 0x02 none row stk 0 s)

/-- Ticks of MCLK cycles, ten to a tick, rounded up. -/
def mclkTicks (n : Nat) : Nat := (n + 9) / 10

/-- AGE_CAP_REACHED (R195): the cap of MEM_SCHED; values below 64 act as 64. -/
def execAgeCapReached (stk : Fin 64) (id : Nat) (s : State) : Result :=
  .next (match (getStk s stk).slots.find? (·.id == id) with
    | some r =>
      modStk stk (fun x => { x with slots := x.slots.map fun q => if q.id == id then { q with aged := true } else q })
        (until_ (r.accAt + mclkTicks (max (regL s 0x4010 stk 11 0) 64)) s)
    | none => s)

/-- R191: ticks between two patrol reads of a stack, so that a period covers every line. -/
def patrolGap (s : State) (stk : Nat) : Nat := regL s 0x401C stk 7 0 * 3600 * 150000000 / (stackBytes / 64)

/-- MEM_PATROL (R191): the next line is read, in the internal class, and corrected; a period of 0 disables the patrol. -/
def execMemPatrol (stk : Fin 64) (e : MemEcc) (s : State) : Result :=
  .next (
    let x := getStk s stk
    if x.st != .ready || regL s 0x401C stk 7 0 == 0 then s
    else
      let a := stk.val * 2 ^ 37 + 64 * x.patrolLine
      if !(memRoom s .internal a 64) then s
      else
      let s := until_ (x.patrolAt + patrolGap s stk) s
      let s := modStk stk (fun x => { x with patrolLine := (x.patrolLine + 1) % (stackBytes / 64), patrolAt := s.now }) s
      (lineCheck stk a none e s).1)

/-- BANK_REFRESH (R192): a per-bank refresh closes the bank's row. -/
def execBankRefresh (stk : Fin 64) (bank : Fin 4096) (s : State) : Result :=
  .next (if (getStk s stk).st != .ready then s
    else count bMEM 8 0 stk (modStk stk (fun x => { x with openRow := tdel x.openRow bank }) s))

/-- RFM_ISSUE (R192): one RFM after each 32 activations of a bank. -/
def execRfmIssue (stk : Fin 64) (bank : Fin 4096) (s : State) : Result :=
  .next (
    let x := getStk s stk
    if x.st != .ready || tget x.acts bank 0 < 32 then s
    else count bMEM 9 0 stk (modStk stk (fun x => { x with acts := tset x.acts bank (tget x.acts bank 0 - 32), openRow := tdel x.openRow bank }) s))

/-- CONC_WINDOW_END (R200): a window of 16 slots is judged; a report follows `windows` concentrated ones in a row, and every
renotify_windows after it. -/
def execConcWindowEnd (stk : Fin 64) (s : State) : Result :=
  .next (
    let x := getStk s stk
    if s.tide.bnd < x.concBnd + 16 then s
    else
      let total := x.concBank.foldl (fun a e => a + e.2) 0
      let busy := (topN 64 x.concBank).foldl (fun a e => a + e.2) 0
      let load := x.concBytes * 100 / (16 * 167772160)
      let hot := decide (total * regL s 0x4018 stk 6 0 < busy * 100) && decide (regL s 0x4018 stk 18 12 ≤ load) && decide (0 < total)
      let run := if x.concSkip then x.concRun else if hot then x.concRun + 1 else 0
      let need := max (regL s 0x4018 stk 11 8) 1
      let again := if regL s 0x4018 stk 27 20 == 0 then 255 else regL s 0x4018 stk 27 20
      let report := hot && !x.concSkip && (run == need || (decide (need < run) && (run - need) % again == 0))
      let s := modStk stk (fun x => { x with
        concBank := [], concCtx := [], concPage := [], concBytes := 0, concRun := run, concBnd := s.tide.bnd, concSkip := x.st == .retraining }) s
      if report then
        let top := topN 8 x.concBank
        let inTop (k : Nat) : Bool := top.any fun b => b.1 == k
        let rep : ConcRep := {
          stack := stk, tide := s.tide.count, pct := busy * 100 / max total 1, banks := top,
          ctxs := (topN 4 (groupSum (x.concCtx.filter fun e => inTop (e.1 / 1024)) (· % 1024))).map (·.1),
          pages := (topN 4 (groupSum (x.concPage.filter fun e => inTop (e.1 / 2 ^ 36)) (· % 2 ^ 36))).map (·.1) }
        raise (ringUnit stk) bMEM sInfo 0x0A none stk rep.pct 0
          (count bMEM 14 0 stk { s with mem := { s.mem with conc := s.mem.conc ++ [rep] } })
      else s)

/-- The position of a row in the order of each row's oldest request (R202). -/
def rowRank (x : Stack) (l : List MemReq) (r : MemReq) : Nat := l.findIdx fun q => rowOf x q.addr == rowOf x r.addr

/-- Insert a request by row rank, then by line, after equals. -/
def batchInsert (x : Stack) (all : List MemReq) (r : MemReq) : List MemReq → List MemReq
  | [] => [r]
  | q :: qs =>
    if decide (rowRank x all r < rowRank x all q) || (rowRank x all r == rowRank x all q && decide (r.addr / 64 < q.addr / 64)) then r :: q :: qs
    else q :: batchInsert x all r qs

/-- Whether two reads of a batch are one access (R202): of one line, or of the same range. -/
def oneAccess (q r : MemReq) : Bool :=
  !q.isWrite && !r.isWrite && q.fwd.isNone && r.fwd.isNone && q.act == .read && r.act == .read &&
  ((q.addr == r.addr && q.len == r.len) || (q.addr / 64 == r.addr / 64 && decide (q.addr % 64 + q.len ≤ 64) && decide (r.addr % 64 + r.len ≤ 64)))

/-- R202: a request joins the reads it merges with; where a write of the batch covers its line, none. -/
def batchMerge (b : List MemReq) (out : List MemReq) (r : MemReq) : List MemReq :=
  let mixed := b.any fun q => q.isWrite && (linesOf q.addr q.len).any fun l => (linesOf r.addr r.len).contains l
  match if mixed then none else out.find? (oneAccess · r) with
  | some q => out.map fun p => if p.id == q.id then { p with also := p.also ++ [{ from_ := r.from_, ctx := r.ctx, addr := r.addr, len := r.len }] } else p
  | none => out ++ [{ r with sm := false }]

/-- SM_BATCH_ISSUE (R202): the batch of a bank issues on its window, or on its rows' requests, row by row and line by line, the reads of one
line as one. -/
def execSmBatchIssue (stk : Fin 64) (bank : Fin 4096) (s : State) : Result :=
  .next (
    let x := getStk s stk
    let b := x.sort.filter fun r => bankOf x r.addr == bank.val
    match b with
    | [] => s
    | first :: _ =>
      let full := b.any fun r => decide (max (regL s 0x4014 stk 16 12) 1 ≤ (b.filter fun q => rowOf x q.addr == rowOf x r.addr).length)
      let s := if full then s else until_ (first.at_ + mclkTicks (max (regL s 0x4014 stk 11 0) 16)) s
      let out := (b.foldl (fun acc r => batchInsert x b r acc) []).foldl (batchMerge b) []
      let ctxs := (b.filterMap (·.ctx)).eraseDups
      let s := out.foldl (fun s q => q.also.foldl (fun s a => countCtx bMEM 11 0 stk a.ctx s) s) s
      let s := ctxs.foldl (fun s c => count bMEM 12 1 c s) (count bMEM 12 0 stk s)
      modStk stk (fun x => sortRefill x.queue.length { x with sort := x.sort.filter fun r => bankOf x r.addr != bank.val, queue := x.queue ++ out }) s)

/-- RETRAIN_START (R203): at the step boundary that Watershed names, one stack of the module at a time. -/
def execRetrainStart (stk : Fin 64) (s : State) : Result :=
  .next (
    let x := getStk s stk
    if x.retrainWant && (x.st == .ready || s.lev.selfRef.contains stk.val) && !(s.mem.stks.any (·.2.st == .retraining)) then
      modStk stk (fun x => { x with st := .retraining, retrainWant := false, concSkip := true, openRow := [] }) s
    else s)

/-- RETRAIN_DONE (R203): the stack resumes, or becomes unavailable with a region-fatal record. -/
def execRetrainDone (stk : Fin 64) (ok : Bool) (s : State) : Result :=
  .next (if (getStk s stk).st != .retraining then s
    else if ok then { modStk stk (fun x => { x with st := .ready }) s with
      net := { s.net with stackOut := delN s.net.stackOut stk }, lev := { s.lev with selfRef := delN s.lev.selfRef stk.val } }
    else raise (ringUnit stk) bMEM sRegion 0x10 none stk 0 0 (stackLost stk s))

end Sys2Proof.Machine
end

