-- ==== Sys2Proof/Machine/Registers.lean ====
section
/-! DEFINITION. Meanings: reads and writes of registers (R353, R377, R453 to R473), with a command of its own for each register whose
write sets something off. -/
namespace Sys2Proof.Machine

/-- Bit `b` of a written value is set, at offset `o`. -/
def setsBit (o b : Nat) (_ : State) (off val : Nat) : Bool := off == o && bitN val b

/-- Any write of offset `o`. -/
def hitsReg (o : Nat) (_ : State) (off _val : Nat) : Bool := off == o

/-- SRC_SEL_WRITE (R496): a write of TID_SRC_CTRL. -/
def execSrcSelWrite (x : RegIn) (s : State) : Result := .next (writeCommand (hitsReg 0x9000) x s)

/-- REBASE_WRITE (R50, R471): a write of TID_REBASE_HI applies the pair, unless a context runs. -/
def execRebaseWrite (x : RegIn) (s : State) : Result := .next (writeCommand (hitsReg 0x901C) x s)

/-- PROFILE_VALIDATE (R158): CHK_PROF_CFG.valid is set. -/
def execProfileValidate (x : RegIn) (s : State) : Result := .next (writeCommand (setsBit 0xE008 12) x s)

/-- UNIT_RUN_APPLY (R158): a write of CHK_UNIT_RUN_HI applies the pair to a unit that is not bound. -/
def execUnitRunApply (x : RegIn) (s : State) : Result := .next (writeCommand (hitsReg 0xE028) x s)

/-- RETRAIN_REQUEST (R203): a write of MEM_RETRAIN. -/
def execRetrainRequest (x : RegIn) (s : State) : Result := .next (writeCommand (hitsReg 0x4020) x s)

/-- WINDOW_VALIDATE (R205): RSV_WIN_TGT.valid is set. -/
def execWindowValidate (x : RegIn) (s : State) : Result := .next (writeCommand (setsBit 0xD010 31) x s)

/-- EXPORT_VALIDATE (R213): RSV_EXP_CTRL.valid is set. -/
def execExportValidate (x : RegIn) (s : State) : Result := .next (writeCommand (setsBit 0xD02C 17) x s)

/-- QUEUE_PAIR_ENABLE (R471): SLC_Q_CTRL.en is set. -/
def execQueuePairEnable (x : RegIn) (s : State) : Result := .next (writeCommand (setsBit 0x8018 0) x s)

/-- QUEUE_PAIR_DISABLE (R335): SLC_Q_CTRL is written with en 0. -/
def execQueuePairDisable (x : RegIn) (s : State) : Result := .next (writeCommand (fun _ off val => off == 0x8018 && !(bitN val 0)) x s)

/-- LINK_RETRAIN (R361): a write of HST_LINK_CTRL. -/
def execLinkRetrain (x : RegIn) (s : State) : Result := .next (writeCommand (hitsReg 0xF004) x s)

/-- R413: reads of counters pause while telemetry's image is replaced. -/
def telHeld (x : RegIn) (s : State) : Bool := updating s 10 && readTouches (· == 0x12008) x s

/-- REG_READ (R341, R342, R377, R466): a MGMT REG_READ is answered with REG_DATA, and a load on BAR0, BAR2 or configuration space with its
data. A MGMT message with no op a module answers gets status 3 (R385). -/
def execRegRead (x : RegIn) (s : State) : Result := .next (if telHeld x s then s else readCommand (fun _ => true) true x s)

/-- REG_WRITE (R377, R467): a MGMT REG_WRITE is carried out and answered. -/
def execRegWrite (x : RegIn) (s : State) : Result :=
  .next (match x with
    | .host _ _ _ => s
    | x => writeCommand (fun _ _ _ => true) x s)

/-- RECAL (R383, R386): CSN_LANE_CTRL.recal is written. -/
def execRecal (x : RegIn) (s : State) : Result := .next (writeCommand (setsBit 0xC018 0) x s)

/-- LANE_DOWN_HOLD (R387): CSN_LANE_CTRL is written without recal. -/
def execLaneDownHold (x : RegIn) (s : State) : Result := .next (writeCommand (fun _ off val => off == 0xC018 && !(bitN val 0)) x s)

/-- BOOTCFG_COMMIT (R391): BST_BOOTCFG_CMT is written. -/
def execBootcfgCommit (x : RegIn) (s : State) : Result := .next (writeCommand (hitsReg 0x10030) x s)

/-- DIE_TEST_REQUEST (R402): BST_DIE_TEST is written; or a test that stands asked for, by such a write, a lost PLL or a suspect
cluster, begins. -/
def execDieTestRequest (x : TestIn) (s : State) : Result :=
  .next (match x with
    | .write w => writeCommand (hitsReg 0x10010) w s
    | .due site => testStart site s)

/-- RECOVER_REQUEST (R404): BST_RECOVER is written, or a site has failed and auto_recover is 1. -/
def execRecoverRequest (x : TestIn) (s : State) : Result :=
  .next (match x with
    | .write w => writeCommand (hitsReg 0x1000C) w s
    | .due site => autoRecover site s)

/-- OBJECT_INSTALL (R415): HDW_OBJ_CMD is written. -/
def execObjectInstall (x : RegIn) (s : State) : Result := .next (writeCommand (hitsReg 0xB00C) x s)

/-- REKEY_START (R421): HDW_REKEY is written. -/
def execRekeyStart (x : RegIn) (s : State) : Result := .next (writeCommand (hitsReg 0xB020) x s)

/-- SWITCHOFF_REQUEST (R439): LEV_REGION_CTRL.off is written. -/
def execSwitchoffRequest (x : RegIn) (s : State) : Result := .next (writeCommand (setsBit 0xA01C 0) x s)

/-- REGION_ON_REQUEST (R440): LEV_REGION_CTRL.on is written. -/
def execRegionOnRequest (x : RegIn) (s : State) : Result := .next (writeCommand (setsBit 0xA01C 1) x s)

/-- SHUTDOWN (R441): LEV_SHUTDOWN is written. -/
def execShutdown (x : RegIn) (s : State) : Result := .next (writeCommand (hitsReg 0xA020) x s)

/-- ERROR_ACK (R464): ERR_ACK is written. -/
def execErrorAck (x : RegIn) (s : State) : Result := .next (writeCommand (hitsReg 0x11010) x s)

/-- RING_ENABLE (R471): ERR_CTRL.ring_en is set. -/
def execRingEnable (x : RegIn) (s : State) : Result := .next (writeCommand (setsBit 0x11000 0) x s)

/-- TEL_DUMP (R461): TEL_DUMP_CTRL is written. -/
def execTelDump (x : RegIn) (s : State) : Result := .next (writeCommand (hitsReg 0x12018) x s)

/-- COUNT_READ_LATCH (R65, R471): a read that takes in TID_COUNT_LO. -/
def execCountReadLatch (x : RegIn) (s : State) : Result := .next (readCommand (· == 0x9010) false x s)

/-- TEL_VALUE_READ (R460, R471): a read that takes in TEL_VAL_LO. -/
def execTelValueRead (x : RegIn) (s : State) : Result := .next (if telHeld x s then s else readCommand (· == 0x12008) false x s)

/-- Writes of a register with a command of its own that set none of that command's bits. -/
def plainWrite (off val : Nat) : Bool :=
  !(ownRow off) || (off == 0xE008 && !(bitN val 12)) || (off == 0xD010 && !(bitN val 31)) || (off == 0xD02C && !(bitN val 17)) ||
  (off == 0x11000 && !(bitN val 0)) || (off == 0xA01C && !(bitN val 0) && !(bitN val 1))

/-- REGISTER_WRITE (R341, R342, R453): a write of any other register, or of an undefined offset; of configuration space or BAR2. -/
def execRegisterWrite (x : RegIn) (s : State) : Result :=
  .next (match x with
    | .config item val => cfgStore item val.toNat s
    | .bar2 off val => bar2Store (4 * off) val.toNat s
    | x => writeCommand (fun _ off val => plainWrite off val) x s)

end Sys2Proof.Machine
end

