-- ==== Sys2Proof/Machine/Routing.lean ====
section
/-! DEFINITION. Meanings: packets, route tables and commits, a die's drain (R23 to R36, R55, R63). -/
namespace Sys2Proof.Machine

/-- A packet discarded at a router: counted, and a contained record naming source, destination and class (R32). -/
def packetDrop (site num src dst cls : Nat) (s : State) : State :=
  raise site bRIL sCont 0x07 none src (dst + cls * 2 ^ 32) 0 (count bRIL num 0 site s)

/-! ### The mesh (R28, R29) -/

/-- R28: the next router toward a position: along the row to its column, then along the column. -/
def meshStep (row col : Nat) (aim : Nat × Nat) : Nat × Nat :=
  if col < aim.2 then (row, col + 1) else if aim.2 < col then (row, col - 1) else if row < aim.1 then (row + 1, col) else (row - 1, col)

/-- R28: a packet in its destination's die: what the router passes on to each neighbour, row first; and whether its own cell is named. -/
def meshSplit (p : Packet) : List Packet × Bool :=
  let west := if p.col0 < p.col then [{ p with col1 := min p.col1 (p.col - 1), col := p.col - 1 }] else []
  let east := if p.col < p.col1 then [{ p with col0 := max p.col0 (p.col + 1), col := p.col + 1 }] else []
  let mine := decide (p.col0 ≤ p.col) && decide (p.col ≤ p.col1)
  let north := if mine && decide (p.row0 < p.row) then [{ p with row1 := min p.row1 (p.row - 1), col0 := p.col, col1 := p.col, row := p.row - 1 }] else []
  let south := if mine && decide (p.row < p.row1) then [{ p with row0 := max p.row0 (p.row + 1), col0 := p.col, col1 := p.col, row := p.row + 1 }] else []
  (west ++ east ++ north ++ south, mine && decide (p.row0 ≤ p.row) && decide (p.row ≤ p.row1))

/-- R29: whether an earlier packet of the same class, source and destination stands at the same router under the same tables. -/
def packetBehind (s : State) (p : Packet) : Bool :=
  s.fly.any fun e => match e.2 with
    | .packet q => decide (q.seq < p.seq) && q.cls == p.cls && q.src == p.src && q.die == p.die && q.gen == p.gen &&
        q.site == p.site && q.row == p.row && q.col == p.col
    | _ => false

/-- R63: whether a site's routers run: an available site's, or a leaving one's until it is empty. -/
def routersRun (s : State) (site : Nat) : Bool := siteAvail s site || tget? s.net.leaving site == some .draining

/-- The destination address of a packet as a record names it: its first cell. -/
def packetDst (p : Packet) : Nat := physAddr p.die p.row0 p.col0

/-- R27, R28: in the destination's die a packet moves on or splits; a cell it names takes it, a hole's router discards it. -/
def packetInDie (m : Nat) (p : Packet) (s : State) : State :=
  let parts := meshSplit p
  let s := parts.1.foldl (fun s q => send (.packet q) s) (unfly m s)
  let here := physAddr p.site p.row p.col
  if !parts.2 then s
  else if isHole s here then packetDrop p.site 0 p.src here p.cls s
  else emit (.packet p.site 4 ([p.src, here, p.cls] ++ p.words)) s

/-- R30, R31, R32: outside it, a packet goes to a port of the edge that its table names and crosses; where the site beyond is not
available it is discarded at this last router. -/
def packetAcross (m : Nat) (p : Packet) (s : State) : State :=
  let e := edgeBy (if p.gen == s.net.gen then s.net.active else s.net.prev) p.site p.die
  let port := Config.stitchPort p.src p.die p.cls e % 40
  if 4 ≤ e then packetDrop p.site 1 p.src (packetDst p) p.cls (unfly m s)
  else if portPos e port != (p.row, p.col) then
    let next := meshStep p.row p.col (portPos e port)
    refly m (.packet { p with row := next.1, col := next.2 }) s
  else match siteAcross s p.site e with
    | some n =>
      if siteAvail s n then
        let at_ := portPos (opposite e) port
        emit (.packet p.site e ([p.src, packetDst p, p.cls] ++ p.words)) (refly m (.packet { p with site := n, row := at_.1, col := at_.2 }) s)
      else packetDrop p.site 1 p.src (packetDst p) p.cls (unfly m s)
    | none => packetDrop p.site 1 p.src (packetDst p) p.cls (unfly m s)

/-- PACKET_ARRIVAL (R23, R27 to R32): a router accepts a header whose destination is one cell, or the rectangle of one die between two
corner cells, with 0 to 33 payload flits; or a packet in flight moves on by one hop. -/
def execPacketArrival (p : PktIn) (s : State) : Result :=
  match p with
  | .new site row col src lo hi cls words =>
    if 528 < words.length then .fault .illFormed
    else .next (
      let a := lo.toNat
      let b := hi.toNat
      if !(routersRun s site) then s
      else if !(physValid a) || !(physValid b) || physSite a != physSite b then packetDrop site 1 src.toNat a cls s
      else send (.packet {
        seq := s.flyNext, src := src.toNat, cls := cls.val, die := physSite a, words := words.map (·.toNat), gen := s.net.gen,
        row0 := min (bitsN a 13 7) (bitsN b 13 7), row1 := max (bitsN a 13 7) (bitsN b 13 7),
        col0 := min (bitsN a 6 0) (bitsN b 6 0), col1 := max (bitsN a 6 0) (bitsN b 6 0), site := site.val, row := row.val, col := col.val }) s)
  | .hop m => .next (match tget? s.fly m with
    | some (.packet p) =>
      if !(routersRun s p.site) then unfly m s
      else if packetBehind s p then s
      else if p.site == p.die then packetInDie m p s
      else packetAcross m p s
    | _ => s)

/-! ### Route tables (R31) -/

/-- The sites from which a destination is reached over the sites given, with the least number of crossings. -/
def routeDist (s : State) (sites : List Nat) : Nat → Nat → List Nat → Tab Nat → Tab Nat
  | 0, _, _, acc => acc
  | n + 1, d, front, acc =>
    let next := (front.flatMap fun a => (siteNeighbours a).filter fun b =>
      sites.contains b && !(s.net.edgeOut.contains (edgeNum a b)) && (tget? acc b).isNone).eraseDups
    if next.isEmpty then acc else routeDist s sites n (d + 1) next (next.foldl (fun t b => tset t b (d + 1)) acc)

/-- The crossings along the tables from a site to a destination, if they lead there over the sites given. -/
def routeLen (s : State) (t : Tab RouteTable) (sites : List Nat) (dst : Nat) : Nat → Nat → Option Nat
  | 0, _ => none
  | n + 1, a =>
    if a == dst then some 0
    else match siteAcross s a (edgeBy t a dst) with
      | some b => if sites.contains b then (routeLen s t sites dst n b).map (· + 1) else none
      | none => none

/-- The channel that a site's table uses toward a destination: site, edge, virtual network. -/
def channelOf (t : Tab RouteTable) (a dst : Nat) : Nat :=
  match tget? t a with
  | some r => match r.hops[dst]? with | some h => a * 32 + h.1 * 4 + h.2 | none => a * 32 + 20
  | none => a * 32 + 20

/-- The waits of one channel on the next along the routes. -/
def channelWaits (s : State) (t : Tab RouteTable) (sites : List Nat) : List (Nat × Nat) :=
  (sites.flatMap fun d => sites.filterMap fun a =>
    match siteAcross s a (edgeBy t a d) with
    | some b => if a == d || b == d then none else some (channelOf t a d, channelOf t b d)
    | none => none).eraseDups

/-- Whether no cycle of waits stands: take away those on a channel that waits on nothing until none is left. -/
def noCycle : Nat → List (Nat × Nat) → Bool
  | 0, l => l.isEmpty
  | n + 1, l =>
    let rest := l.filter fun w => l.any fun v => v.1 == w.2
    if rest.length == l.length then l.isEmpty else noCycle n rest

/-- R31: between any two of the sites that are joined, the route is at most two crossings longer than the shortest; no deadlock. -/
def routesOk (s : State) (t : Tab RouteTable) (sites : List Nat) : Bool :=
  (sites.all fun d => (routeDist s sites 88 0 [d] [(d, 0)]).all fun e =>
    match routeLen s t sites d 89 e.1 with | some n => decide (n ≤ e.2 + 2) | none => false) &&
  noCycle 1408 (channelWaits s t sites)

/-- ROUTE_TABLE_LOAD (R31): a table of 88 entries is loaded into a die's shadow; one of the commit's version confirms it. -/
def execRouteTableLoad (site : Fin 88) (ver : Nat) (hops : List (Fin 6 × Fin 4)) (s : State) : Result :=
  if hops.length != 88 then .fault .illFormed
  else .next (if updating s 3 then s else
    let t : RouteTable := { ver := ver, hops := hops.map fun h => (h.1.val, h.2.val) }
    modNet (fun n => { n with
      shadow := tset n.shadow site t,
      commit := n.commit.map fun c => if c.ver == ver then { c with confirmed := addN c.confirmed site } else c }) s)

/-- ROUTES_READY (R31, R281): tables computed after a change of available sites; the commit names a slot at least two ahead,
and no earlier than the switch-off slot of the notice for a die that leaves (R298). -/
def execRoutesReady (slot : BitVec 50) (s : State) : Result :=
  .next (
    -- R64: a commit that rejoins a site names the earliest slot allowed
    let least := (s.net.toLeave.flatMap fun l => (s.wsh.notices.filter (·.site == l.1)).map (·.slot)).foldl max (slotNow s + 2)
    if s.net.routesDue && s.net.commit.isNone && decide (least ≤ slot.toNat) && (s.net.toJoin.isEmpty || slot.toNat == least) then
      let c : Commit := { slot := slot.toNat, ver := s.net.nextVer, confirmed := [], leave := s.net.toLeave, join := s.net.toJoin }
      rillSend unitTR rillAll 1 0x31 [c.ver, c.slot]
        (modNet (fun n => { n with commit := some c, nextVer := n.nextVer + 1, routesDue := false, toLeave := [], toJoin := [] }) s)
    else s)

/-- The sites whose routers must hold a commit's table: every available one, and those that join. -/
def commitSites (s : State) (c : Commit) : List Nat := (List.range 88).filter fun t => siteAvail s t || c.join.contains t

/-- COMMIT_WITHDRAW (R55): one slot before the boundary a router has not confirmed: a later slot is named. -/
def execCommitWithdraw (slot : BitVec 50) (s : State) : Result :=
  .next (match s.net.commit with
    | some c =>
      if decide (c.slot ≤ slotNow s + 1) && !((commitSites s c).all c.confirmed.contains) && decide (max c.slot (slotNow s) < slot.toNat) then
        rillSend unitTR rillAll 1 0x31 [c.ver, slot.toNat] (modNet (fun n => { n with commit := some { c with slot := slot.toNat } }) s)
      else s
    | none => s)

/-- ROUTE_COMMIT (R31, R33, R63, R293): at the named boundary every shadow table becomes active, as Watershed computed them; sites that leave start their
drain, sites that join are available, and the export region is rewritten. -/
def execRouteCommit (s : State) : Result :=
  .next (match s.net.commit with
    | some c =>
      let new := (commitSites s c).foldl (fun t k => match tget? s.net.shadow k with | some r => if r.ver == c.ver then tset t k r else t | none => t) s.net.active
      if decide (c.slot ≤ slotNow s) && atBoundary s && (commitSites s c).all c.confirmed.contains &&
          routesOk s new ((commitSites s c).filter fun t => !(c.leave.any (·.1 == t))) then
        let s := modNet (fun n => { n with
          commit := none, active := new, prev := n.active, gen := n.gen + 1,
          leaving := (c.leave.filter (·.2 != .dieTest)).foldl (fun t l => tset t l.1 .draining) n.leaving,
          rejoin := n.rejoin.filter fun e => !(c.join.contains e.1) }) s
        let s := c.leave.foldl (fun s l => siteOut l.1 l.2 s) s
        let s := c.join.foldl (fun s t => { modNet (fun n => { n with out := tset n.out t [] }) s with lev := { s.lev with region := tdel s.lev.region t } }) s
        exportRewrite c.slot (cutJudge s)
      else s
    | none => s)

/-- ROUTERS_EMPTY (R63): a leaving die's routers report empty, once no packet is in them; its clocks are gated. -/
def execRoutersEmpty (site : Fin 88) (s : State) : Result :=
  .next (match tget? s.net.leaving site with
    | some .draining =>
      if s.fly.any fun e => match e.2 with | .packet p => p.site == site.val | _ => false then s
      else emit (.pin 0x20 site) (modNet (fun n => { n with leaving := tset n.leaving site (.gated s.now) }) s)
    | _ => s)

/-- PLL_STOP (R63): 64 ticks after gating the die PLL stops and Levee opens the region switch. -/
def execPllStop (site : Fin 88) (s : State) : Result :=
  .next (match tget? s.net.leaving site with
    | some (.gated t) =>
      let s := until_ (t + 64) s
      let s := emit (.pin 0x22 site) (emit (.pin 0x21 site) (modNet (fun n => { n with leaving := tdel n.leaving site }) s))
      { s with lev := { s.lev with region := tset s.lev.region site (if (siteReasons s site).contains .command then 2 else 1), offAt := tset s.lev.offAt site s.now } }
    | _ => s)

end Sys2Proof.Machine
end

