-- ==== Sys2Proof/Machine/Sluice.lean ====
section
/-! DEFINITION. Meanings: queue pairs, descriptors, admissions, steps, rollbacks, kills (R303 to R338). -/
namespace Sys2Proof.Machine

/-! ### Doorbells and descriptor fetches (R309, R335) -/

/-- DOORBELL_SNOOP (R309): a host write dropped line `j`; Sluice re-reads its 64 bytes. -/
def execDoorbellSnoop (j : Fin 8) (line : Bytes) (s : State) : Result :=
  if line.length != 64 then .fault .illFormed else .next (doorbellLine false j line s)

/-- DOORBELL_POLL (R309): every poll_slots slots all 512 bytes are re-read. -/
def execDoorbellPoll (area : Bytes) (s : State) : Result :=
  if area.length != 512 then .fault .illFormed
  else .next (
    if s.tide.bnd < s.slc.pollBnd + max (regL s 0x8028 0 31 24) 1 then s
    else (List.range 8).foldl (fun s j => doorbellLine true j (sliceB area (64 * j) 64) s) { s with slc := { s.slc with pollBnd := s.tide.bnd } })

/-- DESCRIPTOR_FETCH_DONE (R309): the entries asked for arrive; the rest up to the tail is fetched next. -/
def execDescriptorFetchDone (q : Fin 64) (data : Bytes) (s : State) : Result :=
  let p := getPair s q
  .next (
    if p.fetching == 0 || data.length != 64 * p.fetching then s
    else
      let ds := (List.range p.fetching).map fun i => (sliceB data (64 * i) 64, (p.sqHead + i + 1) % p.sqSize)
      let s := modPair q (fun p => { p with fetched := p.fetched ++ ds, sqHead := (p.sqHead + p.fetching) % p.sqSize, fetching := 0, retried := false }) s
      let s := cacheAdd ((List.range p.fetching).map fun i => p.sqBase / 64 + (p.sqHead + i) % p.sqSize) s
      fetchStart q (dropBadOps q 16 s))

/-- DESCRIPTOR_FETCH_TIMEOUT (R335): 100 µs; one retry, then the pair stops. -/
def execDescriptorFetchTimeout (q : Fin 64) (s : State) : Result :=
  .next (
    let p := getPair s q
    if p.fetching == 0 then s
    else
      let s := until_ (p.fetchAt + usTicks 100) s
      if !p.retried then emit (.hostRead (p.sqBase + 64 * p.sqHead) (64 * p.fetching)) (modPair q (fun p => { p with retried := true, fetchAt := s.now }) s)
      else raise unitTL bSLC sDef 0x06 none (p.sqBase + 64 * p.sqHead) q 0 (pairStop q s))

/-! ### Admission (R313, R314) -/

/-- ADMIT (R304 to R306, R313): the pair's next descriptor starts an admission. -/
def execAdmit (q : Fin 64) (s : State) : Result :=
  .next (dispatch q 1
    (fun d => [(decide (4 ≤ dFlags d), 1), dHead d, (!(memAddrOk (leField d 8 8)), 8), (!(memAddrOk (leField d 16 8)), 16),
      (!(leField d 24 8 % 64 == 0 && fastBacked (leField d 24 8)), 24), (!(memAddrOk (leField d 32 8)), 32),
      (!(leField d 40 8 % 64 == 0 && fastBacked (leField d 40 8) && fastBacked (leField d 40 8 + 4095)), 40), dZero d 52 12])
    (fun s d => match ctxRefuse s q (dCtx d) [.free] with
      | some r => some r
      | none => if bitN (dFlags d) 1 && 16 ≤ privCount s then some (10, 0) else none)
    (fun d h s => telRestart (dCtx d) (modCtx (dCtx d) (fun _ => {
      st := .admitting, full := bitN (dFlags d) 0, priv := bitN (dFlags d) 1, qp := q, graph := leField d 8 8, numAddr := leField d 16 8, updAddr := leField d 24 8,
      report := leField d 32 8, save := leField d 40 8, firstStep := leField d 48 4, nextStep := leField d 48 4, winNext := leField d 48 4,
      lastDone := (leField d 48 4 + 2 ^ 32 - 1) % 2 ^ 32, admitTag := dTag d, admitHead := h }) s)) s)

/-- The length that a graph's header names, at most 64 MiB (R282, R283). -/
def graphLen (s : State) (x : Ctx) : Nat := min (leField (memRead s x.graph 8) 4 4) (64 * 2 ^ 20)

/-- The first record of a list that has not been read is asked for; the reads of all are done with. -/
def recAsk (c : Nat) (l : List (Nat × Nat)) (s : State) : State :=
  match l.find? fun r => !(slowBack s bSLC c r.1 r.2) && !(slowFailed s bSLC c r.1 r.2) with
  | some r => slowAsk bSLC c c r.1 r.2 s
  | none => s
def recTake (c : Nat) (l : List (Nat × Nat)) (s : State) : State := l.foldl (fun s r => slowTake bSLC c r.1 r.2 s) s

/-- A refused admission leaves nothing behind (R314). -/
def admitRefuse (c status detail : Nat) (s : State) : State :=
  let x := getCtx s c
  let s := postDesc x.qp x.admitTag c 1 status detail x.firstStep x.admitHead (countCtx bSLC status 0 x.qp (some c) s)
  let s := (ctxCells s c).foldl (fun s l => cellLeave l c s) s
  modCtx c (fun _ => {}) { s with edy := { s.edy with shards := tdel s.edy.shards c, streams := tdel s.edy.streams c, upd := tdel s.edy.upd c } }

/-- R291: an admission refused by Watershed: the report, last_refusal, status 4. -/
def placeRefuse (c code detail : Nat) (s : State) : State :=
  let x := getCtx s c
  let s := recPut bWSH unitTR c x.report (refusalBytes s c code detail x.firstStep) s
  admitRefuse c 4 code { s with wsh := { s.wsh with lastRefusal := code } }

/-- ADMIT_COMPLETE (R314): records are checked, the graph is checked and placed as Watershed answers, images are checked and loaded.
An answer that breaks R286 to R288 is no answer, and nothing happens. -/
def execAdmitComplete (ctx : Fin 1024) (a : Admission) (s : State) : Result :=
  let c := ctx.val
  .next (
    let x := getCtx s c
    let need := [(x.numAddr, 64), (x.graph, 64), (x.graph, graphLen s x)].filter fun r => slowAddr r.1
    let bad (a n : Nat) : Bool := slowAddr a && slowFailed s bSLC c a n
    if updating s 4 || x.st != .admitting then s
    -- records in the slow tier are read through their window; a failed read gives no record
    else if need.any (fun r => !(slowBack s bSLC c r.1 r.2) && !(bad r.1 r.2)) then recAsk c need s
    else match if bad x.numAddr 64 then none else numRecOf (memRead s x.numAddr 64) with
      | none => admitRefuse c 5 1 s
      | some n =>
        let s := recTake c need s
        let u := updRead s x.updAddr
        if !(updOk s u) then admitRefuse c 5 2 s
        else
          let s1 := modCtx c (fun x => { x with num := n }) s
          let b := if bad x.graph 64 || bad x.graph (graphLen s x) then [] else memRead s x.graph (graphLen s x)
          let g := graphOf b
          match graphBad s1 c (getCtx s1 c) b with
          | some (code, i) => placeRefuse c code i s1
          | none =>
            match a with
            | .refuse code i => if [3, 4, 5, 7].contains code.val then placeRefuse c code i.toNat s1 else s
            | .place p =>
              if !(choiceOk s1 c g p fun _ => true) then s
              else if 2 ^ n.headroom < blockBound g p then placeRefuse c 6 0 s1
              else
                let s2 := modCtx c (fun x => { x with job := g, plan := p }) s1
                let s3 := p.writes.foldl (fun s w => memWrite true w.1 w.2 s) s2
                let s4 := writeReport c p x.firstStep 0 s3
                let raws := shardRaws s4 p
                let rs := raws.map shardRecOf
                if !(rs.all (shardPlaced s1 g)) then s
                else if !(raws.all (shardOk s4 c (getCtx s4 c) u) && shardsOk rs) then admitRefuse c 5 3 s4
                else if !(imagesOk s4 (getCtx s4 c) p) then admitRefuse c 5 4 s4
                else
                  let s5 := loadAll c p s4
                  let s6 := setStrm c u true false s5
                  let s7 := { s6 with edy := { s6.edy with shards := tset s6.edy.shards c ((rs.foldl (fun (l : List ShardRec) r =>
                    l.filter (fun t => t.id < r.id) ++ [r] ++ l.filter (fun t => r.id ≤ t.id)) []).map fun r => { r := r }) } }
                  postDesc x.qp x.admitTag c 1 0 0 x.firstStep x.admitHead (modCtx c (fun x => { x with st := .idle }) s7))

/-! ### Steps (R317 to R319, R327, R328) -/

/-- STEP (R317, R319): a step is checked and queued; its batch record is read. -/
def execStep (q : Fin 64) (s : State) : Result :=
  .next (dispatch q 2
    (fun d => [(decide (16 ≤ dFlags d), 1), dHead d, (leField d 8 8 % 64 != 0, 8), (leField d 16 4 != (getCtx s (dCtx d)).nextStep && ctxLive (getCtx s (dCtx d)), 16),
      (!(decide (1 ≤ leField d 20 4) && decide (leField d 20 4 ≤ 65535)), 20), (!(decide (1 ≤ leField d 24 4) && decide (leField d 24 4 ≤ 131072)), 24),
      (decide (leField d 20 4 * leField d 24 4 < leField d 28 8), 28), dZero d 36 28])
    (fun s d => match ctxRefuse s q (dCtx d) [.idle, .running, .held] with
      | some r => some r
      | none => if (getCtx s (dCtx d)).licHeld then some (3, 0) else if 64 ≤ ((getCtx s (dCtx d)).steps.filter fun t => !t.posted).length then some (9, 0) else none)
    (fun d h s =>
      let c := dCtx d
      let t : Step := {
        num := leField d 16 4, st := .reading, numChanged := bitN (dFlags d) 0, updChanged := bitN (dFlags d) 1, resync := bitN (dFlags d) 2, hold := bitN (dFlags d) 3,
        batch := leField d 8 8, sequences := leField d 20 4, maxLen := leField d 24 4, tokens := leField d 28 8, tag := dTag d, sqHead := h }
      modCtx c (fun x => { x with steps := x.steps ++ [t], nextStep := numAfter 65 (x.steps ++ [t]) ((t.num + 1) % 2 ^ 32) }) s) s)

/-- R318: a batch record against its descriptor. -/
def batchOk (t : Step) (b : Bytes) : Bool :=
  let lens := (List.range t.sequences).map fun i => leField b (16 + 4 * i) 4
  leField b 0 4 == t.sequences && leField b 4 4 == t.maxLen && leField b 8 8 == t.tokens && lens.all (fun n => decide (1 ≤ n) && decide (n ≤ t.maxLen)) &&
  lens.foldl (· + ·) 0 == t.tokens

/-- BATCH_READ_DONE (R318): the batch record of a step arrives. -/
def execBatchReadDone (ctx : Fin 1024) (step : Word) (data : Bytes) (s : State) : Result :=
  match (getCtx s ctx).steps.find? fun t => t.num == step.toNat && t.st == .reading with
  | none => .next s
  | some t =>
    if data.length != 16 + 4 * t.sequences then .next s
    else .next (if batchOk t data then modStep ctx t.num (fun t => { t with st := .queued }) s else refuseStep ctx t 5 s)

/-- BATCH_READ_TIMEOUT (R335): 100 µs without the record. -/
def execBatchReadTimeout (ctx : Fin 1024) (step : Word) (s : State) : Result :=
  .next (match (getCtx s ctx).steps.find? fun t => t.num == step.toNat && t.st == .reading with
    | some t => refuseStep ctx t 5 s
    | none => s)

/-- The members of a cohort that are admitted. -/
def cohort (s : State) (k : Nat) : List Nat := (s.ctxs.filter fun e => ctxLive e.2 && cohortOf e.1 e.2 == k).map (·.1)

/-- ROUND_START (R328): a cohort's round starts once enough of its contexts can start, or round_wait_slots after the first could;
every context that can start its step starts it. -/
def execRoundStart (ctx : Fin 1024) (s : State) : Result :=
  .next (
    let k := cohortOf ctx (getCtx s ctx)
    let all := cohort s k
    let ready := all.filter (canStart s)
    if !(atBoundary s) || ready.isEmpty || all.any (fun c => (getCtx s c).inRound) then s
    else
      let s := ready.foldl (fun s c => modCtx c (fun x => { x with readyAt := match x.readyAt with | some b => some b | none => some s.tide.bnd }) s) s
      let first := (ready.filterMap fun c => (getCtx s c).readyAt).foldl min s.tide.bnd
      let pct := max (min (regL s 0x8028 0 6 0) 100) 1
      let wait := max (regL s 0x8028 0 19 8) 1
      if pct * all.length ≤ 100 * ready.length || first + wait ≤ s.tide.bnd then
        let s := { s with slc := { s.slc with roundAt := tset s.slc.roundAt k s.tide.bnd } }
        ready.foldl (fun s c => startStep c (countCtx bSLC 19 0 (getCtx s c).qp (some c) s)) s
      else s)

/-- STEP_START (R327): a context that became ready at the boundary at which its cohort's round started joins it. -/
def execStepStart (ctx : Fin 1024) (s : State) : Result :=
  .next (if atBoundary s && canStart s ctx && tget? s.slc.roundAt (cohortOf ctx (getCtx s ctx)) == some s.tide.bnd then startStep ctx s else s)

/-- BACKWARD_END (R327): after the previous window's sweep, the backward pass of the running step ends: a step before the last of its
window completes with decision 3. -/
def execBackwardEnd (ctx : Fin 1024) (s : State) : Result :=
  let c := ctx.val
  .next (
    let x := getCtx s c
    match x.steps.find? (·.st == .running) with
    | none => s
    | some t =>
      if x.steps.any (·.st == .sweeping) then s
      else if lastOfWindow x t.num then modCtx c (fun x => { x with inRound := false }) (modStep c t.num (fun t => { t with st := .reduced }) s)
      else
        let s := if t.hold then holdDue c holdFlag s else s
        let held := (getCtx s c).holdDue != 0
        let s := postStep c { t with decision := 3, held := held } 0 0 s
        settle c (modCtx c (fun x => { x with inRound := false, lastDone := t.num })
          (modStep c t.num (fun t => { t with st := .accumulated, posted := true, decision := 3 }) s)))

/-- STEP_COMPLETE (R327): every engine has swept and the type 2 record is buffered: the window's last step completes. -/
def execStepComplete (ctx : Fin 1024) (s : State) : Result :=
  let c := ctx.val
  .next (match (getCtx s c).dec with
    | none => s
    | some d =>
      if !d.begun || !(sweepsOf s c).isEmpty || (strmOf s c).tail.isSome then s
      else
        let s := { s with est := { s.est with mods := s.est.mods.filter fun m => !(m.ctx == c && m.step == d.step) } }
        let s := if (getCtx s c).steps.any (fun t => t.num == d.step && t.hold) then holdDue c holdFlag s else s
        let x := getCtx s c
        let gap := (strmOf s c).gapStep
        let s := modStrm c (fun st => { st with gapStep := false }) s
        let s := match x.steps.find? fun t => t.num == d.step && t.st == .sweeping with
          | some t => postStep c { t with
              decision := if d.skip then 1 else if d.partial_ then 2 else 0, spike := d.spike, ratioWarn := d.ratioWarn, ratioHold := d.ratioHold, gap := gap,
              held := x.holdDue != 0 } 0 0 s
          | none => s
        settle c (modCtx c (fun x => { x with
          dec := none, attempt := 0, winNext := (d.step + 1) % 2 ^ 32, lastDone := d.step,
          steps := x.steps.filter fun t => !(t.num == d.step) && t.st != .accumulated }) s))

/-! ### COPY, RESUME, DEBUG_READ (R320, R321, R323) -/

/-- COPY (R320): a bulk copy is accepted; its transfer follows in its context's order. -/
def execCopy (q : Fin 64) (s : State) : Result :=
  .next (dispatch q 3
    (fun d =>
      let form := bitN (dFlags d) 1
      let n := leField d 24 8
      let a := leField d 16 8
      [(decide (8 ≤ dFlags d) || (form && bitN (dFlags d) 0), 1), dHead d, (leField d 8 8 % 64 != 0, 8), (!(fastBacked a) || a % (if form then 2048 else 64) != 0, 16),
       (!(decide (64 ≤ n) && decide (n ≤ 2 ^ 40) && n % (if form then 2048 else 64) == 0), 24),
       (form && !((elemOf (leField d 40 2 % 256)).isSome && layoutOk (leField d 40 2)), 40), dZero d 44 20])
    (fun s d => if bitN (dFlags d) 2 then none
      else match ctxRefuse s q (dCtx d) [.idle, .running, .held] with
        | some r => some r
        | none => if (getCtx s (dCtx d)).licHeld then some (3, 0) else none)
    (fun d h s =>
      let named := !(bitN (dFlags d) 2)
      let c := dCtx d
      let k : Copy := {
        qp := q, tag := dTag d, ctx := if named then some c else none, toHost := bitN (dFlags d) 0, form := bitN (dFlags d) 1, host := leField d 8 8,
        mem := leField d 16 8, bytes := leField d 24 8, ident := leField d 32 8, format := leField d 40 2, alive := leField d 42 2, sqHead := h,
        after := (getCtx s c).nextStep }
      if named then modCtx c (fun x => { x with copies := x.copies ++ [k] }) s else { s with slc := { s.slc with copies := s.slc.copies ++ [k] } }) s)

/-- What a copy does to the tiers or the host. -/
def copyRun (k : Copy) (data : Bytes) (s : State) : State :=
  if !(fastOk s k.mem k.bytes) then memDiscard bSLC k.ctx k.mem s
  else if k.toHost then emit (.hostWrite k.host (memRead s k.mem k.bytes)) s
  else if !k.form then memWrite true k.mem data s
  else (List.range (k.bytes / 2048)).foldl (fun s i =>
    let p := sliceB data (2048 * i) 2048
    let id := if k.ident == 0 then 0 else k.ident / 2 ^ 45 * 2 ^ 45 + (idBase k.ident + i * elemCount (k.format % 256)) % 2 ^ 45
    memPutTile (k.mem + 2048 * i) (k.mem + k.bytes + 32 * i) p (formTrailer s p k.alive k.format id 0) s) s

/-- COPY_COMPLETE (R320): the oldest COPY of a context, once its earlier descriptors have completed, or one without context. -/
def execCopyComplete (ctx : Option (Fin 1024)) (data : Bytes) (s : State) : Result :=
  let list := match ctx with | some c => (getCtx s c).copies | none => s.slc.copies
  match list with
  | [] => .next s
  | k :: rest =>
    if !k.toHost && data.length != k.bytes then .next s
    else .next (
      match ctx with
      | some c =>
        let x := getCtx s c
        if s.hst.link != .up || !(ctxLive x) || !(memRoom s .host k.mem 64) || x.steps.any (fun t => seqNewer 32 k.after t.num && !t.posted) then s
        else postDesc k.qp k.tag c 3 0 0 0 k.sqHead (modCtx c (fun x => { x with copies := rest }) (copyRun k data s))
      | none => if s.hst.link != .up || !(memRoom s .host k.mem 64) then s else postDesc k.qp k.tag 0 3 0 0 0 k.sqHead { copyRun k data s with slc := { (copyRun k data s).slc with copies := rest } })

/-- R321: every queued STEP completes with status 8. -/
def dropQueued (c : Nat) (s : State) : State :=
  let go (t : Step) : Bool := t.st == .queued || t.st == .reading || t.st == .accumulated
  let s := ((getCtx s c).steps.filter go).foldl (fun s t => postStep c t 8 0 s) s
  modCtx c (fun x =>
    let keep := x.steps.filter fun t => !(go t)
    { x with steps := keep, nextStep := numAfter 65 keep x.winNext }) s

/-- RESUME (R321): a held context is IDLE again; drop completes its queued steps; release scrubs its slots and places and loads it
again, as Watershed answers. An IDLE context is left alone. -/
def execResume (q : Fin 64) (a : Admission) (s : State) : Result :=
  .next (
    let named (s : State) (d : Bytes) : Option (Nat × Nat) :=
      let c := dCtx d
      match ctxRefuse s q c [.idle, .held] with
      | some r => some r
      | none =>
        let x := getCtx s c
        if x.licHeld then some (3, 0)
        else if x.st == .held && bitN (dFlags d) 0 then
          match a with
          | .refuse code _ => some (4, code.val)
          | .place p => if !(replanOk s c p) then some (4, 6) else if !(imagesOk s x p) then some (5, 4) else none
        else none
    -- an answer of Watershed that breaks R286 to R288 is no answer: the RESUME waits, as it does while Watershed's image is replaced (R413)
    let waits : Bool := match dNext s q 4, a with
      | some (d, _), .place p =>
        (getCtx s (dCtx d)).st == .held && bitN (dFlags d) 0 && dFlags d < 4 && (updating s 4 || !(choiceOk s (dCtx d) (getCtx s (dCtx d)).job p fun _ => true))
      | _, _ => false
    if waits then s
    else dispatch q 4 (fun d => [(decide (4 ≤ dFlags d), 1), dHead d, dZero d 8 56]) named
      (fun d h s =>
        let c := dCtx d
        let done (s : State) : State := postDesc q (dTag d) c 4 0 0 (getCtx s c).lastDone h s
        if (getCtx s c).st != .held then done s
        else
          let s := if bitN (dFlags d) 1 then dropQueued c s else s
          let s := match bitN (dFlags d) 0, a with
            | true, .place p =>
              let s := (ctxCells s c).foldl (fun s l => cellLeave l c s) (quitCells c s)
              let s := p.writes.foldl (fun s w => memWrite true w.1 w.2 s) s
              let s := writeReport c p (getCtx s c).nextStep (getCtx s c).cause s
              loadAll c p (modCtx c (fun x => { x with plan := p, cause := 0, replan := none }) s)
            | _, _ => s
          done (modCtx c (fun x => { x with st := .idle }) s)) s)

/-- DEBUG_READ (R323, R333): slots of one cell, then their tag words, to the host. -/
def execDebugRead (q : Fin 64) (s : State) : Result :=
  .next (
    let cellOf (d : Bytes) : Nat := leField d 8 4
    let slots (d : Bytes) : List Nat := (List.range (leField d 13 1)).map (leField d 12 1 + ·)
    dispatch q 6
      (fun d => [(dFlags d != 0, 1), dHead d, (!(cellUsable s (cellOf d)), 8), (decide (254 < leField d 12 1), 12), (!(decide (1 ≤ leField d 13 1) && decide (leField d 12 1 + leField d 13 1 ≤ 255)), 13),
        dZero d 14 2, (leField d 16 8 % 64 != 0, 16), dZero d 24 40])
      (fun s d =>
        let c := dCtx d
        let x := getCell s (cellOf d)
        match ctxRefuse s q c [.idle, .held] with
        | some r => some r
        | none =>
          if (getCtx s c).licHeld then some (3, 0)
          else match (slots d).find? fun k => !((tagOf x k).owner == c || (tagOf x k).owner == ownerPass) || (tagOf x k).st == .poison || (tagOf x k).st == .scrub with
            | some k => some (11, k)
            | none => none)
      (fun d h s =>
        let x := getCell s (cellOf d)
        let b := bread x.mem (256 * leField d 12 1) (256 * leField d 13 1) ++ (slots d).flatMap fun k => natLE 4 (tagWord (tagOf x k))
        postDesc q (dTag d) (dCtx d) 6 0 0 0 h (emit (.hostWrite (leField d 16 8) b) s)) s)

/-! ### KILL (R332) -/

/-- KILL (R332): the context is KILLING at once; an admission in progress completes with status 7. -/
def execKill (q : Fin 64) (s : State) : Result :=
  .next (dispatch q 5 (fun d => [(decide (2 ≤ dFlags d), 1), dHead d, dZero d 8 56])
    (fun s d =>
      let c := dCtx d
      let x := getCtx s c
      if [.admitting, .idle, .running, .held].contains x.st then (if x.qp == q.val then none else some (2, x.st.code))
      else if !(ctxLicensed s c) then some (3, 0) else some (2, x.st.code))
    (fun d h s =>
      let c := dCtx d
      let x := getCtx s c
      let s := if x.st == .admitting then postDesc x.qp x.admitTag c 1 7 0 x.firstStep x.admitHead s else s
      killStart c { slot := 0, zero := bitN (dFlags d) 0, tag := dTag d, qp := q, sqHead := h } s) s)

/-- KILL_BOUNDARY (R332): at the kill boundary steps, windows, passes, operations and streams of the context end, and its cells are
told to scrub. -/
def execKillBoundary (ctx : Fin 1024) (s : State) : Result :=
  .next (match (getCtx s ctx).kill with
    | some k =>
      if k.started || slotNow s < k.slot then s
      else
        let cs := ctxCells s ctx
        modCtx ctx (fun x => { x with kill := x.kill.map fun k => { k with started := true, waiting := cs } }) (killRest ctx k s)
    | none => s)

/-- KILL_COMPLETE (R332): every cell has reported, every overwrite has been accepted: the KILL completes, the ID is free. -/
def execKillComplete (ctx : Fin 1024) (s : State) : Result :=
  let c := ctx.val
  .next (match (getCtx s c).kill with
    | some k =>
      if !k.started || !k.waiting.isEmpty || s.rsv.want.any (·.ctx == c + 1024) || s.rsv.ops.any (·.w.ctx == c + 1024) then s
      else
        let s := { s with rsv := { s.rsv with done := s.rsv.done.filter (·.ctx != c + 1024) } }
        let done := (getCtx s c).lastDone
        let s := csnKill (c + 1024) (modCtx c (fun _ => {}) s)
        if k.flr then s
        else post k.qp { tag := k.tag, ctx := c, op := 5, status := 0, detail := 0, step := done, tide := if k.tide == 0 then s.tide.count else k.tide, flags := 0, attempts := 0, sqHead := k.sqHead } s
    | none => s)

/-- ROLLBACK (R330, R331): a rollback that is due is carried out; a sweep in progress of a step that has not failed ends first. -/
def execRollback (ctx : Fin 1024) (s : State) : Result :=
  .next (match (getCtx s ctx).roll with
    | some r => if (getCtx s ctx).steps.any (·.st == .sweeping) || !(ctxLive (getCtx s ctx)) then s else rollback ctx r.hold s
    | none => s)

/-! ### Completions (R311, R324, R335) -/

/-- The bytes of a completion record (R324). -/
def cplBytes (q : Nat) (phase : Bool) (c : Cpl) : Bytes :=
  natLE 4 c.tag ++ natLE 2 (c.ctx % 1024) ++ natLE 1 c.op ++ natLE 1 (b2n phase) ++ natLE 2 c.status ++ natLE 2 c.detail ++ natLE 4 c.step ++ natLE 8 c.tide ++
  natLE 2 c.flags ++ natLE 1 c.attempts ++ natLE 1 q ++ natLE 2 c.sqHead ++ natLE 2 0

/-- R311: a pair's vector is signalled. -/
def pairIrq (q : Nat) (s : State) : State :=
  emit (.msix (regL s 0x8014 q 13 8)) (modPair q (fun p => { p with unsig := 0 }) s)

/-- COMPLETION_WRITE (R311): the oldest record of a pair is written to its CQ, or waits in the completion buffer while the CQ is full,
the pair is stopped or the port does not write (R335, R344). -/
def execCompletionWrite (q : Fin 64) (s : State) : Result :=
  .next (
    let p := getPair s q
    match p.buf ++ p.posted with
    | [] => s
    | c :: _ =>
      if !(pairUp p) || !(cacheUp s) || cqUsed p + 1 == p.cqSize then
        match p.posted with
        | k :: rest => if cbufAll s < 4096 then countCtx bSLC 21 0 q (some k.ctx) (modPair q (fun p => { p with posted := rest, buf := p.buf ++ [k] }) s) else s
        | [] => s
      else
        let phase := p.cqPass / p.cqSize % 2 == 0
        let s := emit (.hostWrite (p.cqBase + 32 * p.cqTail) (cplBytes q phase c)) s
        let s := modPair q (fun p => { p with
          buf := p.buf.drop 1, posted := if p.buf.isEmpty then p.posted.drop 1 else p.posted, cqTail := (p.cqTail + 1) % p.cqSize, cqPass := p.cqPass + 1,
          unsig := p.unsig + 1, unsigAt := if p.unsig == 0 then s.now else p.unsigAt }) s
        if regL s 0x8014 q 14 14 == 1 && decide (max (regL s 0x8014 q 23 16) 1 ≤ (getPair s q).unsig) then pairIrq q s else s)

/-- COMPLETION_WRITE_TIMEOUT (R335): a write fails after its retry: the pair stops, its records stay in the completion buffer. -/
def execCompletionWriteTimeout (q : Fin 64) (s : State) : Result :=
  .next (
    let p := getPair s q
    if !(pairUp p) || (p.posted.isEmpty && p.buf.isEmpty) then s else pairStop q s)

/-- IRQ_COALESCE_TIMER (R311): coal_us after the first unsignalled record. -/
def execIrqCoalesceTimer (q : Fin 64) (s : State) : Result :=
  .next (
    let p := getPair s q
    if p.unsig == 0 || regL s 0x8014 q 14 14 == 0 then s else pairIrq q (until_ (p.unsigAt + usTicks (max (regL s 0x8014 q 31 24) 1)) s))

/-- STREAM_CONTROL_UPDATE (R334, R335): the driver's count of consumed bytes is read. -/
def execStreamControlUpdate (ctx : Fin 1024) (consumed : BitVec 64) (s : State) : Result :=
  .next (
    let st := strmOf s ctx
    let s := if st.sink == 1 && cacheUp s then cacheAdd [(st.sinkAddr + st.sinkBytes) / 64] s else s
    if st.sink != 1 || !(cacheUp s) then s
    else if st.produced < consumed.toNat then raise unitTL bSLC sInfo 0x07 (some ctx) (st.sinkAddr + st.sinkBytes) consumed.toNat 2 s
    else modStrm ctx (fun st => { st with consumed := consumed.toNat }) s)

end Sys2Proof.Machine
end

