-- ==== Sys2Proof/Machine/Dispatch.lean ====
section
/-! DEFINITION. What each command does: one arm per constructor of Instr. -/
namespace Sys2Proof.Machine

def exec (cmd : Instr) (s : State) : Host.Outcome State Fault Refusal :=
  match cmd with
  | .powerOn pins => Sys2Proof.Machine.execPowerOn pins s
  | .rampDone u => Sys2Proof.Machine.execRampDone u s
  | .imageVerifyDone => Sys2Proof.Machine.execImageVerifyDone s
  | .pllLockDone u => Sys2Proof.Machine.execPllLockDone u s
  | .linkTrainingDone u => Sys2Proof.Machine.execLinkTrainingDone u s
  | .startupTestDone u => Sys2Proof.Machine.execStartupTestDone u s
  | .substitutionDone => Sys2Proof.Machine.execSubstitutionDone s
  | .memoryTrainingDone u => Sys2Proof.Machine.execMemoryTrainingDone u s
  | .qualificationDone u => Sys2Proof.Machine.execQualificationDone u s
  | .bringupBudgetExpiry u => Sys2Proof.Machine.execBringupBudgetExpiry u s
  | .opticalWaitDone => Sys2Proof.Machine.execOpticalWaitDone s
  | .packetArrival p => Sys2Proof.Machine.execPacketArrival p s
  | .routeTableLoad site ver hops => Sys2Proof.Machine.execRouteTableLoad site ver hops s
  | .routesReady slot => Sys2Proof.Machine.execRoutesReady slot s
  | .commitWithdraw slot => Sys2Proof.Machine.execCommitWithdraw slot s
  | .routeCommit => Sys2Proof.Machine.execRouteCommit s
  | .routersEmpty site => Sys2Proof.Machine.execRoutersEmpty site s
  | .pllStop site => Sys2Proof.Machine.execPllStop site s
  | .rillMessage m got => Sys2Proof.Machine.execRillMessage m got s
  | .slotBoundary overs => Sys2Proof.Machine.execSlotBoundary overs s
  | .shadowLatch => Sys2Proof.Machine.execShadowLatch s
  | .tideFrame syms capture => Sys2Proof.Machine.execTideFrame syms capture s
  | .tideEdgeLoss => Sys2Proof.Machine.execTideEdgeLoss s
  | .frequencyWindow tidein ticks => Sys2Proof.Machine.execFrequencyWindow tidein ticks s
  | .tideMessageAbsent => Sys2Proof.Machine.execTideMessageAbsent s
  | .inputQualified tidein => Sys2Proof.Machine.execInputQualified tidein s
  | .acquireTimeout => Sys2Proof.Machine.execAcquireTimeout s
  | .srcSelWrite x => Sys2Proof.Machine.execSrcSelWrite x s
  | .srcSelApply => Sys2Proof.Machine.execSrcSelApply s
  | .rebaseWrite x => Sys2Proof.Machine.execRebaseWrite x s
  | .rebaseApply => Sys2Proof.Machine.execRebaseApply s
  | .countAdopt => Sys2Proof.Machine.execCountAdopt s
  | .slotMarkerSend => Sys2Proof.Machine.execSlotMarkerSend s
  | .slotMarker ep slot len => Sys2Proof.Machine.execSlotMarker ep slot len s
  | .pllLockLoss site => Sys2Proof.Machine.execPllLockLoss site s
  | .dieReenable site => Sys2Proof.Machine.execDieReenable site s
  | .dieRelockDone site => Sys2Proof.Machine.execDieRelockDone site s
  | .dieRelockMiss site => Sys2Proof.Machine.execDieRelockMiss site s
  | .ldn l th rt rb sz sxb off e => Sys2Proof.Machine.execLdn l th rt rb sz sxb off e s
  | .stn l th rt rb sz off e => Sys2Proof.Machine.execStn l th rt rb sz off e s
  | .vld l th vt rb rel off e => Sys2Proof.Machine.execVld l th vt rb rel off e s
  | .vst l th vt rb off e => Sys2Proof.Machine.execVst l th vt rb off e s
  | .fetch l th ra rl len cnt e => Sys2Proof.Machine.execFetch l th ra rl len cnt e s
  | .send l th ra rl len cnt rel e => Sys2Proof.Machine.execSend l th ra rl len cnt rel e s
  | .ldx l th rt ra e => Sys2Proof.Machine.execLdx l th rt ra e s
  | .twait l th rs n slot e => Sys2Proof.Machine.execTwait l th rs n slot e s
  | .twaite l th rs n slot e => Sys2Proof.Machine.execTwaite l th rs n slot e s
  | .tfull l th rs rc n slot e => Sys2Proof.Machine.execTfull l th rs rc n slot e s
  | .trel l th rs n slot e => Sys2Proof.Machine.execTrel l th rs n slot e s
  | .tpin l th rs n slot e => Sys2Proof.Machine.execTpin l th rs n slot e s
  | .tunpin l th rs n slot e => Sys2Proof.Machine.execTunpin l th rs n slot e s
  | .tstat l th rs rc n slot e => Sys2Proof.Machine.execTstat l th rs rc n slot e s
  | .amm l th ra rb rk fmt acc bank relA relB e => Sys2Proof.Machine.execAmm l th ra rb rk fmt acc bank relA relB e s
  | .aout l th rd rc ofmt pub bank e => Sys2Proof.Machine.execAout l th rd rc ofmt pub bank e s
  | .trail l th n e => Sys2Proof.Machine.execTrail l th n e s
  | .halt l th e => Sys2Proof.Machine.execHalt l th e s
  | .vectorArith l th op half vd va vb vc e => Sys2Proof.Machine.execVectorArith l th op half vd va vb vc e s
  | .vectorConvert l th cv sr vd va e => Sys2Proof.Machine.execVectorConvert l th cv sr vd va e s
  | .branch l th taken target e => Sys2Proof.Machine.execBranch l th taken target e s
  | .integerOp l th op rt ra rb imm e => Sys2Proof.Machine.execIntegerOp l th op rt ra rb imm e s
  | .accessWake l w e => Sys2Proof.Machine.execAccessWake l w e s
  | .waitLimit w => Sys2Proof.Machine.execWaitLimit w s
  | .fillArrival m l alter => Sys2Proof.Machine.execFillArrival m l alter s
  | .eccWriteback l => Sys2Proof.Machine.execEccWriteback l s
  | .ldxReturn m => Sys2Proof.Machine.execLdxReturn m s
  | .remoteReadServe m e => Sys2Proof.Machine.execRemoteReadServe m e s
  | .remoteRefusal m => Sys2Proof.Machine.execRemoteRefusal m s
  | .sendDeliver m e => Sys2Proof.Machine.execSendDeliver m e s
  | .sendDone l op => Sys2Proof.Machine.execSendDone l op s
  | .scrubCommand l slots owner => Sys2Proof.Machine.execScrubCommand l slots owner s
  | .cellKill l c => Sys2Proof.Machine.execCellKill l c s
  | .scrubDone l => Sys2Proof.Machine.execScrubDone l s
  | .patrolRead l e => Sys2Proof.Machine.execPatrolRead l e s
  | .slotSelection cl slot picks ps => Sys2Proof.Machine.execSlotSelection cl slot picks ps s
  | .slotProgramStart l => Sys2Proof.Machine.execSlotProgramStart l s
  | .ammStreamStart l at_ e => Sys2Proof.Machine.execAmmStreamStart l at_ e s
  | .bankReady l bank => Sys2Proof.Machine.execBankReady l bank s
  | .aoutWrite l => Sys2Proof.Machine.execAoutWrite l s
  | .chkRecord u ctx prof append last close data => Sys2Proof.Machine.execChkRecord u ctx prof append last close data s
  | .chkSliceSave u save => Sys2Proof.Machine.execChkSliceSave u save s
  | .chkSliceRestore u ctx save => Sys2Proof.Machine.execChkSliceRestore u ctx save s
  | .profileValidate x => Sys2Proof.Machine.execProfileValidate x s
  | .unitRunApply x => Sys2Proof.Machine.execUnitRunApply x s
  | .passRecord e rec => Sys2Proof.Machine.execPassRecord e rec s
  | .passOwnerScrub e pass => Sys2Proof.Machine.execPassOwnerScrub e pass s
  | .passStart e pass => Sys2Proof.Machine.execPassStart e pass s
  | .sourceReadIssue e pass src => Sys2Proof.Machine.execSourceReadIssue e pass src s
  | .mergeWindowClose e m => Sys2Proof.Machine.execMergeWindowClose e m s
  | .sourceReadReturn e pass src alter ecc => Sys2Proof.Machine.execSourceReadReturn e pass src alter ecc s
  | .deliveryIssue e pass out k => Sys2Proof.Machine.execDeliveryIssue e pass out k s
  | .epochProbeAnswer e pass out k => Sys2Proof.Machine.execEpochProbeAnswer e pass out k s
  | .landingAck e did => Sys2Proof.Machine.execLandingAck e did s
  | .passEnd e pass => Sys2Proof.Machine.execPassEnd e pass s
  | .epochWriteReport e page => Sys2Proof.Machine.execEpochWriteReport e page s
  | .prefetchAged e pass src => Sys2Proof.Machine.execPrefetchAged e pass src s
  | .refetchRequest e m => Sys2Proof.Machine.execRefetchRequest e m s
  | .memRequest q => Sys2Proof.Machine.execMemRequest q s
  | .memSlotGrant stk => Sys2Proof.Machine.execMemSlotGrant stk s
  | .memAccessServe stk bank es => Sys2Proof.Machine.execMemAccessServe stk bank es s
  | .rowRetireDone stk row ppr => Sys2Proof.Machine.execRowRetireDone stk row ppr s
  | .ageCapReached stk id => Sys2Proof.Machine.execAgeCapReached stk id s
  | .memPatrol stk e => Sys2Proof.Machine.execMemPatrol stk e s
  | .bankRefresh stk bank => Sys2Proof.Machine.execBankRefresh stk bank s
  | .rfmIssue stk bank => Sys2Proof.Machine.execRfmIssue stk bank s
  | .concWindowEnd stk => Sys2Proof.Machine.execConcWindowEnd stk s
  | .smBatchIssue stk bank => Sys2Proof.Machine.execSmBatchIssue stk bank s
  | .retrainRequest x => Sys2Proof.Machine.execRetrainRequest x s
  | .retrainStart stk => Sys2Proof.Machine.execRetrainStart stk s
  | .retrainDone stk ok => Sys2Proof.Machine.execRetrainDone stk ok s
  | .windowValidate x => Sys2Proof.Machine.execWindowValidate x s
  | .windowClose w => Sys2Proof.Machine.execWindowClose w s
  | .exportValidate x => Sys2Proof.Machine.execExportValidate x s
  | .rsvRequestIssue agent i => Sys2Proof.Machine.execRsvRequestIssue agent i s
  | .read e i ecc => Sys2Proof.Machine.execRead e i ecc s
  | .readData e i => Sys2Proof.Machine.execReadData e i s
  | .write e i => Sys2Proof.Machine.execWrite e i s
  | .writeAck e i => Sys2Proof.Machine.execWriteAck e i s
  | .flush e i => Sys2Proof.Machine.execFlush e i s
  | .flushAck e i => Sys2Proof.Machine.execFlushAck e i s
  | .query e i => Sys2Proof.Machine.execQuery e i s
  | .queryData e i => Sys2Proof.Machine.execQueryData e i s
  | .abort e i => Sys2Proof.Machine.execAbort e i s
  | .rsvTimeout agent slot => Sys2Proof.Machine.execRsvTimeout agent slot s
  | .rsvBusyRetry agent slot => Sys2Proof.Machine.execRsvBusyRetry agent slot s
  | .cxlIoCompletion agent slot ok data => Sys2Proof.Machine.execCxlIoCompletion agent slot ok data s
  | .sweepStart ctx => Sys2Proof.Machine.execSweepStart ctx s
  | .granuleProcess e ctx g flaky fix ecc => Sys2Proof.Machine.execGranuleProcess e ctx g flaky fix ecc s
  | .sweepComplete e ctx => Sys2Proof.Machine.execSweepComplete e ctx s
  | .shardNotice e i => Sys2Proof.Machine.execShardNotice e i s
  | .shardFetchTile ctx id k => Sys2Proof.Machine.execShardFetchTile ctx id k s
  | .shardFetchVerify ctx id k => Sys2Proof.Machine.execShardFetchVerify ctx id k s
  | .auditStart e fix => Sys2Proof.Machine.execAuditStart e fix s
  | .auditReport ctx id k digest => Sys2Proof.Machine.execAuditReport ctx id k digest s
  | .streamBufferSpace ctx => Sys2Proof.Machine.execStreamBufferSpace ctx s
  | .streamStallLimit e ctx => Sys2Proof.Machine.execStreamStallLimit e ctx s
  | .streamExport ctx => Sys2Proof.Machine.execStreamExport ctx s
  | .windowRecord e rec => Sys2Proof.Machine.execWindowRecord e rec s
  | .contribSendArrival a => Sys2Proof.Machine.execContribSendArrival a s
  | .contrib e i => Sys2Proof.Machine.execContrib e i s
  | .contribAccept e hit ecc => Sys2Proof.Machine.execContribAccept e hit ecc s
  | .sendByBoundary e ctx step => Sys2Proof.Machine.execSendByBoundary e ctx step s
  | .windowDeadline e ctx step => Sys2Proof.Machine.execWindowDeadline e ctx step s
  | .health b => Sys2Proof.Machine.execHealth b s
  | .outcomeReport ctx step node eng ok => Sys2Proof.Machine.execOutcomeReport ctx step node eng ok s
  | .leadFanout ctx step => Sys2Proof.Machine.execLeadFanout ctx step s
  | .reportTimeout ctx step => Sys2Proof.Machine.execReportTimeout ctx step s
  | .verdictTimeout ctx step => Sys2Proof.Machine.execVerdictTimeout ctx step s
  | .sweepNaming ctx => Sys2Proof.Machine.execSweepNaming ctx s
  | .divergenceNotice ctx => Sys2Proof.Machine.execDivergenceNotice ctx s
  | .replan ctx a => Sys2Proof.Machine.execReplan ctx a s
  | .move ctx => Sys2Proof.Machine.execMove ctx s
  | .moveCopyDone ctx => Sys2Proof.Machine.execMoveCopyDone ctx s
  | .switchoffNotice => Sys2Proof.Machine.execSwitchoffNotice s
  | .migrateLimit site => Sys2Proof.Machine.execMigrateLimit site s
  | .freeze => Sys2Proof.Machine.execFreeze s
  | .freezeStop site => Sys2Proof.Machine.execFreezeStop site s
  | .drainDone site plans => Sys2Proof.Machine.execDrainDone site plans s
  | .reskewStart ctx tensor src dst bytes => Sys2Proof.Machine.execReskewStart ctx tensor src dst bytes s
  | .reskewDone ctx => Sys2Proof.Machine.execReskewDone ctx s
  | .doorbellSnoop j line => Sys2Proof.Machine.execDoorbellSnoop j line s
  | .doorbellPoll area => Sys2Proof.Machine.execDoorbellPoll area s
  | .descriptorFetchDone q data => Sys2Proof.Machine.execDescriptorFetchDone q data s
  | .descriptorFetchTimeout q => Sys2Proof.Machine.execDescriptorFetchTimeout q s
  | .admitCtx q => Sys2Proof.Machine.execAdmit q s
  | .admitComplete ctx a => Sys2Proof.Machine.execAdmitComplete ctx a s
  | .step q => Sys2Proof.Machine.execStep q s
  | .batchReadDone ctx step data => Sys2Proof.Machine.execBatchReadDone ctx step data s
  | .copy q => Sys2Proof.Machine.execCopy q s
  | .copyComplete ctx data => Sys2Proof.Machine.execCopyComplete ctx data s
  | .resume q a => Sys2Proof.Machine.execResume q a s
  | .kill q => Sys2Proof.Machine.execKill q s
  | .debugRead q => Sys2Proof.Machine.execDebugRead q s
  | .completionWrite q => Sys2Proof.Machine.execCompletionWrite q s
  | .completionWriteTimeout q => Sys2Proof.Machine.execCompletionWriteTimeout q s
  | .irqCoalesceTimer q => Sys2Proof.Machine.execIrqCoalesceTimer q s
  | .roundStart ctx => Sys2Proof.Machine.execRoundStart ctx s
  | .stepStart ctx => Sys2Proof.Machine.execStepStart ctx s
  | .backwardEnd ctx => Sys2Proof.Machine.execBackwardEnd ctx s
  | .stepComplete ctx => Sys2Proof.Machine.execStepComplete ctx s
  | .rollback ctx => Sys2Proof.Machine.execRollback ctx s
  | .killBoundary ctx => Sys2Proof.Machine.execKillBoundary ctx s
  | .killComplete ctx => Sys2Proof.Machine.execKillComplete ctx s
  | .streamControlUpdate ctx consumed => Sys2Proof.Machine.execStreamControlUpdate ctx consumed s
  | .queuePairEnable x => Sys2Proof.Machine.execQueuePairEnable x s
  | .queuePairDisable x => Sys2Proof.Machine.execQueuePairDisable x s
  | .portReturn => Sys2Proof.Machine.execPortReturn s
  | .flr => Sys2Proof.Machine.execFlr s
  | .perst => Sys2Proof.Machine.execPerst s
  | .d3hotEntry => Sys2Proof.Machine.execD3hotEntry s
  | .d0Return => Sys2Proof.Machine.execD0Return s
  | .linkUp rate width lopt cxl => Sys2Proof.Machine.execLinkUp rate width lopt cxl s
  | .linkRetrain x => Sys2Proof.Machine.execLinkRetrain x s
  | .hostMemRead tag addr grant => Sys2Proof.Machine.execHostMemRead tag addr grant s
  | .hostMemWrite tag addr off data => Sys2Proof.Machine.execHostMemWrite tag addr off data s
  | .bisnpResponse line dirty => Sys2Proof.Machine.execBisnpResponse line dirty s
  | .biTimeout line => Sys2Proof.Machine.execBiTimeout line s
  | .hostSnoop kind line => Sys2Proof.Machine.execHostSnoop kind line s
  | .hdmCommit commit base size ways => Sys2Proof.Machine.execHdmCommit commit base size ways s
  | .doeRequest vendor typ obj => Sys2Proof.Machine.execDoeRequest vendor typ obj s
  | .doeTimeout => Sys2Proof.Machine.execDoeTimeout s
  | .claim x => Sys2Proof.Machine.execClaim x s
  | .renew x => Sys2Proof.Machine.execRenew x s
  | .handover x => Sys2Proof.Machine.execHandover x s
  | .release x => Sys2Proof.Machine.execRelease x s
  | .ownershipQuery x => Sys2Proof.Machine.execOwnershipQuery x s
  | .electionClose => Sys2Proof.Machine.execElectionClose s
  | .leaseExpiry => Sys2Proof.Machine.execLeaseExpiry s
  | .mctpAssemblyTimeout => Sys2Proof.Machine.execMctpAssemblyTimeout s
  | .flitReceive e l f => Sys2Proof.Machine.execFlitReceive e l f s
  | .replayTimeout e l => Sys2Proof.Machine.execReplayTimeout e l s
  | .openStream e i => Sys2Proof.Machine.execOpen e i s
  | .grant e i => Sys2Proof.Machine.execGrant e i s
  | .openRetry e k => Sys2Proof.Machine.execOpenRetry e k s
  | .credit e i => Sys2Proof.Machine.execCredit e i s
  | .creditReturnTimer e => Sys2Proof.Machine.execCreditReturnTimer e s
  | .close e i => Sys2Proof.Machine.execClose e i s
  | .regRead x => Sys2Proof.Machine.execRegRead x s
  | .regWrite x => Sys2Proof.Machine.execRegWrite x s
  | .laneClose e l last => Sys2Proof.Machine.execLaneClose e l last s
  | .linkHoldExpiry e => Sys2Proof.Machine.execLinkHoldExpiry e s
  | .laneEnable e l => Sys2Proof.Machine.execLaneEnable e l s
  | .laneWaitExpiry e l => Sys2Proof.Machine.execLaneWaitExpiry e l s
  | .detectDone e l rx => Sys2Proof.Machine.execDetectDone e l rx s
  | .trainDone e l => Sys2Proof.Machine.execTrainDone e l s
  | .rangeProbe e l probe turnaround => Sys2Proof.Machine.execRangeProbe e l probe turnaround s
  | .rangeDone e l rtt turn maxTurn answered ptx prx => Sys2Proof.Machine.execRangeDone e l rtt turn maxTurn answered ptx prx s
  | .capsDone e l rec_ => Sys2Proof.Machine.execCapsDone e l rec_ s
  | .qualifyDone e l corrected uncorrectable rxMin rxMax remoteOk => Sys2Proof.Machine.execQualifyDone e l corrected uncorrectable rxMin rxMax remoteOk s
  | .laneBudgetExpiry e l => Sys2Proof.Machine.execLaneBudgetExpiry e l s
  | .laneMonitor e l corrected uncorrectable rx tx dark => Sys2Proof.Machine.execLaneMonitor e l corrected uncorrectable rx tx dark s
  | .recal x => Sys2Proof.Machine.execRecal x s
  | .laneDownHold x => Sys2Proof.Machine.execLaneDownHold x s
  | .tideFlitSend => Sys2Proof.Machine.execTideFlitSend s
  | .tideFlitReceive e l flit stamp => Sys2Proof.Machine.execTideFlitReceive e l flit stamp s
  | .bootcfgCommit x => Sys2Proof.Machine.execBootcfgCommit x s
  | .holeMapDurable ok => Sys2Proof.Machine.execHoleMapDurable ok s
  | .sliceStart cl => Sys2Proof.Machine.execSliceStart cl s
  | .sliceSaveDone cl => Sys2Proof.Machine.execSliceSaveDone cl s
  | .sliceTestDone cl bad => Sys2Proof.Machine.execSliceTestDone cl bad s
  | .sliceRestoreDone cl => Sys2Proof.Machine.execSliceRestoreDone cl s
  | .sliceRelease cl => Sys2Proof.Machine.execSliceRelease cl s
  | .sliceAbandon cl => Sys2Proof.Machine.execSliceAbandon cl s
  | .coverTimeout => Sys2Proof.Machine.execCoverTimeout s
  | .dieTestRequest x => Sys2Proof.Machine.execDieTestRequest x s
  | .dieTestDone site u => Sys2Proof.Machine.execDieTestDone site u s
  | .recoverRequest x => Sys2Proof.Machine.execRecoverRequest x s
  | .recoveryStepEnd reach ok u => Sys2Proof.Machine.execRecoveryStepEnd reach ok u s
  | .recoveryBudgetExpiry reach => Sys2Proof.Machine.execRecoveryBudgetExpiry reach s
  | .objectInstall x => Sys2Proof.Machine.execObjectInstall x s
  | .objectVerifyDone stored => Sys2Proof.Machine.execObjectVerifyDone stored s
  | .imageActivate sub => Sys2Proof.Machine.execImageActivate sub s
  | .imageRunning sub => Sys2Proof.Machine.execImageRunning sub s
  | .imageStartTimeout sub => Sys2Proof.Machine.execImageStartTimeout sub s
  | .licenceEffect => Sys2Proof.Machine.execLicenceEffect s
  | .rekeyStart x => Sys2Proof.Machine.execRekeyStart x s
  | .rekeyTreeDone bad => Sys2Proof.Machine.execRekeyTreeDone bad s
  | .attestSigned bad => Sys2Proof.Machine.execAttestSigned bad s
  | .attestUnsigned => Sys2Proof.Machine.execAttestUnsigned s
  | .rekeyRequestRead => Sys2Proof.Machine.execRekeyRequestRead s
  | .scanEntry => Sys2Proof.Machine.execScanEntry s
  | .clearDone => Sys2Proof.Machine.execClearDone s
  | .recoveryLoaderObject obj stored => Sys2Proof.Machine.execRecoveryLoaderObject obj stored s
  | .powerSequenceStart => Sys2Proof.Machine.execPowerSequenceStart s
  | .coolantWaitTimeout => Sys2Proof.Machine.execCoolantWaitTimeout s
  | .sensorSample k v => Sys2Proof.Machine.execSensorSample k v s
  | .sensorTimeout k => Sys2Proof.Machine.execSensorTimeout k s
  | .undervoltage deep => Sys2Proof.Machine.execUndervoltage deep s
  | .overvoltage => Sys2Proof.Machine.execOvervoltage s
  | .overcurrent hard => Sys2Proof.Machine.execOvercurrent hard s
  | .throttleRaise => Sys2Proof.Machine.execThrottleRaise s
  | .throttleLower => Sys2Proof.Machine.execThrottleLower s
  | .heatLevelRise region => Sys2Proof.Machine.execHeatLevelRise region s
  | .heatLevelFall region => Sys2Proof.Machine.execHeatLevelFall region s
  | .heatTrip region => Sys2Proof.Machine.execHeatTrip region s
  | .coolantCondition row => Sys2Proof.Machine.execCoolantCondition row s
  | .stackOverheat stk => Sys2Proof.Machine.execStackOverheat stk s
  | .stackCooldown stk => Sys2Proof.Machine.execStackCooldown stk s
  | .regionFault region value => Sys2Proof.Machine.execRegionFault region value s
  | .switchoffRequest x => Sys2Proof.Machine.execSwitchoffRequest x s
  | .heatReenable site slot => Sys2Proof.Machine.execHeatReenable site slot s
  | .regionOnRequest x => Sys2Proof.Machine.execRegionOnRequest x s
  | .shutdown x => Sys2Proof.Machine.execShutdown x s
  | .shutdownComplete => Sys2Proof.Machine.execShutdownComplete s
  | .busbarLoss => Sys2Proof.Machine.execBusbarLoss s
  | .errorRaise unit block cls sev ctx transient loc0 loc1 detail => Sys2Proof.Machine.execErrorRaise unit block cls sev ctx transient loc0 loc1 detail s
  | .errorForward unit => Sys2Proof.Machine.execErrorForward unit s
  | .errorDeliver => Sys2Proof.Machine.execErrorDeliver s
  | .errorAck x => Sys2Proof.Machine.execErrorAck x s
  | .ringEnable x => Sys2Proof.Machine.execRingEnable x s
  | .errorRecordQuery body => Sys2Proof.Machine.execErrorRecordQuery body s
  | .telDump x => Sys2Proof.Machine.execTelDump x s
  | .telDumpDone => Sys2Proof.Machine.execTelDumpDone s
  | .countReadLatch x => Sys2Proof.Machine.execCountReadLatch x s
  | .telValueRead x => Sys2Proof.Machine.execTelValueRead x s
  | .registerWrite x => Sys2Proof.Machine.execRegisterWrite x s
  | .cxlIoCompletionTimeout agent slot => Sys2Proof.Machine.execCxlIoCompletionTimeout agent slot s
  | .batchReadTimeout ctx step => Sys2Proof.Machine.execBatchReadTimeout ctx step s
  | .perstRelease => Sys2Proof.Machine.execPerstRelease s

end Sys2Proof.Machine
end

