-- ==== Sys2Proof/WellFormed.lean ====
section
/-! DEFINITION. Well-formed commands: list operands have the lengths that their layouts fix. -/
namespace Sys2Proof

/-- Whether a command is well formed. -/
def Instr.wf (c : Instr) : Bool :=
  match c with
  | .flitReceive _ _ (.flit b) => b.length == 256
  | .tideFlitReceive _ _ flit _ => flit.length == 256
  | .capsDone _ _ record => record.length == 64
  | .windowRecord _ record => record.length == 64
  | .passRecord _ record => record.length == 96
  | .hostMemWrite _ _ off data => decide (1 ≤ data.length) && decide (off.val + data.length ≤ 64)
  | .bisnpResponse _ (some line) => line.length == 64
  | .packetArrival (.new _ _ _ _ _ _ _ words) => decide (words.length ≤ 528)
  | .tideFrame syms _ => syms.length == 52
  | .routeTableLoad _ _ hops => hops.length == 88
  | .doorbellSnoop _ line => line.length == 64
  | .doorbellPoll area => area.length == 512
  | _ => true

end Sys2Proof
end

