-- ==== Sys2Proof/Safety.lean ====
section
/-! DEFINITION. Safe steps, well-formed queues, and frames: which parts of the state an effect leaves as they were. -/
namespace Sys2Proof.Machine

/-- A step that ends in a next state. -/
def Safe (s : State) : Prop := ∃ t, step s = .next t

/-- Every command that waits is well formed. -/
def QueueWf (s : State) : Prop := ∀ c ∈ s.pending, c.wf = true

/-- The parts of the state, one for each block of the module and each of the model's own records. -/
inductive Part where
  | pending | now | out | free | full | err | tel | regs | net | tide | fly | cells | chk | ctxs | slc | frs | mem | rsv | csn
  | est | edy | wsh | hst | own | bst | hdw | lev
  deriving DecidableEq, Repr

/-- A part of the second state is as it was in the first. -/
def Part.same (p : Part) (s t : State) : Prop :=
  match p with
  | .pending => t.pending = s.pending
  | .now => t.now = s.now
  | .out => t.out = s.out
  | .free => t.free = s.free
  | .full => t.full = s.full
  | .err => t.err = s.err
  | .tel => t.tel = s.tel
  | .regs => t.regs = s.regs
  | .net => t.net = s.net
  | .tide => t.tide = s.tide
  | .fly => t.fly = s.fly ∧ t.flyNext = s.flyNext
  | .cells => t.cells = s.cells
  | .chk => t.chk = s.chk
  | .ctxs => t.ctxs = s.ctxs
  | .slc => t.slc = s.slc
  | .frs => t.frs = s.frs
  | .mem => t.mem = s.mem
  | .rsv => t.rsv = s.rsv
  | .csn => t.csn = s.csn
  | .est => t.est = s.est
  | .edy => t.edy = s.edy
  | .wsh => t.wsh = s.wsh
  | .hst => t.hst = s.hst
  | .own => t.own = s.own
  | .bst => t.bst = s.bst
  | .hdw => t.hdw = s.hdw
  | .lev => t.lev = s.lev

/-- The frame of an effect: every part but those named is as it was. -/
def Frame (touched : List Part) (s t : State) : Prop := ∀ p, p ∉ touched → p.same s t

/-- R450, R451: no unit queue holds more than 64 records, nor the module queue more than 1,024. -/
def Err.bounded (e : Err) : Bool := decide (e.q.length ≤ 1024) && e.units.all fun u => decide (u.2.q.length ≤ 64)

/-! ### How a register write arrives (R353, R377, R455, R456) -/

/-- A 32-bit write of a register that reaches the register file: a 4-byte store of the host on BAR0, or a MGMT REG_WRITE over MCTP or
Cisan that is neither refused nor over the limit. `m`: its master; `r`: the state once the message has been taken and counted. -/
def Writes (x : RegIn) (s : State) (m : Master) (off val mask : Nat) (r : State) : Prop :=
  match x with
  | .host o size v =>
    m = .host ∧ pathOpen s .host = true ∧ size = 4 ∧ o.toNat = off ∧ off % 4 = 0 ∧ val = v.toNat % 2 ^ 32 ∧ mask = 2 ^ 32 - 1 ∧ r = s
  | x =>
    ∃ g d, regPeek x s = some (5, off, d) ∧ leField d 4 4 = val ∧ leField d 8 4 = mask ∧ regMsg x s = (some g, r) ∧ g.m = m ∧
      12 ≤ g.data.length ∧ leField g.data 0 4 = off ∧ leField g.data 4 4 = val ∧ leField g.data 8 4 = mask ∧ offOk off = true

/-- A master owns the module, with its lease running and no election open. -/
def Owns (s : State) (m : Master) : Prop := s.own.owner = some m ∧ s.now < s.own.leaseEnd ∧ s.own.windowEnd = none

/-! ### What statements say of effects -/

/-- A thread of a cell is ready in a program of a context, and its code slot can be fetched (R88, R90). -/
def Ready (s : State) (l th c : Nat) : Prop :=
  (getTh (getCell s l) th).st = .run ∧ (∃ p, (getCell s l).prog = some p ∧ p.ctx = c) ∧
    fetchOk (getCell s l) c (getTh (getCell s l) th).pc = true

/-- What a thread's instruction does to its cell where it does nothing else there: the thread changes, and stands at its next
instruction. -/
def issued (th : Nat) (f : Thread → Thread) (x : Cell) : Cell := modTh th (fun h => stepPc (f h)) x

/-- A thread is ready, and its next word spells an instruction of the memory, tag or array-issue classes (R101). -/
def Spelled (s : State) (l th c : Nat) (i : Sir) : Prop :=
  Ready s l th c ∧ sirOf (codeWord (getCell s l) (getTh (getCell s l) th).pc) = some i

/-- A thread is ready, and its next word spells none of them: the instruction is of a class described by its behaviour. -/
def SpelledPlain (s : State) (l th c : Nat) : Prop :=
  Ready s l th c ∧ sirOf (codeWord (getCell s l) (getTh (getCell s l) th).pc) = none

/-- One cell changes as given; no other cell changes, nor any part of the state but those named. -/
def CellStep (ps : List Part) (l : Nat) (f : Cell → Cell) (s t : State) : Prop :=
  Frame (.cells :: ps) s t ∧ (∀ k, k ≠ l → getCell t k = getCell s k) ∧ getCell t l = f (getCell s l)

/-- A thread has trapped (R89): its program has stopped, tags and data stand, and a contained record names the instruction. -/
def Trapped (s : State) (l th c pc : Nat) (cause : Cause) (t : State) : Prop :=
  (getTh (getCell t l) th).st = .trapped cause ∧ (getCell t l).prog = none ∧ (getCell t l).tags = (getCell s l).tags ∧
    (getCell t l).mem = (getCell s l).mem ∧
    t.err = (raise (cellUnit s l) bCEL sCont 0x04 (some c) (l + th * 2 ^ 32) pc cause.code s).err

/-- A thread waits to perform an instruction, since the boundary count now (R75); the stall is counted for its cell and its unit (R59), and nothing
but the thread changes. -/
def Waits (s : State) (l th : Nat) (i : Sir) (t : State) : Prop :=
  CellStep [.tel] l (modTh th fun h => { h with st := .wait i s.tide.bnd }) s t ∧ t.tel = (cellStall l s).tel

/-- R79: a FULL tag outside a tile span, consumed once. -/
def consumed (g : Tag) : Tag :=
  if g.cnt ≤ 1 then { g with st := .empty, cnt := 0, tile := false, retried := false, wasres := false } else { g with cnt := g.cnt - 1 }

/-- The slots that the rows of a source of a stream stand in (R97, R98). -/
def rowSlots (m : Stream) (base : Nat) : List Nat :=
  (List.range (elemRows m)).flatMap fun j => (rowOffs m j).map fun off => (base + off) / 256

/-- Bytes of a cell's scratchpad: a run is written, and every byte outside it reads as before. -/
def Stored (x y : Cell) (a : Nat) (b : Bytes) : Prop :=
  y.mem = bwrite x.mem a b ∧ ∀ i, i < a ∨ a + b.length ≤ i → bget y.mem i = bget x.mem i

/-- A counter has been counted up by a number, saturating (R459). -/
def Counted (k n : Nat) (s t : State) : Prop := tget t.tel.vals k 0 = satAdd 64 (tget s.tel.vals k 0) n

/-- A message has left, in place of one taken out of flight where `m` names one. -/
def Sent (m : Option Nat) (msg : Msg) (s t : State) : Prop :=
  t.fly = tset (match m with | some m => tdel s.fly m | none => s.fly) s.flyNext msg ∧ t.flyNext = s.flyNext + 1

/-- Bytes of the fast tier: a run is written, and every byte outside it reads as before. -/
def MemStored (a : Nat) (b : Bytes) (s t : State) : Prop :=
  t.mem.data = bwrite s.mem.data a b ∧ ∀ i, i < a ∨ a + b.length ≤ i → bget t.mem.data i = bget s.mem.data i

/-- A block's own accesses of some ranges can run in one command: on stacks in service there is a slot for each (R194), and no line that the host
may hold dirty (R348). -/
def Clear (s : State) (cls : MemCls) (rs : List (Nat × Nat)) : Prop :=
  ∀ r ∈ rs, fastOk s r.1 r.2 = true → snoopLines s false r.1 r.2 = [] ∧ memRoom s cls r.1 r.2 = true

/-- One Freshet engine changes as given; no other engine changes, nor any part of the state but those named. -/
def FrsStep (ps : List Part) (e : Nat) (f : Frs → Frs) (s t : State) : Prop :=
  Frame (.frs :: ps) s t ∧ (∀ k, k ≠ e → getFrs t k = getFrs s k) ∧ getFrs t e = f (getFrs s e)

/-- A peer's request stands in an engine's inbox and passes the checks of R212 and the licence of R204. -/
def PeerAsks (s : State) (e i op : Nat) (m : CsnMsg) (h : RsvHdr) (d : Bytes) : Prop :=
  csnMsg s e i 0x20 = some m ∧ (rsvHdrOf m.body).op = op ∧
    rsvStrip (if (rsvHdrOf m.body).chkW == 0 then none else some (tileProfile s)) m.body = some (h, d) ∧ s.full = true ∧
    partDead s m (rsvHdrOf m.body) = false ∧
    4 ≤ h.len ∧ h.len ≤ 33280 ∧ h.len % 4 = 0 ∧ h.addr % 4 = 0 ∧ h.offset + d.length ≤ h.len ∧ d.length ≤ 2080 ∧ d.length % 4 = 0

/-- A response to an agent's operation stands in an engine's inbox and passes the checks of R212. -/
def AgentAnswered (s : State) (e i op : Nat) (o : RsvOp) (h : RsvHdr) (d : Bytes) : Prop :=
  ∃ m, csnMsg s e i 0x20 = some m ∧ (rsvHdrOf m.body).op = op ∧ rsvCheck (csnTake e i s) m.body op = (0, some (o, h, d))

/-- An agent's operation is over: it has left the list, and a unit of the module that asked, and waits for its end, has it. -/
def RsvEnded (o : RsvOp) (status : Nat) (data : Bytes) (s t : State) : Prop :=
  t.rsv.ops = s.rsv.ops.filter (fun p => !(p.w.agent == o.w.agent && p.slot == o.slot)) ∧
    (∀ b i n, o.w.by_ = .unit b i n → ownWrite o.w.by_ = false → t.rsv.done = s.rsv.done ++ [{ by_ := o.w.by_, ctx := o.w.ctx, addr := o.w.addr, status := status, data := data }])

/-- A running pair's next descriptor, with the SQ index after it, has an operation; the one after it, where there is one, has an operation
of R312. -/
def Takes (s : State) (q op : Nat) (d : Bytes) (h : Nat) (rest : List (Bytes × Nat)) : Prop :=
  pairUp (getPair s q) = true ∧ (getPair s q).fetched = (d, h) :: rest ∧ dOp d = op ∧ ∀ e ∈ rest.take 1, 1 ≤ dOp e.1 ∧ dOp e.1 ≤ 6

/-- A record has been posted to a pair (R311). -/
def Posted (q : Nat) (c : Cpl) (s t : State) : Prop := (getPair t q).posted = (getPair s q).posted ++ [c]

/-- A descriptor has been taken and has completed with a status (R324, R325). -/
def DescDone (q : Nat) (d : Bytes) (h : Nat) (rest : List (Bytes × Nat)) (status detail step : Nat) (s t : State) : Prop :=
  (getPair t q).fetched = rest ∧
    Posted q { tag := dTag d, ctx := dCtx d, op := dOp d, status := status, detail := detail, step := step, tide := s.tide.count, flags := 0, attempts := 0, sqHead := h } s t

/-- A step has completed with a status (R324). -/
def StepDone (c : Nat) (x : Step) (status detail : Nat) (s t : State) : Prop :=
  Posted (getCtx s c).qp { tag := x.tag, ctx := c, op := 2, status := status, detail := detail, step := x.num, tide := s.tide.count, flags := stepFlags x, attempts := min x.attempts 255, sqHead := x.sqHead } s t

/-- A pair's doorbell entry has been taken, and what lies between its head and the tail is being fetched (R308, R309). -/
def RungAs (q : Nat) (e : Bytes) (s t : State) : Prop :=
  let p := { getPair s q with sqTail := leField e 0 2, cqHead := leField e 2 2 }
  if p.fetching ≠ 0 ∨ fetchLen p = 0 then getPair t q = p
  else getPair t q = { p with fetching := fetchLen p, retried := false, fetchAt := s.now } ∧ Out.hostRead (p.sqBase + 64 * p.sqHead) (64 * fetchLen p) ∈ t.out

/-- A pair's doorbell entry is within its rings (R308, R335). -/
def RingOk (p : Pair) (e : Bytes) : Prop :=
  leField e 0 2 < p.sqSize ∧ leField e 2 2 < p.cqSize ∧ (p.cqTail + p.cqSize - leField e 2 2) % p.cqSize ≤ cqUsed p

/-- An ownership request with an op reaches the module on a master's path, within the layout of R354 and the limits of R359 and R456, with no
new image of the runtime under way (R413) and no timer of R355 or R356 run out. `r`: the state once its message has been taken. -/
def OwnAsks (x : OwnIn) (op : Nat) (m : Master) (body : Bytes) (s r : State) : Prop :=
  (match x with
    | .host pri target => s.hst.link = .up ∧ m = .host ∧ body = hostBody s op pri.toNat target.toNat ∧ r = s
    | .mctp b => m = .bmc ∧ body = b ∧ r = s
    | .csn e i => ∃ msg tag, mgmtMsg s e i = some (msg, 1, tag, body) ∧ m = .fleet ∧ r = csnTake e i s ∧ mgmtAllowed r msg = true) ∧
  updating s 1 = false ∧ leField body 0 1 = op ∧ ownLayoutOk m body = true ∧ (∀ t, s.own.windowEnd = some t → s.now < t) ∧ (s.own.owner ≠ none → s.now < s.own.leaseEnd) ∧
  ((tget s.own.recent m.id []).filter fun t => decide (s.now < t + msTicks 1000)).length < 64

/-- An answer with a status has gone back, and who owns the module, its token, its lease and the claims are as they were. -/
def OwnKept (m : Master) (status : Nat) (s t : State) : Prop :=
  t.own.owner = s.own.owner ∧ t.own.token = s.own.token ∧ t.own.leaseEnd = s.own.leaseEnd ∧ t.own.gen = s.own.gen ∧ t.own.claims = s.own.claims ∧
    t.own.windowEnd = s.own.windowEnd ∧ Out.ownAnswer m (ownRsp s status) ∈ t.out

/-- What a register's RW fields hold once a write has merged into them (R453). -/
def regNew (r : State) (off i val mask : Nat) : Nat :=
  match regAt off with
  | some d => ((regWritten r off i - (regWritten r off i &&& mask)) ||| (val &&& mask)) &&& fieldMask d (·.acc == .rw)
  | none => 0

/-- The register file with a register written. -/
def regPut (r : State) (off i v : Nat) : State := { r with regs := { r.regs with written := tset r.regs.written (regKey off i) v } }

/-- A write has been taken: it changed the register file, what it set off, and what answers it (R377). -/
def WriteDone (ps : List Part) (r t : State) : Prop := Frame (ps ++ [.regs, .out, .tel, .csn]) r t

/-- A write has been refused: an info record with the offset and a detail, and nothing but the register file and the answer (R447, R453). -/
def WriteRefused (m : Master) (off detail : Nat) (r t : State) : Prop :=
  (∃ v, t.err = (refuseWrite m off v detail r).err) ∧ Frame [.regs, .out, .err, .tel, .csn] r t

/-- R449: an occurrence and a record of one unit and class, and of one severity, context and detail; of severities 4 and 5 no more is asked
than the unit and the class. -/
abbrev Merges (o r : ErrRec) : Prop :=
  r.unit = o.unit ∧ r.cls = o.cls ∧ if 4 ≤ o.sev then 4 ≤ r.sev else r.sev = o.sev ∧ r.ctx = o.ctx ∧ r.detail = o.detail

/-- R389, R392, R393: how step 10 is judged: waiting for the optics, ready, or FAILED for a condition that does not hold. -/
abbrev Judged (t : State) : Prop :=
  (t.bst.step = 10 ∧ t.bst.ready = false ∧ optWaiting t = true) ∨ (t.bst.step = 10 ∧ t.bst.ready = true ∧ notReady t = none) ∨
    (t.bst.step = 15 ∧ t.bst.ready = false ∧ notReady t ≠ none)

/-! ### What leaves on and arrives at a lane -/

/-- What leaves on a lane with a flit: the flit, and the codeword that carries it. -/
def leaves (e l : Nat) (x : Lane) (f : Bytes) : List Out := [.line e l (flitWord x.txWords x.txScr f).1, .flit e l f]

/-- R380: the 1,024 probes of a lane that has trained. -/
def probesOf (x : Lane) : List Bytes :=
  (List.range 1024).map fun i => csnFlit x.txSeq 2 (ackOf x) (x.nak && i == 0) 0 (natLE 1 1 ++ natLE 1 0 ++ natLE 2 i)

/-- One flit after another arrives on a lane. -/
def FlitsTaken (e : Fin 64) (l : Fin 16) : List Bytes → State → State → Prop
  | [], s, t => t = s
  | f :: fs, s, t => ∃ u, exec (.flitReceive e l (.flit f)) s = .next u ∧ FlitsTaken e l fs u t

/-- The parts of the state that a command may change; every other part it leaves as it is. No command changes what waits behind it. -/
def touches (c : Instr) : List Part :=
  match c with
  | .sliceStart .. | .sliceSaveDone .. | .sliceRelease .. => [.bst]
  | .laneEnable .. => [.csn]
  | .outcomeReport .. => [.est]
  | .passStart .. => [.frs]
  | .imageActivate .. => [.hdw]
  | .d3hotEntry | .perstRelease => [.hst]
  | .throttleRaise | .throttleLower => [.lev]
  | .retrainStart .. => [.mem]
  | .routeTableLoad .. | .dieReenable .. | .dieRelockDone .. => [.net]
  | .windowClose .. => [.rsv]
  | .completionWriteTimeout .. => [.slc]
  | .sweepNaming .. => [.ctxs]
  | .eccWriteback .. | .slotSelection .. | .bankReady .. => [.cells]
  | .contrib .. => [.csn, .est]
  | .hdmCommit .. => [.mem, .hst]
  | .reskewStart .. => [.mem, .wsh]
  | .imageRunning .. => [.net, .hdw]
  | .laneWaitExpiry .. | .detectDone .. => [.now, .csn]
  | .mergeWindowClose .. => [.now, .frs]
  | .mctpAssemblyTimeout => [.now, .hst]
  | .powerSequenceStart => [.now, .lev]
  | .ageCapReached .. | .stackCooldown .. => [.now, .mem]
  | .errorForward .. => [.out, .err]
  | .clearDone => [.out, .hdw]
  | .hostSnoop .. => [.out, .hst]
  | .routersEmpty .. => [.out, .net]
  | .errorRecordQuery .. => [.out, .own]
  | .sliceAbandon .. => [.tel, .bst]
  | .streamBufferSpace .. => [.tel, .edy]
  | .prefetchAged .. => [.tel, .frs]
  | .bankRefresh .. | .rfmIssue .. => [.tel, .mem]
  | .sliceRestoreDone .. => [.cells, .bst]
  | .chkSliceRestore .. => [.cells, .chk]
  | .slotProgramStart .. => [.tel, .cells]
  | .irqCoalesceTimer .. => [.now, .out, .slc]
  | .smBatchIssue .. => [.now, .tel, .mem]
  | .errorRaise .. => [.out, .err, .tel]
  | .doeRequest .. | .attestUnsigned | .rekeyRequestRead => [.out, .hst, .hdw]
  | .routesReady .. | .commitWithdraw .. => [.out, .net, .fly]
  | .d0Return => [.out, .slc, .hst]
  | .openStream .. | .grant .. | .creditReturnTimer .. | .close .. | .trainDone .. | .rangeProbe .. => [.out, .tel, .csn]
  | .completionWrite .. => [.out, .tel, .slc]
  | .deliveryIssue .. => [.tel, .fly, .frs]
  | .sourceReadIssue .. | .landingAck .. | .epochWriteReport .. => [.tel, .frs, .rsv]
  | .batchReadDone .. | .batchReadTimeout .. => [.tel, .ctxs, .slc]
  | .scrubCommand .. | .passOwnerScrub .. | .passEnd .. => [.tel, .cells, .frs]
  | .doeTimeout => [.now, .out, .hst, .hdw]
  | .pllStop .. => [.now, .out, .net, .lev]
  | .openRetry .. => [.now, .out, .tel, .csn]
  | .holeMapDurable .. => [.out, .err, .tel, .bst]
  | .credit .. | .errorDeliver => [.out, .err, .tel, .csn]
  | .streamStallLimit .. => [.out, .err, .tel, .edy]
  | .packetArrival .. => [.out, .err, .tel, .fly]
  | .objectVerifyDone .. | .rekeyTreeDone .. => [.out, .err, .tel, .hdw]
  | .linkUp .. => [.out, .err, .tel, .hst]
  | .sensorSample .. => [.out, .err, .tel, .lev]
  | .rowRetireDone .. | .concWindowEnd .. => [.out, .err, .tel, .mem]
  | .streamExport .. => [.out, .mem, .rsv, .edy]
  | .leadFanout .. | .reportTimeout .. => [.out, .tel, .csn, .est]
  | .refetchRequest .. => [.tel, .fly, .frs, .rsv]
  | .inputQualified .. | .srcSelApply | .rebaseApply | .countAdopt | .slotMarker .. => [.out, .err, .tel, .tide]
  | .cellKill .. | .move .. => [.tel, .cells, .ctxs, .frs]
  | .freezeStop .. => [.tel, .cells, .ctxs, .wsh]
  | .coverTimeout => [.now, .out, .err, .tel, .bst]
  | .linkHoldExpiry .. => [.now, .out, .err, .tel, .csn]
  | .imageStartTimeout .. => [.now, .out, .err, .tel, .hdw]
  | .coolantWaitTimeout | .sensorTimeout .. | .undervoltage .. | .coolantCondition .. => [.now, .out, .err, .tel, .lev]
  | .memPatrol .. => [.now, .out, .err, .tel, .mem]
  | .descriptorFetchTimeout .. => [.now, .out, .err, .tel, .slc]
  | .rsvBusyRetry .. => [.now, .out, .tel, .rsv, .csn]
  | .claim .. | .renew .. | .handover .. | .release .. | .ownershipQuery .. => [.out, .err, .tel, .csn, .own]
  | .streamControlUpdate .. => [.out, .err, .tel, .edy, .hst]
  | .attestSigned .. => [.out, .err, .tel, .hst, .hdw]
  | .hostMemRead .. | .hostMemWrite .. => [.out, .err, .tel, .mem, .hst]
  | .dieRelockMiss .. | .recoveryBudgetExpiry .. => [.out, .err, .tel, .net, .bst]
  | .flush .. | .query .. | .abort .. => [.out, .err, .tel, .rsv, .csn]
  | .doorbellSnoop .. | .doorbellPoll .. | .descriptorFetchDone .. | .debugRead .. => [.out, .err, .tel, .slc, .hst]
  | .bisnpResponse .. | .telDumpDone => [.out, .tel, .frs, .mem, .hst]
  | .epochProbeAnswer .. => [.out, .tel, .frs, .mem, .rsv]
  | .rillMessage .. => [.tel, .net, .fly, .rsv, .edy]
  | .acquireTimeout => [.now, .out, .err, .tel, .tide]
  | .slotMarkerSend => [.now, .out, .net, .tide, .fly]
  | .backwardEnd .. => [.out, .err, .tel, .ctxs, .slc]
  | .shadowLatch => [.out, .err, .tel, .regs, .csn]
  | .tideFrame .. | .frequencyWindow .. | .flitReceive .. | .laneClose .. | .rangeDone .. | .capsDone ..
  | .tideFlitReceive .. => [.out, .err, .tel, .tide, .csn]
  | .switchoffNotice => [.out, .net, .fly, .ctxs, .wsh]
  | .chkRecord .. => [.out, .err, .tel, .cells, .chk]
  | .scrubDone .. => [.out, .net, .fly, .cells, .ctxs]
  | .electionClose | .leaseExpiry => [.now, .out, .err, .tel, .csn, .own]
  | .biTimeout .. => [.now, .out, .err, .tel, .mem, .hst]
  | .heatReenable .. => [.now, .out, .net, .fly, .bst, .lev]
  | .heatLevelFall .. => [.now, .out, .tel, .net, .fly, .lev]
  | .memAccessServe .. => [.out, .err, .tel, .fly, .mem, .hst]
  | .read .. => [.out, .err, .tel, .mem, .rsv, .csn]
  | .chkSliceSave .. => [.out, .tel, .chk, .frs, .mem, .hst]
  | .tideEdgeLoss | .tideMessageAbsent | .replayTimeout .. | .laneBudgetExpiry .. => [.now, .out, .err, .tel, .tide, .csn]
  | .windowRecord .. | .verdictTimeout .. => [.out, .err, .tel, .ctxs, .slc, .est]
  | .passRecord .. => [.out, .err, .tel, .ctxs, .slc, .frs]
  | .admitCtx .. | .step .. | .copy .. => [.out, .err, .tel, .ctxs, .slc, .hst]
  | .regRead .. | .countReadLatch .. | .telValueRead .. => [.out, .err, .tel, .regs, .csn, .own]
  | .tideFlitSend => [.now, .out, .free, .tel, .tide, .csn]
  | .sendDone .. | .aoutWrite .. => [.out, .err, .tel, .cells, .ctxs, .slc]
  | .laneMonitor .. => [.out, .err, .tel, .tide, .cells, .csn]
  | .migrateLimit .. => [.tel, .net, .cells, .ctxs, .frs, .wsh]
  | .shardNotice .. => [.out, .err, .tel, .ctxs, .rsv, .csn, .edy]
  | .divergenceNotice .. => [.out, .err, .tel, .ctxs, .slc, .csn, .est]
  | .stepComplete .. => [.out, .err, .tel, .ctxs, .slc, .est, .edy]
  | .memSlotGrant .. => [.out, .err, .tel, .cells, .frs, .mem, .hst]
  | .sourceReadReturn .. => [.out, .err, .tel, .cells, .frs, .mem, .rsv]
  | .qualifyDone .. => [.now, .out, .err, .tel, .tide, .cells, .csn]
  | .ldxReturn .. | .remoteRefusal .. => [.out, .err, .tel, .fly, .cells, .ctxs, .slc]
  | .killComplete .. => [.out, .tel, .cells, .ctxs, .slc, .rsv, .csn]
  | .roundStart .. | .stepStart .. => [.tel, .cells, .chk, .ctxs, .slc, .rsv, .edy]
  | .freeze => [.tel, .net, .cells, .ctxs, .frs, .wsh, .bst]
  | .write .. => [.out, .err, .tel, .frs, .mem, .rsv, .csn, .hst]
  | .auditReport .. => [.out, .err, .tel, .net, .fly, .csn, .est, .edy]
  | .retrainDone .. => [.out, .err, .tel, .net, .fly, .mem, .hst, .lev]
  | .heatLevelRise .. => [.now, .out, .tel, .net, .fly, .ctxs, .wsh, .lev]
  | .copyComplete .. => [.out, .err, .tel, .ctxs, .slc, .frs, .mem, .hst]
  | .routeCommit => [.out, .tel, .regs, .net, .frs, .mem, .hst, .lev]
  | .cxlIoCompletion .. | .cxlIoCompletionTimeout .. => [.out, .err, .tel, .fly, .cells, .chk, .mem, .rsv]
  | .shardFetchTile .. => [.out, .tel, .cells, .frs, .mem, .rsv, .edy, .hst]
  | .ldn .. | .stn .. | .vld .. | .vst .. | .fetch .. | .send .. | .ldx .. | .twait .. | .twaite .. | .tfull .. | .trel .. | .tpin .. | .tunpin ..
  | .tstat .. | .amm .. | .aout .. | .trail .. | .halt .. | .vectorConvert .. | .branch .. | .integerOp .. | .remoteReadServe .. | .sendDeliver ..
  | .patrolRead .. | .ammStreamStart .. => [.out, .err, .tel, .fly, .cells, .ctxs, .slc, .bst]
  | .waitLimit .. | .fillArrival .. => [.out, .err, .tel, .fly, .cells, .ctxs, .slc, .frs]
  | .sliceTestDone .. | .recoveryStepEnd .. => [.out, .err, .tel, .net, .cells, .ctxs, .slc, .bst]
  | .moveCopyDone .. => [.out, .tel, .net, .fly, .cells, .ctxs, .frs, .wsh]
  | .stackOverheat .. => [.now, .out, .err, .tel, .net, .fly, .mem, .hst, .lev]
  | .shardFetchVerify .. => [.out, .err, .tel, .frs, .mem, .rsv, .est, .edy, .hst]
  | .sweepStart .. => [.out, .err, .tel, .ctxs, .frs, .mem, .rsv, .edy, .hst]
  | .replan .. => [.out, .err, .tel, .ctxs, .slc, .frs, .mem, .rsv, .hst]
  | .kill .. => [.out, .err, .tel, .net, .fly, .ctxs, .slc, .csn, .hst]
  | .opticalWaitDone => [.out, .err, .tel, .regs, .frs, .mem, .hst, .bst, .hdw]
  | .rsvRequestIssue .. | .readData .. | .writeAck .. | .flushAck .. | .queryData .. => [.out, .err, .tel, .fly, .cells, .chk, .mem, .rsv, .csn]
  | .health .. => [.out, .err, .tel, .cells, .ctxs, .slc, .rsv, .csn, .est]
  | .contribSendArrival .. => [.out, .err, .tel, .fly, .cells, .ctxs, .slc, .est, .bst]
  | .accessWake .. => [.out, .err, .tel, .fly, .cells, .ctxs, .slc, .frs, .bst]
  | .rollback .. => [.out, .tel, .cells, .ctxs, .frs, .mem, .est, .edy, .hst]
  | .vectorArith .. => [.out, .free, .err, .tel, .fly, .cells, .ctxs, .slc, .bst]
  | .reskewDone .. => [.out, .err, .tel, .ctxs, .frs, .mem, .rsv, .edy, .wsh, .hst]
  | .rsvTimeout .. => [.now, .out, .err, .tel, .fly, .cells, .chk, .mem, .rsv, .csn]
  | .resume .. => [.out, .err, .tel, .cells, .ctxs, .slc, .frs, .mem, .rsv, .hst]
  | .memRequest .. => [.out, .err, .tel, .fly, .cells, .ctxs, .slc, .mem, .rsv, .bst]
  | .sendByBoundary .. | .windowDeadline .. => [.out, .err, .tel, .net, .fly, .cells, .frs, .mem, .csn, .est, .hst]
  | .pllLockLoss .. => [.out, .err, .tel, .net, .fly, .cells, .ctxs, .frs, .wsh, .bst, .lev]
  | .portReturn => [.out, .err, .tel, .regs, .fly, .cells, .chk, .slc, .mem, .rsv, .hst]
  | .auditStart .. => [.now, .out, .err, .tel, .ctxs, .slc, .frs, .mem, .rsv, .est, .edy, .hst]
  | .scanEntry => [.fly, .cells, .ctxs, .slc, .frs, .mem, .rsv, .est, .edy, .wsh, .hst, .hdw]
  | .perst => [.now, .out, .err, .tel, .regs, .fly, .cells, .chk, .slc, .mem, .rsv, .hst]
  | .drainDone .. => [.out, .err, .tel, .net, .fly, .cells, .ctxs, .frs, .mem, .rsv, .wsh, .hst]
  | .dieTestDone .. => [.out, .err, .tel, .net, .fly, .cells, .ctxs, .slc, .frs, .wsh, .bst, .lev]
  | .licenceEffect => [.out, .full, .err, .tel, .fly, .cells, .chk, .ctxs, .mem, .rsv, .csn, .hdw]
  | .admitComplete .. => [.out, .err, .tel, .cells, .chk, .ctxs, .slc, .frs, .mem, .rsv, .edy, .wsh, .hst]
  | .contribAccept .. => [.out, .free, .err, .tel, .net, .fly, .cells, .frs, .mem, .rsv, .csn, .est, .hst]
  | .granuleProcess .. | .sweepComplete .. => [.out, .err, .tel, .net, .fly, .cells, .ctxs, .slc, .frs, .mem, .rsv, .csn, .edy, .hst]
  | .killBoundary .. => [.out, .tel, .cells, .chk, .ctxs, .slc, .frs, .mem, .rsv, .csn, .est, .edy, .wsh, .hst]
  | .flr => [.out, .err, .tel, .regs, .net, .fly, .cells, .chk, .ctxs, .slc, .mem, .rsv, .csn, .hst, .own]
  | .slotBoundary .. => [.now, .out, .err, .tel, .regs, .net, .tide, .fly, .cells, .ctxs, .frs, .mem, .rsv, .csn, .est, .hst, .lev]
  | .srcSelWrite .. | .rebaseWrite .. | .profileValidate .. | .unitRunApply .. | .retrainRequest .. | .windowValidate .. | .exportValidate ..
  | .queuePairEnable .. | .queuePairDisable .. | .linkRetrain .. | .regWrite .. | .recal .. | .laneDownHold .. | .bootcfgCommit ..
  | .dieTestRequest .. | .recoverRequest .. | .objectInstall .. | .rekeyStart .. | .switchoffRequest .. | .regionOnRequest .. | .shutdown ..
  | .errorAck .. | .ringEnable .. | .telDump ..
  | .registerWrite .. => [.out, .err, .tel, .regs, .net, .tide, .fly, .chk, .slc, .mem, .rsv, .csn, .wsh, .hst, .own, .bst, .hdw, .lev]
  | .regionFault .. => [.out, .err, .tel, .net, .fly, .cells, .chk, .ctxs, .frs, .mem, .rsv, .csn, .est, .edy, .wsh, .hst, .bst, .lev]
  | .heatTrip .. => [.now, .out, .err, .tel, .net, .fly, .cells, .chk, .ctxs, .frs, .mem, .rsv, .csn, .est, .edy, .wsh, .hst, .bst, .lev]
  | .shutdownComplete
  | .busbarLoss => [.out, .err, .tel, .regs, .net, .tide, .fly, .cells, .chk, .ctxs, .slc, .frs, .mem, .rsv, .csn, .est, .edy, .wsh, .hst, .own, .bst, .hdw, .lev]
  | .overvoltage
  | .overcurrent .. => [.now, .out, .err, .tel, .regs, .net, .tide, .fly, .cells, .chk, .ctxs, .slc, .frs, .mem, .rsv, .csn, .est, .edy, .wsh, .hst, .own, .bst, .hdw, .lev]
  | .powerOn ..
  | .recoveryLoaderObject .. => [.out, .free, .err, .tel, .regs, .net, .tide, .fly, .cells, .chk, .ctxs, .slc, .frs, .mem, .rsv, .csn, .est, .edy, .wsh, .hst, .own, .bst, .hdw, .lev]
  | .rampDone .. | .imageVerifyDone | .pllLockDone .. | .linkTrainingDone .. | .startupTestDone .. | .substitutionDone | .memoryTrainingDone ..
  | .qualificationDone .. => [.out, .free, .full, .err, .tel, .regs, .net, .tide, .fly, .cells, .chk, .ctxs, .slc, .frs, .mem, .rsv, .csn, .est, .edy, .wsh, .hst, .bst, .hdw, .lev]
 
  | .bringupBudgetExpiry .. => [.now, .out, .free, .full, .err, .tel, .regs, .net, .tide, .fly, .cells, .chk, .ctxs, .slc, .frs, .mem, .rsv, .csn, .est, .edy, .wsh, .hst, .bst, .hdw, .lev]

end Sys2Proof.Machine
end

