-- ==== Sys2Proof/Certificates/Slice0/Obligations.lean ====
section
/-! DEFINITION. The statements for the provers. -/
open Sys2Proof Sys2Proof.Machine

/-- A step carries out the command at the front of the queue on the state with the queue's rest; on an empty queue one tick of the local
oscillator passes (the model's own choice, log 1), and the tide count and the endpoints' own counters go on within their slots. -/
def Obligations.StepRunsTheCommandInFront : Prop :=
  (∀ (c : Instr) (q : List Instr) (s : State), s.pending = c :: q → step s = exec c { s with pending := q }) ∧
  (∀ s : State, s.pending = [] →
    ∃ t, step s = .next t ∧ t.now = s.now + 1 ∧ t.tide = { s.tide with eps := epsAdvance 1 s.tide.eps, count := if s.tide.count % 16384 = 16383 then s.tide.count else s.tide.count + 1 } ∧ Frame [.now, .tide] s t)

/-- Every well-formed command completes, in every state: an event that is not due changes nothing. One whose list operand has not the
length its layout fixes is no event of the hardware, and stops by name (the model's own choice). -/
def Obligations.WellFormedCommandsComplete : Prop :=
  ∀ (c : Instr) (s : State), (c.wf = true → ∃ t, exec c s = .next t) ∧ (c.wf = false → exec c s = .fault .illFormed)

/-- Every command changes only the parts of the state that `touches` names for it: no block that it has no business with, and never the
commands behind it. -/
def Obligations.EveryCommandKeepsItsFrame : Prop :=
  ∀ (c : Instr) (s t : State), exec c s = .next t → Frame (touches c) s t ∧ t.pending = s.pending

/-- From any state in which the bytes of the fast tier stand in their canonical form, a step leaves them so. -/
def Obligations.EveryStepKeepsTheFastTierCanonical : Prop :=
  ∀ s t : State, bytesWf s.mem.data = true → step s = .next t → bytesWf t.mem.data = true

/-- R450, R451: from any state in which no unit queue holds more than 64 records and the module queue no more than 1,024, a step leaves them so. -/
def Obligations.EveryStepKeepsTheErrorQueuesBounded : Prop :=
  ∀ s t : State, s.err.bounded = true → step s = .next t → t.err.q.length ≤ 1024 ∧ (∀ u ∈ t.err.units, u.2.q.length ≤ 64) ∧ t.err.bounded = true

/-- No step runs the local oscillator back, and with nothing waiting each step counts it up (the model's own choice, log 1). -/
def Obligations.TimeNeverRunsBack : Prop :=
  ∀ s t : State, step s = .next t → s.now ≤ t.now ∧ (s.pending = [] → t.now = s.now + 1)

/-- R391, R446, R451, R459, R465, R472 to R482: the module as it leaves reset: nothing waits, nothing runs, no master owns it, no record and no
count stands, each register holds its reset value, and the invariants hold. -/
def Obligations.ResetIsTheSpecs : Prop :=
  State.reset.pending = [] ∧ QueueWf State.reset ∧ bytesWf State.reset.mem.data = true ∧ State.reset.err.bounded = true ∧ State.reset.lev.power = .standby ∧
  State.reset.bst.ready = false ∧ bstStep State.reset = 0 ∧ State.reset.own.owner = none ∧ State.reset.own.gen = 0 ∧ State.reset.err.q = [] ∧ State.reset.err.nextSeq = 0 ∧
  State.reset.tide.count = 0 ∧ State.reset.fly = [] ∧ (∀ c, (getCtx State.reset c).st = .free) ∧ (∀ l, (getCell State.reset l).prog = none) ∧
  (∀ k, tget State.reset.tel.vals k 0 = 0) ∧ (∀ q, (getPair State.reset q).en = false) ∧
  (∀ off i, regWritten State.reset off i = regReset off i ∧ regLive State.reset off i = regReset off i) ∧ (∀ m off, viewReg State.reset m off = regReset off 0) ∧
  [(0x0000, 0xD150CE4A), (0x0014, 0), (0x1008, 64), (0x3004, 0x1210000), (0x4004, 0x1800280), (0x5004, 0x4040), (0x6000, 0x113), (0x7000, 0x2003), (0x8014, 0xA010044),
   (0x8028, 0x1004064), (0x9000, 2), (0xA000, 360), (0xA010, 64)].all (fun e => regReset e.1 0 == e.2) = true

/-- R455: what the host's accesses of BAR0 do by their size, their alignment and whether a register stands there, while it owns the module
(R353); the CXL component registers answer otherwise (R482). -/
def Obligations.Bar0TakesAlignedAccesses : Prop :=
  ∀ (off : BitVec 24) (v : BitVec 64) (n : Nat) (s : State), pathOpen s .host = true → Owns s .host → (off.toNat < 0x800000 ∨ 0x810000 ≤ off.toNat) →
    let o := off.toNat
    let aligned := (n = 4 ∧ o % 4 = 0) ∨ (n = 8 ∧ o % 8 = 0)
    (∀ d i, n = 4 → o % 4 = 0 → plainWrite o (v.toNat % 2 ^ 32) = true → regAt o = some d → d.view = false → hostOnly o = false → o ≠ 0xF020 → instOf s .host d.idx = some i →
      (0xE008 ≤ o → o ≤ 0xE018 → i ≠ 0) → (∀ f ∈ d.fields, staticNow s o i f = false) → regBad s o i (regNew s o i (v.toNat % 2 ^ 32) (2 ^ 32 - 1)) = false →
      ∃ t, exec (.registerWrite (.host off n v)) s = .next t ∧ regWritten t o i = regNew s o i (v.toNat % 2 ^ 32) (2 ^ 32 - 1)) ∧
    (n = 8 → o % 8 = 0 → plainWrite o (v.toNat % 2 ^ 32) = true → plainWrite (o + 4) (v.toNat / 2 ^ 32) = true →
      ∃ t, exec (.registerWrite (.host off 4 (v &&& 0xFFFFFFFF))) s = .next t ∧
        (pathOpen t .host = true → exec (.registerWrite (.host (off + 4) 4 (v >>> 32))) t = exec (.registerWrite (.host off 8 v)) s)) ∧
    (telHeld (.host off n v) s = false → n = 4 → o % 4 = 0 → ∃ t, exec (.regRead (.host off 4 v)) s = .next t ∧ t.out = .regRead .host o (regValue s .host o) :: s.out ∧ Frame [.regs, .out] s t) ∧
    (telHeld (.host off n v) s = false → n = 8 → o % 8 = 0 →
      ∃ t, exec (.regRead (.host off 8 v)) s = .next t ∧ t.out = .regRead .host o (regValue s .host o + 2 ^ 32 * regValue (regLatch .host o s) .host (o + 4)) :: s.out ∧ Frame [.regs, .out] s t) ∧
    (¬aligned → plainWrite o (v.toNat % 2 ^ 32) = true → ∃ t, exec (.registerWrite (.host off n v)) s = .next t ∧ WriteRefused .host o 3 s t ∧ t.regs = s.regs) ∧
    (telHeld (.host off n v) s = false → ¬aligned → ∃ t, exec (.regRead (.host off n v)) s = .next t ∧ t.out = .regRead .host o (regValue s .host (o / 4 * 4) / 256 ^ (o % 4) % 256 ^ n) :: s.out ∧ Frame [.regs, .out] s t) ∧
    (regAt o = none → regValue s .host o = 0 ∧
      (n = 4 → o % 4 = 0 → ∃ t, exec (.registerWrite (.host off n v)) s = .next t ∧ WriteRefused .host o 4 s t ∧ t.regs = s.regs))

/-- R448 to R450: an occurrence merges into its record, joins its unit's queue, evicts a lower one, or is lost; each way is told apart. -/
def Obligations.OccurrencesMergeQueueOrAreLost : Prop :=
  ∀ (unit : Fin 165) (block cls : Fin 19) (sev : Fin 6) (ctx : Option (Fin 1024)) (transient : Bool) (loc0 loc1 : BitVec 64) (detail : Word) (s : State),
    cls ≠ 0 → (sev.val < 4 ∨ cls.val ∈ [0x0B, 0x0C, 0x10, 0x12]) →
    let o : ErrRec := { sev := sev, ctx := ctx.map (·.val), transient := transient, block := block, cls := cls, unit := unit, first := s.tide.count, last := s.tide.count, loc0 := loc0.toNat, loc1 := loc1.toNat, detail := detail.toNat }
    let u := tget s.err.units unit {}
    let c := Instr.errorRaise unit block cls sev ctx transient loc0 loc1 detail
    (∀ i r, u.q[i]? = some r → Merges o r → (∀ x ∈ u.q.take i, ¬Merges o x) →
      ∃ t, exec c s = .next t ∧ t.err = { s.err with units := tset s.err.units unit { u with q := u.q.set i { r with count := satAdd 32 r.count 1, last := s.tide.count, sev := max r.sev sev } } } ∧
        Frame [.err] s t) ∧
    ((∀ x ∈ u.q, ¬Merges o x) →
      (∀ i (e : ErrEnt), s.err.q[i]? = some e → Merges o e.r → (∀ x ∈ s.err.q.take i, ¬Merges o x.r) →
        let r : ErrRec := { e.r with count := satAdd 32 e.r.count 1, last := s.tide.count, sev := max e.r.sev sev }
        ∃ t, exec c s = .next t ∧ t.err = { s.err with q := s.err.q.set i { e with r := r, delivered := e.delivered && r.sev == e.r.sev } } ∧
          t.out = (if e.ringed then [ringWrite s r] else []) ++ s.out ∧ Frame [.out, .err] s t) ∧
      ((∀ x ∈ s.err.q, ¬Merges o x.r) →
        (u.q.length < 64 →
          ∃ t, exec c s = .next t ∧ t.err = { s.err with units := tset s.err.units unit { u with q := u.q ++ [{ o with loss := u.lossNext }], lossNext := false } } ∧
            Counted (telKey bERR 0 0 unit) 1 s t ∧ Frame [.err, .tel] s t) ∧
        (64 ≤ u.q.length →
          (∀ i r, u.q[i]? = some r → r.sev < sev.val → (∀ x ∈ u.q, r.sev ≤ x.sev) → (∀ x ∈ u.q.drop (i + 1), r.sev < x.sev) →
            ∃ t, exec c s = .next t ∧ t.err = { s.err with units := tset s.err.units unit { u with q := u.q.eraseIdx i ++ [{ o with loss := true }], overflow := true, lossNext := false } } ∧
              Counted (telKey bERR 1 0 unit) 1 s t ∧ Frame [.err, .tel] s t) ∧
          ((∀ x ∈ u.q, sev.val ≤ x.sev) →
            ∃ t, exec c s = .next t ∧ t.err = { s.err with units := tset s.err.units unit { u with overflow := true, lossNext := true } } ∧
              Counted (telKey bERR 1 0 unit) 1 s t ∧ Frame [.err, .tel] s t))))

/-- R450 to R452, R456, R461: units forward their records, a fatal one displaces; records are delivered and asked for; a dump is written. -/
def Obligations.RecordsReachTheOwner : Prop :=
  (∀ (unit : Fin 165) (s : State) (i : Nat) (r : ErrRec),
    let u := tget s.err.units unit {}
    u.q[i]? = some r → (∀ x ∈ u.q, x.sev ≤ r.sev) → (∀ x ∈ u.q.take i, x.sev < r.sev) →
    let units := tset s.err.units unit { u with q := u.q.eraseIdx i }
    let next := (s.err.nextSeq + 1) % 2 ^ 32
    let ent : ErrEnt := { r := { r with seq := s.err.nextSeq } }
    (s.err.q.length < 1024 → ∃ t, exec (.errorForward unit) s = .next t ∧ t.err = { s.err with units := units, q := s.err.q ++ [ent], nextSeq := next } ∧
      t.out = .rill unitBL (errPri r.sev) 0x4E [unit.val, r.block, r.cls] :: s.out ∧ Frame [.out, .err] s t) ∧
    (1024 ≤ s.err.q.length → r.sev < 4 ∨ (∀ x ∈ s.err.q, 4 ≤ x.r.sev) → exec (.errorForward unit) s = .next s) ∧
    (∀ k e, 1024 ≤ s.err.q.length → 4 ≤ r.sev → s.err.q[k]? = some e → e.r.sev < 4 → (∀ x ∈ s.err.q, e.r.sev ≤ x.r.sev) → (∀ x ∈ s.err.q.drop (k + 1), e.r.sev < x.r.sev) →
      ∃ t, exec (.errorForward unit) s = .next t ∧ t.err = { s.err with units := units, q := s.err.q.eraseIdx k ++ [ent], nextSeq := next, overflow := true } ∧
        t.out = .rill unitBL (errPri r.sev) 0x4E [unit.val, r.block, r.cls] :: (if e.ringed then [ringWrite s { e.r with evicted := true }] else []) ++ s.out ∧ Frame [.out, .err] s t)) ∧
  (∀ (s : State) (i : Nat) (e : ErrEnt), s.err.q[i]? = some e → e.delivered = false →
    (4 ≤ e.r.sev ∧ (∀ x ∈ s.err.q.take i, x.delivered = true ∨ x.r.sev < 4)) ∨ ((∀ x ∈ s.err.q, x.delivered = true ∨ x.r.sev < 4) ∧ ∀ x ∈ s.err.q.take i, x.delivered = true) →
    let ring := bitN (regLive s 0x11000 0) 0
    ∃ t, exec .errorDeliver s = .next t ∧ t.err = { s.err with q := s.err.q.set i { e with delivered := true, ringed := e.ringed || ring } } ∧ Frame [.out, .err, .tel, .csn] s t ∧
      (ring = true → Out.hostWrite (s.err.ringBase + 64 * (e.r.seq % 2 ^ s.err.ringLog2)) (errBytes e.r) ∈ t.out) ∧
      (bitN (regL s 0x11000 0 13 8) e.r.sev = true → Out.msix 64 ∈ t.out) ∧ (2 ≤ e.r.sev → Out.mctp 0x10 (errBytes e.r) ∈ t.out)) ∧
  (∀ (body : Bytes) (s : State),
    let recent := (tget s.own.recent Master.bmc.id []).filter fun t => decide (s.now < t + msTicks 1000)
    (64 ≤ recent.length → ∃ t, exec (.errorRecordQuery body) s = .next t ∧ t.out = .mctp 0x1F [] :: s.out ∧ tget t.own.recent Master.bmc.id [] = recent ++ [s.now] ∧ Frame [.out, .own] s t) ∧
    (recent.length < 64 → body.length = 4 →
      (∀ e ∈ s.err.q, e.r.seq = leNat body → (∀ x ∈ s.err.q, x.r.seq = leNat body → x = e) →
        ∃ t, exec (.errorRecordQuery body) s = .next t ∧ t.out = .mctp 0x03 (errBytes e.r) :: s.out ∧ Frame [.out, .own] s t) ∧
      ((∀ x ∈ s.err.q, x.r.seq ≠ leNat body) →
        ∃ t, exec (.errorRecordQuery body) s = .next t ∧ t.out = .mctp 0x03 (List.replicate 64 0) :: s.out ∧ Frame [.out, .own] s t))) ∧
  (∀ (s : State) (tide : Nat) (vals : Tab Nat), bytesWf s.mem.data = true → s.tel.snap = some (tide, vals) →
    (∀ p ∈ vals, ∀ q ∈ vals, telPlace p.1 telRows 0 = telPlace q.1 telRows 0 → telPlace p.1 telRows 0 ≠ none → p = q) →
    let a := s.tel.dumpAddr
    ∃ t, exec .telDumpDone s = .next t ∧ t.tel.snap = none ∧ t.tel.vals = s.tel.vals ∧
      memRead t a 24 = natLE 4 1 ++ natLE 4 0 ++ natLE 8 telTotal ++ natLE 8 tide ∧
      (∀ k < telTotal, memRead t (a + 64 + 8 * k) 8 = natLE 8 (((vals.find? fun p => telPlace p.1 telRows 0 == some k).map (·.2)).getD 0)) ∧
      ∀ i, i < a ∨ a + 64 + 8 * telTotal ≤ i → bget t.mem.data i = bget s.mem.data i)

/-- R388, R390, R391: POWER_ON and the steps of bring-up up to the route commit; each ends its step, whatever failed in it. -/
def Obligations.BringUpStepsEnd : Prop :=
  (∀ (pins : Fin 8) (s : State), s.lev.power = .go →
    ∃ t, exec (.powerOn pins) s = .next t ∧ t.bst.step = 1 ∧ t.bst.at_ = s.now ∧ t.bst.powers = s.bst.powers + 1 ∧ t.lev.power = .on ∧ t.lev.pins = pins.val ∧ t.bst.ready = false ∧
      t.bst.boot = s.bst.bootNext.getD s.bst.boot ∧ t.net.holes = (s.bst.copies.head?.getD s.bst.factory).cells ∧ t.mem.data = []) ∧
  (∀ (u : BringUp) (s : State), bstStep s = 1 → ∃ t, exec (.rampDone u) s = .next t ∧ t.bst.step = 2 ∧ t.bst.at_ = s.now) ∧
  (∀ (s : State), bstStep s = 2 →
    ∃ t, exec .imageVerifyDone s = .next t ∧
      (if (bootDone (verifyImages s)).hdw.stopped.contains 1 then t.bst.step = 15
       else t.bst.step = 3 ∧ t.bst.at_ = s.now ∧ t.tide.st = .acquire ∧ t.tide.acqAt = s.now)) ∧
  (∀ (u : BringUp) (s : State), bstStep s = 4 → ∃ t, exec (.pllLockDone u) s = .next t ∧ t.bst.step = 5 ∧ t.bst.at_ = s.now) ∧
  (∀ (u : BringUp) (s : State), bstStep s = 5 → ∃ t, exec (.linkTrainingDone u) s = .next t ∧ t.bst.step = 6 ∧ t.bst.at_ = s.now ∧ t.hdw.resetMask = 0) ∧
  (∀ (u : BringUp) (s : State), bstStep s = 6 →
    ∃ t, exec (.startupTestDone u) s = .next t ∧ t.bst.step = 7 ∧ t.bst.at_ = s.now ∧ t.net.routesDue = true) ∧
  (∀ (s : State), bstStep s = 7 → s.net.commit = none → s.net.routesDue = false →
    ∃ t, exec .substitutionDone s = .next t ∧ t.bst.step = 8 ∧ t.bst.at_ = s.now ∧ Frame [.bst, .tel] s t)

/-- R187, R388, R390, R392, R393: memory training and qualification, the budget of a step, and the end of bring-up. -/
def Obligations.BringUpEnds : Prop :=
  (∀ (u : BringUp) (s : State), bstStep s = 8 →
    ∃ t, exec (.memoryTrainingDone u) s = .next t ∧ t.bst.step = 9 ∧ t.mem.data = [] ∧ t.mem.epochs = [] ∧ (∀ n < 64, (getStk t n).poison = [])) ∧
  (∀ (u : BringUp) (s : State), bstStep s = 9 → s.bst.ready = false → ∃ t, exec (.qualificationDone u) s = .next t ∧ Judged t) ∧
  (∀ (u : BringUp) (s : State), 1 ≤ bstStep s → bstStep s < 10 → s.bst.ready = false →
    ∃ t, exec (.bringupBudgetExpiry u) s = .next t ∧ t.now = max s.now (s.bst.at_ + bringUpBudget (bstStep s)) ∧
      (bstStep s = 3 → t.tide.st = .free ∧ bstStep t = 4 ∧ t.bst.at_ = t.now) ∧
      (bstStep s = 9 → Judged t) ∧
      (bstStep s = 2 → (t.bst.step = 15 ∧ t.hdw.stopped.contains 1 = true) ∨ (t.bst.step = 3 ∧ t.bst.at_ = t.now ∧ t.tide.st = .acquire)) ∧
      (bstStep s ≠ 2 → bstStep s ≠ 3 → bstStep s ≠ 9 → t.bst.step = bstStep s + 1 ∧ t.bst.at_ = t.now)) ∧
  (∀ (s : State), s.bst.step = 10 → s.bst.ready = false → optWaiting s = false → notReady s = none →
    ∃ t, exec .opticalWaitDone s = .next t ∧ t.bst.ready = true ∧ t.bst.passAt = s.now ∧ (s.hst.perst = false → t.hst.link = .train) ∧ t.bst.step = 10) ∧
  (∀ (s : State) (c : Nat), s.bst.step = 10 → s.bst.ready = false → optWaiting s = false → notReady s = some c →
    ∃ t, exec .opticalWaitDone s = .next t ∧ t.bst.ready = false ∧ t.bst.step = 15)

/-- R23, R27 to R32: a packet enters the mesh, moves on by one hop along the row first, crosses by the port of the edge that its table names, is
delivered, or is discarded, counted and recorded. -/
def Obligations.PacketsAreDeliveredForwardedOrDropped : Prop :=
  (∀ (site : Fin 88) (row : Fin 100) (col : Fin 128) (src lo hi : BitVec 32) (cls : Fin 3) (ws : List Word) (s : State),
    ws.length ≤ 528 → routersRun s site = true → physValid lo.toNat = true → physValid hi.toNat = true → physSite lo.toNat = physSite hi.toNat →
    ∃ t p, exec (.packetArrival (.new site row col src lo hi cls ws)) s = .next t ∧ t.fly = tset s.fly s.flyNext (.packet p) ∧
      p.src = src.toNat ∧ p.cls = cls.val ∧ p.die = physSite lo.toNat ∧ p.words = ws.map (·.toNat) ∧ p.gen = s.net.gen ∧ p.seq = s.flyNext ∧
      p.site = site.val ∧ p.row = row.val ∧ p.col = col.val ∧ p.row0 ≤ p.row1 ∧ p.col0 ≤ p.col1 ∧
      (lo = hi → physAddr p.die p.row0 p.col0 = lo.toNat ∧ p.row1 = p.row0 ∧ p.col1 = p.col0) ∧ Frame [.fly] s t) ∧
  (∀ (m : Nat) (s : State) (p : Packet), tget? s.fly m = some (.packet p) → Tab.sorted s.fly = true → routersRun s p.site = true → packetBehind s p = false →
    p.site = p.die → p.row0 = p.row → p.row1 = p.row → p.col0 = p.col → p.col1 = p.col →
    let here := physAddr p.site p.row p.col
    (isHole s here = false → ∃ t, exec (.packetArrival (.hop m)) s = .next t ∧ tget? t.fly m = none ∧
      t.out = .packet p.site 4 ([p.src, here, p.cls] ++ p.words) :: s.out ∧ Frame [.out, .fly] s t) ∧
    (isHole s here = true → ∃ t, exec (.packetArrival (.hop m)) s = .next t ∧ tget? t.fly m = none ∧
      tget t.tel.vals (telKey bRIL 0 0 p.site) 0 = min (tget s.tel.vals (telKey bRIL 0 0 p.site) 0 + 1) (2 ^ 64 - 1) ∧
      t.err = (raise p.site bRIL sCont 0x07 none p.src (here + p.cls * 2 ^ 32) 0 s).err ∧ Frame [.out, .err, .tel, .fly] s t)) ∧
  (∀ (m : Nat) (s : State) (p : Packet), tget? s.fly m = some (.packet p) → routersRun s p.site = true → packetBehind s p = false → p.site = p.die →
    p.row0 = p.row1 → p.col0 = p.col1 →
    (p.col < p.col0 → ∃ t, exec (.packetArrival (.hop m)) s = .next t ∧
      t.fly = tset (tdel s.fly m) s.flyNext (.packet { p with col := p.col + 1 }) ∧ Frame [.fly] s t) ∧
    (p.col0 < p.col → ∃ t, exec (.packetArrival (.hop m)) s = .next t ∧
      t.fly = tset (tdel s.fly m) s.flyNext (.packet { p with col := p.col - 1 }) ∧ Frame [.fly] s t) ∧
    (p.col0 = p.col → p.row < p.row0 → ∃ t, exec (.packetArrival (.hop m)) s = .next t ∧
      t.fly = tset (tdel s.fly m) s.flyNext (.packet { p with row := p.row + 1 }) ∧ Frame [.fly] s t) ∧
    (p.col0 = p.col → p.row0 < p.row → ∃ t, exec (.packetArrival (.hop m)) s = .next t ∧
      t.fly = tset (tdel s.fly m) s.flyNext (.packet { p with row := p.row - 1 }) ∧ Frame [.fly] s t)) ∧
  (∀ (m : Nat) (s : State) (p : Packet), tget? s.fly m = some (.packet p) → routersRun s p.site = true → packetBehind s p = false → p.site ≠ p.die →
    let e := edgeBy (if p.gen = s.net.gen then s.net.active else s.net.prev) p.site p.die
    let port := Config.stitchPort p.src p.die p.cls e % 40
    e < 4 →
    (portPos e port ≠ (p.row, p.col) → ∃ t, exec (.packetArrival (.hop m)) s = .next t ∧
      tget? t.fly m = some (.packet { p with row := (meshStep p.row p.col (portPos e port)).1, col := (meshStep p.row p.col (portPos e port)).2 }) ∧ Frame [.fly] s t) ∧
    (∀ n, portPos e port = (p.row, p.col) → siteAcross s p.site e = some n → siteAvail s n = true →
      ∃ t, exec (.packetArrival (.hop m)) s = .next t ∧
        tget? t.fly m = some (.packet { p with site := n, row := (portPos (opposite e) port).1, col := (portPos (opposite e) port).2 }) ∧
        t.out = .packet p.site e ([p.src, packetDst p, p.cls] ++ p.words) :: s.out ∧ Frame [.out, .fly] s t) ∧
    (portPos e port = (p.row, p.col) → (∀ n, siteAcross s p.site e = some n → siteAvail s n = false) → Tab.sorted s.fly = true →
      ∃ t, exec (.packetArrival (.hop m)) s = .next t ∧ tget? t.fly m = none ∧
        tget t.tel.vals (telKey bRIL 1 0 p.site) 0 = min (tget s.tel.vals (telKey bRIL 1 0 p.site) 0 + 1) (2 ^ 64 - 1) ∧
        t.err = (raise p.site bRIL sCont 0x07 none p.src (packetDst p + p.cls * 2 ^ 32) 0 s).err ∧ Frame [.out, .err, .tel, .fly] s t))

/-- R31, R55: route tables are loaded, committed for a slot at least two ahead, moved to a later slot where one has not confirmed, and take effect. -/
def Obligations.RouteCommitRuns : Prop :=
  (∀ (site : Fin 88) (ver : Nat) (hops : List (Fin 6 × Fin 4)) (s : State), hops.length = 88 → updating s 3 = false →
    ∃ t, exec (.routeTableLoad site ver hops) s = .next t ∧
      tget? t.net.shadow site = some { ver := ver, hops := hops.map fun h => (h.1.val, h.2.val) } ∧
      (∀ c, s.net.commit = some c → c.ver = ver → ∃ d, t.net.commit = some d ∧ d.slot = c.slot ∧ site.val ∈ d.confirmed) ∧ Frame [.net] s t) ∧
  (∀ (slot : BitVec 50) (s : State), s.net.routesDue = true → s.net.commit = none → slotNow s + 2 ≤ slot.toNat →
    (∀ l ∈ s.net.toLeave, ∀ n ∈ s.wsh.notices, n.site = l.1 → n.slot ≤ slot.toNat) →
    (s.net.toJoin ≠ [] → ∀ k, slotNow s + 2 ≤ k → (∀ l ∈ s.net.toLeave, ∀ n ∈ s.wsh.notices, n.site = l.1 → n.slot ≤ k) → slot.toNat ≤ k) →
    ∃ t, exec (.routesReady slot) s = .next t ∧
      t.net.commit = some { slot := slot.toNat, ver := s.net.nextVer, confirmed := [], leave := s.net.toLeave, join := s.net.toJoin } ∧
      t.net.routesDue = false ∧ t.net.toLeave = [] ∧ t.net.toJoin = [] ∧
      t.out = .rill rillAll 1 0x31 [s.net.nextVer, slot.toNat] :: s.out ∧ Frame [.net, .out, .fly] s t) ∧
  (∀ (slot : BitVec 50) (s : State) (c : Commit), s.net.commit = some c → c.slot ≤ slotNow s + 1 → (∃ k ∈ commitSites s c, k ∉ c.confirmed) →
    c.slot < slot.toNat → slotNow s < slot.toNat →
    ∃ t, exec (.commitWithdraw slot) s = .next t ∧ t.net.commit = some { c with slot := slot.toNat } ∧ t.net.active = s.net.active ∧
      t.out = .rill rillAll 1 0x31 [c.ver, slot.toNat] :: s.out ∧ Frame [.net, .out, .fly] s t) ∧
  (∀ (s : State) (c : Commit), s.net.commit = some c → c.slot ≤ slotNow s → atBoundary s = true → (∀ k ∈ commitSites s c, k ∈ c.confirmed) →
    let new := (commitSites s c).foldl (fun t k => match tget? s.net.shadow k with | some r => if r.ver == c.ver then tset t k r else t | none => t) s.net.active
    routesOk s new ((commitSites s c).filter fun t => !(c.leave.any (·.1 == t))) = true →
    ∃ t, exec .routeCommit s = .next t ∧ t.net.commit = none ∧ t.net.prev = s.net.active ∧ t.net.gen = s.net.gen + 1 ∧
      (∀ k ∈ commitSites s c, ∀ r, tget? s.net.shadow k = some r → r.ver = c.ver → tget? t.net.active k = some r) ∧
      (∀ k, k ∉ commitSites s c → tget? t.net.active k = tget? s.net.active k) ∧
      regLive t 0x7010 0 = (regLive s 0x7010 0 + 1) % 2 ^ 32)

/-- R63, R64: a die leaves service once its routers are empty, and returns when its PLL has relocked and its ports have retrained. -/
def Obligations.DiesLeaveAndReturn : Prop :=
  (∀ (site : Fin 88) (s : State), tget? s.net.leaving site = some .draining →
    (∀ m p, (m, Msg.packet p) ∈ s.fly → p.site ≠ site.val) →
    ∃ t, exec (.routersEmpty site) s = .next t ∧ tget? t.net.leaving site = some (.gated s.now) ∧ t.out = .pin 0x20 site :: s.out ∧ Frame [.net, .out] s t) ∧
  (∀ (site : Fin 88) (s : State) (at_ : Nat), tget? s.net.leaving site = some (.gated at_) →
    ∃ t, exec (.pllStop site) s = .next t ∧ t.now = max s.now (at_ + 64) ∧ t.out = .pin 0x22 site :: .pin 0x21 site :: s.out ∧
      tget t.lev.offAt site 0 = t.now ∧ Frame [.now, .net, .out, .lev] s t) ∧
  (∀ (site : Fin 88) (s : State), pllRuns s site = true →
    ∃ t, exec (.pllLockLoss site) s = .next t ∧ siteAvail t site = false ∧ OutWhy.pll ∈ siteReasons t site ∧ (t.bst.tests.any fun x => x.site == site.val) = true ∧ t.net.routesDue = true) ∧
  (∀ (site : Fin 88) (s : State) (r : Rejoin), tget? s.net.rejoin site = some r → r.started = false → r.slot ≤ slotNow s →
    ∃ t, exec (.dieReenable site) s = .next t ∧ tget? t.net.rejoin site = some { r with started := true } ∧ Frame [.net] s t) ∧
  (∀ (site : Fin 88) (s : State) (r : Rejoin), tget? s.net.rejoin site = some r → r.started = true → r.relocked = false →
    ∃ t, exec (.dieRelockDone site) s = .next t ∧ tget? t.net.rejoin site = some { r with relocked := true } ∧ site.val ∈ t.net.toJoin ∧
      t.net.routesDue = true ∧ Frame [.net] s t) ∧
  (∀ (site : Fin 88) (s : State) (r : Rejoin), tget? s.net.rejoin site = some r → r.started = true → r.relocked = false → r.misses < 2 →
    ∃ t, exec (.dieRelockMiss site) s = .next t ∧
      tget? t.net.rejoin site = some { r with slot := slotNow s + 1, started := false, misses := r.misses + 1 } ∧
      t.err = (raise site bTID sCont 0x10 none site (r.misses + 1) 0 s).err) ∧
  (∀ (site : Fin 88) (s : State) (r : Rejoin), tget? s.net.rejoin site = some r → Tab.sorted s.net.rejoin = true → r.started = true → r.relocked = false →
    2 ≤ r.misses →
    ∃ t, exec (.dieRelockMiss site) s = .next t ∧ tget? t.net.rejoin site = none ∧ (t.bst.tests.any fun x => x.site == site.val) = true)

/-- R37 to R39: a Rill message whose check passes reaches its endpoint along the topology, and lets its source send the next one it holds; one whose
check fails stays in flight, to be sent again, and is counted. -/
def Obligations.RillMessagesArrive : Prop :=
  (∀ (m : Nat) (s : State) (r : RillMsg), tget? s.fly m = some (.rill r) → Tab.sorted s.fly = true → m < s.flyNext → rillBehind s m r = false →
    rillPath s r.src r.dst = true →
    ∃ t, exec (.rillMessage m none) s = .next t ∧ tget? t.fly m = none ∧
      (r.kind % 256 ≠ 0x40 → Frame [.fly, .net] s t) ∧ Frame [.fly, .net, .rsv, .edy] s t ∧
      (tget s.net.rillHeld r.src [] = [] → t.flyNext = s.flyNext ∧ t.net = s.net) ∧
      (∀ q rest, tget s.net.rillHeld r.src [] = q :: rest → rillOut (unfly m s) r.src < 4 →
        tget? t.fly s.flyNext = some (.rill q) ∧ tget t.net.rillHeld r.src [] = rest)) ∧
  (∀ (m : Nat) (got : List Word) (s : State) (r : RillMsg), tget? s.fly m = some (.rill r) → rillBehind s m r = false → rillPath s r.src r.dst = true →
    rillGood (got.map (·.toNat)) = false →
    let u := if r.dst < 165 then r.dst else r.src
    ∃ t, exec (.rillMessage m (some got)) s = .next t ∧
      tget t.tel.vals (telKey bRIL 2 0 u) 0 = min (tget s.tel.vals (telKey bRIL 2 0 u) 0 + 1) (2 ^ 64 - 1) ∧ Frame [.tel] s t)

/-- R43, R45, R46: each check of a tide input, passed or failed. -/
def Obligations.TideInputsAreChecked : Prop :=
  (∀ (slot : BitVec 50) (capture : BitVec 64) (s : State),
    let bits := (List.range 50).map fun k => if slot.toNat.testBit k then TideSym.one else .zero
    let off : Int := (capture.toNat : Int) - (slot.toNat * 16384 + tideinDelay s)
    (∀ l, s.tide.tin.last = some l → slot.toNat = l + 1) →
    (s.tide.st = .locked → inputUsed s true = true → (off - s.tide.tin.off).natAbs ≤ 1) →
    ∃ t, exec (.tideFrame (.marker :: bits ++ [if bits.count .one % 2 = 1 then .one else .zero]) capture) s = .next t ∧
      t.tide.tin = { s.tide.tin with qual := min (s.tide.tin.qual + 1) 16, off := off, last := some slot.toNat, badFrame := 0, badCont := 0, badPhase := 0 } ∧
      Frame [.tide] s t) ∧
  (∀ (syms : List TideSym) (capture : BitVec 64) (s : State), syms.length = 52 →
    syms.head? ≠ some .marker ∨ (∃ b ∈ syms.drop 1, b ≠ .zero ∧ b ≠ .one) ∨ (syms.drop 1).count .one % 2 = 1 →
    ∃ t, exec (.tideFrame syms capture) s = .next t ∧ t.tide.tin.qual = 0 ∧
      tget t.tel.vals (telKey bTID 3 0 unitBR) 0 = satAdd 64 (tget s.tel.vals (telKey bTID 3 0 unitBR) 0) 1) ∧
  (∀ (s : State), ∃ t, exec .tideEdgeLoss s = .next t ∧ t.now = s.now + 64 ∧ t.tide.tin.qual = 0 ∧ t.tide.tin.last = none ∧
      (inputUsed s true = true → s.tide.st = .locked ∨ s.tide.st = .slew → t.tide.st = .holdover) ∧
      (inputUsed s true = true → s.tide.src = 2 → t.tide.useTidein = false)) ∧
  (∀ (tidein : Bool) (ticks : Nat) (s : State), 149997 ≤ ticks → ticks ≤ 150003 →
    ∃ t, exec (.frequencyWindow tidein ticks) s = .next t ∧ tideIn t tidein = { tideIn s tidein with freqOk := true } ∧ t.tide.st = s.tide.st ∧ Frame [.tide] s t) ∧
  (∀ (tidein : Bool) (ticks : Nat) (s : State), ticks < 149997 ∨ 150003 < ticks →
    ∃ t, exec (.frequencyWindow tidein ticks) s = .next t ∧ (tideIn t tidein).freqOk = false ∧ (tideIn t tidein).qual = 0 ∧
      (inputUsed s tidein = true → s.tide.st = .locked ∨ s.tide.st = .slew → t.tide.st = .holdover)) ∧
  (∀ (s : State), ∃ t, exec .tideMessageAbsent s = .next t ∧ t.now = max s.now (s.tide.csnAt + 4 * 16384) ∧ t.tide.csn.qual = 0 ∧
      (inputUsed s false = true → s.tide.st = .locked ∨ s.tide.st = .slew → t.tide.st = .holdover))

/-- R47, R49, R50, R51: what the tide unit does when an input qualifies, state by state. -/
def Obligations.QualifiedInputIsJudged : Prop :=
  ∀ (tidein : Bool) (s : State), 16 ≤ (tideIn s tidein).qual → (tideIn s tidein).freqOk = true → inputAllowed s tidein = true →
    (tidein = false → s.tide.src = 2 → s.tide.tin.qual < 16) →
    ∃ t, exec (.inputQualified tidein) s = .next t ∧
      (s.tide.st = .acquire → s.tide.powerOnAcquire = true →
        t.tide.st = .locked ∧ t.tide.count = inputCount s tidein % 2 ^ 64 ∧ t.tide.offset = 0 ∧ t.tide.useTidein = tidein) ∧
      (s.tide.st = .holdover → s.tide.stuck = true → t.tide = s.tide) ∧
      ((s.tide.st = .holdover ∧ s.tide.stuck = false) ∨ (s.tide.st = .acquire ∧ s.tide.powerOnAcquire = false) →
        t.tide.count = s.tide.count ∧ t.tide.useTidein = tidein ∧
        ((tideIn s tidein).off = 0 → t.tide.st = .locked) ∧
        ((tideIn s tidein).off ≠ 0 → offsetOk s (tideIn s tidein).off = true → t.tide.st = .slew ∧ t.tide.offset = (tideIn s tidein).off) ∧
        ((tideIn s tidein).off ≠ 0 → offsetOk s (tideIn s tidein).off = false → t.tide.st = .holdover ∧ t.tide.mismatch = true ∧ t.tide.stuck = true)) ∧
      (s.tide.st = .free →
        t.tide.count = s.tide.count ∧
        ((tideIn s tidein).off = 0 → t.tide.st = .locked) ∧
        ((tideIn s tidein).off ≠ 0 → (tideIn s tidein).off.natAbs ≤ 64 → t.tide.st = .slew) ∧
        (64 < (tideIn s tidein).off.natAbs → s.tide.adopt = false → t.tide.st = .free ∧ t.tide.adopt = true ∧ t.tide.mismatch = true))

/-- R47, R50, R51, R496: the timeout of ACQUIRE, the choice of a source, a new count, and the adoption of the input's. -/
def Obligations.TideUnitChangesState : Prop :=
  (∀ (s : State), s.tide.st = .acquire →
    ∃ t, exec .acquireTimeout s = .next t ∧ t.tide.st = .free ∧ t.now = max s.now (s.tide.acqAt + 150000000) ∧ t.tide.count = s.tide.count) ∧
  (∀ (x : RegIn) (s r : State) (m : Master) (val mask : Nat), Writes x s m 0x9000 val mask r → Owns r m → mask % 4 = 3 →
    ∃ t, exec (.srcSelWrite x) s = .next t ∧ t.tide = { r.tide with srcPend := some (val % 4, r.tide.bnd) }) ∧
  (∀ (s : State) (v b : Nat), s.tide.srcPend = some (v, b) → b < s.tide.bnd → atBoundary s = true →
    ∃ t, exec .srcSelApply s = .next t ∧ t.tide.src = v ∧ t.tide.srcPend = none ∧ t.tide.count = s.tide.count ∧
      (v = 3 → t.tide.st = .free) ∧ (v ≠ 3 → t.tide.st = .acquire ∧ t.tide.powerOnAcquire = false ∧ t.tide.acqAt = s.now)) ∧
  (∀ (x : RegIn) (s r : State) (m : Master) (val mask : Nat), Writes x s m 0x901C val mask r → Owns r m → mask ≠ 0 → anyRunning r = false →
    ∃ t, exec (.rebaseWrite x) s = .next t ∧ t.tide = { r.tide with rebasePend := some (r.tide.rebaseLo + 2 ^ 32 * (val &&& mask), r.tide.bnd) }) ∧
  (∀ (x : RegIn) (s r : State) (m : Master) (val mask : Nat), Writes x s m 0x901C val mask r → Owns r m → mask ≠ 0 → anyRunning r = true →
    ∃ t, exec (.rebaseWrite x) s = .next t ∧ t.tide = r.tide) ∧
  (∀ (s : State) (v b : Nat), s.tide.rebasePend = some (v, b) → b < s.tide.bnd → atBoundary s = true →
    ∃ t, exec .rebaseApply s = .next t ∧ t.tide.count = v % 2 ^ 64 ∧ t.tide.rebasePend = none ∧ (t.tide.stuck = true → t.tide.mismatch = true) ∧
      ((tideIn s s.tide.useTidein).qual < 16 → t.tide.st = s.tide.st)) ∧
  (∀ (s : State), s.tide.st = .free → s.tide.adopt = true → atBoundary s = true → anyRunning s = false → 16 ≤ (tideIn s s.tide.useTidein).qual →
    ∃ t, exec .countAdopt s = .next t ∧ t.tide.st = .locked ∧ t.tide.count = inputCount s s.tide.useTidein % 2 ^ 64 ∧ t.tide.adopt = false)

/-- R40, R53, R56: the slot boundary, the markers that announce the next one, and the latch of what was written before it. -/
def Obligations.SlotBoundaryRuns : Prop :=
  (∀ (s : State), s.tide.markerSent = false →
    ∃ t, exec .slotMarkerSend s = .next t ∧ t.now = max s.now (s.tide.slotAt + 8192) ∧
      t.out = .rill rillAll 1 0x30 [(slotNow s + 1) % 2 ^ 50, nextLen s.tide] :: s.out ∧ t.tide = { s.tide with markerSent := true } ∧
      Frame [.now, .out, .tide, .fly, .net] s t) ∧
  (∀ (ep : Fin 164) (slot : BitVec 50) (len : Nat) (s : State) (e : Endpoint), tget? s.tide.eps ep = some e → slot.toNat = (e.slot + 1) % 2 ^ 50 →
    ∃ t, exec (.slotMarker ep slot len) s = .next t ∧ tget? t.tide.eps ep = some { e with next := some (slot.toNat, len) } ∧ Frame [.tide] s t) ∧
  (∀ (ep : Fin 164) (slot : BitVec 50) (len : Nat) (s : State) (e : Endpoint), tget? s.tide.eps ep = some e → slot.toNat ≠ (e.slot + 1) % 2 ^ 50 →
    ∃ t, exec (.slotMarker ep slot len) s = .next t ∧ tget? t.tide.eps ep = some { e with next := some (slot.toNat, len) } ∧
      t.err = (raise ep bTID sCont 0x08 none s.tide.count (unsN 64 ((slot.toNat : Int) - (e.slot + 1))) 5 s).err) ∧
  (∀ (ep : Fin 164) (slot : BitVec 50) (len : Nat) (s : State), tget? s.tide.eps ep = none →
    ∃ t e, exec (.slotMarker ep slot len) s = .next t ∧ tget? t.tide.eps ep = some e ∧ e.next = some (slot.toNat, len) ∧ Frame [.tide] s t) ∧
  (∀ (overs : List (Fin 64)) (s : State),
    ∃ t, exec (.slotBoundary overs) s = .next t ∧ t.tide.bnd = s.tide.bnd + 1 ∧ t.tide.count = ((s.tide.count / 16384 + 1) * 16384) % 2 ^ 64 ∧
      t.now = max s.now (s.tide.slotAt + s.tide.len) ∧ t.tide.slotAt = t.now ∧ t.tide.markerSent = false ∧ t.regs.dirty = [] ∧ t.regs.live = s.regs.live ∧
      (s.tel.dumpArmed = true → s.tel.dumpBnd ≤ s.tide.bnd → t.tel.dumpArmed = false ∧ t.tel.snap.isSome = true)) ∧
  (∀ (s : State), Tab.sorted s.regs.latch = true →
    ∃ t, exec .shadowLatch s = .next t ∧ t.regs.latch = [] ∧ t.regs.written = s.regs.written ∧
      ∀ k v, tget? s.regs.latch k = some v →
        regLive t (k / 2 ^ 20) (k % 2 ^ 20) =
          ((regLive s (k / 2 ^ 20) (k % 2 ^ 20) - (regLive s (k / 2 ^ 20) (k % 2 ^ 20) &&& shadowMask (k / 2 ^ 20))) ||| v))

/-- R68, R75, R83, R89, R102: narrow and wide loads and stores of a ready thread whose word spells them, with the waits and traps of their forms. -/
def Obligations.CellLoadsAndStores : Prop :=
  ∀ (l : Fin 1024000) (th : Fin 4) (c : Nat) (s : State),
    let x := getCell s l
    let h := getTh x th
    (∀ (rt rb : Fin 32) (sz : Fin 4) (sxb : Bool) (off : BitVec 12), Spelled s l th c (.ldn rt rb sz sxb off) →
      let a := effAddr h rb off.toInt
      let v := leNat (bread x.mem a (2 ^ sz.val))
      let r := issued th (setG rt (if sxb then unsN 32 (sgnN (8 * 2 ^ sz.val) v) else v))
      (sz.val ≠ 3 → a % 2 ^ sz.val = 0 → a ≤ 0xFEFF → access x c (a / 256) false = .ok →
        (∃ t, exec (.ldn l th rt rb sz sxb off .clean) s = .next t ∧ CellStep [] l r s t) ∧
        (∃ t, exec (.ldn l th rt rb sz sxb off .corrected) s = .next t ∧ Counted (telKey bCEL 3 2 l) 1 s t ∧
          t.err = (raise (cellUnit s l) bCEL sCorr 0x01 (some c) (l + a * 2 ^ 32) 0 0 s).err ∧
          CellStep [.tel, .err, .out] l (fun y => r { y with writeback := addN y.writeback (a / 16 * 16) }) s t)) ∧
      (sz.val ≠ 3 → a % 2 ^ sz.val = 0 → a ≤ 0xFEFF → access x c (a / 256) false = .wait →
        ∃ t, exec (.ldn l th rt rb sz sxb off .clean) s = .next t ∧ Waits s l th (.ldn rt rb sz sxb off) t) ∧
      (∀ k, sz.val ≠ 3 → a % 2 ^ sz.val = 0 → a ≤ 0xFEFF → access x c (a / 256) false = .trap k →
        ∃ t, exec (.ldn l th rt rb sz sxb off .clean) s = .next t ∧ Trapped s l th c h.pc k t) ∧
      (sz.val = 3 → ∃ t, exec (.ldn l th rt rb sz sxb off .clean) s = .next t ∧ Trapped s l th c h.pc .illegal t) ∧
      (sz.val ≠ 3 → a % 2 ^ sz.val ≠ 0 → ∃ t, exec (.ldn l th rt rb sz sxb off .clean) s = .next t ∧ Trapped s l th c h.pc .alignment t) ∧
      (sz.val ≠ 3 → a % 2 ^ sz.val = 0 → 0xFEFF < a → ∃ t, exec (.ldn l th rt rb sz sxb off .clean) s = .next t ∧ Trapped s l th c h.pc .address t)) ∧
    (∀ (rt rb : Fin 32) (sz : Fin 4) (off : BitVec 12), Spelled s l th c (.stn rt rb sz off) →
      let a := effAddr h rb off.toInt
      (sz.val ≠ 3 → a % 2 ^ sz.val = 0 → a ≤ 0xFEFF → access x c (a / 256) true = .ok →
        ∃ t, exec (.stn l th rt rb sz off .clean) s = .next t ∧ Stored x (getCell t l) a (natLE (2 ^ sz.val) (getG h rt)) ∧
          CellStep [] l (fun y => { issued th id y with mem := (getCell t l).mem }) s t) ∧
      (sz.val ≠ 3 → a % 2 ^ sz.val = 0 → a ≤ 0xFEFF → access x c (a / 256) true = .wait →
        ∃ t, exec (.stn l th rt rb sz off .clean) s = .next t ∧ Waits s l th (.stn rt rb sz off) t) ∧
      (sz.val = 3 → ∃ t, exec (.stn l th rt rb sz off .clean) s = .next t ∧ Trapped s l th c h.pc .illegal t)) ∧
    (∀ (vt : Fin 8) (rb : Fin 32) (rel : Bool) (off : BitVec 10), Spelled s l th c (.vld vt rb rel off) →
      let a := effAddr h rb (64 * off.toInt)
      a % 64 = 0 → a ≤ 0xFEFF → access x c (a / 256) false = .ok →
        (rel = false → ∃ t, exec (.vld l th vt rb rel off .clean) s = .next t ∧ CellStep [] l (issued th (setV vt (bread x.mem a 64))) s t) ∧
        (rel = true → (tagOf x (a / 256)).st = .full → ∃ t, exec (.vld l th vt rb rel off .clean) s = .next t ∧
          CellStep [] l (fun y => consume (a / 256) (issued th (setV vt (bread x.mem a 64)) y)) s t) ∧
        (rel = true → (tagOf x (a / 256)).st = .resident → ∃ t, exec (.vld l th vt rb rel off .clean) s = .next t ∧ Trapped s l th c h.pc .tagProtocol t)) ∧
    (∀ (vt : Fin 8) (rb : Fin 32) (off : BitVec 10), Spelled s l th c (.vst vt rb off) →
      let a := effAddr h rb (64 * off.toInt)
      (a % 64 = 0 → a ≤ 0xFEFF → access x c (a / 256) true = .ok →
        ∃ t, exec (.vst l th vt rb off .clean) s = .next t ∧ Stored x (getCell t l) a (getV h vt) ∧
          CellStep [] l (fun y => { issued th id y with mem := (getCell t l).mem }) s t) ∧
      (a % 64 = 0 → a ≤ 0xFEFF → access x c (a / 256) true = .wait →
        ∃ t, exec (.vst l th vt rb off .clean) s = .next t ∧ Waits s l th (.vst vt rb off) t) ∧
      (a % 64 ≠ 0 → ∃ t, exec (.vst l th vt rb off .clean) s = .next t ∧ Trapped s l th c h.pc .alignment t))

/-- R72, R76, R79, R103: the tag operations of a ready thread on a span it may name, each with its condition met, and where they wait or trap. -/
def Obligations.TagOperationsRun : Prop :=
  ∀ (l : Fin 1024000) (th : Fin 4) (c : Fin 1024) (rs rc : Fin 32) (n : Fin 16) (slot : BitVec 8) (slots : List Nat) (s : State),
    let x := getCell s l
    let h := getTh x th
    let all := tagAll x slots
    let word (op : Fin 16) (rc : Fin 32) : Prop := Spelled s l th c (.tag op rs rc n slot)
    tagSpan h rs n slot.toNat = some slots → tagOwned x c all = true → (∀ k ∈ all, (tagOf x k).st ≠ .scrub) →
    (word 0 0 → (∀ k ∈ all, (tagOf x k).st = .full ∨ (tagOf x k).st = .resident) →
      ∃ t, exec (.twait l th rs n slot .clean) s = .next t ∧ CellStep [] l (issued th id) s t) ∧
    (word 0 0 → (∃ k ∈ all, (tagOf x k).st = .empty) → (∀ k ∈ all, (tagOf x k).st ≠ .poison) →
      ∃ t, exec (.twait l th rs n slot .clean) s = .next t ∧ Waits s l th (.tag 0 rs 0 n slot) t) ∧
    (word 1 0 → (∀ k ∈ all, (tagOf x k).st = .empty ∧ (tagOf x k).pend = false) →
      ∃ t, exec (.twaite l th rs n slot .clean) s = .next t ∧ CellStep [] l (issued th id) s t) ∧
    (word 1 0 → (∃ k ∈ all, (tagOf x k).st ≠ .empty ∨ (tagOf x k).pend = true) → (∀ k ∈ all, (tagOf x k).st ≠ .poison) →
      ∃ t, exec (.twaite l th rs n slot .clean) s = .next t ∧ Waits s l th (.tag 1 rs 0 n slot) t) ∧
    (word 2 rc → (∀ k ∈ all, (tagOf x k).st = .empty ∧ (tagOf x k).pend = false ∧ (tagOf x k).owner = c.val) →
      ∃ t, exec (.tfull l th rs rc n slot .clean) s = .next t ∧
        (∀ k, tagOf (getCell t l) k = if k ∈ all then { tagOf x k with st := .full, cnt := cntOf (getG h rc) } else tagOf x k) ∧
        CellStep [] l (fun y => { issued th id y with tags := (getCell t l).tags }) s t) ∧
    (word 2 rc → (∃ k ∈ all, (tagOf x k).st = .full ∨ (tagOf x k).st = .resident) → (∀ k ∈ all, (tagOf x k).st ≠ .poison) →
      ∃ t, exec (.tfull l th rs rc n slot .clean) s = .next t ∧ Trapped s l th c h.pc .tagProtocol t) ∧
    (word 3 0 → (∀ k ∈ all, (tagOf x k).st = .full) → (∀ k ∈ slots, (tagOf x k).tile = false) →
      ∃ t, exec (.trel l th rs n slot .clean) s = .next t ∧
        (∀ k, tagOf (getCell t l) k = if k ∈ slots then consumed (tagOf x k) else tagOf x k) ∧
        CellStep [] l (fun y => { issued th id y with tags := (getCell t l).tags }) s t) ∧
    (word 3 0 → (∀ k ∈ all, (tagOf x k).st = .full) →
      ∃ t, exec (.trel l th rs n slot .clean) s = .next t ∧ CellStep [] l (fun y => issued th id ((unitHeads y slots).foldl (fun y k => consume k y) y)) s t) ∧
    (word 4 0 → (∀ k ∈ all, ((tagOf x k).st = .full ∨ ((tagOf x k).st = .empty ∧ (tagOf x k).pend = false)) ∧ (tagOf x k).owner = c.val) →
      ∃ t, exec (.tpin l th rs n slot .clean) s = .next t ∧
        (∀ k, tagOf (getCell t l) k = if k ∈ all then { tagOf x k with st := .resident, cnt := 0 } else tagOf x k) ∧
        CellStep [] l (fun y => { issued th id y with tags := (getCell t l).tags }) s t) ∧
    (word 5 0 → (∀ k ∈ all, (tagOf x k).st = .resident ∧ (tagOf x k).owner = c.val) →
      ∃ t, exec (.tunpin l th rs n slot .clean) s = .next t ∧ CellStep [] l (fun y => issued th id ((unitHeads y slots).foldl (fun y k => toEmpty k y) y)) s t) ∧
    (word 6 rc → ∃ t, exec (.tstat l th rs rc n slot .clean) s = .next t ∧ CellStep [] l (issued th (setG rc (tagWord (tagOf x (slots.headD 0))))) s t)

/-- R88, R89, R94, R95, R101, R103, R105, R115, R121, R144: control, integer and vector instructions of a ready thread, and undefined ones. -/
def Obligations.ThreadsComputeAndBranch : Prop :=
  ∀ (l : Fin 1024000) (th : Fin 4) (p : Prog) (s : State), (getCell s l).prog = some p →
    let x := getCell s l
    let h := getTh x th
    (SpelledPlain s l th p.ctx →
      (∀ n : Fin 32, ∃ t, exec (.trail l th n .clean) s = .next t ∧
        CellStep [] l (issued th fun h => { h with tmpl := (getG h n % 65536, getG h ((n + 1) % 32) % 65536, getG h ((n + 2) % 32) + 2 ^ 32 * getG h ((n + 3) % 32)) }) s t) ∧
      (∃ t, exec (.halt l th .clean) s = .next t ∧ getTh (getCell t l) th = { h with st := .halted } ∧
        ((getCell t l).prog = none ↔ ∀ e ∈ (getCell t l).threads, e.2.st = .idle ∨ e.2.st = .halted ∨ ∃ c, e.2.st = .trapped c) ∧
        CellStep [] l (fun y => { modTh th (fun h => { h with st := .halted }) y with prog := (getCell t l).prog }) s t) ∧
      (∀ (target : BitVec 16), ∃ t, exec (.branch l th true target .clean) s = .next t ∧ CellStep [] l (modTh th fun h => { h with pc := target.toNat }) s t) ∧
      (∀ (target : BitVec 16), ∃ t, exec (.branch l th false target .clean) s = .next t ∧ CellStep [] l (issued th id) s t) ∧
      (∀ (op : BitVec 8) (rt ra rb : Fin 32) (imm : Word), ∃ t, exec (.integerOp l th (some op) rt ra rb imm .clean) s = .next t ∧
        CellStep [] l (issued th (setG rt (Config.aluResult op.toNat (getG h ra) (getG h rb) imm.toNat).toNat)) s t) ∧
      (∀ (rt ra rb : Fin 32) (imm : Word), ∃ t, exec (.integerOp l th none rt ra rb imm .clean) s = .next t ∧ Trapped s l th p.ctx h.pc .illegal t) ∧
      (∀ (op : VOp) (half : Bool) (vd va vb vc : Fin 8), ∃ t, exec (.vectorArith l th op half vd va vb vc .clean) s = .next t ∧
        CellStep [.free] l (issued th (setV vd (vecOp op half s.free (getV h va) (getV h vb) (getV h vc)))) s t) ∧
      (∀ (cv : VConv) (sr : Bool) (vd va : Fin 8), convOk cv = true → convRow cv = none →
        let o := convert cv (convSr cv sr) (srDraw (srKey (p.slot * 16384) l p.ctx) th h.srN) h va
        ∃ t, exec (.vectorConvert l th cv sr vd va .clean) s = .next t ∧ Counted (telKey bCEL 6 2 l) o.sats s t ∧ Counted (telKey bCEL 7 2 l) o.nonfin s t ∧
          CellStep [.tel] l (issued th fun h => { setV vd o.bytes h with srN := h.srN + b2n (convSr cv sr) }) s t) ∧
      (∀ (cv : VConv) (sr : Bool) (vd va : Fin 8) (row bit : Nat), convOk cv = true → convRow cv = some (row, bit) → row % 64 = 0 → row ≤ 0xFEFF →
        let o := convert cv true (srDraw (srKey (p.slot * 16384) l p.ctx) th h.srN) h va
        ∃ t, exec (.vectorConvert l th cv sr vd va .clean) s = .next t ∧
          CellStep [.tel] l (fun y => issued th (fun h => { setV vd o.bytes h with srN := h.srN + 1 }) (orFlags row bit o y)) s t ∧
          tget (getCell t l).flags (row / 2048) 0 =
            tget x.flags (row / 2048) 0 ||| (b2n o.ovf * 2 ^ bit) ||| (b2n o.hot * 2 ^ (16 + bit)) ||| (b2n o.nf * 2 ^ (32 + bit))) ∧
      (∀ (cv : VConv) (sr : Bool) (vd va : Fin 8), convOk cv = false →
        ∃ t, exec (.vectorConvert l th cv sr vd va .clean) s = .next t ∧ Trapped s l th p.ctx h.pc .illegal t)) ∧
    (∀ (op : Fin 16) (rs rc : Fin 32) (n : Fin 16) (slot : BitVec 8) (rt ra rb : Fin 32) (imm : Word), Spelled s l th p.ctx (.tag op rs rc n slot) → 7 ≤ op.val →
      ∃ t, exec (.integerOp l th none rt ra rb imm .clean) s = .next t ∧ Trapped s l th p.ctx h.pc .illegal t) ∧
    (∀ (n : Fin 32), h.st = .run → fetchOk x p.ctx h.pc = false → ∃ t, exec (.trail l th n .clean) s = .next t ∧ Trapped s l th p.ctx h.pc .fetch t)

/-- R89, R90, R91, R92, R102: FETCH, SEND and LDX of a ready thread enter the cell's DMA, and a cell-space request leaves; or they wait or trap. -/
def Obligations.RemoteOperationsIssue : Prop :=
  ∀ (l : Fin 1024000) (th : Fin 4) (c : Nat) (s : State),
    let x := getCell s l
    let h := getTh x th
    let op (kind : RemKind) (r a n cnt : Nat) (rel : Bool) (rt : Nat) (tmpl : Nat × Nat × Nat) : RemOp :=
      { id := x.nextOp, kind := kind, th := th, ctx := c, pc := h.pc, prog := x.progs, remote := r, loc := a, len := n, cnt := cnt, rel := rel, rt := rt, tmpl := tmpl, st := .asked }
    (∀ (ra rl : Fin 32) (len : Fin 8) (cnt : Fin 16) (n : Nat), Spelled s l th c (.fetch ra rl len cnt) → remLen len = some n → ra.val % 2 = 0 →
      let a := getG h rl % 65536
      let r := remoteAddr h ra
      a % n = 0 → remoteBad r n = none → a + n ≤ 0xFF00 → (∀ k ∈ slotsOf a n, (tagOf x k).owner = c) →
      ((∀ k ∈ slotsOf a n, (tagOf x k).st = .empty ∧ (tagOf x k).pend = false) → x.ops.length < 16 →
        ∃ t, exec (.fetch l th ra rl len cnt .clean) s = .next t ∧
          (∀ k, tagOf (getCell t l) k = if k ∈ slotsOf a n then { tagOf x k with pend := true } else tagOf x k) ∧
          (remSpace r = 0 → Sent none (.readReq l x.nextOp (remCell r) (remSpad r) n c none) s t) ∧ (remSpace r = 1 → t.fly = s.fly) ∧
          CellStep [.fly] l (fun y => { issued th id y with tags := (getCell t l).tags, ops := x.ops ++ [op .fetch r a n cnt false 0 (0, 0, 0)], nextOp := x.nextOp + 1 }) s t) ∧
      ((∃ k ∈ slotsOf a n, (tagOf x k).st = .scrub) → (∀ k ∈ slotsOf a n, (tagOf x k).st ≠ .poison) →
        ∃ t, exec (.fetch l th ra rl len cnt .clean) s = .next t ∧ Trapped s l th c h.pc .tagProtocol t) ∧
      ((∃ k ∈ slotsOf a n, (tagOf x k).st = .full ∨ (tagOf x k).st = .resident ∨ (tagOf x k).pend = true) →
        (∀ k ∈ slotsOf a n, (tagOf x k).st ≠ .poison ∧ (tagOf x k).st ≠ .scrub) →
        ∃ t, exec (.fetch l th ra rl len cnt .clean) s = .next t ∧ Waits s l th (.fetch ra rl len cnt) t)) ∧
    (∀ (ra rl : Fin 32) (len : Fin 8) (cnt : Fin 16) (rel : Bool) (n : Nat), Spelled s l th c (.send ra rl len cnt rel) → remLen len = some n → ra.val % 2 = 0 →
      let a := getG h rl % 65536
      let r := remoteAddr h ra
      a % n = 0 → remoteBad r n = none → a + n ≤ 0xFF00 → accessAll x c (slotsOf a n) false = .ok →
      (x.ops.length < 16 →
        ∃ t, exec (.send l th ra rl len cnt rel .clean) s = .next t ∧
          (remSpace r = 0 → Sent none (.sendReq l x.nextOp none) s t) ∧ (remSpace r = 1 → t.fly = s.fly) ∧
          CellStep [.fly] l (fun y => { issued th id y with ops := x.ops ++ [op .send r a n cnt rel 0 h.tmpl], nextOp := x.nextOp + 1 }) s t) ∧
      (16 ≤ x.ops.length → ∃ t, exec (.send l th ra rl len cnt rel .clean) s = .next t ∧ Waits s l th (.send ra rl len cnt rel) t)) ∧
    (∀ (rt ra : Fin 32), Spelled s l th c (.ldx rt ra) →
      let r := remoteAddr h ra
      (ra.val % 2 = 0 → remoteBad r 4 = none → x.ops.length < 16 →
        ∃ t, exec (.ldx l th rt ra .clean) s = .next t ∧
          (remSpace r = 0 → Sent none (.readReq l x.nextOp (remCell r) (remSpad r) 4 c none) s t) ∧ (remSpace r = 1 → t.fly = s.fly) ∧
          CellStep [.fly] l (fun y => { modTh th (fun h => { h with st := .ldx x.nextOp }) y with ops := x.ops ++ [op .ldx r 0 4 0 false rt (0, 0, 0)], nextOp := x.nextOp + 1 }) s t) ∧
      (ra.val % 2 = 1 → ∃ t, exec (.ldx l th rt ra .clean) s = .next t ∧ Trapped s l th c h.pc .illegal t) ∧
      (∀ k, ra.val % 2 = 0 → remoteBad r 4 = some k → ∃ t, exec (.ldx l th rt ra .clean) s = .next t ∧ Trapped s l th c h.pc k t))

/-- R72, R73, R75, R76, R89, R92, R93: what happens to a remote operation at its target and on its return. -/
def Obligations.RemoteOperationsComplete : Prop :=
  (∀ (m : Nat) (l : Fin 1024000) (s : State) (f : Fill) (op : Nat) (o : RemOp), tget? s.fly m = some (.fill f [l.val]) → sliced s l = false →
    f.poisoned = false → f.kind = .fetch op → findOp (getCell s l) op = some o →
    (∀ k ∈ slotsOf f.addr f.len, (tagOf (getCell s l) k).st = .empty ∧ (tagOf (getCell s l) k).owner = f.ctx) →
    (f.len ≠ 2048 → ∃ t, exec (.fillArrival m l none) s = .next t ∧ t.fly = tdel s.fly m ∧ Stored (getCell s l) (getCell t l) f.addr (fitB f.data f.len) ∧
      (∀ k, tagOf (getCell t l) k =
        if k ∈ slotsOf f.addr f.len then { tagOf (getCell s l) k with st := .full, cnt := cntOf f.cnt, pend := false } else tagOf (getCell s l) k) ∧
      CellStep [.fly] l (fun y => { y with mem := (getCell t l).mem, tags := (getCell t l).tags, ops := y.ops.filter (·.id != op) }) s t) ∧
    (f.len = 2048 → verifyTile s (fillExpect f) f.data f.trailer = .ok →
      ∃ t, exec (.fillArrival m l none) s = .next t ∧ t.fly = tdel s.fly m ∧ Stored (getCell s l) (getCell t l) f.addr (fitB f.data 2048) ∧
        (∀ k, tagOf (getCell t l) k =
          if k ∈ slotsOf f.addr 2048 then { tagOf (getCell s l) k with st := .full, cnt := cntOf f.cnt, pend := false, tile := true } else tagOf (getCell s l) k) ∧
        tget? (getCell t l).trailers (f.addr / 2048) = some (fitB f.trailer 32) ∧ Counted (telKey bCHK 0 2 l) 1 s t ∧
        CellStep [.fly, .tel] l (fun y => { y with mem := (getCell t l).mem, tags := (getCell t l).tags, trailers := (getCell t l).trailers, refetch := (getCell t l).refetch, ops := y.ops.filter (·.id != op) }) s t)) ∧
  (∀ (m l op v : Nat) (s : State) (o : RemOp), tget? s.fly m = some (.ldxData l op (some v)) → findOp (getCell s l) op = some o →
    (getTh (getCell s l) o.th).st = .ldx op →
    ∃ t, exec (.ldxReturn m) s = .next t ∧ t.fly = tdel s.fly m ∧
      CellStep [.fly] l (fun y => issued o.th (setG o.rt v) { y with ops := y.ops.filter (·.id != op) }) s t) ∧
  (∀ (m l op : Nat) (s : State) (o : RemOp), tget? s.fly m = some (.ldxData l op none) → findOp (getCell s l) op = some o →
    (getTh (getCell s l) o.th).st = .ldx op → (∃ p, (getCell s l).prog = some p) →
    ∃ t, exec (.ldxReturn m) s = .next t ∧ (getTh (getCell t l) o.th).st = .trapped .poison ∧ t.fly = tdel s.fly m) ∧
  (∀ (m src op dst a n c : Nat) (since : Option Nat) (s : State), tget? s.fly m = some (.readReq src op dst a n c since) → cellUsable s dst = true →
    sliced s dst = false →
    (∀ o, accessAll (getCell s dst) c (slotsOf a n) false = .ok → findOp (getCell s src) op = some o → opFirst (getCell s src) o = true →
      sendAhead s src o.th dst op = false →
      ∃ t, exec (.remoteReadServe m .clean) s = .next t ∧ Frame [.fly] s t ∧
        (o.kind = .ldx → Sent (some m) (.ldxData src op (some (leNat (bread (getCell s dst).mem a n)))) s t) ∧
        (o.kind = .fetch → Sent (some m) (.fill { kind := .fetch op, cell := src, addr := o.loc, len := n, cnt := o.cnt, ctx := c, data := bread (getCell s dst).mem a n, trailer := if n = 2048 then serveTrailer s dst a else [] } [src]) s t)) ∧
    (accessAll (getCell s dst) c (slotsOf a n) false = .wait →
      ∃ t, exec (.remoteReadServe m .clean) s = .next t ∧ t.fly = tset s.fly m (.readReq src op dst a n c (some (since.getD s.tide.bnd))) ∧
        t.tel = (cellStall dst s).tel ∧ Frame [.fly, .tel] s t) ∧
    (∀ k, accessAll (getCell s dst) c (slotsOf a n) false = .trap k →
      ∃ t, exec (.remoteReadServe m .clean) s = .next t ∧ Sent (some m) (.refuse src op) s t ∧ Frame [.fly] s t)) ∧
  (∀ (m l op : Nat) (s : State) (o : RemOp) (p : Prog), tget? s.fly m = some (.refuse l op) → findOp (getCell s l) op = some o → (getCell s l).prog = some p →
    ∃ t, exec (.remoteRefusal m) s = .next t ∧ t.fly = tdel s.fly m ∧
      (p.num = o.prog → (getTh (getCell t l) o.th).st = .trapped .remoteRefused ∧ (getCell t l).prog = none ∧
        t.err = (raise (cellUnit s l) bCEL sCont 0x04 (some p.ctx) (l + o.th * 2 ^ 32) o.pc 10 s).err) ∧
      (p.num ≠ o.prog → (getCell t l).prog = some p ∧ (getCell t l).threads = (getCell s l).threads ∧
        t.err = (raise (cellUnit s l) bCEL sCont 0x04 (some o.ctx) (l + o.th * 2 ^ 32) o.pc 10 s).err)) ∧
  (∀ (m src op : Nat) (since : Option Nat) (s : State) (o : RemOp), tget? s.fly m = some (.sendReq src op since) → findOp (getCell s src) op = some o →
    let dst := remCell o.remote
    let a := remSpad o.remote
    cellUsable s dst = true → sliced s dst = false →
    ((∀ k ∈ slotsOf a o.len, (tagOf (getCell s dst) k).owner = o.ctx ∧ (tagOf (getCell s dst) k).st = .empty ∧ (tagOf (getCell s dst) k).pend = false) →
      opFirst (getCell s src) o = true → accessAll (getCell s src) o.ctx (slotsOf o.loc o.len) false = .ok → o.len ≠ 2048 →
      ∃ t, exec (.sendDeliver m .clean) s = .next t ∧
        Sent (some m) (.fill { kind := .send src op o.th, cell := dst, addr := a, len := o.len, cnt := o.cnt, ctx := o.ctx, data := bread (getCell s src).mem o.loc o.len, trailer := [] } [dst]) s t ∧
        (∀ k ∈ slotsOf a o.len, tagOf (getCell t dst) k = { tagOf (getCell s dst) k with pend := true }) ∧
        (∀ q ∈ (getCell t src).ops, q.id = op → q.st = .leaving) ∧ Frame [.fly, .cells] s t) ∧
    ((∀ k ∈ slotsOf a o.len, (tagOf (getCell s dst) k).owner = o.ctx ∧ (tagOf (getCell s dst) k).st ≠ .scrub) → (∃ k ∈ slotsOf a o.len, (tagOf (getCell s dst) k).st ≠ .empty) →
      ∃ t, exec (.sendDeliver m .clean) s = .next t ∧ t.fly = tset s.fly m (.sendReq src op (some (since.getD s.tide.bnd))) ∧
        t.tel = (cellStall src s).tel ∧ Frame [.fly, .tel] s t) ∧
    ((∃ k ∈ slotsOf a o.len, (tagOf (getCell s dst) k).owner ≠ o.ctx) →
      ∃ t, exec (.sendDeliver m .clean) s = .next t ∧ Sent (some m) (.refuse src op) s t ∧ Frame [.fly] s t)) ∧
  (∀ (l : Fin 1024000) (op : Nat) (s : State) (o : RemOp), findOp (getCell s l) op = some o → o.kind = .send → o.st = .leaving →
    (o.rel = false → ∃ t, exec (.sendDone l op) s = .next t ∧ CellStep [] l (fun y => { y with ops := y.ops.filter (·.id != op) }) s t) ∧
    (o.rel = true → (∀ k ∈ tagAll (getCell s l) (slotsOf o.loc o.len), (tagOf (getCell s l) k).st = .full) →
      ∃ t, exec (.sendDone l op) s = .next t ∧
        CellStep [] l (fun y => { (unitHeads y (slotsOf o.loc o.len)).foldl (fun y k => consume k y) y with ops := y.ops.filter (·.id != op) }) s t) ∧
    (∀ p, o.rel = true → (∃ k ∈ tagAll (getCell s l) (slotsOf o.loc o.len), (tagOf (getCell s l) k).st ≠ .full) → (getCell s l).prog = some p → p.num = o.prog →
      ∃ t, exec (.sendDone l op) s = .next t ∧ Trapped s l o.th p.ctx o.pc .tagProtocol t))

/-- R75, R79, R96, R97, R98, R99, R100, R104, R119, R121: matrix streams and accumulator writes, of one cell and of a gang. -/
def Obligations.TheArrayComputes : Prop :=
  (∀ (l : Fin 1024000) (th : Fin 4) (p : Prog) (s : State) (ra rb rk : Fin 32) (fmt : Fin 8) (acc : Bool) (bank : Fin 2) (relA relB : Bool), (getCell s l).prog = some p →
    Spelled s l th p.ctx (.amm ra rb rk fmt acc bank relA relB) →
    let x := getCell s l
    let h := getTh x th
    let n := panelBytes (ammCode fmt) (getG h rk % 65536)
    (p.gang = true → gangLeader l = l.val ∧ (clusterCells l).all (cellUsable s) = true) →
    (kOk fmt (getG h rk % 65536) = false → ∃ t, exec (.amm l th ra rb rk fmt acc bank relA relB .clean) s = .next t ∧ Trapped s l th p.ctx h.pc .illegal t) ∧
    (kOk fmt (getG h rk % 65536) = true → getG h ra % 64 = 0 → getG h rb % 64 = 0 → getG h ra + n ≤ 0xFF00 → getG h rb + n ≤ 0xFF00 →
      ((∀ m ∈ x.streams, m.bank ≠ bank.val) →
        ∃ t, exec (.amm l th ra rb rk fmt acc bank relA relB .clean) s = .next t ∧
          CellStep [] l (fun y => { issued th id y with
            streams := x.streams ++ [{ ctx := p.ctx, gang := p.gang, prog := x.progs, pc := h.pc, bank := bank, a := getG h ra, b := getG h rb, k := getG h rk % 65536, fmt := fmt, acc := acc, relA := relA, relB := relB, th := th, st := .queued }] }) s t) ∧
      ((∃ m ∈ x.streams, m.bank = bank.val) →
        ∃ t, exec (.amm l th ra rb rk fmt acc bank relA relB .clean) s = .next t ∧ Waits s l th (.amm ra rb rk fmt acc bank relA relB) t))) ∧
  (∀ (l : Fin 1024000) (th : Fin 4) (p : Prog) (s : State) (rd rc : Fin 32) (ofmt : Fin 4) (pub : Bool) (bank : Fin 2), (getCell s l).prog = some p →
    Spelled s l th p.ctx (.aout rd rc ofmt pub bank) →
    let x := getCell s l
    let h := getTh x th
    (p.gang = true → gangLeader l = l.val ∧ (clusterCells l).all (cellUsable s) = true) →
    (1 < ofmt.val → ∃ t, exec (.aout l th rd rc ofmt pub bank .clean) s = .next t ∧ Trapped s l th p.ctx h.pc .illegal t) ∧
    (ofmt.val ≤ 1 → getG h rd % (if ofmt.val = 1 then 128 else 256) = 0 → getG h rd ≤ 0xFEFF → (∀ k, access x p.ctx (getG h rd / 256) true ≠ .trap k) →
      ∃ t, exec (.aout l th rd rc ofmt pub bank .clean) s = .next t ∧
        CellStep [] l (fun y => { modTh th (fun h => { h with st := .wait (.aout rd rc ofmt pub bank) s.tide.bnd, srN := if ofmt.val = 1 then h.srN + 1 else h.srN }) y with
          aouts := x.aouts ++ [{ th := th, bank := bank, dst := getG h rd, ofmt := ofmt, pub := pub, cnt := getG h rc % 16, srN := h.srN }] }) s t)) ∧
  (∀ (l : Fin 1024000) (s : State) (m : Stream), (getCell s l).streams.find? (·.st != .running) = some m → (∀ q ∈ (getCell s l).streams, q.st ≠ .held) →
    (∀ q ∈ (getCell s l).streams, q.bank = m.bank → q = m) → m.pos = 0 → m.got = [] → m.a + streamLen m ≤ 0xFF00 → m.b + streamLen m ≤ 0xFF00 →
    (m.gang = true → gangLeader l = l.val ∧ (clusterCells l).all (cellUsable s) = true) →
    let cells := gangCells m.gang l
    let as := (aCells m.gang l).map (·.1)
    let bs := (bCells m.gang l).map (·.1)
    ((∀ o ∈ opSrcs l m, ∀ k ∈ rowSlots m o.base, access (getCell s o.cell) m.ctx k false = .ok ∧
        (o.rel = true → (tagOf (getCell s o.cell) k).st = .full ∧ (tagOf (getCell s o.cell) k).tile = false)) →
      (m.relA = true ∨ m.relB = true → ∀ k ∈ rowSlots m m.a, k ∉ rowSlots m m.b) →
      ∃ t, exec (.ammStreamStart l none .clean) s = .next t ∧
        (∀ i < cells.length, ∀ e < 64, bankAt (getCell t (cells.getD i l)) m.bank (e / 8) (e % 8) =
          (streamBlock m (bread (getCell s (as.getD (i / 4) l)).mem m.a (streamLen m)) (bread (getCell s (bs.getD (i % 4) l)).mem m.b (streamLen m))
            (fun e => bankAt (getCell s (cells.getD i l)) m.bank (e / 8) (e % 8))).getD e 0) ∧
        (∀ c k, tagOf (getCell t c) k =
          if (m.relA = true ∧ c ∈ as ∧ k ∈ rowSlots m m.a) ∨ (m.relB = true ∧ c ∈ bs ∧ k ∈ rowSlots m m.b) then consumed (tagOf (getCell s c) k) else tagOf (getCell s c) k) ∧
        (∀ q ∈ (getCell t l).streams, q.bank = m.bank → q.st = .running) ∧
        (∀ c, (getCell t c).mem = (getCell s c).mem ∧ (getCell t c).threads = (getCell s c).threads ∧ (c ∉ cells → getCell t c = getCell s c)) ∧ Frame [.cells] s t) ∧
    (m.relA = false → m.relB = false → (∃ r ∈ groupRows l m 0, access (getCell s r.1.cell) m.ctx ((r.1.base + r.2) / 256) false = .wait) → 0 < elemRows m →
      (∀ r ∈ groupRows l m 0, ∀ k, access (getCell s r.1.cell) m.ctx ((r.1.base + r.2) / 256) false ≠ .trap k) →
      ∃ t, exec (.ammStreamStart l none .clean) s = .next t ∧ (∀ q ∈ (getCell t l).streams, q.bank = m.bank → q.st = .held ∧ q.since = s.tide.bnd) ∧
        (∀ c, (getCell t c).banks = (getCell s c).banks ∧ (getCell t c).tags = (getCell s c).tags) ∧ t.tel = (cellStall l (count bCEL 1 2 l s)).tel ∧ Frame [.cells, .tel] s t) ∧
    (∀ p k, (getCell s l).prog = some p → p.num = m.prog → 0 < elemRows m → access (getCell s l) m.ctx (m.a / 256) false = .trap k →
      ∃ t, exec (.ammStreamStart l none .clean) s = .next t ∧ Trapped s l m.th p.ctx m.pc k t)) ∧
  (∀ (l : Fin 1024000) (bank : Fin 2) (s : State),
    ∃ t, exec (.bankReady l bank) s = .next t ∧ CellStep [] l (fun y => { y with streams := y.streams.filter fun m => !(m.bank == bank.val && m.st == .running) }) s t) ∧
  (∀ (l : Fin 1024000) (s : State) (p : Prog), (getCell s l).prog = some p →
    let cells := gangCells p.gang l
    let ready := (getCell s l).aouts.filter fun o => !((getCell s l).streams.any (·.bank == o.bank))
    (∀ o, ready.find? (fun o => aoutAccess s cells p o != .wait) = some o → aoutAccess s cells p o = .ok →
      ∃ t, exec (.aoutWrite l) s = .next t ∧
        (∀ c ∈ cells, Stored (getCell s c) (getCell t c) o.dst (aoutBlock s c p o).1 ∧
          (∀ k, tagOf (getCell t c) k =
            if o.pub = true ∧ k = o.dst / 256 then { tagOf (getCell s c) k with st := .full, cnt := cntOf o.cnt } else tagOf (getCell s c) k) ∧
          Counted (telKey bCEL 6 2 c) (aoutBlock s c p o).2.1 s t ∧ Counted (telKey bCEL 7 2 c) (aoutBlock s c p o).2.2 s t ∧
          (c ≠ l.val → getCell t c = { getCell s c with mem := (getCell t c).mem, tags := (getCell t c).tags })) ∧
        getCell t l = issued o.th id { getCell s l with mem := (getCell t l).mem, tags := (getCell t l).tags, aouts := (getCell s l).aouts.filter (·.th != o.th) } ∧
        (∀ c, c ∉ cells → getCell t c = getCell s c) ∧ Frame [.cells, .tel] s t) ∧
    (∀ o k, ready.find? (fun o => aoutAccess s cells p o != .wait) = some o → aoutAccess s cells p o = .trap k →
      ∃ t, exec (.aoutWrite l) s = .next t ∧ Trapped s l o.th p.ctx (getTh (getCell s l) o.th).pc k t) ∧
    (ready ≠ [] → (∀ o ∈ ready, aoutAccess s cells p o = .wait) →
      ∃ t, exec (.aoutWrite l) s = .next t ∧ t.tel = (cellStall l s).tel ∧ Frame [.tel] s t)) ∧
  (∀ (l : Fin 1024000) (s : State) (p : Prog) (o : AoutOp), p.gang = false → o.pub = true → access (getCell s l) p.ctx (o.dst / 256) true = .ok →
    (tagOf (getCell s l) (o.dst / 256)).st = .resident → aoutAccess s (gangCells p.gang l) p o = .trap .tagProtocol)

/-- R58, R75, R77, R80, R81, R83, R84, R85, R87: waits, corrections, scrubs, kills, patrol, and slot programs of a cell. -/
def Obligations.CellsWaitScrubAndStart : Prop :=
  (∀ (l : Fin 1024000) (th : Fin 4) (s : State) (p : Prog) (rs rc : Fin 32) (n : Fin 16) (slot : BitVec 8) (slots : List Nat) (since : Nat),
    (getCell s l).prog = some p → p.ctx < 1024 → (getTh (getCell s l) th).st = .wait (.tag 0 rs rc n slot) since →
    tagSpan (getTh (getCell s l) th) rs n slot.toNat = some slots →
    (∀ k ∈ tagAll (getCell s l) slots, (tagOf (getCell s l) k).owner = p.ctx ∧ ((tagOf (getCell s l) k).st = .full ∨ (tagOf (getCell s l) k).st = .resident)) →
    ∃ t, exec (.accessWake l (.thread th) .clean) s = .next t ∧ CellStep [] l (issued th id) s t) ∧
  (∀ (l : Fin 1024000) (i : Nat) (s : State) (f : Fill) (src op th : Nat), (getCell s l).fills[i]? = some f → sliced s l = false → f.kind = .send src op th →
    f.len ≠ 2048 → f.poisoned = false → (∀ k ∈ slotsOf f.addr f.len, (tagOf (getCell s l) k).st = .empty ∧ (tagOf (getCell s l) k).owner = f.ctx) →
    ∃ t, exec (.accessWake l (.fill i) .clean) s = .next t ∧ Stored (getCell s l) (getCell t l) f.addr (fitB f.data f.len) ∧
      (∀ k, tagOf (getCell t l) k =
        if k ∈ slotsOf f.addr f.len then { tagOf (getCell s l) k with st := .full, cnt := cntOf f.cnt, pend := false } else tagOf (getCell s l) k) ∧
      CellStep [] l (fun y => { y with mem := (getCell t l).mem, tags := (getCell t l).tags, fills := ldel y.fills i }) s t) ∧
  (∀ (l : Fin 1024000) (th : Fin 4) (s : State) (p : Prog) (i : Sir) (since : Nat), (getCell s l).prog = some p → (getTh (getCell s l) th).st = .wait i since →
    ctxFrozen s (some p.ctx) = false → since + waitLimit s ≤ s.tide.bnd →
    ∃ t, exec (.waitLimit (.thread l th)) s = .next t ∧ Trapped s l th p.ctx (getTh (getCell s l) th).pc .waitLimit t) ∧
  (∀ (m src op dst a n c since : Nat) (s : State), since + waitLimit s ≤ s.tide.bnd →
    (tget? s.fly m = some (.readReq src op dst a n c (some since)) ∨ tget? s.fly m = some (.sendReq src op (some since)) →
      ∃ t, exec (.waitLimit (.read m)) s = .next t ∧ Sent (some m) (.refuse src op) s t ∧ Frame [.fly] s t)) ∧
  (∀ (l : Fin 1024000) (i : Nat) (s : State) (f : Fill) (src op th : Nat), (getCell s l).fills[i]? = some f → ctxFrozen s (some f.ctx) = false → f.bnd + waitLimit s ≤ s.tide.bnd →
    f.kind = .send src op th →
    ∃ t, exec (.waitLimit (.fill l i)) s = .next t ∧ Sent none (.refuse src op) s t ∧ CellStep [.fly] l (fun y => { y with fills := ldel y.fills i }) s t) ∧
  (∀ (l : Fin 1024000) (s : State) (m : Stream) (p : Prog), (getCell s l).streams.find? (·.st == .held) = some m → ctxFrozen s (some m.ctx) = false →
    m.since + waitLimit s ≤ s.tide.bnd → (getCell s l).prog = some p → p.num = m.prog →
    ∃ t, exec (.waitLimit (.array l)) s = .next t ∧ Trapped s l m.th p.ctx m.pc .waitLimit t ∧ ∀ q ∈ (getCell t l).streams, q.bank ≠ m.bank) ∧
  (∀ (l : Fin 1024000) (s : State), ∃ t, exec (.eccWriteback l) s = .next t ∧ CellStep [] l (fun y => { y with writeback := y.writeback.drop 1 }) s t) ∧
  (∀ (l : Fin 1024000) (slots : List (Fin 255)) (owner : Fin 2048) (s : State), sliced s l = false → slots ≠ [] →
    let all := tagAll (getCell s l) ((slots.map (·.val)).eraseDups)
    ∃ t, exec (.scrubCommand l slots owner) s = .next t ∧ (∀ k ∈ slots, k.val ∈ all) ∧
      (∀ k, tagOf (getCell t l) k = if k ∈ all then { tagOf (getCell s l) k with st := .scrub, pend := false, cnt := 0, tile := false } else tagOf (getCell s l) k) ∧
      (getCell t l).mem = (getCell s l).mem ∧ (getCell t l).scrubs = (getCell s l).scrubs ++ [{ slots := all, owner := owner, kill := none }] ∧
      (getCell t l).fills = (getCell s l).fills.filter (fun f => !(fillHits all f)) ∧
      (∀ k, k ≠ l.val → getCell t k = getCell s k) ∧ Frame [.cells, .tel, .frs] s t ∧
      ((∀ f ∈ (getCell s l).fills, fillHits all f = false) → Frame [.cells] s t)) ∧
  (∀ (l : Fin 1024000) (s : State) (sc : Scrub) (rest : List Scrub), sliced s l = false → (getCell s l).scrubs = sc :: rest → sc.kill = none →
    ∃ t, exec (.scrubDone l) s = .next t ∧
      (∀ k ∈ sc.slots, tagOf (getCell t l) k = { owner := sc.owner } ∧ ∀ i < 256, bget (getCell t l).mem (256 * k + i) = 0) ∧
      (∀ k, k ∉ sc.slots → tagOf (getCell t l) k = tagOf (getCell s l) k ∧ ∀ i < 256, bget (getCell t l).mem (256 * k + i) = bget (getCell s l).mem (256 * k + i)) ∧
      (∀ k ∈ sc.slots, tget? (getCell t l).trailers (k / 8) = none ∧ tget? (getCell t l).flags (k / 8) = none) ∧
      (getCell t l).scrubs = rest ∧ t.out = .rill unitTL 2 0x51 [l.val, s.tide.count] :: s.out ∧
      Sent none (.rill { src := cellUnit s l, dst := unitTL, pri := 2, kind := 0x51, words := [l.val, s.tide.count] }) s t ∧ Frame [.cells, .out, .fly] s t) ∧
  (∀ (l : Fin 1024000) (c : Fin 1024) (s : State) (k : Kill), (getCtx s c).kill = some k → k.started = true → l.val ∈ k.waiting → sliced s l = false →
    (∀ sc ∈ (getCell s l).scrubs, sc.kill ≠ some c.val) →
    ∃ t, exec (.cellKill l c) s = .next t ∧ (∀ j ∈ ownedSlots (getCell s l) c, (tagOf (getCell t l) j).st = .scrub) ∧
      (∀ o ∈ (getCell t l).ops, o.ctx ≠ c.val) ∧ (∀ m ∈ (getCell t l).streams, m.ctx ≠ c.val) ∧ (∀ p, (getCell t l).prog = some p → p.ctx ≠ c.val) ∧
      (getCell t l).mem = (getCell s l).mem) ∧
  (∀ (l : Fin 1024000) (s : State), bitN (regLive s 0x100C 0) 0 = true → sliced s l = false →
    ∃ t, exec (.patrolRead l .clean) s = .next t ∧ CellStep [] l (fun y => { y with patrolRow := (y.patrolRow % 1024 + 1) % 1024 }) s t) ∧
  (∀ (l : Fin 1024000) (s : State), bitN (regLive s 0x100C 0) 0 = true → sliced s l = false → (tagOf (getCell s l) ((getCell s l).patrolRow % 1024 / 4)).st ≠ .scrub →
    let a := 64 * ((getCell s l).patrolRow % 1024)
    ∃ t, exec (.patrolRead l .corrected) s = .next t ∧ Counted (telKey bCEL 3 2 l) 1 s t ∧
      t.err = (raise (cellUnit s l) bCEL sCorr 0x01 (progCtx (getCell s l)) (l + a * 2 ^ 32) 0 0 s).err) ∧
  (∀ (cl : Fin 64000) (slot : BitVec 50) (picks : List (Fin 1024 × Option (Fin 16))) (ps : List Contrib) (s : State),
    ∃ t, exec (.slotSelection cl slot picks ps) s = .next t ∧ Frame [.cells] s t ∧
      ∀ (l c : Nat) (d : Fin 1024) (i : Option (Fin 16)), l ∈ clusterCells (logCell (cl / 800) (cl % 800 / 32 * 4) (cl % 32 * 4)) → cellCtx s l = some c → ctxFrozen s (some c) = false →
        picks.find? (·.1.val == c) = some (d, i) →
        (getCell t l).sel = (getCell s l).sel ++ [(slot.toNat, c, if throttled s cl slot.toNat = true ∨ sliced s l = true then 16 else (i.map (·.val)).getD 16)]) ∧
  (∀ (l : Fin 1024000) (s : State) (slot c i : Nat) (rest : List (Nat × Nat × Nat)), (getCell s l).prog = none → (getCell s l).suspect = false → sliced s l = false →
    cellUsable s l = true → (getCell s l).sel = (slot, c, i) :: rest → slot ≤ slotNow s →
    let w := (progDesc (getCell s l) i).1
    let ents := (progDesc (getCell s l) i).2.2
    ((getCell s l).noStart ≤ slot → i ≠ 16 → bitN w 12 = true → bitsN w 9 0 = c →
      ∃ t, exec (.slotProgramStart l) s = .next t ∧
        (getCell t l).prog = some { num := (getCell s l).progs + 1, ctx := c, idx := i, slot := slot, gang := bitN w 10, sortmerge := bitN w 11 } ∧
        (∀ j < 4, getTh (getCell t l) j = if ents.getD j 0xFFFF = 0xFFFF then {} else { st := .run, pc := ents.getD j 0 }) ∧
        tget t.tel.started l 0 = tget s.tel.started l 0 + 1 ∧
        CellStep [.tel] l (fun y => { y with sel := rest, progs := y.progs + 1, prog := (getCell t l).prog, threads := (getCell t l).threads }) s t) ∧
    (slot < (getCell s l).noStart ∨ i = 16 ∨ bitN w 12 = false ∨ bitsN w 9 0 ≠ c →
      ∃ t, exec (.slotProgramStart l) s = .next t ∧ CellStep [] l (fun y => { y with sel := rest }) s t ∧
        (tget s.tel.started l 0 + ((getCell s l).sel.filter fun e => decide (e.1 ≤ slotNow s)).length ≤ s.tide.bnd → unscheduled t l = unscheduled s l + 1)))

/-- R154, R155, R156: a check-value unit passes a record's bytes on, appends or compares the check, and is sliced out and in. -/
def Obligations.CheckUnitsProcessRecords : Prop :=
  (∀ (u : Fin 256) (ctx : Fin 1024) (prof : Fin 16) (append last close : Bool) (data : Bytes) (s : State) (b : ChkBind),
    b = (tget? s.chk.bound u).getD { ctx := ctx, prof := prof, append := append, run := chkInit (profileOf s prof), done := 0 } →
    b.ctx = ctx.val → b.prof = prof.val → b.append = append → (profileOf s prof).valid = true →
    let p := profileOf s prof
    let w := checkBytes p
    (last = false → close = false → append = true →
      ∃ t, exec (.chkRecord u ctx prof append last close data) s = .next t ∧ t.out = .mesh 0x60 [u, ctx] data :: s.out ∧
        tget? t.chk.bound u = some { b with run := chkRun p b.run b.done data, done := b.done + data.length, buf := [] } ∧ Frame [.chk, .out] s t) ∧
    (last = false → close = false → append = false →
      ∃ t, exec (.chkRecord u ctx prof append last close data) s = .next t ∧
        tget? t.chk.bound u = some { b with run := chkRun p b.run b.done data, done := b.done + data.length, buf := b.buf ++ data } ∧ Frame [.chk] s t) ∧
    (last = true → append = true →
      ∃ t, exec (.chkRecord u ctx prof append last close data) s = .next t ∧
        t.out = .mesh 0x60 [u, ctx] (data ++ natLE w (chkOut p (chkRun p b.run b.done data))) :: s.out ∧ Counted (telKey bCHK 0 0 u) 1 s t ∧
        (close = false → tget? t.chk.bound u = some { b with run := chkInit p, done := 0, buf := [] }) ∧ Frame [.chk, .out, .tel] s t) ∧
    (last = true → append = false → w ≤ data.length →
      let body := data.take (data.length - w)
      ∃ t, exec (.chkRecord u ctx prof append last close data) s = .next t ∧
        (leNat (data.drop body.length) = chkOut p (chkRun p b.run b.done body) →
          t.out = .mesh 0x61 [u, ctx] (b.buf ++ body) :: s.out ∧ Counted (telKey bCHK 0 0 u) 1 s t ∧ t.err = s.err) ∧
        (leNat (data.drop body.length) ≠ chkOut p (chkRun p b.run b.done body) → (∀ d, Out.mesh 0x61 [u, ctx] d ∈ t.out → Out.mesh 0x61 [u, ctx] d ∈ s.out) ∧
          (b.job = none → Counted (telKey bCHK 1 0 u) 1 s t ∧ Counted (telKey bCHK 2 0 u) 1 s t ∧
            t.err = (raise (ringUnit (unitChip u)) bCHK sCont 0x07 (some ctx) u (leNat (data.drop body.length)) 0 s).err) ∧
          (∀ k, b.job = some (k + 1) → t.err = (raise (ringUnit (k / 1024)) bRSV sInfo 0x07 (some ctx) 1 0 (3 + 256) s).err)) ∧
        (close = false → tget? t.chk.bound u = some { b with run := chkInit p, done := 0, buf := [] }))) ∧
  (∀ (u : Fin 256) (save : Nat) (s : State) (b : ChkBind), tget? s.chk.bound u = some b → b.done ≠ 0 → saveOk s b.ctx save = true →
    ∃ t, exec (.chkSliceSave u save) s = .next t ∧ t.chk.bound = tdel s.chk.bound u ∧ (b.buf ≠ [] → tget? t.chk.held save = some b.buf) ∧
      MemStored save (natLE 8 b.run ++ natLE 6 b.done ++ natLE 1 b.prof ++ natLE 1 (b2n (profileOf s b.prof).linear + 2 * b2n (!b.append))) s t) ∧
  (∀ (u : Fin 256) (save : Nat) (s : State) (b : ChkBind), tget? s.chk.bound u = some b → saveOk s b.ctx save = false →
    ∃ t, exec (.chkSliceSave u save) s = .next t ∧ Frame [] s t) ∧
  (∀ (u : Fin 256) (ctx : Fin 1024) (save : Nat) (s : State), tget? s.chk.bound u = none → saveOk s ctx save = true →
    let r := memRead s save 16
    ∃ t, exec (.chkSliceRestore u ctx save) s = .next t ∧ Frame [.chk] s t ∧
      tget? t.chk.bound u = some { ctx := ctx, prof := leField r 14 1 % 16, append := !bitN (leField r 15 1) 1, run := leField r 0 8, done := leField r 8 6, buf := tget s.chk.held save [] })

/-- R159, R160, R167, R168, R170, R173, R174, R232: pass records, the start and the end of a pass, source reads and merge windows. -/
def Obligations.PassesRun : Prop :=
  (∀ (e : Fin 64) (rec : Bytes) (s : State), rec.length = 96 → (getFrs s e).passes.length < 64 →
    let p := passOf s (getFrs s e).nextId rec
    (passOk s (getFrs s e) rec = true → slotNow s < p.start →
      ∃ t, exec (.passRecord e rec) s = .next t ∧ FrsStep [] e (fun x => { x with passes := x.passes ++ [p], nextId := x.nextId + 1 }) s t) ∧
    (passOk s (getFrs s e) rec = true → p.start ≤ slotNow s →
      ∃ t, exec (.passRecord e rec) s = .next t ∧ Counted (telKey bTID 1 0 (ringUnit e)) 1 s t ∧
        FrsStep [.tel] e (fun x => { x with passes := x.passes ++ [{ p with start := slotNow s + 1 }], nextId := x.nextId + 1 }) s t) ∧
    (passOk s (getFrs s e) rec = false →
      ∃ t, exec (.passRecord e rec) s = .next t ∧ t.frs = s.frs ∧
        t.err = (raise (ringUnit e) bFRS sCont 0x05 (if p.ctxOwned then some p.ctx else none) p.srcPay p.start 0 s).err)) ∧
  (∀ (e : Fin 64) (pass : Nat) (s : State) (p : Pass), (getFrs s e).passes.find? (·.id == pass) = some p → p.active = false →
    ∃ t, exec (.passOwnerScrub e pass) s = .next t ∧ Frame [.cells, .tel, .frs] s t ∧
      ∀ g ∈ p.grps, ∀ l ∈ grpLive s g, ∀ k, 8 * g.span0 ≤ k → k < 8 * (g.span0 + g.nspans) → (tagOf (getCell s l) k).owner ≠ passOwner p →
        (tagOf (getCell s l) k).st ≠ .scrub →
        (tagOf (getCell t l) k).st = .scrub ∧ ∃ sc ∈ (getCell t l).scrubs, k ∈ sc.slots ∧ sc.owner = passOwner p) ∧
  (∀ (e : Fin 64) (pass : Nat) (s : State) (p : Pass), (getFrs s e).passes.find? (·.id == pass) = some p → p.active = false → p.start ≤ slotNow s →
    ((getFrs s e).passes.filter (·.active)).length < 4 →
    (passReady s p = true → ∃ t, exec (.passStart e pass) s = .next t ∧
      FrsStep [] e (fun x => { x with passes := x.passes.map fun q => if q.id = pass then
        { q with active := true, startTide := slotNow s * 16384, startBnd := s.tide.bnd, startTick := s.tide.slotAt } else q }) s t) ∧
    (passReady s p = false → ∃ t, exec (.passStart e pass) s = .next t ∧ Frame [] s t)) ∧
  (∀ (e : Fin 64) (pass src : Nat) (s : State) (p : Pass), (getFrs s e).passes.find? (·.id == pass) = some p → readNext s e (getFrs s e) = some (pass, src) →
    (getFrs s e).buf.length < 8192 → (getFrs s e).readSlot < readCap s e →
    ∃ t, exec (.sourceReadIssue e pass src) s = .next t ∧
      (∃ m, (getFrs t e).buf = (getFrs s e).buf ++ [{ pass := pass, src := src, bnd := s.tide.bnd, merge := m, copies := p.grps.length }]) ∧
      (bitN (regLive s 0x3004 e) 24 = false ∨ mergeFor s (getFrs s e) p (srcPayAt p src) p.grps.length = none → (getFrs t e).readSlot = (getFrs s e).readSlot + 1) ∧
      (∀ m, bitN (regLive s 0x3004 e) 24 = true → mergeFor s (getFrs s e) p (srcPayAt p src) p.grps.length = some m →
        (getFrs t e).readSlot = (getFrs s e).readSlot ∧ t.rsv = s.rsv ∧ Counted (telKey bFRS 9 0 e) 1 s t) ∧
      Frame [.frs, .tel, .rsv] s t ∧ (p.slow = false → t.rsv = s.rsv)) ∧
  (∀ (e : Fin 64) (m : Nat) (s : State) (k : Merge), (getFrs s e).merges.find? (·.id == m) = some k → k.open_ = true →
    ∃ t, exec (.mergeWindowClose e m) s = .next t ∧ t.now = max s.now (k.at_ + 16) ∧ (∀ q ∈ (getFrs t e).merges, q.id = m → q.open_ = false) ∧
      Frame [.frs, .now] s t) ∧
  (∀ (e : Fin 64) (pass : Nat) (s : State) (p : Pass), (getFrs s e).passes.find? (·.id == pass) = some p → p.active = true → atBoundary s = true →
    passDone (getFrs s e) p = true → regL s 0x3004 e 23 20 ≤ dueBounds s p (p.tiles - 1) → dueIn s p (p.tiles - 1) ≤ 0 →
    ∃ t, exec (.passEnd e pass) s = .next t ∧ (∀ q ∈ (getFrs t e).passes, q.id ≠ pass) ∧ p ∈ (getFrs t e).past ∧
      (∀ u ∈ unusedSpans s p, p.ctxOwned = false → (tagOf (getCell t u.1) (8 * u.2.1)).st = .scrub ∧ u.2.1 ∈ (getCell t u.1).reclaimed) ∧ (p.ctxOwned = true → t.cells = s.cells) ∧
      Frame [.frs, .cells, .tel] s t)

/-- R150, R159, R168, R169, R176, R177, R178, R179, R183: sources that return, epochs, deliveries, acknowledgements, invalidations and refetches. -/
def Obligations.TilesAreDelivered : Prop :=
  (∀ (e : Fin 64) (pass src : Nat) (s : State) (p : Pass) (en : Entry) (raw : Option (Bytes × Bytes × Nat)),
    entryOf (getFrs s e) pass src = some en → passAny (getFrs s e) pass = some p → p.slow = false → en.tile = none → en.failed = false → en.merge = none →
    Clear s .freshet [(srcPayAt p src, 2048), (srcTrlAt p src, 32)] → sourceData s e p src = some raw →
    (∀ pay trl ep, raw = some (pay, trl, ep) → en.reread = false →
      verifyTile s { ident := srcIdentAt p src, alive := some p.alive, formats := some [p.srcFmt] } pay trl = .ok →
      ∃ t, exec (.sourceReadReturn e pass src none []) s = .next t ∧ Frame [.frs, .tel] s t ∧ Counted (telKey bCHK 0 0 (256 + e)) 1 s t ∧
        (srcNeeded (getFrs s e) pass src = true → ∃ n ∈ (getFrs t e).buf, n.pass = pass ∧ n.src = src) ∧
        ∀ n ∈ (getFrs t e).buf, n.pass = pass → n.src = src → n.tile = some (pay, trl) ∧ n.epoch = ep) ∧
    (raw = none → en.reread = false → readRoom s e 0 = true →
      ∃ t, exec (.sourceReadReturn e pass src none []) s = .next t ∧ Counted (telKey bFRS 7 0 e) 1 s t ∧
        (srcHere s e p src = false → t.err = (memDiscard (ringUnit e) p.ctxs.head? (srcPayAt p src) s).err) ∧
        ∃ n ∈ (getFrs t e).buf, n.pass = en.pass ∧ n.src = en.src ∧ n.reread = true ∧ n.tile = none) ∧
    (raw = none → en.reread = false → readRoom s e 0 = false →
      ∃ t, exec (.sourceReadReturn e pass src none []) s = .next t ∧ (getFrs t e).buf = (getFrs s e).buf ∧ t.err = s.err) ∧
    (raw = none → en.reread = true →
      ∃ t, exec (.sourceReadReturn e pass src none []) s = .next t ∧ Frame [.frs, .err, .tel, .out] s t ∧
        ∀ n ∈ (getFrs t e).buf, n.pass = pass → n.src = src → n.failed = true)) ∧
  (∀ (e : Fin 64) (pass out g : Nat) (s : State) (p : Pass) (d : Del) (es : List Entry), delFor (getFrs s e) pass out (.grp g) = some (p, d) →
    d.issued = false → d.acked = false → d.probed = none → p.slow = false → sourcesOf (getFrs s e) p out = some es → ringFree (getFrs s e) p out g = true →
    (∀ en ∈ es, en.failed = false) → Clear s .freshet (es.map fun en => (srcPayAt p en.src / 4096 * 4096, 4)) →
    (∀ en ∈ es.drop 1, seqEqOrNewer 32 en.epoch (epochAt s (srcPayAt p en.src)) = true) →
    ∃ t, exec (.epochProbeAnswer e pass out (.grp g)) s = .next t ∧
      { d with probed := some (epochAt s (srcPayAt p (needs p out).1)) } ∈ (getFrs t e).dels ∧ t.mem.data = s.mem.data ∧ t.mem.epochs = s.mem.epochs ∧
      Frame [.frs, .tel, .mem] s t) ∧
  (∀ (e : Fin 64) (pass out k : Nat) (s : State) (p : Pass) (d : Del) (g : Grp) (es : List Entry), delFor (getFrs s e) pass out (.grp k) = some (p, d) →
    d.grp = k → d.rf = none → d.only = [] → p.grps[k]? = some g → d.issued = false → d.acked = false → ringFree (getFrs s e) p out k = true →
    grpSkipped s p g k = false → sourcesOf (getFrs s e) p out = some es → (∀ en ∈ es, en.failed = false) → (p.slow = true ∨ d.probed ≠ none) → grpLive s g ≠ [] →
    ∃ t f, exec (.deliveryIssue e pass out (.grp k)) s = .next t ∧ Sent none (.fill f (grpLive s g)) s t ∧ f.kind = .delivery e d.did ∧
      f.addr = 2048 * (g.span0 + out % g.nspans) ∧ f.len = 2048 ∧ f.cnt = p.cnt ∧ f.ctx = passOwner p ∧ f.data = (formTile s p out es).2.1 ∧
      f.trailer = (formTile s p out es).2.2 ∧ f.expIdent = (if outIdent p out = 0 then none else some (outIdent p out)) ∧ f.expAlive = some p.alive ∧
      f.expEpoch = (if p.slow then none else d.probed) ∧
      { d with issued := true, waiting := grpLive s g } ∈ (getFrs t e).dels ∧ Frame [.frs, .fly, .tel] s t) ∧
  (∀ (e : Fin 64) (did : Nat) (s : State) (d : Del) (p : Pass) (g : Grp), (getFrs s e).dels.find? (·.did == did) = some d → d.issued = true → d.acked = false →
    d.waiting = [] → d.stale = [] → d.rf = none → passAny (getFrs s e) d.pass = some p → p.grps[d.grp]? = some g → 0 < d.landed → (∀ c ∈ grpCtxs p g, c < 1024) →
    ∃ t, exec (.landingAck e did) s = .next t ∧ (∀ q ∈ (getFrs t e).dels, q.did = did → q.acked = true) ∧ Counted (telKey bFRS 0 0 e) 1 s t ∧
      Counted (telKey bFRS (marginBin ((s.now : Int) + dueIn s p d.out - d.landTick)) 0 e) 1 s t ∧ Frame [.frs, .tel] s t) ∧
  (∀ (e : Fin 64) (did : Nat) (s : State) (d : Del) (p : Pass), (getFrs s e).dels.find? (·.did == did) = some d → d.issued = true → d.acked = false →
    d.waiting = [] → d.stale ≠ [] → passAny (getFrs s e) d.pass = some p →
    ∃ t, exec (.landingAck e did) s = .next t ∧ { d with issued := false, probed := none, only := d.stale, stale := [], staleRuns := d.staleRuns + 1 } ∈ (getFrs t e).dels ∧
      (∀ n ∈ (getFrs t e).buf, n.pass = p.id → usesSrc p d.out n.src = true → n.tile = none) ∧ Frame [.frs, .tel, .rsv] s t) ∧
  (∀ (e : Fin 64) (page : Nat) (s : State), page ∈ (getFrs s e).reports →
    ∃ t, exec (.epochWriteReport e page) s = .next t ∧ page ∉ (getFrs t e).reports ∧ Frame [.frs, .tel, .rsv] s t ∧
      ∀ en ∈ (getFrs s e).buf, en.tile ≠ none → en.used = false → holdsPage { getFrs s e with buf := [en], passes := (getFrs s e).passes ++ (getFrs s e).past } page = true →
        ∀ n ∈ (getFrs t e).buf, n.pass = en.pass → n.src = en.src → n.tile = none) ∧
  (∀ (e : Fin 64) (pass src : Nat) (s : State) (en : Entry) (p : Pass), entryOf (getFrs s e) pass src = some en → en.tile ≠ none → en.bnd + maxAge s e ≤ s.tide.bnd →
    passAny (getFrs s e) pass = some p →
    ∃ t, exec (.prefetchAged e pass src) s = .next t ∧ (∀ n ∈ (getFrs t e).buf, ¬(n.pass = pass ∧ n.src = src)) ∧ Counted (telKey bFRS 4 0 e) 1 s t ∧
      Frame [.frs, .tel] s t) ∧
  (∀ (e : Fin 64) (m l span ident : Nat) (s : State), tget? s.fly m = some (.refetchReq l span ident none) → locate s (getFrs s e) l span ident none = none →
    ∃ t, exec (.refetchRequest e m) s = .next t ∧ Frame [.frs, .fly] s t ∧
      Sent (some m) (.fill { kind := .notice e (getFrs s e).nextId true, cell := l, addr := 2048 * span, len := 2048, cnt := 1, ctx := (tagOf (getCell s l) (8 * span)).owner, data := [], trailer := [], expIdent := some ident } [l]) s t) ∧
  (∀ (e : Fin 64) (m l span ident i g : Nat) (s : State) (p : Pass), tget? s.fly m = some (.refetchReq l span ident none) →
    locate s (getFrs s e) l span ident none = some (p, i, g) → (∀ d ∈ (getFrs s e).dels, d.did ≠ (getFrs s e).nextId) → readRoom s e (needs p i).2 = true →
    ∃ t, exec (.refetchRequest e m) s = .next t ∧ t.fly = tdel s.fly m ∧ Counted (telKey bFRS 8 0 e) 1 s t ∧
      { did := (getFrs s e).nextId, pass := p.id, out := i, grp := g, rf := some (l, span), only := [l] } ∈ (getFrs t e).dels ∧
      ∀ j, (needs p i).1 ≤ j → j < (needs p i).1 + (needs p i).2 → ∃ en ∈ (getFrs t e).buf, en.pass = p.id ∧ en.src = j)

/-- R183, R188, R193 to R196, R202, R249: requests of the fast tier from their queue to their answer. -/
def Obligations.StackRequestsRun : Prop :=
  (∀ (cls : MemCls) (n num : Nat) (ctx : Option Nat) (a len : Nat) (act : MemAct) (s : State), len ≠ 0 → fastOk s a len = true →
    (∀ d, act = .write d → guarded s a len = false ∨ (cls = .estuary ∧ n = memStack a) ∨ cls = .internal) →
    let x := getStk s (memStack a)
    let r : MemReq := { id := x.nextId, cls := cls, from_ := .unit n num, ctx := ctx, addr := a, len := len, act := act, sm := false, at_ := s.now }
    ((x.queue.filter (sameSource r)).length < 64 →
      ∃ t, exec (.memRequest (.unit cls n num ctx a len act)) s = .next t ∧ Counted (telKey bMEM 15 0 (memStack a)) 1 s t ∧
        getStk t (memStack a) = { x with queue := x.queue ++ [r], nextId := x.nextId + 1 } ∧ t.mem.data = s.mem.data ∧ t.mem.epochs = s.mem.epochs ∧ Frame [.mem, .tel] s t) ∧
    (64 ≤ (x.queue.filter (sameSource r)).length →
      ∃ t, exec (.memRequest (.unit cls n num ctx a len act)) s = .next t ∧ Counted (telKey bMEM 10 0 (memStack a)) 1 s t ∧ Frame [.tel] s t)) ∧
  (∀ (l : Fin 1024000) (op : Nat) (s : State) (o : RemOp), findOp (getCell s l) op = some o → o.kind = .fetch → o.st = .asked → remSpace o.remote = 1 → opFirst (getCell s l) o = true →
    let a := remMem o.remote
    let n := if o.len = 2048 then 2080 else o.len
    let x := getStk s (memStack a)
    let r : MemReq := { id := x.nextId, cls := .cell, from_ := .cell l op, ctx := some o.ctx, addr := a, len := n, act := .read, sm := false, at_ := s.now }
    (∀ q ∈ x.queue ++ x.sort ++ x.slots, q.from_ ≠ .cell l op ∧ ∀ p ∈ q.also, p.from_ ≠ .cell l op) → (∀ w ∈ s.rsv.want, w.by_ ≠ .cell l op) → (∀ w ∈ s.rsv.ops, w.w.by_ ≠ .cell l op) →
    slowAddr a = false → (∀ p, (getCell s l).prog = some p → p.sortmerge = false) →
    (fastOk s a n = true → (x.queue.filter (sameSource r)).length < 64 →
      ∃ t, exec (.memRequest (.cell l op .clean)) s = .next t ∧ getStk t (memStack a) = { x with queue := x.queue ++ [r], nextId := x.nextId + 1 } ∧
        t.mem.data = s.mem.data ∧ Frame [.mem, .tel] s t) ∧
    (fastOk s a n = false →
      ∃ t, exec (.memRequest (.cell l op .clean)) s = .next t ∧ Sent none (.refuse l op) s t ∧ t.mem = s.mem ∧
        t.err = (raise (if a < 0x080000000000 then ringUnit (memStack a) else unitTL) bMEM sCont 0x05 (some o.ctx) a l 0 s).err)) ∧
  (∀ (cls : MemCls) (n num : Nat) (ctx : Option Nat) (a len : Nat) (act : MemAct) (s : State), len ≠ 0 → fastOk s a len = false →
    ∃ t, exec (.memRequest (.unit cls n num ctx a len act)) s = .next t ∧ t.mem = s.mem ∧
      t.err = (raise (if a < 0x080000000000 then ringUnit (memStack a) else unitTL) bMEM sCont 0x05 ctx a n 0 s).err) ∧
  (∀ (cls : MemCls) (n num : Nat) (ctx : Option Nat) (a len : Nat) (d : Bytes) (s : State), len ≠ 0 → fastOk s a len = true → guarded s a len = true →
    (cls = .estuary → n ≠ memStack a) → cls ≠ .internal →
    ∃ t, exec (.memRequest (.unit cls n num ctx a len (.write d))) s = .next t ∧ t.mem = s.mem ∧
      t.err = (raise (ringUnit (memStack a)) bEST sCont 0x07 ctx a n 0 s).err) ∧
  (∀ (stk : Fin 64) (s : State) (r : MemReq) (d : Bytes), (getStk s stk).st = .ready → grantNext s stk (getStk s stk) = some r → r.act = .write d →
    ∃ t, exec (.memSlotGrant stk) s = .next t ∧ MemStored r.addr (fitB d r.len) s t ∧
      (∀ p, tget t.mem.epochs p 0 = if p ∈ pagesOf r.addr r.len then (tget s.mem.epochs p 0 + 1) % 2 ^ 32 else tget s.mem.epochs p 0) ∧
      (∃ q ∈ (getStk t stk).slots, q.id = r.id ∧ q.acc = (getStk s stk).nextAcc) ∧ (∀ q ∈ (getStk t stk).queue, q.id ≠ r.id)) ∧
  (∀ (stk : Fin 64) (s : State) (r : MemReq), (getStk s stk).st = .ready → grantNext s stk (getStk s stk) = some r → r.act = .read →
    ∃ t, exec (.memSlotGrant stk) s = .next t ∧ t.mem.data = s.mem.data ∧ t.mem.epochs = s.mem.epochs ∧
      (∃ q ∈ (getStk t stk).slots, q.id = r.id ∧ q.data = r.fwd.getD (memRead s r.addr r.len)) ∧ (∀ q ∈ (getStk t stk).queue, q.id ≠ r.id)) ∧
  (∀ (stk : Fin 64) (bank : Fin 4096) (s : State) (r : MemReq) (l op : Nat) (o : RemOp), (getStk s stk).st = .ready → serveNext (getStk s stk) bank = some r →
    (tget? (getStk s stk).openRow bank = some (rowOf (getStk s stk) r.addr) ∨ tget (getStk s stk).acts bank 0 < 32) →
    r.from_ = .cell l op → r.act = .read → findOp (getCell s l) op = some o → o.kind = .fetch → r.also = [] → (∀ c, r.ctx = some c → c < 1024) →
    ∃ t f, exec (.memAccessServe stk bank []) s = .next t ∧ Sent none (.fill f [l]) s t ∧ f.kind = .fetch op ∧ f.addr = o.loc ∧ f.len = o.len ∧ f.cnt = o.cnt ∧ f.ctx = o.ctx ∧
      f.data = r.data.take o.len ∧ f.trailer = r.data.drop o.len ∧
      (f.poisoned = true ↔ (∃ k ∈ linesOf r.addr r.len, k ∈ (getStk s stk).poison) ∨ memPoisoned s r.addr r.len = true) ∧
      (∀ q ∈ (getStk t stk).slots, q.id ≠ r.id) ∧ tget? (getStk t stk).openRow bank = some (rowOf (getStk s stk) r.addr) ∧ t.mem.data = s.mem.data ∧
      Counted (telKey bMEM (if tget? (getStk s stk).openRow bank = some (rowOf (getStk s stk) r.addr) then 2 else 3) 0 stk) 1 s t) ∧
  (∀ (stk : Fin 64) (id : Nat) (s : State) (r : MemReq), (getStk s stk).slots.find? (·.id == id) = some r →
    ∃ t, exec (.ageCapReached stk id) s = .next t ∧ t.now = max s.now (r.accAt + mclkTicks (max (regL s 0x4010 stk 11 0) 64)) ∧
      (∀ q ∈ (getStk t stk).slots, q.id = id → q.aged = true) ∧ Frame [.mem, .now] s t) ∧
  (∀ (stk : Fin 64) (bank : Fin 4096) (s : State), (∃ r ∈ (getStk s stk).sort, bankOf (getStk s stk) r.addr = bank.val) →
    ((getStk s stk).sort.map (·.id)).Nodup → (∀ r ∈ (getStk s stk).sort, r.also = [] ∧ ∀ c, r.ctx = some c → c < 1024) → (∀ r ∈ (getStk s stk).queue, r.sm = false) →
    let x := getStk s stk
    let b := x.sort.filter fun r => bankOf x r.addr == bank.val
    ∃ t out, exec (.smBatchIssue stk bank) s = .next t ∧ (getStk t stk).queue = x.queue ++ out ∧
      (out.flatMap fun q => (q.from_, q.addr) :: q.also.map fun a => (a.from_, a.addr)).Perm (b.map fun r => (r.from_, r.addr)) ∧
      out.Pairwise (fun q r => rowRank x b q < rowRank x b r ∨ (rowRank x b q = rowRank x b r ∧ q.addr / 64 ≤ r.addr / 64)) ∧
      (∀ q ∈ out, q.sm = false ∧ ∀ a ∈ q.also, q.act = .read ∧ ((a.addr = q.addr ∧ a.len = q.len) ∨ a.addr / 64 = q.addr / 64)) ∧
      (getStk t stk).sort = x.sort.filter (fun r => bankOf x r.addr != bank.val) ∧ Counted (telKey bMEM 12 0 stk) 1 s t)

/-- R188 to R192, R200, R203: errors, retirement, patrol, refresh, concentration and retraining of a stack. -/
def Obligations.StacksAreMaintained : Prop :=
  (∀ (stk : Fin 64) (row : Nat) (ppr : Bool) (s : State), row ∈ (getStk s stk).retiring → (ppr = true ∨ (getStk s stk).remaps < 1024) →
    ∃ t, exec (.rowRetireDone stk row ppr) s = .next t ∧ row ∈ (getStk t stk).retired ∧ row ∉ (getStk t stk).retiring ∧
      (getStk t stk).remaps = (if ppr then (getStk s stk).remaps else (getStk s stk).remaps + 1) ∧ Counted (telKey bMEM 7 0 stk) 1 s t ∧ Frame [.mem, .tel] s t) ∧
  (∀ (stk : Fin 64) (row : Nat) (s : State), row ∈ (getStk s stk).retiring → 1024 ≤ (getStk s stk).remaps →
    ∃ t, exec (.rowRetireDone stk row false) s = .next t ∧ (getStk t stk).retired = (getStk s stk).retired ∧ row ∉ (getStk t stk).retiring ∧
      t.err = (raise (ringUnit stk) bMEM sDef 0x02 none row stk 0 s).err) ∧
  (∀ (stk : Fin 64) (e : MemEcc) (s : State), (getStk s stk).st = .ready → regL s 0x401C stk 7 0 ≠ 0 →
    let a := stk.val * 2 ^ 37 + 64 * (getStk s stk).patrolLine
    (memRoom s .internal a 64 = true → ∃ t, exec (.memPatrol stk e) s = .next t ∧ (getStk t stk).patrolLine = ((getStk s stk).patrolLine + 1) % (stackBytes / 64) ∧
      t.mem.data = s.mem.data ∧ t.now = max s.now ((getStk s stk).patrolAt + patrolGap s stk) ∧
      (e = .clean → Frame [.mem, .now] s t) ∧
      (e = .onDie → a / 64 ∉ (getStk s stk).poison → Counted (telKey bMEM 17 0 stk) 1 s t ∧ Frame [.mem, .now, .tel] s t) ∧
      (e = .corrected → a / 64 ∉ (getStk s stk).poison → Counted (telKey bMEM 4 0 stk) 1 s t ∧ t.err = (raise (ringUnit stk) bMEM sCorr 0x01 none a (memLoc s a) 0 s).err) ∧
      (e = .persistent → a / 64 ∈ (getStk t stk).poison)) ∧
    (memRoom s .internal a 64 = false → ∃ t, exec (.memPatrol stk e) s = .next t ∧ Frame [] s t)) ∧
  (∀ (stk : Fin 64) (bank : Fin 4096) (s : State), (getStk s stk).st = .ready →
    ∃ t, exec (.bankRefresh stk bank) s = .next t ∧ getStk t stk = { getStk s stk with openRow := tdel (getStk s stk).openRow bank } ∧
      Counted (telKey bMEM 8 0 stk) 1 s t ∧ Frame [.mem, .tel] s t) ∧
  (∀ (stk : Fin 64) (bank : Fin 4096) (s : State), (getStk s stk).st = .ready → 32 ≤ tget (getStk s stk).acts bank 0 →
    ∃ t, exec (.rfmIssue stk bank) s = .next t ∧ tget (getStk t stk).acts bank 0 = tget (getStk s stk).acts bank 0 - 32 ∧ Counted (telKey bMEM 9 0 stk) 1 s t ∧
      Frame [.mem, .tel] s t) ∧
  (∀ (stk : Fin 64) (s : State), (getStk s stk).concBnd + 16 ≤ s.tide.bnd →
    let x := getStk s stk
    let total := x.concBank.foldl (fun a e => a + e.2) 0
    let busy := (topN 64 x.concBank).foldl (fun a e => a + e.2) 0
    let hot := total * regL s 0x4018 stk 6 0 < busy * 100 ∧ regL s 0x4018 stk 18 12 ≤ x.concBytes * 100 / (16 * 167772160) ∧ 0 < total
    ∃ t, exec (.concWindowEnd stk) s = .next t ∧ (getStk t stk).concBank = [] ∧ (getStk t stk).concBytes = 0 ∧ (getStk t stk).concBnd = s.tide.bnd ∧
      (¬hot → x.concSkip = false → (getStk t stk).concRun = 0 ∧ t.mem.conc = s.mem.conc) ∧
      (hot → x.concSkip = false → (getStk t stk).concRun = x.concRun + 1) ∧
      (hot → x.concSkip = false → x.concRun + 1 < max (regL s 0x4018 stk 11 8) 1 → t.mem.conc = s.mem.conc) ∧
      (hot → x.concSkip = false → x.concRun + 1 = max (regL s 0x4018 stk 11 8) 1 →
        ∃ rep, t.mem.conc = s.mem.conc ++ [rep] ∧ rep.stack = stk.val ∧ rep.tide = s.tide.count ∧ rep.pct = busy * 100 / total ∧ rep.banks = topN 8 x.concBank)) ∧
  (∀ (stk : Fin 64) (s : State), (getStk s stk).retrainWant = true → (getStk s stk).st = .ready → (∀ e ∈ s.mem.stks, e.2.st ≠ .retraining) →
    ∃ t, exec (.retrainStart stk) s = .next t ∧ (getStk t stk).st = .retraining ∧ (getStk t stk).retrainWant = false ∧ t.mem.data = s.mem.data ∧ Frame [.mem] s t) ∧
  (∀ (stk : Fin 64) (s : State), (getStk s stk).st = .retraining →
    ∃ t, exec (.retrainDone stk true) s = .next t ∧ (getStk t stk).st = .ready ∧ stk.val ∉ t.net.stackOut ∧ t.mem.data = s.mem.data ∧ Frame [.mem, .net, .lev] s t) ∧
  (∀ (stk : Fin 64) (s : State), (getStk s stk).st = .retraining → (getStk s stk).queue = [] → (getStk s stk).sort = [] → (getStk s stk).slots = [] →
    ∃ t, exec (.retrainDone stk false) s = .next t ∧ (getStk t stk).st = .unavailable ∧ stk.val ∈ t.net.stackOut ∧
      t.err = (raise (ringUnit stk) bMEM sRegion 0x10 none stk 0 0 s).err)

/-- R205, R206, R208, R209, R211, R214: windows close, and an agent's operations are issued, issued again, aborted and ended. -/
def Obligations.AgentsIssueAndRetry : Prop :=
  (∀ (w : Fin 64) (s : State) (x : RsvWin) (b : Nat), tget? s.rsv.wins w = some x → x.closing = some b → b < s.tide.bnd →
    ∃ t, exec (.windowClose w) s = .next t ∧ t.rsv = { s.rsv with wins := tdel s.rsv.wins w } ∧ Frame [.rsv] s t) ∧
  (∀ (agent : Fin 64) (i k slot : Nat) (s : State) (w : RsvWant) (win : RsvWin), (s.rsv.want.filter (·.agent == agent.val))[i]? = some w → w.node = none →
    s.rsv.wins.find? (fun e => decide (e.2.base ≤ w.addr) && decide (w.addr + w.len ≤ e.2.base + e.2.size) && winInUse s e.2 && s.full) = some (k, win) →
    (∀ o ∈ s.rsv.ops, o.w.agent = w.agent → w.act = .read → (∃ d, o.w.act = .write d) → o.w.addr + o.w.len ≤ w.addr ∨ w.addr + w.len ≤ o.w.addr) →
    rsvSlot s agent = some slot → w.ctx < 1024 → win.eng < 64 →
    let o : RsvOp := { w := w, slot := slot, win := k, eng := win.eng, window := win, at_ := s.now }
    let u : State := { countCtx bRSV 0 0 agent (some w.ctx) s with rsv := { s.rsv with want := s.rsv.want.erase w, ops := s.rsv.ops ++ [o] } }
    ∃ t, exec (.rsvRequestIssue agent i) s = .next t ∧ t.rsv = u.rsv ∧ Counted (telKey bRSV 0 0 agent) 1 s t ∧
      (win.typ = 3 → w.act = .read → t.out = .hostRead (w.addr - win.base + win.rbase) w.len :: s.out ∧ t.csn = s.csn) ∧
      (∀ d, win.typ = 3 → w.act = .write d → t.out = .hostWrite (w.addr - win.base + win.rbase) d :: s.out ∧ t.csn = s.csn) ∧
      (win.typ ≠ 3 → t.csn = (rsvEmit o u).csn) ∧ Frame [.rsv, .tel, .csn, .out, .chk] s t) ∧
  (∀ (agent : Fin 64) (i : Nat) (s : State) (w : RsvWant), (s.rsv.want.filter (·.agent == agent.val))[i]? = some w → w.node = none →
    (∀ e ∈ s.rsv.wins, e.2.base ≤ w.addr → w.addr + w.len ≤ e.2.base + e.2.size → winInUse s e.2 = false ∨ s.full = false) →
    ∃ t, exec (.rsvRequestIssue agent i) s = .next t ∧ t.csn = s.csn ∧ t.rsv.want = s.rsv.want.erase w ∧
      t.err = (raise (if w.addr < 0x080000000000 then ringUnit (memStack w.addr) else unitTL) bMEM sCont 0x05 (some w.ctx) w.addr (ringUnit agent) 0 s).err) ∧
  (∀ (agent : Fin 64) (slot : Fin 1024) (s : State) (o : RsvOp), rsvOp s agent slot = some o → o.w.agent = agent.val → o.slot = slot.val → o.busy = none →
    o.reissued = true →
    ∃ t, exec (.rsvTimeout agent slot) s = .next t ∧ t.now = max s.now (o.at_ + usTicks (max (regL s 0xD000 0 15 0) 10)) ∧ RsvEnded o 4 [] s t ∧
      t.err = (raise (ringUnit agent) bRSV sCont 0x06 (some o.w.ctx) o.w.addr (o.win + o.eng * 2 ^ 16) 0 s).err) ∧
  (∀ (agent : Fin 64) (slot : Fin 1024) (s : State) (o : RsvOp), rsvOp s agent slot = some o → o.w.agent = agent.val → o.slot = slot.val →
    let k := (rsvSlot s agent).getD slot
    let o' : RsvOp := { o with slot := k, eng := if o.window.altEn then o.window.engAlt else o.window.eng, reissued := true, busy := none, got := [] }
    (o.busy = none → o.reissued = false →
      ∃ t, exec (.rsvTimeout agent slot) s = .next t ∧ t.now = max s.now (o.at_ + usTicks (max (regL s 0xD000 0 15 0) 10)) ∧
        t.rsv.ops = s.rsv.ops.filter (fun p => !(p.w.agent == o.w.agent && p.slot == o.slot)) ++ [{ o' with at_ := t.now }] ∧
        (∀ j, rsvSlot s agent = some j → j ≠ slot.val ∧ agent.val * 1024 + slot.val ∈ t.rsv.aborted) ∧ t.err = s.err) ∧
    (∀ b, o.busy = some b →
      ∃ t, exec (.rsvBusyRetry agent slot) s = .next t ∧ t.now = max s.now (b + usTicks 10) ∧
        t.rsv.ops = s.rsv.ops.filter (fun p => !(p.w.agent == o.w.agent && p.slot == o.slot)) ++ [{ o' with at_ := t.now }] ∧ t.err = s.err)) ∧
  (∀ (agent : Fin 64) (slot : Fin 1024) (data : Bytes) (s : State) (o : RsvOp), rsvOp s agent slot = some o → o.window.typ = 3 →
    (∃ t, exec (.cxlIoCompletion agent slot true data) s = .next t ∧ RsvEnded o 0 (match o.w.act with | .read => fitB data o.w.len | _ => []) s t ∧ t.err = s.err) ∧
    (∃ t, exec (.cxlIoCompletion agent slot false data) s = .next t ∧ RsvEnded o 4 [] s t ∧
      t.err = (raise (ringUnit o.w.agent) bRSV sCont 0x06 (some o.w.ctx) o.w.addr (o.win + o.eng * 2 ^ 16) 4 s).err) ∧
    (∃ t, exec (.cxlIoCompletionTimeout agent slot) s = .next t ∧ RsvEnded o 4 [] s t ∧
      t.err = (raise (ringUnit o.w.agent) bRSV sCont 0x06 (some o.w.ctx) o.w.addr (o.win + o.eng * 2 ^ 16) 4 s).err))

/-- R208, R209, R210, R212: a response that passes its checks ends its operation, or adds a part to it; a status other than OK fails it. -/
def Obligations.ResponsesEndOperations : Prop :=
  (∀ (e : Fin 64) (i : Nat) (s : State) (o : RsvOp) (h : RsvHdr) (d : Bytes), AgentAnswered s e i 2 o h d → h.status = 0 →
    let got := (h.offset, d) :: o.got.filter (·.1 != h.offset)
    ∃ t, exec (.readData e i) s = .next t ∧
      (o.w.len ≤ got.foldl (fun a p => a + p.2.length) 0 → RsvEnded o 0 (rsvGather got o.w.len) s t) ∧
      (got.foldl (fun a p => a + p.2.length) 0 < o.w.len →
        t.rsv.ops = s.rsv.ops.map fun p => if p.w.agent = o.w.agent ∧ p.slot = o.slot then { p with got := got } else p) ∧ Frame [.rsv, .csn, .fly, .tel, .chk, .mem] s t) ∧
  (∀ (e : Fin 64) (i : Nat) (s : State) (o : RsvOp) (h : RsvHdr) (d : Bytes), AgentAnswered s e i 4 o h d → h.status = 0 →
    ∃ t, exec (.writeAck e i) s = .next t ∧ RsvEnded o 0 [] s t ∧ Frame [.rsv, .csn, .fly, .tel, .chk, .mem] s t) ∧
  (∀ (e : Fin 64) (i : Nat) (s : State) (o : RsvOp) (h : RsvHdr) (d : Bytes), AgentAnswered s e i 6 o h d → h.status = 0 →
    ∃ t, exec (.flushAck e i) s = .next t ∧ RsvEnded o 0 [] s t ∧ Frame [.rsv, .csn, .fly, .tel, .chk, .mem] s t) ∧
  (∀ (e : Fin 64) (i : Nat) (s : State) (o : RsvOp) (h : RsvHdr) (d : Bytes), AgentAnswered s e i 8 o h d → h.status = 0 →
    ∃ t, exec (.queryData e i) s = .next t ∧ RsvEnded o 0 d s t ∧ Frame [.rsv, .csn, .fly, .tel, .chk, .mem] s t) ∧
  (∀ (e : Fin 64) (i : Nat) (s : State) (o : RsvOp) (h : RsvHdr) (d : Bytes), AgentAnswered s e i 4 o h d → h.status ≠ 0 → h.status ≠ 3 → h.status ≠ 7 →
    ∃ t, exec (.writeAck e i) s = .next t ∧ RsvEnded o h.status [] s t ∧
      t.err = (raise (ringUnit o.w.agent) bRSV sCont 0x06 (some o.w.ctx) o.w.addr (o.win + o.eng * 2 ^ 16) h.status s).err) ∧
  (∀ (e : Fin 64) (i : Nat) (s : State) (o : RsvOp) (h : RsvHdr) (d : Bytes), AgentAnswered s e i 4 o h d → h.status = 7 →
    ∃ t, exec (.writeAck e i) s = .next t ∧ RsvEnded o 7 [] s t ∧ t.err = s.err) ∧
  (∀ (e : Fin 64) (i : Nat) (s : State) (o : RsvOp) (h : RsvHdr) (d : Bytes), AgentAnswered s e i 2 o h d → h.status = 3 → o.reissued = false →
    ∃ t, exec (.readData e i) s = .next t ∧ Frame [.rsv, .csn, .tel] s t ∧
      t.rsv.ops = s.rsv.ops.map fun p => if p.w.agent = o.w.agent ∧ p.slot = o.slot then { p with busy := some s.now } else p)

/-- R188, R194, R204, R208, R210, R212, R213: requests of peers are served within the exports, and answered. -/
def Obligations.PeersAreServed : Prop :=
  (∀ (e : Fin 64) (i : Nat) (s : State) (m : CsnMsg) (h : RsvHdr) (d : Bytes), PeerAsks s e i 1 m h d →
    (exported s m.srcNode h.addr h.len false = true → fastOk s h.addr h.len = true → Clear s .reservoir [(h.addr, h.len)] →
      (memPoisoned s h.addr h.len = false → h.len ≤ 2080 →
        ∃ t, exec (.read e i []) s = .next t ∧ Frame [.csn, .tel, .out] s t ∧
          t.csn = (peerAnswer e m { h with op := 2, status := 0, offset := 0, last := true } (memRead s h.addr h.len) (csnTake e i s)).csn) ∧
      (memPoisoned s h.addr h.len = true →
        ∃ t, exec (.read e i []) s = .next t ∧ Frame [.csn, .tel, .out] s t ∧
          t.csn = (peerAnswer e m { h with op := 2, last := true, ack := false, status := 4, offset := 0 } [] (csnTake e i s)).csn)) ∧
    (exported s m.srcNode h.addr h.len false = false →
      ∃ t, exec (.read e i []) s = .next t ∧ Frame [.csn, .tel, .out] s t ∧
        t.csn = (peerAnswer e m { h with op := 2, last := true, ack := false, status := 2, offset := 0 } [] (csnTake e i s)).csn)) ∧
  (∀ (e : Fin 64) (i : Nat) (s : State) (m : CsnMsg) (h : RsvHdr) (d : Bytes), PeerAsks s e i 3 m h d →
    (exported s m.srcNode h.addr h.len true = true → fastOk s h.addr h.len = true → guarded s h.addr h.len = false →
      h.offset = (if h.offset = 0 then 0 else ((peerWrite s m h).map (·.next)).getD 0) →
      (memRoom s .reservoir (h.addr + h.offset) d.length = true →
        ∃ t, exec (.write e i) s = .next t ∧ MemStored (h.addr + h.offset) d s t ∧
          (h.last = true → ∀ p ∈ t.rsv.peer, ¬(p.node = m.srcNode ∧ p.tag = h.tag)) ∧
          (h.last = false → { node := m.srcNode, tag := h.tag, ctx := h.ctx, addr := h.addr, len := h.len, next := h.offset + d.length, ack := h.ack } ∈ t.rsv.peer)) ∧
      (memRoom s .reservoir (h.addr + h.offset) d.length = false → ∃ t, exec (.write e i) s = .next t ∧ Frame [] s t)) ∧
    (exported s m.srcNode h.addr h.len true = false →
      ∃ t, exec (.write e i) s = .next t ∧ t.mem = s.mem ∧
        t.csn = (peerAnswer e m { h with op := 4, last := true, ack := false, status := 2, offset := 0 } [] (csnTake e i s)).csn ∧
        (h.last = false → ∃ p ∈ t.rsv.peer, p.node = m.srcNode ∧ p.tag = h.tag ∧ p.dead = true))) ∧
  (∀ (e : Fin 64) (i : Nat) (s : State) (m : CsnMsg), csnMsg s e i 0x20 = some m → (rsvHdrOf m.body).op = 3 → s.full = true → partDead s m (rsvHdrOf m.body) = true →
    ∃ t, exec (.write e i) s = .next t ∧ Frame [.csn, .rsv] s t ∧ t.csn = (csnTake e i s).csn) ∧
  (∀ (e : Fin 64) (i : Nat) (s : State) (m : CsnMsg), csnMsg s e i 0x20 = some m → (rsvHdrOf m.body).op = 1 → s.full = false →
    ∃ t, exec (.read e i []) s = .next t ∧ t = csnTake e i s) ∧
  (∀ (e : Fin 64) (i : Nat) (s : State) (m : CsnMsg) (h : RsvHdr) (d : Bytes), PeerAsks s e i 5 m h d →
    (exported s m.srcNode h.addr h.len false = true → ∃ t, exec (.flush e i) s = .next t ∧ Frame [.csn, .tel, .out] s t ∧
      t.csn = (peerAnswer e m { h with op := 6, last := true, status := 0, offset := 0 } [] (csnTake e i s)).csn) ∧
    (exported s m.srcNode h.addr h.len false = false → ∃ t, exec (.flush e i) s = .next t ∧ Frame [.csn, .tel, .out] s t ∧
      t.csn = (peerAnswer e m { h with op := 6, last := true, ack := false, status := 2, offset := 0 } [] (csnTake e i s)).csn)) ∧
  (∀ (e : Fin 64) (i : Nat) (s : State) (m : CsnMsg) (h : RsvHdr) (d : Bytes), PeerAsks s e i 7 m h d →
    let cap := (s.rsv.exps.filter fun x => decide (x.2.since < s.tide.bnd) && (x.2.node == 0xFFFF || x.2.node == m.srcNode)).foldl (fun a x => a + x.2.size * 2 ^ 30) 0
    exported s m.srcNode h.addr h.len false = true →
    ∃ t, exec (.query e i) s = .next t ∧ Frame [.csn, .tel, .out] s t ∧
      t.csn = (peerAnswer e m { h with op := 8, last := true, status := 0, offset := 0, len := 64 }
        (natLE 8 cap ++ natLE 4 33280 ++ natLE 4 Config.queryOutstanding.toNat ++ List.replicate 48 0) (csnTake e i s)).csn) ∧
  (∀ (e : Fin 64) (i : Nat) (s : State) (m : CsnMsg) (h : RsvHdr) (d : Bytes), PeerAsks s e i 9 m h d →
    ∃ t, exec (.abort e i) s = .next t ∧ Frame [.csn, .rsv] s t ∧ t.csn = (csnTake e i s).csn ∧
      (∀ w, peerWrite s m h = some w → { w with dead := true } ∈ t.rsv.peer) ∧
      (∀ p, ¬(p.node = m.srcNode ∧ p.tag = h.tag) → (p ∈ t.rsv.peer ↔ p ∈ s.rsv.peer)))

/-- R249, R254, R258 to R262, R264, R267, R269: windows are armed, take contributions, forward and end. -/
def Obligations.WindowsSumContributions : Prop :=
  (∀ (e : Fin 64) (rec : Bytes) (s : State), rec.length = 64 →
    let w := estWinOf rec
    let others := (getEst s e).wins.filter fun v => !(v.ctx == w.ctx && v.step == w.step)
    (estWinOk s e rec = true → others.length < 64 →
      ∃ t, exec (.windowRecord e rec) s = .next t ∧ (getEst t e).wins = others ++ [w] ∧
        (∃ m, winMod t w.ctx w.step = some m ∧ m.attempt = w.attempt ∧ w.openSlot + w.deadline ≤ m.dl) ∧ Frame [.est, .tel] s t) ∧
    (estWinOk s e rec = false ∨ 64 ≤ others.length →
      ∃ t, exec (.windowRecord e rec) s = .next t ∧ t.est = s.est ∧
        t.err = (raise (ringUnit e) bEST sCont 0x05 (some w.ctx) w.tileTab w.step 0 s).err)) ∧
  (∀ (l : Fin 1024000) (op : Nat) (s : State) (o : RemOp), findOp (getCell s l) op = some o → o.kind = .send → o.len = 2048 → remSpace o.remote = 1 →
    o.st = .asked → opFirst (getCell s l) o = true → armedAt s (remMem o.remote) = true → (getEst s (memStack (remMem o.remote))).inq.length < 256 →
    accessAll (getCell s l) o.ctx (slotsOf o.loc o.len) false = .ok → (∀ p, (getCell s l).contrib.find? (·.ctx == o.ctx) = some p → sweepDue s o.ctx p.step = false) →
    let e := memStack (remMem o.remote)
    ∃ t, exec (.contribSendArrival (.cell l op .clean)) s = .next t ∧
      (getEst t e).inq = (getEst s e).inq ++ [{ from_ := .cell l op, dst := remMem o.remote, payload := bread (getCell s l).mem o.loc 2048, trailer := sendTrailer s l o, side := cellSide s l o (sendTrailer s l o) }] ∧
      (getCell t l).flags = tdel (getCell s l).flags (o.loc / 2048) ∧ (∀ q ∈ (getCell t l).ops, q.id = op → q.st = .leaving) ∧ Frame [.est, .cells] s t) ∧
  (∀ (e : Fin 64) (k : Nat) (s : State) (c : EstIn), (getEst s e).mesh[k]? = some c → (getEst s e).inq.length < 256 →
    ∃ t, exec (.contribSendArrival (.mesh e k)) s = .next t ∧ (getEst t e).inq = (getEst s e).inq ++ [c] ∧ (getEst t e).mesh = ldel (getEst s e).mesh k ∧ Frame [.est] s t) ∧
  (∀ (e : Fin 64) (i : Nat) (s : State) (m : CsnMsg), csnMsg s e i 0x10 = some m → (getEst s m.dstEng).inq.length < 256 →
    ∃ t, exec (.contrib e i) s = .next t ∧ t.csn = (csnTake e i s).csn ∧ Frame [.est, .csn] s t ∧
      (getEst t m.dstEng).inq = (getEst s m.dstEng).inq ++ [{ from_ := .engine m.srcNode m.srcEng, dst := leField m.body 0 8, payload := sliceB m.body 8 2048, trailer := sliceB m.body 2056 32, side := sliceB m.body 2088 32 }]) ∧
  (∀ (e : Fin 64) (s : State) (i : EstIn) (held rest : List EstIn), (getEst s e).inq = held ++ i :: rest → (∀ x ∈ held, waitsIn s e x = true) → waitsIn s e i = false →
    Clear s .estuary (contribRanges s e i) →
    let c := leField i.side 4 2 % 1024
    let step := leField i.side 0 4
    let src := leField i.side 6 1
    (∀ (j : Nat) (w : EstWin), judgeContrib s e i = .fills j → winOf s e c step = some w → bitN (leField i.side 4 2) 15 = false →
      (tileAt w j).spilled = false → ((tileAt w j).filled = 0 → accUsed (getEst s e) < 16384) →
      ((tileAt w j).filled ||| 2 ^ src) &&& (entAt s w j).mask ≠ (entAt s w j).mask →
      ∃ t w', exec (.contribAccept e .clean []) s = .next t ∧ winOf t e c step = some w' ∧ (tileAt w' j).filled = (tileAt w j).filled ||| 2 ^ src ∧
        (tileAt w' j).sum = (addTile (sumOf s w j (tileAt w j)).1 (dbiInts i.payload)).1 ∧
        (tileAt w' j).lsum = ((tileAt w j).lsum + trlLsum i.trailer) % lsumP ∧ (tileAt w' j).count = (tileAt w j).count + leField i.side 16 4 ∧
        (tileAt w' j).ovf = (tileAt w j).ovf ||| leField i.side 8 2 ∧ (tileAt w' j).hot = (tileAt w j).hot ||| leField i.side 10 2 ∧
        (tileAt w' j).nf = (tileAt w j).nf ||| leField i.side 12 2 ∧ (getEst t e).inq = held ++ rest ∧ Counted (telKey bEST 0 0 e) 1 s t ∧
        Counted (telKey bCHK 0 0 (384 + e)) 1 s t ∧ Frame [.est, .tel] s t) ∧
    (∀ (j : Nat) (w : EstWin), judgeContrib s e i = .fills j → winOf s e c step = some w → sliceMine s e c = true →
      ((tileAt w j).filled ||| 2 ^ src) &&& (entAt s w j).mask = (entAt s w j).mask →
      ∃ t, exec (.contribAccept e .clean []) s = .next t ∧ ∃ w', winOf t e c step = some w' ∧ (tileAt w' j).done = true ∧ w'.doneN = w.doneN + 1) ∧
    (judgeContrib s e i = .redundant →
      ∃ t, exec (.contribAccept e .clean []) s = .next t ∧ (getEst t e) = { getEst s e with inq := held ++ rest } ∧ Counted (telKey bEST 2 0 e) 1 s t ∧ Frame [.est, .tel, .rsv] s t) ∧
    (judgeContrib s e i = .late →
      ∃ t, exec (.contribAccept e .clean []) s = .next t ∧ (getEst t e) = { getEst s e with inq := held ++ rest } ∧ Counted (telKey bEST 3 0 e) 1 s t ∧ Frame [.est, .tel, .rsv] s t) ∧
    (judgeContrib s e i = .unknown → (c, step) ∉ (getEst s e).unk →
      ∃ t, exec (.contribAccept e .clean []) s = .next t ∧ (getEst t e) = { getEst s e with inq := held ++ rest, unk := (getEst s e).unk ++ [(c, step)] } ∧
        Counted (telKey bEST 4 0 e) 1 s t ∧ t.err = (raise (ringUnit e) bEST sInfo 0x07 (some c) i.dst step 6 s).err) ∧
    (∀ n, judgeContrib s e i = .corrupt n →
      ∃ t, exec (.contribAccept e .clean []) s = .next t ∧ (getEst t e) = { getEst s e with inq := held ++ rest } ∧ Counted (telKey bEST 1 0 e) 1 s t ∧
        (n = 4 → Counted (telKey bCHK 1 0 (384 + e)) 1 s t) ∧
        t.err = (raise (ringUnit e) bEST sCont 0x03 (some c) (i.dst + src % 64 * 2 ^ 48) (trlIdent i.trailer) (n + 256 * (step % 2 ^ 24)) s).err)) ∧
  (∀ (e : Fin 64) (s : State), (∀ x ∈ (getEst s e).inq, waitsIn s e x = true) →
    ∃ t, exec (.contribAccept e .clean []) s = .next t ∧ Frame [.rsv] s t) ∧
  (∀ (e : Fin 64) (ctx : Fin 1024) (step : Nat) (s : State) (w : EstWin), winOf s e ctx step = some w → w.ext ≠ none → winSendBy w ≤ slotNow s →
    Clear s .estuary ((roleEntries s w 1 ++ roleEntries s w 3).flatMap (spillAt w)) →
    ∃ t w', exec (.sendByBoundary e ctx step) s = .next t ∧ winOf t e ctx step = some w' ∧
      (∀ j ∈ roleEntries s w 1 ++ roleEntries s w 3, (tileAt w' j).done = true) ∧ t.mem = s.mem) ∧
  (∀ (e : Fin 64) (ctx : Fin 1024) (step : Nat) (s : State) (w : EstWin), winOf s e ctx step = some w → w.ext ≠ none → winDl w ≤ slotNow s →
    Clear s .estuary ((List.range w.tiles).flatMap fun j => spillAt w j ++ stageAt s w j) →
    ∃ t, exec (.windowDeadline e ctx step) s = .next t ∧ winOf t e ctx step = none ∧ (ctx.val, step) ∈ (getEst t e).ended)

/-- R129, R131, R265, R267, R271, R272, R274: health tiles, verdicts, outcomes and timeouts decide a window; the sweep is named. -/
def Obligations.WindowsAreDecided : Prop :=
  (∀ (e : Fin 64) (i : Nat) (s : State) (m : HealthMsg) (w : WinMod), (getEst s e).health[i]? = some m →
    let c := leField m.side 4 2 % 1024
    let step := leField m.side 0 4
    sideOk m.side = true → healthReady e m.side s = true → winMod s c step = some w → w.decided = false → bitsN (leField m.side 4 2) 13 10 = w.attempt →
    (m.verdict = false → (∀ n, verifyTile s { ident := some (mkIdent 2 c 10 0), formats := some [0x31] } m.payload m.trailer ≠ .corrupt n) →
      trlAlive m.trailer = step % 65536 → (∀ q ∈ dbiInts m.payload, q.natAbs ≤ dbiLim w.h * leField m.side 16 4) → (∀ q ∈ (dbiInts m.payload).drop 32, q = 0) →
      ∃ t d w', exec (.health (.mesh e i)) s = .next t ∧ (getCtx t c).dec = some d ∧ winMod t c step = some w' ∧ w'.decided = true ∧ d.step = step ∧
        (d.lam, d.lamDef) = lambdaOf (dbiAt m.payload 0) (dbiAt m.payload 1) (tabEntry s c 0).exp (bitN (leField m.side 8 2) 0) ∧
        d.spike = (d.lamDef && spikes (getCtx s c).num (getCtx s c).warm (getCtx s c).mu d.lam) ∧
        d.skip = (!d.lamDef || decide (0 < dbiAt m.payload 2) && (getCtx s c).num.nfSkipStep || d.spike && ((getCtx s c).num.lossPolicy == 1 || (getCtx s c).num.lossPolicy == 2)) ∧
        (d.mu, d.warm) = (if d.skip || d.spike then ((getCtx s c).mu, (getCtx s c).warm) else movingMean (getCtx s c).num (getCtx s c).warm (getCtx s c).mu d.lam) ∧
        (getCtx t c).mu = (getCtx s c).mu ∧ d.failed = false ∧ d.tokens = dbiAt m.payload 1 ∧ t.mem = s.mem) ∧
    (m.verdict = true → w.rep = false →
      ∃ t d w', exec (.health (.mesh e i)) s = .next t ∧ (getCtx t c).dec = some d ∧ d.step = step ∧ d.skip = true ∧ d.failed = true ∧
        winMod t c step = some w' ∧ w'.decided = true ∧ t.mem = s.mem)) ∧
  (∀ (ctx : Fin 1024) (step : Nat) (node : BitVec 16) (eng : Fin 64) (ok : Bool) (s : State) (m : WinMod) (e : Nat) (w : EstWin), winMod s ctx step = some m →
    m.lead = some (e, w) → m.rep = true → m.fanned = false →
    (node = 0 → (m.reps.find? (·.1 == eng.val)).map (fun r => r.2.2.1 == 0 && r.2.2.2 == 0) = some ok) → (node.toNat, eng.val) ∈ fanPairs s w →
    ∃ t m', exec (.outcomeReport ctx step node eng ok) s = .next t ∧ winMod t ctx step = some m' ∧
      m'.outs = m.outs.filter (fun o => !(o.1 == node.toNat && o.2.1 == eng.val)) ++ [(node.toNat, eng.val, ok)] ∧
      ((∀ p ∈ fanPairs s w, ∃ o ∈ m'.outs, o.1 = p.1 ∧ o.2.1 = p.2) → m'.outsAt ≠ none) ∧ Frame [.est] s t) ∧
  (∀ (ctx : Fin 1024) (step b e : Nat) (s : State) (m : WinMod) (w : EstWin) (h : HealthMsg), winMod s ctx step = some m → m.lead = some (e, w) → w.ctx = ctx.val → w.step = step →
    m.outsAt = some b → b < s.tide.bnd → m.fanned = false → m.leadTile = some h → m.leadBad = false → (∀ o ∈ m.outs, o.2.2 = true) →
    ∃ t m', exec (.leadFanout ctx step) s = .next t ∧ winMod t ctx step = some m' ∧ m'.fanned = true ∧
      ∀ i < w.fanCount, bitsN (leNat (memRead s (w.fanTab + 8 * i) 8)) 15 0 = 0 → h ∈ (getEst t (bitsN (leNat (memRead s (w.fanTab + 8 * i) 8)) 21 16)).health) ∧
  (∀ (ctx : Fin 1024) (step e : Nat) (s : State) (m : WinMod) (w : EstWin), winMod s ctx step = some m → m.lead = some (e, w) → w.ctx = ctx.val → w.step = step → m.rep = true →
    m.fanned = false → m.outsAt = none → m.dl + 1 ≤ slotNow s →
    ∃ t m', exec (.reportTimeout ctx step) s = .next t ∧ winMod t ctx step = some m' ∧ m'.fanned = true ∧
      ∀ i < w.fanCount, bitsN (leNat (memRead s (w.fanTab + 8 * i) 8)) 15 0 = 0 →
        ∃ h ∈ (getEst t (bitsN (leNat (memRead s (w.fanTab + 8 * i) 8)) 21 16)).health, h.verdict = true) ∧
  (∀ (ctx : Fin 1024) (step : Nat) (s : State) (m : WinMod), winMod s ctx step = some m → m.decided = false → m.dl + 2 ≤ slotNow s →
    (m.rep = false →
      ∃ t d w', exec (.verdictTimeout ctx step) s = .next t ∧ (getCtx t ctx).dec = some d ∧ d.step = step ∧ d.skip = true ∧ d.failed = true ∧ winMod t ctx step = some w' ∧ w'.decided = true) ∧
    (m.rep = true → (getCtx s ctx).attempt + 1 < repeatMax s →
      ∃ t, exec (.verdictTimeout ctx step) s = .next t ∧ (getCtx t ctx).attempt = (getCtx s ctx).attempt + 1 ∧ winMod t ctx step = none ∧ (getCtx t ctx).dec = none ∧
        ∀ e, winOf t e ctx step = none)) ∧
  (∀ (ctx : Fin 1024) (s : State) (d : Dec) (m : WinMod), (getCtx s ctx).dec = some d → winMod s ctx d.step = some m → d.sweepBnd = none →
    (∀ e ∈ m.owners, ∃ r ∈ m.reps, r.1 = e) →
    ∃ t d', exec (.sweepNaming ctx) s = .next t ∧ (getCtx t ctx).dec = some d' ∧ d'.sweepBnd = some s.tide.bnd ∧
      d'.partial_ = (d.partial_ || m.reps.any fun r => r.2.2.1 != 0 || r.2.2.2 != 0) ∧ (∀ x ∈ (getCtx t ctx).steps, x.num = d.step → x.st = .sweeping) ∧ Frame [.ctxs] s t) ∧
  (∀ (ctx : Fin 1024) (s : State), ctx.val ∈ s.est.diverged →
    ∃ t, exec (.divergenceNotice ctx) s = .next t ∧ ctx.val ∉ t.est.diverged ∧ (∀ m ∈ s.est.mods, m.ctx = ctx.val → m.decided = false → ∀ e, winOf t e ctx m.step = none) ∧ t.mem = s.mem)

/-- R228, R231, R229, R232, R241, R242, R245, R334: a sweep starts, processes its granules, ends, and exports its difference stream. -/
def Obligations.SweepsRun : Prop :=
  (∀ (ctx : Fin 1024) (s : State) (d : Dec) (b : Nat), (getCtx s ctx).dec = some d → d.sweepBnd = some b → b < s.tide.bnd → d.begun = false →
    sweepBehind s ctx b = false → (∃ x ∈ shardsOf s ctx, x.r.owner = true) →
    (atBoundary s = false → ∃ t, exec (.sweepStart ctx) s = .next t ∧ (getCtx t ctx).dec = some { d with sweepBnd := some s.tide.bnd } ∧ t.edy = s.edy ∧
      (∀ x ∈ shardsOf s ctx, x.r.owner = true → Counted (telKey bTID 1 0 (ringUnit (homeOf x.r))) 1 s t) ∧ Frame [.ctxs, .tel] s t) ∧
    (atBoundary s = true → ∃ t, exec (.sweepStart ctx) s = .next t ∧ (getCtx t ctx).dec = some { d with begun := true } ∧
      (d.failed = false → slowAddr (getCtx s ctx).num.scaleTable = false → fastOk s (getCtx s ctx).num.scaleTable 2 = true →
        MemStored (getCtx s ctx).num.scaleTable (natLE 2 (scaleBits (scaleStep (getCtx s ctx).num.quiet d.ovf d.hot d.nf (tabEntry s ctx 0)).1)) s t) ∧
      (d.failed = true → t.mem = s.mem) ∧
      (∀ x ∈ shardsOf s ctx, x.r.owner = true → ∃ w, sweepOf t (homeOf x.r) ctx = some w ∧ w.step = d.step ∧ w.tide = s.tide.count ∧ w.skip = d.skip ∧
        w.failed = d.failed ∧ w.pos = 0 ∧ w.gran = 0))) ∧
  (∀ (e : Fin 64) (ctx : Fin 1024) (g : Nat) (flaky : List Nat) (fix : List TileFix) (s : State) (w : Sweep) (x : Shard),
    sweepOf s e ctx = some w → (ownShards s e ctx)[w.pos]? = some x → x.r.ctx = ctx.val → x.r.elements < 2 ^ 32 → anySlow x.r = false → w.skip = false →
    w.fin = false → w.wait = [] → w.ahead = [] → w.unacked = [] → g = w.gran → g < granules x.r →
    tabBack s bEDY e ctx (x.r.gblock0 + 160 * g + 1) (min 5120 (x.r.elements - 5120 * g) / 32) = true → Clear s .eddy (granRanges x.r g) → Clear s .estuary (stageRanges x.r g) →
    (∀ q ≤ x.r.nstate, ∀ i ∈ granTiles x.r q g, ∃ p tr, memTile s (qPay x.r q i) (qTrl x.r q i) = some (p, tr) ∧
      verifyTile s { ident := some (qIdent x.r q i), alive := tget? x.alive (q * 2 ^ 32 + i), formats := some [qFmt x.r q] } p tr = .ok) →
    ∃ t w' y, exec (.granuleProcess e ctx g flaky fix []) s = .next t ∧ sweepOf t e ctx = some w' ∧ shardOf t ctx x.r.id = some y ∧
      (g + 1 < granules x.r → w'.pos = w.pos ∧ w'.gran = g + 1) ∧ (g + 1 = granules x.r → w'.pos = w.pos + 1 ∧ w'.gran = 0 ∧ y.ready = true ∧ y.digest ≠ none) ∧
      (∀ q ∈ outQs (tget s.edy.upd ctx []) x.r, q ≤ x.r.nstate → ∀ i ∈ granTiles x.r q g,
        tget? y.alive (q * 2 ^ 32 + i) = some ((trlAlive (memRead s (qTrl x.r q i) 32) + 1) % 65536)) ∧ Counted (telKey bEDY 0 0 e) 1 s t) ∧
  (∀ (e : Fin 64) (ctx : Fin 1024) (g : Nat) (flaky : List Nat) (fix : List TileFix) (s : State) (w : Sweep) (x : Shard),
    sweepOf s e ctx = some w → (ownShards s e ctx)[w.pos]? = some x → x.r.ctx = ctx.val → w.skip = true →
    w.fin = false → w.wait = [] → w.ahead = [] → w.unacked = [] → g = w.gran → g < granules x.r →
    tabBack s bEDY e ctx (x.r.gblock0 + 160 * g + 1) (min 5120 (x.r.elements - 5120 * g) / 32) = true → Clear s .estuary (stageRanges x.r g) →
    ∃ t w' y, exec (.granuleProcess e ctx g flaky fix []) s = .next t ∧ sweepOf t e ctx = some w' ∧ shardOf t ctx x.r.id = some y ∧ (∃ z, shardOf s ctx x.r.id = some z ∧ y.alive = z.alive) ∧
      (g + 1 < granules x.r → w'.pos = w.pos ∧ w'.gran = g + 1) ∧ (g + 1 = granules x.r → w'.pos = w.pos + 1 ∧ w'.gran = 0 ∧ y.ready = true)) ∧
  (∀ (e : Fin 64) (ctx : Fin 1024) (s : State) (w : Sweep), sweepOf s e ctx = some w → (ownShards s e ctx)[w.pos]? = none → w.wait = [] → w.closed = false →
    ((∃ p ∈ s.edy.engs, p.1 ≠ e.val ∧ ∃ v ∈ p.2.sweeps, v.ctx = ctx.val ∧ v.closed = false) →
      ∃ t, exec (.sweepComplete e ctx) s = .next t ∧ sweepOf t e ctx = some { w with fin := true, closed := true } ∧ Frame [.edy] s t) ∧
    (∀ d, Tab.sorted s.edy.engs = true → (getCtx s ctx).dec = some d → (∀ p ∈ s.edy.engs, p.1 ≠ e.val → ∀ v ∈ p.2.sweeps, v.ctx = ctx.val → v.closed = true) →
      ∃ t d', exec (.sweepComplete e ctx) s = .next t ∧ sweepsOf t ctx = [] ∧ (getCtx t ctx).dec = some d' ∧ d'.step = d.step ∧
        d'.partial_ = (d.partial_ || (sweepsOf s ctx).any (·.partial_)) ∧
        (getCtx t ctx).mu = d.mu ∧ (getCtx t ctx).warm = d.warm)) ∧
  (∀ (ctx : Fin 1024) (s : State) (x : SRec), (strmOf s ctx).tail = some x → (∀ p ∈ s.edy.engs, ∀ w ∈ p.2.sweeps, w.ctx = ctx.val → w.wait = []) →
    (strmOf s ctx).gap = none → (strmOf s ctx).sink ≠ 0 → strmUsed (strmOf s ctx) + (recBytes s (strmOf s ctx) ctx 0 x).length ≤ (strmOf s ctx).bufBytes →
    ∃ t, exec (.streamBufferSpace ctx) s = .next t ∧ Frame [.tel, .edy] s t ∧
      (strmOf t ctx).buf = (strmOf s ctx).buf ++ [(x.typ, recBytes s (strmOf s ctx) ctx (strmOf s ctx).seq x)] ∧ (strmOf t ctx).tail = none ∧ (strmOf t ctx).stepRecs = 0 ∧
      (strmOf t ctx).seq = ((strmOf s ctx).seq + 1) % 2 ^ 48) ∧
  (∀ (e : Fin 64) (ctx : Fin 1024) (s : State) (w : Sweep) (x : SRec), sweepOf s e ctx = some w → w.wait.head? = some x → (strmOf s ctx).gap = none →
    w.waitBnd + (if regL s 0x5004 e 15 8 = 0 then 255 else regL s 0x5004 e 15 8) ≤ s.tide.bnd →
    ∃ t, exec (.streamStallLimit e ctx) s = .next t ∧ sweepOf t e ctx = some { w with wait := [], waitAt := s.now } ∧ Counted (telKey bEDY 13 0 e) (10 * (s.now - w.waitAt)) s t ∧
      (strmOf t ctx).gap = some (x.shard, (w.wait.getLastD x).shard, w.wait.length) ∧ (∀ y ∈ w.wait, y.typ < 2 → (y.shard, y.quantity, y.tile) ∈ (strmOf t ctx).whole) ∧
      Counted (telKey bEDY 14 0 e) 1 s t ∧ t.err = (raise (ringUnit e) bEDY sDef 0x06 (some ctx) x.shard e 0 s).err ∧ Frame [.out, .err, .tel, .edy] s t) ∧
  (∀ (ctx : Fin 1024) (s : State) (typ : Nat) (b : Bytes) (rest : List (Nat × Bytes)), (strmOf s ctx).buf = (typ, b) :: rest →
    let st := strmOf s ctx
    let o := st.produced % st.sinkBytes
    0 < st.sinkBytes → o + b.length ≤ st.sinkBytes →
    (st.sink = 1 → s.hst.link = .up → st.produced + b.length ≤ st.consumed + st.sinkBytes →
      ∃ t, exec (.streamExport ctx) s = .next t ∧ strmOf t ctx = { st with buf := rest, produced := st.produced + b.length } ∧
        t.out = (if typ = 2 then [.hostWrite (st.sinkAddr + st.sinkBytes + 8) (natLE 8 (st.produced + b.length))] else []) ++ .hostWrite (st.sinkAddr + o) b :: s.out ∧
        Frame [.out, .edy] s t) ∧
    (st.sink = 2 →
      let a := st.sinkAddr + o
      let n := (a + b.length + 3) / 4 * 4 - a / 4 * 4
      ∃ t q, exec (.streamExport ctx) s = .next t ∧ strmOf t ctx = { st with buf := rest, produced := st.produced + b.length } ∧ t.rsv.want = s.rsv.want ++ [q] ∧
        q.addr = a / 4 * 4 ∧ q.len = n ∧ q.act = .write (bread (bwrite s.mem.data a b) (a / 4 * 4) n) ∧ q.ack = true ∧ q.cls = 6 ∧ Frame [.rsv, .edy, .mem] s t))

/-- R232, R238, R240, R274, R376: copies of a shard are noticed, fetched, verified and audited. -/
def Obligations.ShardCopiesAreFetchedAndAudited : Prop :=
  (∀ (e : Fin 64) (i : Nat) (s : State) (m : CsnMsg) (x : Shard), csnMsg s e i 0x18 = some m →
    let note := m.body.take 64
    let c := leField note 46 2 % 1024
    let id := leField note 0 4
    let f : Fetch := { note := note, node := m.srcNode, w := leField m.body 64 8, fp := leField m.body 72 8, eng := e }
    shardOf s c id = some x → x.r.owner = false →
    ((∃ n, x.from_ = some n ∧ n ≠ (f.node, f.w)) →
      ∃ t y, exec (.shardNotice e i) s = .next t ∧ shardOf t c id = some y ∧ y.ready = false ∧ y.fetch = none ∧
        t.err = (raise (ringUnit m.dstEng) bEDY sDef 0x11 (some c) id (stepSeq s c (leField note 4 4)) 0 s).err ∧
        (getCtx t c).holdDue = (getCtx s c).holdDue ||| 16) ∧
    ((∀ n, x.from_ = some n → n = (f.node, f.w)) → x.ready = false →
      ∃ t y, exec (.shardNotice e i) s = .next t ∧ shardOf t c id = some y ∧ y.ready = false ∧ y.fetch = some f ∧ y.from_ = some (f.node, f.w) ∧
        (f.node ≠ 0 → 0 < qTiles x.r 0 → ∃ q ∈ t.rsv.want, q.addr = f.w ∧ q.len = 2048 ∧ q.act = .read ∧ q.node = some f.node) ∧ Frame [.edy, .rsv, .csn] s t) ∧
    ((∀ n, x.from_ = some n → n = (f.node, f.w)) → x.ready = true → shardDigest x.r (leField note 4 4) (storedFps s x.r) = sliceB note 8 32 →
      ∃ t y, exec (.shardNotice e i) s = .next t ∧ shardOf t c id = some y ∧ y.ready = true ∧ y.digest = some (sliceB note 8 32) ∧ y.fetch = none ∧ Frame [.edy, .csn] s t)) ∧
  (∀ (ctx : Fin 1024) (id : Nat) (k : Option (Fin 2)) (s : State) (x : Shard) (f : Fetch) (p tr fp : Bytes), shardOf s ctx id = some x →
    copyFetch x (k.map (·.val)) = some f → f.got.length < qTiles x.r 0 → fetchGot s x.r f = some (some (p, tr, fp)) →
    (∀ n, verifyTile s { ident := some (qIdent x.r 0 f.got.length), formats := some [0x20] } p tr ≠ .corrupt n) →
    let i := f.got.length
    let w := (copyPlace x (k.map (·.val))).2
    Clear s .eddy ((w + 2048 * i, 2048) :: if f.node = 0 then [(f.w + 2048 * i, 2048)] else []) →
    (fingerprint p tr = fp →
      ∃ t y f', exec (.shardFetchTile ctx id k) s = .next t ∧ shardOf t ctx id = some y ∧ copyFetch y (k.map (·.val)) = some f' ∧ f'.got = tset f.got i fp ∧
        t.mem.data = (let d := bwrite (bwrite s.mem.data (w + 2048 * i) (fitB p 2048)) (w + 2048 * qTiles x.r 0 + 32 * i) (fitB tr 32)
          if k = none then bwrite d (fpAt x.r 0 i) fp else d)) ∧
    (fingerprint p tr ≠ fp →
      ∃ t y, exec (.shardFetchTile ctx id k) s = .next t ∧ shardOf t ctx id = some y ∧ copyFetch y (k.map (·.val)) = some f ∧ t.mem = s.mem)) ∧
  (∀ (ctx : Fin 1024) (id : Nat) (k : Option (Fin 2)) (s : State) (x : Shard) (f : Fetch), shardOf s ctx id = some x → copyFetch x (k.map (·.val)) = some f →
    qTiles x.r 0 ≤ f.got.length →
    let good := shardDigest x.r (leField f.note 4 4) (f.got.flatMap (·.2)) = sliceB f.note 8 32
    (good →
      ∃ t y, exec (.shardFetchVerify ctx id k) s = .next t ∧ shardOf t ctx id = some y ∧ copyFetch y (k.map (·.val)) = none ∧
        (k = none → y.ready = true ∧ y.digest = some (sliceB f.note 8 32) ∧ t.mem.data = bwrite s.mem.data x.r.fpAddr f.note) ∧
        (∀ j, k = some j → (y.reps.getD j {}).ready = true ∧ (y.reps.getD j {}).digest = some (sliceB f.note 8 32) ∧ t.mem = s.mem)) ∧
    (¬ good → f.tries < 2 →
      ∃ t y, exec (.shardFetchVerify ctx id k) s = .next t ∧ shardOf t ctx id = some y ∧ copyFetch y (k.map (·.val)) = some { f with got := [], tries := f.tries + 1 } ∧
        t.mem = s.mem ∧ t.err = s.err) ∧
    (¬ good → 2 ≤ f.tries →
      ∃ t y, exec (.shardFetchVerify ctx id k) s = .next t ∧ shardOf t ctx id = some y ∧ copyFetch y (k.map (·.val)) = none ∧ (k = none → y.ready = false) ∧ t.mem = s.mem ∧
        t.err = (raise (ringUnit (copyPlace x (k.map (·.val))).1) bEDY sDef 0x11 (some ctx) id (stepSeq s ctx (leField f.note 4 4)) 0 s).err)) ∧
  (∀ (e : Fin 64) (fix : List TileFix) (s : State), regL s 0x5008 e 15 0 ≠ 0 → (getEdy s e).sweeps = [] → (getStk s e).st ≠ .retraining →
    (∀ l ∈ s.edy.shards, ∀ x ∈ l.2, (homeOf x.r = e.val → x.fetch = none) ∧ ∀ k < 2, (copyPlace x (some k)).1 = e.val → (x.reps.getD k {}).fetch = none) →
    ∃ t, exec (.auditStart e fix) s = .next t ∧ t.now = max s.now ((getEdy s e).auditAt + msTicks (60000 * regL s 0x5008 e 15 0)) ∧
      (getEdy t e).auditAt = t.now ∧ Counted (telKey bEDY 11 0 e) 1 s t ∧
      ((∀ l ∈ s.edy.shards, ∀ x ∈ l.2, homeOf x.r ≠ e.val) → ∀ l ∈ s.edy.shards, ∀ x ∈ l.2, ∀ k < 2, x.r.owner = true → (x.reps.getD k {}).ready = true →
        (let a := if k = 0 then x.r.rep0 else x.r.rep1
         a ≠ 0 ∧ a / 2 ^ 48 = 0 ∧ memStack a = e.val) →
        { ctx := x.r.ctx, shard := x.r.id, rep := k, digest := shardDigest x.r (leNat (memRead s (x.r.fpAddr + 4) 4)) (copyFps s x (some k)) } ∈ t.edy.audits)) ∧
  (∀ (ctx : Fin 1024) (id : Nat) (k : Fin 2) (digest : Bytes) (s : State) (x : Shard), shardOf s ctx id = some x → x.r.owner = true →
    let a := if k.val = 0 then x.r.rep0 else x.r.rep1
    let own : AuditRep := { ctx := ctx, shard := id, rep := k, digest := digest }
    a ≠ 0 → (a / 2 ^ 48 = 0 → own ∈ s.edy.audits) →
    (x.digest = some digest → ∃ t, exec (.auditReport ctx id k digest) s = .next t ∧ t.edy.audits = s.edy.audits.erase own ∧ Frame [.edy] s t) ∧
    (x.digest ≠ some digest →
      ∃ t y, exec (.auditReport ctx id k digest) s = .next t ∧ t.edy.audits = s.edy.audits.erase own ∧ shardOf t ctx id = some y ∧ (y.reps.getD k {}).ready = false ∧
        t.err = (raise (ringUnit (homeOf x.r)) bEDY sDef 0x11 (some ctx) id (stepSeq s ctx (leField (memRead s x.r.fpAddr 64) 4 4)) 0 s).err))

/-- R292, R295, R296, R297, R298, R301: a re-plan is answered, a move copies and ends, a switch-off notice is taken. -/
def Obligations.PlacementsChange : Prop :=
  (∀ (ctx : Fin 1024) (s : State), ctxLive (getCtx s ctx) = true → (getCtx s ctx).cause ≠ 0 → (getCtx s ctx).roll = none → (getCtx s ctx).replan = none →
    (getCtx s ctx).moving = none →
    (updating s 4 = true → ∀ a, exec (.replan ctx a) s = .next s) ∧ (updating s 4 = false →
    (∀ p, (replanOk s ctx p && choiceOk s ctx (getCtx s ctx).job p (movedGroups (getCtx s ctx) p) && keepsGroups s (getCtx s ctx) p) = false → exec (.replan ctx (.place p)) s = .next s) ∧
    (∀ p, replanOk s ctx p = true → choiceOk s ctx (getCtx s ctx).job p (movedGroups (getCtx s ctx) p) = true → keepsGroups s (getCtx s ctx) p = true →
      ∃ t, exec (.replan ctx (.place p)) s = .next t ∧ (getCtx t ctx).replan = some p ∧ (getCtx t ctx).plan = (getCtx s ctx).plan ∧
        (getCtx t ctx).ver = (getCtx s ctx).ver + 1 ∧ (getCtx t ctx).steps = (getCtx s ctx).steps ∧ Counted (telKey bWSH 0 0 unitTR) 1 s t ∧ t.cells = s.cells) ∧
    (∀ (code : Fin 16) (d : BitVec 32),
      (stepInProgress (getCtx s ctx) = none → (getCtx s ctx).holdDue = 0 → (getCtx s ctx).st ≠ .held →
        ∃ t, exec (.replan ctx (.refuse code d)) s = .next t ∧ (getCtx t ctx).st = .held ∧ (getCtx t ctx).cause = 0 ∧
          t.err = (raise unitTR bWSH sDef 0x0A (some ctx) (nextGoverned (getCtx s ctx)) 0 code s).err) ∧
      (∀ x, stepInProgress (getCtx s ctx) = some x → (getCtx s ctx).st ≠ .idle →
        ∃ t, exec (.replan ctx (.refuse code d)) s = .next t ∧ (getCtx t ctx).roll = some { hold := true } ∧ (getCtx t ctx).cause = 0)))) ∧
  (∀ (ctx : Fin 1024) (s : State) (p : Plan), (getCtx s ctx).replan = some p → ctxLive (getCtx s ctx) = true → (getCtx s ctx).roll = none → (getCtx s ctx).moving = none →
    (getCtx s ctx).frozen = none → stepInProgress (getCtx s ctx) = none →
    (replanOk s ctx p = true →
      ∃ t, exec (.move ctx) s = .next t ∧ (getCtx t ctx) = { getCtx s ctx with moving := some (movePairs (getCtx s ctx) p) } ∧
        (∀ e ∈ movePairs (getCtx s ctx) p, e.2 ∉ (movePairs (getCtx s ctx) p).map (·.1) →
          (∀ k < 255, tagOf (getCell t e.2) k = { owner := ctx.val }) ∧ ∀ i < 65280, bget (getCell t e.2).mem i = 0) ∧
        (∀ l, l ∉ (movePairs (getCtx s ctx) p).map (·.2) → getCell t l = getCell s l) ∧ Frame [.cells, .ctxs, .tel, .frs] s t) ∧
    (replanOk s ctx p = false →
      ∃ t, exec (.move ctx) s = .next t ∧ (getCtx t ctx) = { getCtx s ctx with replan := none } ∧ Frame [.ctxs] s t)) ∧
  (∀ (ctx : Fin 1024) (s : State) (p : Plan) (ps : List (Nat × Nat)), (getCtx s ctx).moving = some ps → (getCtx s ctx).replan = some p →
    (∀ e ∈ ps, sliced s e.1 = false ∧ sliced s e.2 = false) →
    ∃ t, exec (.moveCopyDone ctx) s = .next t ∧ (getCtx t ctx) = { getCtx s ctx with plan := p, replan := none, moving := none, cause := 0 } ∧
      Counted (telKey bWSH 1 0 unitTR) 1 s t ∧ t.mem = s.mem) ∧
  (∀ (s : State) (n : Notice) (rest : List Notice), s.wsh.asked = n :: rest →
    ∃ t m, exec .switchoffNotice s = .next t ∧ t.wsh.asked = rest ∧ m ∈ t.wsh.notices ∧ m.site = n.site ∧ m.why = n.why ∧ m.bnd = s.tide.bnd ∧
      (∀ c ∈ ctxsOn s n.site, (getCtx t c).cause = (getCtx s c).cause ||| 2) ∧
      (n.clear = none → dieHeld s n.site = false →
        Out.rill rillBlocks 2 0x33 [n.site, slotNow s] ∈ t.out ∧ (n.site, n.why) ∈ t.net.toLeave ∧ t.net.routesDue = true) ∧ t.cells = s.cells ∧ t.mem = s.mem)

/-- R298, R299, R300, R301: dies under notice freeze, are drained or rolled back; a tensor moves within its stack. -/
def Obligations.DiesFreezeAndTensorsMove : Prop :=
  let Frozen (site b : Nat) (s t : State) : Prop :=
    ∃ z ∈ t.wsh.freezes, z.site = site ∧ z.f = b + 1 ∧ (∀ c ∈ z.ctxs, (getCtx t c).frozen = some (b + 1)) ∧
      (∀ c ∈ ctxsOn s site, ctxLive (getCtx s c) = true → c ∈ z.ctxs) ∧ t.mem = s.mem
  (∀ (site : Fin 88) (s : State) (n : Notice), s.wsh.notices.find? (·.site == site.val) = some n → n.clear = none → (∀ z ∈ s.wsh.freezes, z.site ≠ site.val) →
    n.bnd + (if regL s 0x7000 0 15 8 = 0 then 255 else regL s 0x7000 0 15 8) ≤ s.tide.bnd → tget s.wsh.drains (siteReach site) 0 < 2 →
    ∃ t, exec (.migrateLimit site) s = .next t ∧ Frozen site s.tide.bnd s t) ∧
  (∀ (s : State) (x : Nat) (rest : List Nat), s.wsh.emerg = x :: rest → slicedDie s x = false → (∀ z ∈ s.wsh.freezes, z.site ≠ x) →
    (tget s.wsh.drains (siteReach x) 0 < 2 → ∃ t, exec .freeze s = .next t ∧ t.wsh.emerg = rest ∧ Frozen x s.tide.bnd s t) ∧
    (2 ≤ tget s.wsh.drains (siteReach x) 0 →
      ∃ t, exec .freeze s = .next t ∧ t.wsh.emerg = rest ∧ (x, .heat) ∈ t.net.toLeave ∧ ∀ c ∈ ctxsOn s x, ctxLive (getCtx s c) = true → (getCtx t c).roll ≠ none)) ∧
  (∀ (site : Fin 88) (s : State) (z : Freeze), s.wsh.freezes.find? (·.site == site.val) = some z → z.f + 2 ≤ s.tide.bnd →
    ∃ t, exec (.freezeStop site) s = .next t ∧ (∀ c ∈ z.ctxs, ctxRuns s c = true →
      (getCtx t c).frozen = none ∧ (ctxLive (getCtx s c) = true → (getCtx t c).roll ≠ none) ∧ ∀ y ∈ t.wsh.freezes, y.site = site.val → c ∉ y.ctxs) ∧ t.mem = s.mem) ∧
  (∀ (site : Fin 88) (plans : List (Fin 1024 × Plan)) (s : State) (z : Freeze), s.wsh.freezes.find? (·.site == site.val) = some z → z.f ≤ s.tide.bnd →
    (∀ e ∈ s.cells, dieSite s (logDie80 e.1) = site.val → e.2.prog = none ∧ e.2.ops = []) →
    ∃ t, exec (.drainDone site plans) s = .next t ∧ (∀ y ∈ t.wsh.freezes, y.site ≠ site.val) ∧
      (site.val ∉ s.lev.halved → (∃ why, (site.val, why) ∈ t.net.toLeave) ∧ t.net.routesDue = true) ∧
      (∀ c, z.ctxs = [c] →
        ((∀ e ∈ plans, e.1.val ≠ c) → (getCtx t c).frozen = none ∧ (ctxLive (getCtx s c) = true → (getCtx t c).roll ≠ none)) ∧
        (∀ k p, plans.find? (·.1.val == c) = some (k, p) → replanOk s c p = true → sameShape s site (getCtx s c).plan.rects p.rects = true →
          (getCtx t c).plan = p ∧ (getCtx t c).frozen = none ∧ (getCtx t c).cause = 0 ∧ (getCtx t c).roll = (getCtx s c).roll ∧ (getCtx t c).steps = (getCtx s c).steps) ∧
        (∀ k p, plans.find? (·.1.val == c) = some (k, p) → (replanOk s c p && sameShape s site (getCtx s c).plan.rects p.rects) = false →
          (getCtx t c).plan = (getCtx s c).plan ∧ (getCtx t c).frozen = none ∧ (ctxLive (getCtx s c) = true → (getCtx t c).roll ≠ none)))) ∧
  (∀ (ctx : Fin 1024) (tensor : Nat) (src dst : BitVec 48) (bytes : Nat) (s : State) (rep : ConcRep) (rest : List ConcRep), s.mem.conc = rep :: rest →
    (bitN (regLive s 0x7000 0) 1 = true → bitN (regLive s 0x7000 0) 0 = true → ctxLive (getCtx s ctx) = true → ctx.val ∈ rep.ctxs → sweepsOf s ctx = [] →
      ((∃ x, (getCtx s ctx).plan.tensors[tensor]? = some x ∧ x.addr = src.toNat) ∨ ∃ h ∈ shardsOf s ctx, h.r.wAddr = src.toNat) → 0 < bytes → memStack src.toNat = rep.stack → memStack dst.toNat = rep.stack →
      fastOk s src.toNat bytes = true → fastOk s dst.toNat bytes = true → dst.toNat % 2048 = 0 → (src.toNat + max bytes (4 * 2 ^ 20) ≤ dst.toNat ∨ dst.toNat + max bytes (4 * 2 ^ 20) ≤ src.toNat) →
      (∀ k, tget? s.wsh.skewAt (ctx * 2 ^ 20 + tensor) = some k → k + 64 ≤ slotNow s) →
      ∃ t, exec (.reskewStart ctx tensor src dst bytes) s = .next t ∧ Frame [.mem, .wsh] s t ∧ t.mem = { s.mem with conc := rest } ∧
        t.wsh.reskews = s.wsh.reskews ++ [{ ctx := ctx, tensor := tensor, src := src.toNat, dst := dst.toNat, bytes := bytes }] ∧
        tget? t.wsh.skewAt (ctx * 2 ^ 20 + tensor) = some (slotNow s)) ∧
    (bitN (regLive s 0x7000 0) 1 = false ∨ bitN (regLive s 0x7000 0) 0 = false → ∃ t, exec (.reskewStart ctx tensor src dst bytes) s = .next t ∧ t.mem = { s.mem with conc := rest } ∧ Frame [.mem] s t)) ∧
  (∀ (ctx : Fin 1024) (s : State) (k : Reskew), s.wsh.reskews.find? (·.ctx == ctx.val) = some k → stepInProgress (getCtx s ctx) = none →
    memRoom s .internal k.src 64 = true → memRoom s .internal k.dst 64 = true →
    ∃ t, exec (.reskewDone ctx) s = .next t ∧ t.wsh.reskews = s.wsh.reskews.filter (· != k) ∧ (getCtx t ctx).ver = (getCtx s ctx).ver + 1 ∧
      (getCtx t ctx).plan.tensors = (getCtx s ctx).plan.tensors.map (fun x => if x.addr = k.src then { x with addr := k.dst } else x) ∧
      (let swap (a : Nat) : Nat := if a = k.src then k.dst else a
       shardsOf t ctx = (shardsOf s ctx).map fun h => { h with r := { h.r with wAddr := swap h.r.wAddr, rep0 := swap h.r.rep0, rep1 := swap h.r.rep1 } }) ∧
      (∀ e q, e < 64 → q ∈ (getFrs s e).passes → repoint k q ∈ (getFrs t e).passes) ∧
      Counted (telKey bWSH 5 0 unitTR) 1 s t ∧
      (bytesWf s.mem.data = true → ∀ i < k.bytes, k.dst + i < (getCtx s ctx).report ∨
        (getCtx s ctx).report + (reportBytes s ctx (getCtx s ctx).job (getCtx s ctx).plan 0 0 0).length ≤ k.dst + i →
        k.dst + i < (getCtx s ctx).plan.shardTab ∨ (getCtx s ctx).plan.shardTab + 128 * (getCtx s ctx).plan.nshards ≤ k.dst + i →
        bget t.mem.data (k.dst + i) = bget s.mem.data (k.src + i)))

/-- R308, R309, R311, R334, R335: doorbells ring, descriptors are fetched, completions are written and signalled. -/
def Obligations.QueuePairsFetchAndComplete : Prop :=
  (∀ (j i : Fin 8) (line : Bytes) (s : State), line.length = 64 → cacheUp s = true → pairUp (getPair s (8 * j + i)) = true →
    (RingOk (getPair s (8 * j + i)) (sliceB line (8 * i) 8) →
      ∃ t, exec (.doorbellSnoop j line) s = .next t ∧ RungAs (8 * j + i) (sliceB line (8 * i) 8) s t ∧ s.slc.dbBase / 64 + j ∈ t.hst.cache) ∧
    (¬ RingOk (getPair s (8 * j + i)) (sliceB line (8 * i) 8) →
      ∃ t, exec (.doorbellSnoop j line) s = .next t ∧ (getPair t (8 * j + i)).halted = true ∧ (getPair t (8 * j + i)).sqTail = (getPair s (8 * j + i)).sqTail)) ∧
  (∀ (q : Fin 64) (area : Bytes) (s : State), area.length = 512 → s.slc.pollBnd + max (regL s 0x8028 0 31 24) 1 ≤ s.tide.bnd → cacheUp s = true →
    pairUp (getPair s q) = true → RingOk (getPair s q) (sliceB area (8 * q) 8) →
    ∃ t, exec (.doorbellPoll area) s = .next t ∧ RungAs q (sliceB area (8 * q) 8) s t ∧ t.slc.pollBnd = s.tide.bnd) ∧
  (∀ (q : Fin 64) (data : Bytes) (s : State) (d : Bytes × Nat), (getPair s q).fetching ≠ 0 → data.length = 64 * (getPair s q).fetching →
    let ds := (List.range (getPair s q).fetching).map fun i => (sliceB data (64 * i) 64, ((getPair s q).sqHead + i + 1) % (getPair s q).sqSize)
    ((getPair s q).fetched ++ ds).head? = some d → 1 ≤ dOp d.1 → dOp d.1 ≤ 6 →
    ∃ t, exec (.descriptorFetchDone q data) s = .next t ∧ (getPair t q).fetched = (getPair s q).fetched ++ ds ∧
      (getPair t q).sqHead = ((getPair s q).sqHead + (getPair s q).fetching) % (getPair s q).sqSize) ∧
  (∀ (q : Fin 64) (s : State), (getPair s q).fetching ≠ 0 →
    ((getPair s q).retried = false →
      ∃ t, exec (.descriptorFetchTimeout q) s = .next t ∧ t.now = max s.now ((getPair s q).fetchAt + usTicks 100) ∧ getPair t q = { getPair s q with retried := true, fetchAt := t.now } ∧
        t.out = .hostRead ((getPair s q).sqBase + 64 * (getPair s q).sqHead) (64 * (getPair s q).fetching) :: s.out ∧ Frame [.now, .out, .slc] s t) ∧
    ((getPair s q).retried = true →
      ∃ t, exec (.descriptorFetchTimeout q) s = .next t ∧ t.now = max s.now ((getPair s q).fetchAt + usTicks 100) ∧ (getPair t q).halted = true ∧ (getPair t q).err = true ∧ (getPair t q).fetching = 0 ∧ (getPair t q).fetched = [] ∧
        t.err = (raise unitTL bSLC sDef 0x06 none ((getPair s q).sqBase + 64 * (getPair s q).sqHead) q 0 s).err)) ∧
  (∀ (q : Fin 64) (s : State) (c : Cpl) (rest : List Cpl), (getPair s q).buf ++ (getPair s q).posted = c :: rest →
    let p := getPair s q
    let w := Out.hostWrite (p.cqBase + 32 * p.cqTail) (cplBytes q (p.cqPass / p.cqSize % 2 == 0) c)
    (pairUp p = true → cacheUp s = true → cqUsed p + 1 ≠ p.cqSize →
      ∃ t, exec (.completionWrite q) s = .next t ∧ (getPair t q).buf ++ (getPair t q).posted = rest ∧ (getPair t q).cqTail = (p.cqTail + 1) % p.cqSize ∧
        (getPair t q).cqPass = p.cqPass + 1 ∧ Frame [.out, .slc] s t ∧
        (regL s 0x8014 q 14 14 = 0 → t.out = w :: s.out ∧ (getPair t q).unsig = p.unsig + 1) ∧
        (regL s 0x8014 q 14 14 = 1 → max (regL s 0x8014 q 23 16) 1 ≤ p.unsig + 1 → t.out = .msix (regL s 0x8014 q 13 8) :: w :: s.out ∧ (getPair t q).unsig = 0)) ∧
    (pairUp p = false ∨ cacheUp s = false ∨ cqUsed p + 1 = p.cqSize → ∀ k l, p.posted = k :: l → cbufAll s < 4096 →
      ∃ t, exec (.completionWrite q) s = .next t ∧ (getPair t q).posted = l ∧ (getPair t q).buf = p.buf ++ [k] ∧ t.out = s.out) ∧
    (pairUp p = true →
      ∃ t, exec (.completionWriteTimeout q) s = .next t ∧ (getPair t q).halted = true ∧ (getPair t q).err = true ∧ (getPair t q).buf = c :: rest ∧
        (getPair t q).posted = [] ∧ Frame [.slc] s t)) ∧
  (∀ (q : Fin 64) (s : State), (getPair s q).unsig ≠ 0 → regL s 0x8014 q 14 14 = 1 →
    ∃ t, exec (.irqCoalesceTimer q) s = .next t ∧ t.now = max s.now ((getPair s q).unsigAt + usTicks (max (regL s 0x8014 q 31 24) 1)) ∧
      t.out = .msix (regL s 0x8014 q 13 8) :: s.out ∧ getPair t q = { getPair s q with unsig := 0 } ∧ Frame [.now, .out, .slc] s t) ∧
  (∀ (ctx : Fin 1024) (consumed : BitVec 64) (s : State), (strmOf s ctx).sink = 1 → cacheUp s = true →
    (consumed.toNat ≤ (strmOf s ctx).produced →
      ∃ t, exec (.streamControlUpdate ctx consumed) s = .next t ∧ strmOf t ctx = { strmOf s ctx with consumed := consumed.toNat } ∧ t.err = s.err) ∧
    ((strmOf s ctx).produced < consumed.toNat →
      ∃ t, exec (.streamControlUpdate ctx consumed) s = .next t ∧ t.edy = s.edy ∧
        t.err = (raise unitTL bSLC sInfo 0x07 (some ctx) ((strmOf s ctx).sinkAddr + (strmOf s ctx).sinkBytes) consumed.toNat 2 s).err))

/-- R305, R306, R312, R313, R317, R320, R321, R323, R325, R332: a descriptor is taken and has its effect, or is refused with its status. -/
def Obligations.DescriptorsAreDispatched : Prop :=
  ∀ (q : Fin 64) (s : State) (d : Bytes) (h : Nat) (rest : List (Bytes × Nat)) (a : Admission),
    let c := dCtx d
    let x := getCtx s c
    leField d 2 2 < 1024 →
    (Takes s q 1 d h rest → dFlags d < 4 → memAddrOk (leField d 8 8) = true → memAddrOk (leField d 16 8) = true → leField d 24 8 % 64 = 0 → fastBacked (leField d 24 8) = true →
      memAddrOk (leField d 32 8) = true → leField d 40 8 % 64 = 0 → fastBacked (leField d 40 8) = true → fastBacked (leField d 40 8 + 4095) = true → leNat (sliceB d 52 12) = 0 →
      (ctxLicensed s c = true → x.st = .free → (bitN (dFlags d) 1 = true → privCount s < 16) →
        ∃ t y, exec (.admitCtx q) s = .next t ∧ (getPair t q).fetched = rest ∧ getCtx t c = y ∧ y.st = .admitting ∧ y.full = bitN (dFlags d) 0 ∧ y.priv = bitN (dFlags d) 1 ∧ y.qp = q ∧
          y.graph = leField d 8 8 ∧ y.numAddr = leField d 16 8 ∧ y.updAddr = leField d 24 8 ∧ y.report = leField d 32 8 ∧ y.save = leField d 40 8 ∧ y.firstStep = leField d 48 4 ∧
          y.nextStep = leField d 48 4 ∧ y.steps = [] ∧ (getPair t q).posted = (getPair s q).posted) ∧
      (ctxLicensed s c = false → ∃ t, exec (.admitCtx q) s = .next t ∧ DescDone q d h rest 3 0 0 s t ∧ t.ctxs = s.ctxs) ∧
      (ctxLicensed s c = true → x.st ≠ .free → ∃ t, exec (.admitCtx q) s = .next t ∧ DescDone q d h rest 2 x.st.code 0 s t ∧ t.ctxs = s.ctxs) ∧
      (ctxLicensed s c = true → x.st = .free → bitN (dFlags d) 1 = true → 16 ≤ privCount s → ∃ t, exec (.admitCtx q) s = .next t ∧ DescDone q d h rest 10 0 0 s t ∧ t.ctxs = s.ctxs)) ∧
    (Takes s q 1 d h rest → 4 ≤ dFlags d → ∃ t, exec (.admitCtx q) s = .next t ∧ DescDone q d h rest 1 1 0 s t ∧ t.ctxs = s.ctxs) ∧
    (Takes s q 2 d h rest → dFlags d < 16 → leField d 8 8 % 64 = 0 → leField d 16 4 = x.nextStep → 1 ≤ leField d 20 4 → leField d 20 4 ≤ 65535 → 1 ≤ leField d 24 4 → leField d 24 4 ≤ 131072 →
      leField d 28 8 ≤ leField d 20 4 * leField d 24 4 → leNat (sliceB d 36 28) = 0 → ctxLicensed s c = true → ctxLive x = true → x.qp = q → x.licHeld = false →
      ((x.steps.filter fun t => !t.posted).length < 64 →
        ∃ t k, exec (.step q) s = .next t ∧ (getPair t q).fetched = rest ∧ (getCtx t c).steps = x.steps ++ [k] ∧ k.num = leField d 16 4 ∧ k.st = .reading ∧ k.numChanged = bitN (dFlags d) 0 ∧
          k.updChanged = bitN (dFlags d) 1 ∧ k.resync = bitN (dFlags d) 2 ∧ k.hold = bitN (dFlags d) 3 ∧ k.batch = leField d 8 8 ∧ k.sequences = leField d 20 4 ∧
          k.maxLen = leField d 24 4 ∧ k.tokens = leField d 28 8 ∧ k.tag = dTag d ∧ k.posted = false ∧ (getCtx t c).st = x.st) ∧
      (64 ≤ (x.steps.filter fun t => !t.posted).length → ∃ t, exec (.step q) s = .next t ∧ DescDone q d h rest 9 0 0 s t ∧ t.ctxs = s.ctxs)) ∧
    (Takes s q 3 d h rest → dFlags d < 8 → (bitN (dFlags d) 1 = true → bitN (dFlags d) 0 = false) → leField d 8 8 % 64 = 0 → fastBacked (leField d 16 8) = true →
      leField d 16 8 % (if bitN (dFlags d) 1 then 2048 else 64) = 0 → 64 ≤ leField d 24 8 → leField d 24 8 ≤ 2 ^ 40 → leField d 24 8 % (if bitN (dFlags d) 1 then 2048 else 64) = 0 →
      (bitN (dFlags d) 1 = true → (elemOf (leField d 40 2 % 256)).isSome = true ∧ layoutOk (leField d 40 2) = true) → leNat (sliceB d 44 20) = 0 →
      (bitN (dFlags d) 2 = false → ctxLicensed s c = true → ctxLive x = true → x.qp = q → x.licHeld = false →
        ∃ t k, exec (.copy q) s = .next t ∧ (getPair t q).fetched = rest ∧ (getCtx t c).copies = x.copies ++ [k] ∧ k.toHost = bitN (dFlags d) 0 ∧ k.form = bitN (dFlags d) 1 ∧ k.host = leField d 8 8 ∧
          k.mem = leField d 16 8 ∧ k.bytes = leField d 24 8 ∧ k.tag = dTag d ∧ k.after = x.nextStep) ∧
      (bitN (dFlags d) 2 = true → ∃ t k, exec (.copy q) s = .next t ∧ (getPair t q).fetched = rest ∧ t.slc.copies = s.slc.copies ++ [k] ∧ k.ctx = none ∧ k.host = leField d 8 8 ∧
        k.mem = leField d 16 8 ∧ k.bytes = leField d 24 8 ∧ k.tag = dTag d ∧ t.ctxs = s.ctxs)) ∧
    (Takes s q 4 d h rest → dFlags d < 4 → leNat (sliceB d 8 56) = 0 → ctxLicensed s c = true → x.qp = q → x.licHeld = false →
      (x.st = .idle → ∃ t, exec (.resume q a) s = .next t ∧ DescDone q d h rest 0 0 x.lastDone s t ∧ t.ctxs = s.ctxs) ∧
      (x.st = .held → dFlags d = 0 → ∃ t, exec (.resume q a) s = .next t ∧ DescDone q d h rest 0 0 x.lastDone s t ∧ getCtx t c = { x with st := .idle }) ∧
      (x.st = .held → dFlags d = 2 → ∃ t, exec (.resume q a) s = .next t ∧ (getPair t q).fetched = rest ∧ (getCtx t c).st = .idle ∧
        (∀ y ∈ (getCtx t c).steps, y.st ≠ .queued ∧ y.st ≠ .reading ∧ y.st ≠ .accumulated)) ∧
      (∀ p, a = .place p → x.st = .held → dFlags d = 1 → updating s 4 = false → choiceOk s c x.job p (fun _ => true) = true → replanOk s c p = true → imagesOk s x p = true →
        ∃ t, exec (.resume q a) s = .next t ∧ (getCtx t c).st = .idle ∧ (getCtx t c).plan = p ∧ (getCtx t c).cause = 0 ∧ (getCtx t c).ver = x.ver + 1) ∧
      (∀ p, a = .place p → x.st = .held → bitN (dFlags d) 0 = true → updating s 4 = true ∨ choiceOk s c x.job p (fun _ => true) = false → exec (.resume q a) s = .next s) ∧
      (∀ p, a = .place p → x.st = .held → bitN (dFlags d) 0 = true → updating s 4 = false → choiceOk s c x.job p (fun _ => true) = true →
        (replanOk s c p = false → ∃ t, exec (.resume q a) s = .next t ∧ DescDone q d h rest 4 6 0 s t ∧ t.ctxs = s.ctxs) ∧
        (replanOk s c p = true → imagesOk s x p = false → ∃ t, exec (.resume q a) s = .next t ∧ DescDone q d h rest 5 4 0 s t ∧ t.ctxs = s.ctxs)) ∧
      (∀ code b, a = .refuse code b → x.st = .held → bitN (dFlags d) 0 = true → ∃ t, exec (.resume q a) s = .next t ∧ DescDone q d h rest 4 code 0 s t ∧ t.ctxs = s.ctxs)) ∧
    (Takes s q 5 d h rest → dFlags d < 2 → leNat (sliceB d 8 56) = 0 → x.qp = q → x.st = .idle ∨ x.st = .running ∨ x.st = .held →
      ∃ t k, exec (.kill q) s = .next t ∧ (getPair t q).fetched = rest ∧ getCtx t c = { x with st := .killing, kill := some k } ∧ k.zero = bitN (dFlags d) 0 ∧ k.tag = dTag d ∧ k.started = false ∧
        slotNow s < k.slot ∧ Out.rill rillCells 1 0x32 [c, k.slot] ∈ t.out) ∧
    (Takes s q 5 d h rest → dFlags d < 2 → leNat (sliceB d 8 56) = 0 → ctxLicensed s c = true → x.st = .free ∨ x.st = .killing →
      ∃ t, exec (.kill q) s = .next t ∧ DescDone q d h rest 2 x.st.code 0 s t ∧ t.ctxs = s.ctxs) ∧
    (Takes s q 6 d h rest → dFlags d = 0 → cellUsable s (leField d 8 4) = true → leField d 12 1 ≤ 254 → 1 ≤ leField d 13 1 → leField d 12 1 + leField d 13 1 ≤ 255 → leNat (sliceB d 14 2) = 0 →
      leField d 16 8 % 64 = 0 → leNat (sliceB d 24 40) = 0 → ctxLicensed s c = true → x.st = .idle ∨ x.st = .held → x.qp = q → x.licHeld = false →
      (∀ k, leField d 12 1 ≤ k → k < leField d 12 1 + leField d 13 1 → ((tagOf (getCell s (leField d 8 4)) k).owner = c ∨ (tagOf (getCell s (leField d 8 4)) k).owner = ownerPass) ∧
        (tagOf (getCell s (leField d 8 4)) k).st ≠ .poison ∧ (tagOf (getCell s (leField d 8 4)) k).st ≠ .scrub) →
      ∃ t, exec (.debugRead q) s = .next t ∧ DescDone q d h rest 0 0 0 s t ∧ t.ctxs = s.ctxs ∧ t.cells = s.cells ∧
        t.out.head? = some (.hostWrite (leField d 16 8) (bread (getCell s (leField d 8 4)).mem (256 * leField d 12 1) (256 * leField d 13 1) ++
          ((List.range (leField d 13 1)).map (leField d 12 1 + ·)).flatMap fun k => natLE 4 (tagWord (tagOf (getCell s (leField d 8 4)) k)))))

/-- R314, R318, R320, R327, R328, R330, R332: admissions end, steps run and complete, copies run, contexts roll back and end. -/
def Obligations.JobsRun : Prop :=
  (∀ (ctx : Fin 1024) (a : Admission) (s : State), (getCtx s ctx).st = .admitting →
    let x := getCtx s ctx
    let done (status detail : Nat) (t : State) : Prop :=
      Posted x.qp { tag := x.admitTag, ctx := ctx, op := 1, status := status, detail := detail, step := x.firstStep, tide := s.tide.count, flags := 0, attempts := 0, sqHead := x.admitHead } s t
    let slow := [(x.numAddr, 64), (x.graph, 64), (x.graph, graphLen s x)].filter fun r => slowAddr r.1
    let s0 := recTake ctx slow s
    updating s 4 = false → (∀ r ∈ slow, slowBack s bSLC ctx r.1 r.2 = true) →
    (numRecOf (memRead s x.numAddr 64) = none → ∃ t, exec (.admitComplete ctx a) s = .next t ∧ done 5 1 t ∧ getCtx t ctx = {}) ∧
    (∀ n, numRecOf (memRead s x.numAddr 64) = some n → updOk s0 (updRead s0 x.updAddr) = false → ∃ t, exec (.admitComplete ctx a) s = .next t ∧ done 5 2 t ∧ getCtx t ctx = {}) ∧
    (∀ n, numRecOf (memRead s x.numAddr 64) = some n → updOk s0 (updRead s0 x.updAddr) = true →
      let b := memRead s x.graph (graphLen s x)
      let s1 := modCtx ctx (fun x => { x with num := n }) s0
      (∀ code i, graphBad s1 ctx { x with num := n } b = some (code, i) → ∃ t, exec (.admitComplete ctx a) s = .next t ∧ done 4 code t ∧ getCtx t ctx = {} ∧ t.wsh.lastRefusal = code) ∧
      (graphBad s1 ctx { x with num := n } b = none →
        (∀ code i, a = .refuse code i → code.val ∈ [3, 4, 5, 7] → ∃ t, exec (.admitComplete ctx a) s = .next t ∧ done 4 code t ∧ getCtx t ctx = {} ∧ t.wsh.lastRefusal = code) ∧
        (∀ p, a = .place p → choiceOk s1 ctx (graphOf b) p (fun _ => true) = true →
          (2 ^ n.headroom < blockBound (graphOf b) p → ∃ t, exec (.admitComplete ctx a) s = .next t ∧ done 4 6 t ∧ getCtx t ctx = {} ∧ t.wsh.lastRefusal = 6) ∧
          (blockBound (graphOf b) p ≤ 2 ^ n.headroom →
            let s4 := writeReport ctx p x.firstStep 0 (p.writes.foldl (fun s w => memWrite true w.1 w.2 s) (modCtx ctx (fun x => { x with job := graphOf b, plan := p }) s1))
            let good := (shardRaws s4 p).all (shardOk s4 ctx (getCtx s4 ctx) (updRead s0 x.updAddr)) && shardsOk ((shardRaws s4 p).map shardRecOf)
            ((shardRaws s4 p).map shardRecOf).all (shardPlaced s1 (graphOf b)) = true →
            (good = false → ∃ t, exec (.admitComplete ctx a) s = .next t ∧ done 5 3 t ∧ getCtx t ctx = {}) ∧
            (good = true → imagesOk s4 (getCtx s4 ctx) p = false → ∃ t, exec (.admitComplete ctx a) s = .next t ∧ done 5 4 t ∧ getCtx t ctx = {}) ∧
            (good = true → imagesOk s4 (getCtx s4 ctx) p = true →
              ∃ t, exec (.admitComplete ctx a) s = .next t ∧ done 0 0 t ∧
                (getCtx t ctx).st = .idle ∧ (getCtx t ctx).job = graphOf b ∧ (getCtx t ctx).plan = p ∧ (getCtx t ctx).num = n ∧ tget t.edy.upd ctx [] = updRead s0 x.updAddr ∧
                (∀ r ∈ shardRaws s4 p, ∃ y ∈ shardsOf t ctx, y.r = shardRecOf r) ∧ t.mem = s4.mem)))))) ∧
  (∀ (ctx : Fin 1024) (step : Word) (data : Bytes) (s : State) (u : Step), ((getCtx s ctx).steps.find? fun t => t.num == step.toNat && t.st == .reading) = some u →
    (data.length = 16 + 4 * u.sequences → batchOk u data = true →
      ∃ t, exec (.batchReadDone ctx step data) s = .next t ∧ getCtx t ctx = { getCtx s ctx with steps := (getCtx s ctx).steps.map fun k => if k.num = u.num then { k with st := .queued } else k } ∧
        Frame [.ctxs] s t) ∧
    (data.length = 16 + 4 * u.sequences → batchOk u data = false → u.posted = false →
      ∃ t, exec (.batchReadDone ctx step data) s = .next t ∧ StepDone ctx u 5 5 s t ∧ (getCtx t ctx).steps = (getCtx s ctx).steps.filter (·.num != u.num) ∧
        (getCtx t ctx).nextStep = (if seqNewer 32 (getCtx s ctx).nextStep u.num then u.num else (getCtx s ctx).nextStep)) ∧
    (u.posted = false →
      ∃ t, exec (.batchReadTimeout ctx step) s = .next t ∧ StepDone ctx u 5 5 s t ∧ (getCtx t ctx).steps = (getCtx s ctx).steps.filter (·.num != u.num) ∧
        (getCtx t ctx).nextStep = (if seqNewer 32 (getCtx s ctx).nextStep u.num then u.num else (getCtx s ctx).nextStep))) ∧
  (∀ (ctx : Fin 1024) (s : State),
    let all := cohort s (cohortOf ctx (getCtx s ctx))
    let ready := all.filter (canStart s)
    (atBoundary s = false → exec (.roundStart ctx) s = .next s) ∧ (atBoundary s = true → ready ≠ [] → (∀ c ∈ all, (getCtx s c).inRound = false) →
    (max (min (regL s 0x8028 0 6 0) 100) 1 * all.length ≤ 100 * ready.length →
      ∃ t, exec (.roundStart ctx) s = .next t ∧ tget? t.slc.roundAt (cohortOf ctx (getCtx s ctx)) = some s.tide.bnd ∧
        ∀ c ∈ ready, ∀ u, nextQueued (getCtx s c) = some u → u.numChanged = false → u.updChanged = false →
          (getCtx t c).st = .running ∧ ∃ k ∈ (getCtx t c).steps, k.num = u.num ∧ k.st = .running ∧ k.startSlot = slotNow s ∧ k.holdover = inHoldover s) ∧
    (100 * ready.length < max (min (regL s 0x8028 0 6 0) 100) 1 * all.length → (∀ c ∈ ready, (getCtx s c).readyAt = none) →
      ∃ t, exec (.roundStart ctx) s = .next t ∧ Frame [.ctxs] s t ∧ ∀ c ∈ ready, (getCtx t c) = { getCtx s c with readyAt := some s.tide.bnd }))) ∧
  (∀ (ctx : Fin 1024) (s : State) (u : Step), atBoundary s = true → canStart s ctx = true → tget? s.slc.roundAt (cohortOf ctx (getCtx s ctx)) = some s.tide.bnd → nextQueued (getCtx s ctx) = some u →
    (u.numChanged = false → u.updChanged = false →
      ∃ t, exec (.stepStart ctx) s = .next t ∧ (getCtx t ctx).st = .running ∧ (getCtx t ctx).inRound = true ∧ t.mem = s.mem ∧
        (getCtx t ctx).steps = (getCtx s ctx).steps.map fun k => if k.num = u.num then { k with st := .running, holdover := inHoldover s, startSlot := slotNow s } else k) ∧
    (u.numChanged = true → (slowAddr (getCtx s ctx).numAddr = true → slowBack s bSLC ctx (getCtx s ctx).numAddr 64 = true) → numRecOf (memRead s (getCtx s ctx).numAddr 64) = none → u.posted = false →
      ∃ t, exec (.stepStart ctx) s = .next t ∧ StepDone ctx u 5 1 s t ∧ (getCtx t ctx).steps = (getCtx s ctx).steps.filter (·.num != u.num))) ∧
  (∀ (ctx : Fin 1024) (s : State) (u : Step), (getCtx s ctx).steps.find? (·.st == .running) = some u → (∀ k ∈ (getCtx s ctx).steps, k.st ≠ .sweeping) →
    (lastOfWindow (getCtx s ctx) u.num = true →
      ∃ t, exec (.backwardEnd ctx) s = .next t ∧ Frame [.ctxs] s t ∧ (getCtx t ctx).inRound = false ∧
        (getCtx t ctx).steps = (getCtx s ctx).steps.map fun k => if k.num = u.num then { k with st := .reduced } else k) ∧
    (lastOfWindow (getCtx s ctx) u.num = false → u.posted = false → u.hold = false → (getCtx s ctx).holdDue = 0 → ctxLicensed s ctx = true → (getCtx s ctx).st = .running →
      (∀ k ∈ (getCtx s ctx).steps, k.num ≠ u.num → k.st ≠ .running ∧ k.st ≠ .reduced) →
      ∃ t, exec (.backwardEnd ctx) s = .next t ∧ StepDone ctx { u with decision := 3, held := false } 0 0 s t ∧ (getCtx t ctx).st = .idle ∧ (getCtx t ctx).lastDone = u.num ∧
        ∀ k ∈ (getCtx t ctx).steps, k.num = u.num → k.st = .accumulated)) ∧
  (∀ (ctx : Fin 1024) (s : State) (d : Dec) (u : Step), (getCtx s ctx).dec = some d → d.begun = true → sweepsOf s ctx = [] → (strmOf s ctx).tail = none →
    ((getCtx s ctx).steps.find? fun t => t.num == d.step && t.st == .sweeping) = some u → u.posted = false →
    ∃ t, exec (.stepComplete ctx) s = .next t ∧ (getCtx t ctx).dec = none ∧ (getCtx t ctx).winNext = (d.step + 1) % 2 ^ 32 ∧ (getCtx t ctx).lastDone = d.step ∧
      (getCtx t ctx).steps = ((getCtx s ctx).steps.filter fun t => !(t.num == d.step) && t.st != .accumulated) ∧ winMod t ctx d.step = none ∧
      StepDone ctx { u with decision := if d.skip then 1 else if d.partial_ then 2 else 0, spike := d.spike, ratioWarn := d.ratioWarn, ratioHold := d.ratioHold, gap := (strmOf s ctx).gapStep, held := (getCtx s ctx).holdDue != 0 || (getCtx s ctx).steps.any fun t => t.num == d.step && t.hold } 0 0 s t ∧ t.mem = s.mem) ∧
  (∀ (ctx : Option (Fin 1024)) (data : Bytes) (s : State) (k : Copy) (rest : List Copy),
    (match ctx with | some c => (getCtx s c).copies | none => s.slc.copies) = k :: rest → (k.toHost = false → data.length = k.bytes) → s.hst.link = .up →
    (∀ c, ctx = some c → ctxLive (getCtx s c) = true ∧ ∀ t ∈ (getCtx s c).steps, seqNewer 32 k.after t.num = false ∨ t.posted = true) → fastOk s k.mem k.bytes = true → memRoom s .host k.mem 64 = true →
    ∃ t, exec (.copyComplete ctx data) s = .next t ∧ (match ctx with | some c => (getCtx t c).copies | none => t.slc.copies) = rest ∧
      Posted k.qp { tag := k.tag, ctx := (match ctx with | some c => c.val | none => 0), op := 3, status := 0, detail := 0, step := 0, tide := s.tide.count, flags := 0, attempts := 0, sqHead := k.sqHead } s t ∧
      (k.toHost = true → t.out = .hostWrite k.host (memRead s k.mem k.bytes) :: s.out ∧ t.mem = s.mem) ∧
      (k.toHost = false → k.form = false → MemStored k.mem data s t) ∧
      (k.toHost = false → k.form = true → bytesWf s.mem.data = true → ∀ i < k.bytes / 2048,
        let id := if k.ident = 0 then 0 else k.ident / 2 ^ 45 * 2 ^ 45 + (idBase k.ident + i * elemCount (k.format % 256)) % 2 ^ 45
        memRead t (k.mem + 2048 * i) 2048 = sliceB data (2048 * i) 2048 ∧
          memRead t (k.mem + k.bytes + 32 * i) 32 = formTrailer s (sliceB data (2048 * i) 2048) k.alive k.format id 0)) ∧
  (∀ (ctx : Fin 1024) (s : State) (k : Kill), (getCtx s ctx).kill = some k →
    (k.started = false → k.slot ≤ slotNow s → ((getCtx s ctx).dec = none → sweepsOf s ctx = []) →
      ∃ t, exec (.killBoundary ctx) s = .next t ∧ (getCtx t ctx).kill = some { k with started := true, waiting := ctxCells s ctx } ∧ (getCtx t ctx).steps = [] ∧ (getCtx t ctx).copies = [] ∧
        (getCtx t ctx).dec = none ∧ (∀ u ∈ (getCtx s ctx).steps, u.posted = false → ∃ c ∈ (getPair t (getCtx s ctx).qp).posted, c.tag = u.tag ∧ c.step = u.num ∧ c.status = 7) ∧
        t.edy.shards = tdel s.edy.shards ctx ∧ sweepsOf t ctx = [] ∧ (∀ e ∈ t.est.engs, ∀ w ∈ e.2.wins, w.ctx ≠ ctx.val) ∧
        (∀ b ∈ t.chk.bound, b.2.ctx ≠ ctx.val) ∧ (∀ o ∈ t.rsv.ops, o.w.ctx ≠ ctx.val)) ∧
    (k.started = true → k.waiting = [] → (∀ w ∈ s.rsv.want, w.ctx ≠ ctx + 1024) → (∀ o ∈ s.rsv.ops, o.w.ctx ≠ ctx + 1024) →
      ∃ t, exec (.killComplete ctx) s = .next t ∧ getCtx t ctx = {} ∧
        (k.flr = false → ∃ c, Posted k.qp c s t ∧ c.tag = k.tag ∧ c.ctx = ctx.val ∧ c.op = 5 ∧ c.status = 0 ∧ c.step = (getCtx s ctx).lastDone) ∧
        (k.flr = true → t.slc = s.slc) ∧ t.mem = s.mem)) ∧
  (∀ (ctx : Fin 1024) (s : State) (r : Roll), (getCtx s ctx).roll = some r → (∀ u ∈ (getCtx s ctx).steps, u.st ≠ .sweeping) → ctxLive (getCtx s ctx) = true →
    ∃ t, exec (.rollback ctx) s = .next t ∧ (getCtx t ctx).roll = none ∧ (getCtx t ctx).dec = none ∧ (getCtx t ctx).moving = none ∧
      (let u := frsDropCtx ctx (windowsEnd ctx s)
       (getCtx s ctx).st ≠ .held → (getCtx t ctx).st = if r.hold || !(imagesOk u (getCtx s ctx) (getCtx s ctx).plan) then .held else .idle) ∧
      (getCtx t ctx).steps = (getCtx s ctx).steps.map (fun u => if u.st = .reading ∨ u.st = .queued then u else { u with st := .queued, rerun := true, attempts := u.attempts + 1 }) ∧
      sweepsOf t ctx = [] ∧ (∀ e ∈ t.est.engs, ∀ w ∈ e.2.wins, w.ctx ≠ ctx.val) ∧ t.slc = s.slc)

/-- R339, R340, R344, R346, R350, R351, R352, R359, R468, R490, R494: the host link goes down, comes up, sleeps; its decoder and mailbox. -/
def Obligations.TheHostLinkChanges : Prop :=
  let Returned (s t : State) : Prop :=
    t.hst.link = (if s.bst.ready && !t.hst.perst then .train else .detect) ∧ t.hst.cxl = false ∧ t.hst.d3 = false ∧ t.hst.hdm = none ∧ t.hst.cache = [] ∧ t.hst.reqs = [] ∧
      t.hst.order = [] ∧ t.hst.doe = none ∧ t.hst.cfg = {} ∧ t.hst.msixTab = [] ∧ t.mem.filter = [] ∧ t.mem.snoops = [] ∧ t.mem.data = s.mem.data
  (∀ s : State, s.hst.link = .up →
    (∃ t, exec .portReturn s = .next t ∧ Returned s t ∧ (∀ e ∈ s.slc.pairs, e.2.en = true → (getPair t e.1).halted = true) ∧ t.ctxs = s.ctxs ∧ t.own = s.own) ∧
    (∃ t, exec .d3hotEntry s = .next t ∧ t.hst = { s.hst with d3 := true } ∧ Frame [.hst] s t) ∧
    ((∀ x, s.own.windowEnd = some x → s.now < x) → (s.own.owner ≠ none → s.now < s.own.leaseEnd) →
      (s.own.owner = none ∨ s.own.owner = some .host →
        ∃ t, exec .flr s = .next t ∧ Returned s t ∧ (∀ e ∈ s.slc.pairs, (getPair t e.1).en = false ∧ (getPair t e.1).halted = false) ∧
          (∀ e ∈ s.ctxs, e.2.st ≠ .free → e.2.st ≠ .killing → (getCtx t e.1).st = .killing ∧ ∃ k, (getCtx t e.1).kill = some k ∧ k.flr = true ∧ k.zero = false)) ∧
      (∀ m, s.own.owner = some m → m ≠ .host → (∀ o ∈ s.rsv.ops, hostOp o = false) →
        ∃ t, exec .flr s = .next t ∧ Returned s t ∧ t.ctxs = s.ctxs ∧ t.err = (raise unitTL bHST sInfo 0x0F none 4 m.id 0 s).err))) ∧
  (∀ s : State,
    (s.hst.perst = false → ∃ t, exec .perst s = .next t ∧ t.hst.perst = true ∧ t.hst.link = .detect ∧ t.hst.cxl = false ∧ t.hst.hdm = none ∧ t.hst.cfg = {} ∧ t.now = s.now + usTicks 100 ∧
      t.ctxs = s.ctxs) ∧
    (s.hst.perst = true → ∃ t, exec .perstRelease s = .next t ∧ t.hst = { s.hst with perst := false, link := if s.bst.ready then .train else s.hst.link } ∧ Frame [.hst] s t) ∧
    (s.hst.d3 = true → ∃ t, exec .d0Return s = .next t ∧ t.hst = { s.hst with d3 := false } ∧ Frame [.out, .slc, .hst] s t ∧
      ∀ e ∈ s.slc.pairs, s.hst.link = .up → s.hst.cxl = true → pairUp (getPair s e.1) = true → (getPair s e.1).fetching = 0 → fetchLen (getPair s e.1) ≠ 0 →
        (getPair t e.1).fetching = fetchLen (getPair s e.1)) ∧
    (∃ t, exec .mctpAssemblyTimeout s = .next t ∧ t.hst = { s.hst with mctpDrop := s.hst.mctpDrop + 1 } ∧ t.now = s.now + msTicks 100 ∧ Frame [.now, .hst] s t)) ∧
  (∀ (rate : Fin 4) (width : Fin 3) (lopt cxl : Bool) (s : State), s.hst.link = .train →
    rate.val + 1 ≤ (if regL s 0xF004 0 2 0 = 0 ∨ 4 < regL s 0xF004 0 2 0 then 4 else regL s 0xF004 0 2 0) →
    ∃ t, exec (.linkUp rate width lopt cxl) s = .next t ∧ t.hst = { s.hst with link := .up, rate := rate.val + 1, width := width, lopt := lopt, cxl := cxl } ∧
      t.err = (if cxl then s else raise unitTL bHST sInfo 0x0B none 0 0 0 s).err ∧ Frame [.out, .err, .tel, .hst] s t) ∧
  (∀ (base size ways : Nat) (s : State), s.hst.link = .up →
    (∃ t, exec (.hdmCommit false base size ways) s = .next t ∧ t.hst = { s.hst with hdm := none, hdmErr := false } ∧ Frame [.hst] s t) ∧
    (base % 2 ^ 28 = 0 ∧ size % 2 ^ 30 = 0 ∧ 2 ^ 30 ≤ size ∧ size ≤ 512 * 2 ^ 30 ∧ ways = 1 ∧ base + size ≤ 2 ^ 52 →
      ∃ t, exec (.hdmCommit true base size ways) s = .next t ∧ t.hst = { s.hst with hdm := some (base, size), hdmErr := false } ∧ t.mem = { s.mem with hostLost := false } ∧
        Frame [.mem, .hst] s t) ∧
    (¬ (base % 2 ^ 28 = 0 ∧ size % 2 ^ 30 = 0 ∧ 2 ^ 30 ≤ size ∧ size ≤ 512 * 2 ^ 30 ∧ ways = 1 ∧ base + size ≤ 2 ^ 52) →
      ∃ t, exec (.hdmCommit true base size ways) s = .next t ∧ t.hst = { s.hst with hdmErr := true } ∧ Frame [.hst] s t)) ∧
  (∀ (vendor : BitVec 16) (typ : BitVec 8) (obj : Bytes) (s : State), s.hst.link = .up → s.hst.doe = none → obj.length ≤ 16384 →
    (vendor = 0xCE4A → typ = 1 →
      ∃ t, exec (.doeRequest vendor typ obj) s = .next t ∧ t.hst = { s.hst with doe := some (s.now, obj) } ∧ t.hdw = { s.hdw with attest := s.hdw.attest ++ [obj] } ∧
        Frame [.hst, .hdw] s t) ∧
    (vendor = 1 → typ = 0 → leField obj 0 1 = 2 →
      ∃ t, exec (.doeRequest vendor typ obj) s = .next t ∧ t.out = .doe 0 (natLE 2 0xCE4A ++ natLE 1 1 ++ natLE 1 0) :: s.out ∧ Frame [.out] s t) ∧
    (vendor = 0x1E98 → typ = 2 → ∃ t, exec (.doeRequest vendor typ obj) s = .next t ∧ t.out = .doe 2 (Config.cdat (leNat obj)) :: s.out ∧ Frame [.out] s t) ∧
    (vendor ≠ 0xCE4A → vendor ≠ 1 → vendor ≠ 0x1E98 → ∃ t, exec (.doeRequest vendor typ obj) s = .next t ∧ t.out = .doe 0xFF [] :: s.out ∧ Frame [.out] s t)) ∧
  (∀ (s : State) (x : Nat) (obj : Bytes), s.hst.doe = some (x, obj) →
    ∃ t, exec .doeTimeout s = .next t ∧ t.now = max s.now (x + msTicks 1000) ∧ t.out = .doe 0xFF [] :: s.out ∧ t.hst = { s.hst with doe := none } ∧ t.hdw = { s.hdw with attest := [] } ∧ Frame [.now, .out, .hst, .hdw] s t)

/-- R345, R347, R348, R349: the host reads and writes the host-visible window, answers snoops and snoops the module. -/
def Obligations.HostMemoryIsServed : Prop :=
  (∀ (tag : Nat) (addr : BitVec 52) (grant : Option Bool) (s : State), cxlMem s = true → tget? s.hst.reqs tag = none →
    (∀ a, hostMap s (addr.toNat / 64 * 64) = some a →
      let r : MemReq := { id := 0, cls := .host, from_ := .host tag, ctx := none, addr := a, len := 64, act := .read, sm := false, at_ := 0 }
      ((getStk s (memStack a)).queue.filter (sameSource r)).length < 64 →
      ∃ t, exec (.hostMemRead tag addr grant) s = .next t ∧ tget? t.hst.reqs tag = some { line := a / 64, grant := grant } ∧
        (getStk t (memStack a)).queue = (getStk s (memStack a)).queue ++ [{ r with id := (getStk s (memStack a)).nextId, at_ := s.now }] ∧
        Counted (telKey bHST 0 0 0) 1 s t ∧ t.mem.data = s.mem.data ∧ Frame [.tel, .mem, .hst] s t) ∧
    (∀ a, hostMap s (addr.toNat / 64 * 64) = some a →
      let r : MemReq := { id := 0, cls := .host, from_ := .host tag, ctx := none, addr := a, len := 64, act := .read, sm := false, at_ := 0 }
      64 ≤ ((getStk s (memStack a)).queue.filter (sameSource r)).length →
      ∃ t, exec (.hostMemRead tag addr grant) s = .next t ∧ Counted (telKey bMEM 10 0 (memStack a)) 1 s t ∧ Frame [.tel] s t) ∧
    (hostMap s (addr.toNat / 64 * 64) = none →
      ∃ t, exec (.hostMemRead tag addr grant) s = .next t ∧ Out.hostLink 3 [tag, 1] [] ∈ t.out ∧ Counted (telKey bHST 2 0 0) 1 s t ∧ t.hst = s.hst ∧
        t.err = (raise unitTL bHST sInfo 0x07 none (addr.toNat / 64 * 64) 0 0 s).err ∧ Frame [.out, .err, .tel] s t)) ∧
  (∀ (tag : Nat) (addr : BitVec 52) (off : Fin 64) (data : Bytes) (s : State) (a : Nat), cxlMem s = true → tget? s.hst.reqs tag = none → data ≠ [] → off.val + data.length ≤ 64 →
    hostMap s (addr.toNat / 64 * 64) = some a →
    (guarded s (a + off) data.length = false →
      let r : MemReq := { id := 0, cls := .host, from_ := .host tag, ctx := none, addr := a + off, len := data.length, act := .write data, sm := false, at_ := 0 }
      ((getStk s (memStack (a + off))).queue.filter (sameSource r)).length < 64 →
      ∃ t, exec (.hostMemWrite tag addr off data) s = .next t ∧ tget? t.hst.reqs tag = some { line := a / 64, grant := none } ∧
        (getStk t (memStack (a + off))).queue = (getStk s (memStack (a + off))).queue ++ [{ r with id := (getStk s (memStack (a + off))).nextId, at_ := s.now }] ∧
        t.mem.data = s.mem.data ∧ Frame [.tel, .mem, .hst] s t) ∧
    (guarded s (a + off) data.length = true →
      ∃ t, exec (.hostMemWrite tag addr off data) s = .next t ∧ Out.hostLink 4 [tag] [] ∈ t.out ∧ t.mem = s.mem ∧
        t.err = (raise (ringUnit (memStack (a + off))) bEST sCont 0x07 none (a + off) Master.host.id 0 s).err)) ∧
  (∀ (tag : Nat) (addr : BitVec 52) (off : Fin 64) (data : Bytes) (s : State), cxlMem s = true → tget? s.hst.reqs tag = none → data ≠ [] → off.val + data.length ≤ 64 →
    hostMap s (addr.toNat / 64 * 64) = none →
    ∃ t, exec (.hostMemWrite tag addr off data) s = .next t ∧ Out.hostLink 4 [tag] [] ∈ t.out ∧ Counted (telKey bHST 1 0 0) 1 s t ∧
      t.err = (raise unitTL bHST sInfo 0x07 none (addr.toNat / 64 * 64) 0 0 s).err ∧ Frame [.out, .err, .tel] s t) ∧
  (∀ (line : Nat) (inv : Bool) (x : Nat) (s : State), tget? s.mem.snoops line = some (inv, x) →
    (∃ t, exec (.bisnpResponse line none) s = .next t ∧ t.mem.snoops = tdel s.mem.snoops line ∧ (inv = true → t.mem.filter = tdel s.mem.filter line ∧ t.hst.order = delN s.hst.order line) ∧
      (inv = false → tget? s.mem.filter line ≠ none → tget? t.mem.filter line = some false) ∧ t.mem.data = s.mem.data ∧ Frame [.mem, .hst] s t) ∧
    (∀ b : Bytes, b.length = 64 → fastOk s (64 * line) 64 = true →
      ∃ t, exec (.bisnpResponse line (some b)) s = .next t ∧ t.mem.snoops = tdel s.mem.snoops line ∧ MemStored (64 * line) b s t) ∧
    (∃ t, exec (.biTimeout line) s = .next t ∧ t.mem.filter = [] ∧ t.mem.snoops = [] ∧ t.mem.hostLost = true ∧ t.hst.order = [] ∧ Counted (telKey bHST 5 0 0) 1 s t ∧
      t.now = max s.now (x + usTicks (max (regL s 0xF010 0 15 0) 10)) ∧ t.err = (raise unitTL bHST sCont 0x06 none (64 * line) 0 0 s).err ∧ t.mem.data = s.mem.data)) ∧
  (∀ (kind : Fin 3) (line : Nat) (s : State), cxlMem s = true →
    (line ∈ s.hst.cache → kind ≠ 0 → ∃ t, exec (.hostSnoop kind line) s = .next t ∧ t.out = .hostLink 5 [line, 1] [] :: s.out ∧ Frame [.out] s t) ∧
    (line ∉ s.hst.cache → ∃ t, exec (.hostSnoop kind line) s = .next t ∧ t.out = .hostLink 5 [line, 0] [] :: s.out ∧ Frame [.out] s t) ∧
    (line ∈ s.hst.cache → kind = 0 →
      ∃ t, exec (.hostSnoop kind line) s = .next t ∧ line ∉ t.hst.cache ∧ Out.hostLink 5 [line, 0] [] ∈ t.out ∧ Frame [.out, .hst] s t ∧
        (s.slc.dbBase / 64 ≤ line → line < s.slc.dbBase / 64 + 8 → s.hst.d3 = false → t.out = .hostRead (64 * line) 64 :: .hostLink 5 [line, 0] [] :: s.out)))

/-- R353 to R359: claims, elections, leases, handovers and releases decide who owns the module. -/
def Obligations.OwnershipChangesHands : Prop :=
  (∀ (x : OwnIn) (m : Master) (body : Bytes) (s r : State), OwnAsks x 1 m body s r →
    (s.own.owner = none → leField body 8 4 = 0 →
      ∃ t, exec (.claim x) s = .next t ∧ t.own.owner = none ∧ t.own.windowEnd = some (s.own.windowEnd.getD (s.now + msTicks 100)) ∧ t.own.gen = s.own.gen ∧
        (∃ k, t.own.claims = s.own.claims.filter (·.m != m) ++ [k] ∧ k.m = m ∧ k.pri = leField body 2 1 ∧ k.token = leField body 4 4) ∧ Out.ownAnswer m (ownRsp s 1) ∈ t.out) ∧
    (∀ o, s.own.owner = some o → o ≠ m → leField body 8 4 = 0 → ∃ t, exec (.claim x) s = .next t ∧ OwnKept m 2 s t)) ∧
  (∀ (x : OwnIn) (m : Master) (body : Bytes) (s r : State), OwnAsks x 2 m body s r →
    (s.own.owner = some m → leField body 4 4 = s.own.token →
      ∃ t, exec (.renew x) s = .next t ∧ t.own.owner = some m ∧ t.own.leaseEnd = s.now + msTicks 10000 ∧ t.own.gen = s.own.gen ∧
        t.own.token = if leField body 8 4 = 0 then s.own.token else leField body 8 4) ∧
    (s.own.owner = some m → leField body 4 4 ≠ s.own.token → ∃ t, exec (.renew x) s = .next t ∧ OwnKept m 3 s t) ∧
    (s.own.owner ≠ some m → ∃ t, exec (.renew x) s = .next t ∧ OwnKept m 2 s t)) ∧
  (∀ (x : OwnIn) (m : Master) (body : Bytes) (s r : State), OwnAsks x 3 m body s r →
    (s.own.owner = some m → leField body 4 4 = s.own.token →
      ∃ t, exec (.handover x) s = .next t ∧ t.own.owner = some (masterOf (leField body 3 1)) ∧ t.own.token = s.own.token ∧ t.own.leaseEnd = s.now + msTicks 10000 ∧
        t.own.gen = (s.own.gen + 1) % 2 ^ 32 ∧ t.own.changed = true ∧ Out.msix 65 ∈ t.out) ∧
    (s.own.owner ≠ some m → ∃ t, exec (.handover x) s = .next t ∧ OwnKept m 2 s t)) ∧
  (∀ (x : OwnIn) (m : Master) (body : Bytes) (s r : State), OwnAsks x 4 m body s r →
    (s.own.owner = some m → leField body 4 4 = s.own.token →
      ∃ t, exec (.release x) s = .next t ∧ t.own.owner = none ∧ t.own.token = 0 ∧ t.own.changed = true ∧ t.own.gen = s.own.gen ∧ Out.msix 65 ∈ t.out) ∧
    (s.own.owner ≠ some m → ∃ t, exec (.release x) s = .next t ∧ OwnKept m 2 s t)) ∧
  (∀ (x : OwnIn) (m : Master) (body : Bytes) (s r : State), OwnAsks x 5 m body s r → ∃ t, exec (.ownershipQuery x) s = .next t ∧ OwnKept m 0 s t) ∧
  (∀ (body : Bytes) (s : State), leField body 0 1 = 1 → updating s 1 = false → (∀ t, s.own.windowEnd = some t → s.now < t) → (s.own.owner ≠ none → s.now < s.own.leaseEnd) →
    let k := ((tget s.own.recent Master.bmc.id []).filter fun t => decide (s.now < t + msTicks 1000)).length
    (64 ≤ k → ∃ t, exec (.claim (.mctp body)) s = .next t ∧ OwnKept .bmc 2 s t) ∧
    (k < 64 → ownLayoutOk .bmc body = false →
      ∃ t, exec (.claim (.mctp body)) s = .next t ∧ OwnKept .bmc 4 s t ∧ t.err = (raise unitTL bHST sInfo 0x07 none Master.bmc.id (leField body 0 8) 0 s).err)) ∧
  (∀ (s : State) (x : Nat), s.own.windowEnd = some x → s.own.claims ≠ [] →
    ∃ t w, exec .electionClose s = .next t ∧ w ∈ s.own.claims ∧ (∀ k ∈ s.own.claims, k.pri < w.pri ∨ k.pri = w.pri ∧ k.m.id ≤ w.m.id) ∧ t.own.owner = some w.m ∧
      t.own.token = w.token ∧ t.own.gen = (s.own.gen + 1) % 2 ^ 32 ∧ t.now = max s.now x ∧ t.own.leaseEnd = t.now + msTicks 10000 ∧ t.own.claims = [] ∧ t.own.windowEnd = none ∧
      Out.msix 65 ∈ t.out) ∧
  (∀ s : State, s.own.owner ≠ none →
    ∃ t, exec .leaseExpiry s = .next t ∧ t.now = max s.now s.own.leaseEnd ∧ t.own.owner = none ∧ t.own.token = 0 ∧ t.own.gen = s.own.gen ∧ Out.msix 65 ∈ t.out)

/-- R362, R363, R379 to R383, R385, R387: a lane is enabled, detected, trained, ranged, matched, qualified and watched; what fails it sends
it to DOWN with its cause. -/
def Obligations.LanesComeUp : Prop :=
  let Becomes (e l : Nat) (f : Lane → Lane) (s t : State) : Prop := getLane t e l = f (getLane s e l) ∧ ∀ k, k ≠ l → getLane t e k = getLane s e k
  let Falls (e l cause : Nat) (t : State) : Prop := (getLane t e l).st = .down ∧ (getLane t e l).cause = cause ∧ (getLane t e l).partner = none ∧ (getLane t e l).recal = false
  (∀ (e : Fin 64) (l : Fin 16) (s : State), 2 < s.bst.step → engOn s e = true → (getLane s e l).st = .disabled →
    ∃ t, exec (.laneEnable e l) s = .next t ∧ Becomes e l (fun x => { st := .down, since := s.now, hold := x.hold, cause := x.cause }) s t ∧ Frame [.csn] s t) ∧
  (∀ (e : Fin 64) (l : Fin 16) (s : State), engOn s e = true → (getLane s e l).st = .down → (getLane s e l).hold = false → nodeId s ≠ 0 →
    ((getLane s e l).wait = 0 → tideFirst s e l = false) →
    ∃ t, exec (.laneWaitExpiry e l) s = .next t ∧ t.now = max s.now ((getLane s e l).since + (getLane s e l).wait) ∧
      Becomes e l (fun x => { x with st := .detect, since := t.now }) s t ∧ Frame [.now, .csn] s t) ∧
  (∀ (e : Fin 64) (l : Fin 16) (rx : BitVec 16) (s : State), (getLane s e l).st = .detect → -1200 < rx.toInt →
    ∃ t, exec (.detectDone e l rx) s = .next t ∧ t.now = max s.now ((getLane s e l).since + msTicks 1) ∧
      Becomes e l (fun x => { x with st := .train, since := t.now, rx := rx.toInt }) s t ∧ Frame [.now, .csn] s t) ∧
  (∀ (e : Fin 64) (l : Fin 16) (s : State), (getLane s e l).st = .train →
    ∃ t, exec (.trainDone e l) s = .next t ∧ Frame [.out, .tel, .csn] s t ∧
      Becomes e l (fun x => { x with st := .range, since := s.now, rxBlk := [], nak := false, txWords := x.txWords + 1024, txScr := (wordsOf x.txWords x.txScr (probesOf x)).2 }) s t ∧
      ∀ f ∈ probesOf (getLane s e l), Out.flit e l f ∈ t.out) ∧
  (∀ (e : Fin 64) (l : Fin 16) (probe : Fin 1024) (turn : BitVec 32) (s : State), laneAligned (getLane s e l) = true →
    ∃ t, exec (.rangeProbe e l probe turn) s = .next t ∧ Frame [.out, .tel, .csn] s t ∧
      let f := csnFlit (getLane s e l).txSeq 2 (ackOf (getLane s e l)) (getLane s e l).nak 0 (natLE 1 2 ++ natLE 1 0 ++ natLE 2 probe.val ++ natLE 4 turn.toNat)
      Becomes e l (fun x => { x with nak := false, txWords := x.txWords + 1, txScr := (flitWord x.txWords x.txScr f).2 }) s t ∧ t.out = leaves e l (getLane s e l) f ++ s.out) ∧
  (∀ (e : Fin 64) (l : Fin 16) (rtt turn maxTurn answered ptx prx : Nat) (s : State), (getLane s e l).st = .range →
    let d2 := delay2 rtt turn ptx prx
    (1024 ≤ answered → maxTurn < 100000 → 49 ≤ d2 → 5 * d2 ≤ 196000 →
      ∃ t, exec (.rangeDone e l rtt turn maxTurn answered ptx prx) s = .next t ∧ (getLane t e l).st = .caps ∧ (getLane t e l).delay = d2.toNat / 2 ∧
        (getLane t e l).lengthDm = (10 * d2.toNat + 49) / 98 ∧ Frame [.out, .tel, .csn] s t ∧
        t.out = leaves e l (getLane s e l) (csnFlit (getLane s e l).txSeq 2 (ackOf (getLane s e l)) (getLane s e l).nak 0 (natLE 1 4 ++ capRecord s e)) ++ s.out) ∧
    (answered < 1024 ∨ 100000 ≤ maxTurn ∨ d2 < 49 ∨ 196000 < 5 * d2 → ∃ t, exec (.rangeDone e l rtt turn maxTurn answered ptx prx) s = .next t ∧ Falls e l 3 t)) ∧
  (∀ (e : Fin 64) (l : Fin 16) (rec : Bytes) (s : State), rec.length = 64 → (getLane s e l).st = .caps →
    (capBad s e l rec = none →
      ∃ t, exec (.capsDone e l rec) s = .next t ∧ Becomes e l (fun x => { x with st := .qualify, since := s.now, partner := some (partnerOf rec) }) s t ∧ Frame [.csn] s t) ∧
    (∀ c, capBad s e l rec = some c → ∃ t, exec (.capsDone e l rec) s = .next t ∧ Falls e l c t)) ∧
  (∀ (e : Fin 64) (l : Fin 16) (corrected uncorrectable : Nat) (rxMin rxMax : BitVec 16) (remoteOk : Bool) (s : State), (getLane s e l).st = .qualify →
    let short := shortDwell s (getLane s e l)
    let now := max s.now ((getLane s e l).since + msTicks (if short then 200 else 20000))
    let lim := if short then 850000 else 85000000
    (uncorrectable = 0 → corrected < lim → -700 ≤ rxMin.toInt → rxMax.toInt ≤ 350 → remoteOk = true → (getLane s e l).recal = false →
      ∃ t, exec (.qualifyDone e l corrected uncorrectable rxMin rxMax remoteOk) s = .next t ∧ t.now = now ∧ (getLane t e l).st = .ready ∧ (getLane t e l).since = now ∧
        (getLane t e l).wait = 0 ∧ (getLane t e l).retrain = false ∧ (getLane t e l).rx = rxMin.toInt ∧ Counted (telKey bCSN 4 0 (16 * e + l)) corrected s t) ∧
    (0 < uncorrectable → ∃ t, exec (.qualifyDone e l corrected uncorrectable rxMin rxMax remoteOk) s = .next t ∧ t.now = now ∧ Falls e l 9 t) ∧
    (uncorrectable = 0 → lim ≤ corrected → ∃ t, exec (.qualifyDone e l corrected uncorrectable rxMin rxMax remoteOk) s = .next t ∧ t.now = now ∧ Falls e l 6 t)) ∧
  (∀ (e : Fin 64) (l : Fin 16) (s : State) (b c : Nat), laneBudget s (getLane s e l) = some (b, c) →
    ∃ t, exec (.laneBudgetExpiry e l) s = .next t ∧ t.now = max s.now ((getLane s e l).since + b) ∧ Falls e l c t) ∧
  (∀ (e : Fin 64) (l : Fin 16) (corrected uncorrectable : Nat) (rx tx : BitVec 16) (s : State), (getLane s e l).st = .ready →
    (corrected ≤ 21250000 → uncorrectable ≤ 8 →
      ∃ t, exec (.laneMonitor e l corrected uncorrectable rx tx false) s = .next t ∧ Becomes e l (fun x => { x with rx := rx.toInt, tx := tx.toInt }) s t ∧
        Counted (telKey bCSN 4 0 (16 * e + l)) corrected s t ∧ Counted (telKey bCSN 5 0 (16 * e + l)) uncorrectable s t ∧ Frame [.tel, .csn] s t) ∧
    (21250000 < corrected → corrected ≤ 42500000 → uncorrectable ≤ 8 →
      ∃ t, exec (.laneMonitor e l corrected uncorrectable rx tx false) s = .next t ∧ ((getLane t e l).recal = true ∨ (getLane t e l).retrain = true)) ∧
    (42500000 < corrected → ∃ t, exec (.laneMonitor e l corrected uncorrectable rx tx false) s = .next t ∧ Falls e l 6 t) ∧
    (corrected ≤ 42500000 → 8 < uncorrectable → ∃ t, exec (.laneMonitor e l corrected uncorrectable rx tx false) s = .next t ∧ Falls e l 9 t) ∧
    (corrected ≤ 42500000 → uncorrectable ≤ 8 → ∃ t, exec (.laneMonitor e l corrected uncorrectable rx tx true) s = .next t ∧ Falls e l 7 t))

/-- R364 to R366, R368, R369, R378, R385: a block's data comes through the scrambler whole, what codewords hold is taken flit by flit,
flits are accepted in order or refused with a nak, sent again when unacknowledged, and carry the tide. -/
def Obligations.FlitsAreExchanged : Prop :=
  (∀ st d : Nat, ∀ ctl : Bool, st < 2 ^ 58 → d < 2 ^ 256 →
    (blockOut st ctl d).1 % 2 = b2n ctl ∧ blockIn st (blockOut st ctl d).1 = (ctl, d, (blockOut st ctl d).2)) ∧
  (∀ (e : Fin 64) (l : Fin 16) (ws : List Nat) (s : State), laneAligned (getLane s e l) = true → (getLane s e l).rxBlk.length < 8 →
    let d := dataBlocks (getLane s e l).rxScr ws
    let bs := (getLane s e l).rxBlk ++ d.1
    ∃ t, exec (.flitReceive e l (.line ws)) s = .next t ∧
      FlitsTaken e l ((List.range (bs.length / 8)).map fun i => ((bs.drop (8 * i)).take 8).flatMap (natLE 32))
        (modLane e l (fun x => { x with rxScr := d.2, rxBlk := bs.drop (bs.length / 8 * 8) }) s) t) ∧
  (∀ (e : Fin 64) (l : Fin 16) (flit : Bytes) (s : State), flit.length = 256 → laneAligned (getLane s e l) = true →
    let x := getLane s e l
    (leNat (flit.drop 248) ≠ crcOf profileXZ (flit.take 248) → x.rxBad = false →
      ∃ t, exec (.flitReceive e l (.flit flit)) s = .next t ∧ (getLane t e l).rxBad = true ∧ (getLane t e l).rxNext = x.rxNext ∧ Counted (telKey bCSN 2 0 (16 * e + l)) 1 s t ∧
        t.out = leaves e l x (csnFlit x.txSeq 0 (ackOf x) true 0 []) ++ s.out ∧ Frame [.out, .tel, .csn] s t) ∧
    (leNat (flit.drop 248) = crcOf profileXZ (flit.take 248) → leField flit 0 2 / 4096 = 1 → x.st = .ready → leField flit 0 2 % 4096 = x.rxNext →
      bitN (leField flit 2 2) 12 = false → x.replay = [] → x.txq = [] → x.part = [] → x.nak = false → (∀ k < 16, (getLane s e k).recal = false) →
      (15 ≤ leField flit 4 1 →
        ∃ t, exec (.flitReceive e l (.flit flit)) s = .next t ∧ (getLane t e l).rxNext = (x.rxNext + 1) % 4096 ∧ (getLane t e l).rxLast = some x.rxNext ∧ (getLane t e l).rxBad = false ∧
          (getEng t e).inbox = (getEng s e).inbox ∧ t.out = leaves e l x (csnFlit x.txSeq 0 x.rxNext false 0 []) ++ s.out ∧ Frame [.out, .tel, .csn] s t) ∧
      (∀ m : CsnMsg,
        let p := (flit.drop 8).take 240
        leField flit 4 1 = 0 → headerOk p = true → msgLen p ≤ 240 → leField (p.drop ((msgLen p + 15) / 16 * 16)) 0 1 = 0 → msgOf (p.take (msgLen p)) = m → m.cls = 0 →
        m.dstNode = nodeId s → m.mtype ≠ 0x10 → m.mtype ≠ 0x11 → m.mtype ≠ 0x18 →
        ∃ t, exec (.flitReceive e l (.flit flit)) s = .next t ∧ (getEng t e).inbox = (getEng s e).inbox ++ [m] ∧ (getLane t e l).rxNext = (x.rxNext + 1) % 4096 ∧
          t.out = leaves e l x (csnFlit x.txSeq 0 x.rxNext false 0 []) ++ s.out))) ∧
  (∀ (e : Fin 64) (l : Fin 16) (s : State) (r : Nat × Nat × Chunk) (rest : List (Nat × Nat × Chunk)), (getLane s e l).replay = r :: rest →
    (getLane s e l).st = .ready ∨ (getLane s e l).st = .retrain →
    (∃ t, exec (.replayTimeout e l) s = .next t ∧ t.now = max s.now (r.2.1 + usTicks (max 2 (regL s 0xC004 0 7 0))) ∧
      ∀ q ∈ r :: rest, ∃ nak, Out.flit e l (csnFlit q.1 1 (ackOf (getLane s e l)) nak q.2.2.off q.2.2.data) ∈ t.out) ∧
    ((getLane s e l).resends < 7 →
      ∃ t, exec (.replayTimeout e l) s = .next t ∧ (getLane t e l).resends = (getLane s e l).resends + 1 ∧
        (getLane t e l).replay = (getLane s e l).replay.map fun q => (q.1, t.now, q.2.2)) ∧
    (7 ≤ (getLane s e l).resends → ∃ t, exec (.replayTimeout e l) s = .next t ∧ (getLane t e l).st = .down ∧ (getLane t e l).cause = 8)) ∧
  (∀ s : State, s.tide.flitSent = false →
    ∃ t, exec .tideFlitSend s = .next t ∧ t.tide = { s.tide with flitSent := true } ∧ t.now = max s.now (s.tide.slotAt + 4096) ∧ t.free = s.free + 1 ∧
      Frame [.now, .out, .free, .tel, .tide, .csn] s t ∧
      ∀ g ∈ s.csn.engs, ∀ l ∈ g.2.lanes, laneAligned l.2 = true →
        Out.flit g.1 l.1 (csnFlit (getLane s g.1 l.1).txSeq 3 (ackOf (getLane s g.1 l.1)) (getLane s g.1 l.1).nak 0 (tidePayload s (getLane s g.1 l.1))) ∈ t.out) ∧
  (∀ (e : Fin 64) (l : Fin 16) (flit : Bytes) (stamp : Nat) (s : State), flit.length = 256 → laneAligned (getLane s e l) = true →
    (leNat (flit.drop 248) ≠ crcOf profileXZ (flit.take 248) ∨ leField flit 0 2 / 4096 ≠ 3 →
      ∃ t, exec (.tideFlitReceive e l flit stamp) s = .next t ∧ Counted (telKey bCSN 11 0 (16 * e + l)) 1 s t ∧ Frame [.tel] s t) ∧
    (∀ k a p, leNat (flit.drop 248) = crcOf profileXZ (flit.take 248) → leField flit 0 2 / 4096 = 3 → (getLane s e l).tideSeen = some (k, a) → (getLane s e l).partner = some p →
      k = leField flit 9 1 → leField flit 10 1 % 8 = 1 →
      ((regL s 0x9000 0 9 4 = e.val ∧ regL s 0x9000 0 13 10 = l.val) →
        ∃ t, exec (.tideFlitReceive e l flit stamp) s = .next t ∧ (getLane t e l).tideSeen = some (leField flit 8 1, stamp) ∧ t.tide.csnAt = s.now) ∧
      (¬ (regL s 0x9000 0 9 4 = e.val ∧ regL s 0x9000 0 13 10 = l.val) →
        ∃ t, exec (.tideFlitReceive e l flit stamp) s = .next t ∧ (getLane t e l).tideSeen = some (leField flit 8 1, stamp) ∧ Frame [.csn] s t)))

/-- R370 to R374, R385, R386: streams open, are granted credit, return it and close; a closed lane's messages move; a link held too long
fails its streams. -/
def Obligations.StreamsOpenAndClose : Prop :=
  let Key (x y : TxStream) : Prop := y.node = x.node ∧ y.eng = x.eng ∧ y.cls = x.cls ∧ y.ctx = x.ctx
  (∀ (e : Fin 64) (i : Nat) (s : State) (m : CsnMsg), csnMsg s e i 0x01 = some m →
    let u := csnTake e i s
    let credit := max 8 (regL s 0xC004 0 27 20)
    let cls := leField m.body 0 1
    let ctx := leField m.body 2 2
    (∀ k, m.body.length = 8 → 1 ≤ cls → cls < 7 → ctx < 1024 → ctxLicensed s ctx = true → bufHeld (getEng u e) + credit ≤ 131072 →
      ((List.range 4096).find? fun k => k != 0 && !((getEng u e).rx.any (·.id == k))) = some k →
      ∃ t, exec (.openStream e i) s = .next t ∧ (getEng t e).rx = (getEng u e).rx ++ [{ id := k, node := m.srcNode, eng := m.srcEng, cls := cls, ctx := ctx, credit := credit }]) ∧
    (m.body.length ≠ 8 ∨ cls = 0 ∨ 7 ≤ cls ∨ 1024 ≤ ctx ∨ ctxLicensed s ctx = false ∨ 131072 < bufHeld (getEng u e) + credit →
      ∃ t, exec (.openStream e i) s = .next t ∧ (getEng t e).rx = (getEng u e).rx ∧ Counted (telKey bCSN 8 0 e) 1 s t)) ∧
  (∀ (e : Fin 64) (i : Nat) (s : State) (m : CsnMsg) (x : TxStream), csnMsg s e i 0x02 = some m →
    ((getEng s e).tx.find? fun t => t.asked && t.node == m.srcNode && t.eng == m.srcEng && t.ctx % 1024 == leField m.body 2 2) = some x →
    (leField m.body 4 4 ≠ 0 → (∀ y ∈ (getEng s e).tx, Key x y → y.queue = []) →
      ∃ t, exec (.grant e i) s = .next t ∧ ∀ y ∈ (getEng t e).tx, Key x y → y.asked = false ∧ y.id = some (leField m.body 0 2 % 4096) ∧ y.credit = leField m.body 4 4) ∧
    (leField m.body 4 4 = 0 →
      ∃ t, exec (.grant e i) s = .next t ∧ Counted (telKey bCSN 8 0 e) 1 s t ∧ ∀ y ∈ (getEng t e).tx, Key x y → y.asked = false ∧ y.refused = some s.now)) ∧
  (∀ (e : Fin 64) (k : Nat) (s : State) (x : TxStream) (r : Nat), (getEng s e).tx[k]? = some x → x.refused = some r →
    ∃ t, exec (.openRetry e k) s = .next t ∧ t.now = max s.now (r + usTicks 100) ∧ Counted (telKey bCSN 7 0 e) 1 s t ∧
      ∀ y ∈ (getEng t e).tx, Key x y → y.asked = true ∧ y.refused = none) ∧
  (∀ (e : Fin 64) (i : Nat) (s : State) (m : CsnMsg) (x : TxStream), csnMsg s e i 0x03 = some m → m.body.length = 8 →
    let units := leField m.body 4 4
    ((getEng s e).tx.find? fun t => t.id == some (leField m.body 0 2) && t.node == m.srcNode && t.eng == m.srcEng) = some x →
    (∀ y ∈ (getEng s e).tx, Key x y → y.queue = []) →
    ∃ t y, exec (.credit e i) s = .next t ∧ y ∈ (getEng t e).tx ∧ y = { x with credit := x.credit + min units x.sent, sent := x.sent - min units x.sent } ∧
      (x.sent < units → t.err = (raise (ringUnit e) bCSN sInfo 0x07 none e units 5 s).err) ∧ (units ≤ x.sent → t.err = s.err)) ∧
  (∀ (e : Fin 64) (s : State), linkReady s e = true → (∃ r ∈ (getEng s e).rx, 0 < r.owed) →
    ∃ t, exec (.creditReturnTimer e) s = .next t ∧ (getEng t e).rx = (getEng s e).rx.map fun r => { r with credit := r.credit + r.owed, owed := 0 }) ∧
  (∀ (e : Fin 64) (i : Nat) (s : State) (m : CsnMsg), csnMsg s e i 0x04 = some m →
    (∀ x, leField m.body 2 1 = 2 → ((getEng s e).tx.find? fun t => t.id == some (leField m.body 0 2) && t.node == m.srcNode && t.eng == m.srcEng) = some x → x.queue = [] →
      ∃ t, exec (.close e i) s = .next t ∧ ∀ y ∈ (getEng t e).tx, ¬ Key x y) ∧
    (∀ r, leField m.body 2 1 ≠ 2 → ((getEng s e).rx.find? fun r => r.id == leField m.body 0 2 && r.node == m.srcNode && r.eng == m.srcEng) = some r →
      ∃ t, exec (.close e i) s = .next t ∧ ∀ y ∈ (getEng t e).rx, y.id ≠ r.id)) ∧
  (∀ (e : Fin 64) (l : Fin 16) (last : BitVec 12) (s : State), readyLanes s e ≠ [] →
    (∃ t, exec (.laneClose e l last) s = .next t ∧ (getLane t e l).old = [] ∧ (getLane t e l).oldq = [] ∧ (getLane t e l).closing = false) ∧
    ((getLane s e l).st = .ready → (getLane s e l).closing = false → ∃ t, exec (.laneClose e l last) s = .next t ∧ (getLane t e l).st = .down ∧ (getLane t e l).cause = 10)) ∧
  (∀ (e : Fin 64) (s : State) (x : Nat), (getEng s e).downAt = some x → linkReady s e = false →
    ∃ t, exec (.linkHoldExpiry e) s = .next t ∧ t.now = max s.now (x + msTicks (max 1 (regL s 0xC004 0 19 8))) ∧ (getEng t e).tx = [] ∧ (getEng t e).rx = [] ∧
      (getEng t e).inbox = [] ∧ (getEng t e).ctlq = [] ∧ (getEng t e).held = none ∧ (getEng t e).downAt = none)

/-- R394, R396, R401: the hole map becomes durable; a cluster slice saves, tests, restores and is released; what fails twice is a hole. -/
def Obligations.SlicesTestClusters : Prop :=
  let Now (cl : Fin 64000) (f : Slice → Slice) (s t : State) : Prop := ∀ x, sliceOf s (headOf cl) = some x → sliceOf t (headOf cl) = some (f x)
  (∀ s : State, s.bst.undurable = true →
    (∃ t, exec (.holeMapDurable true) s = .next t ∧ t.bst.undurable = false ∧ Frame [.bst] s t ∧
      t.bst.copies = ({ seq := ((s.bst.copies.head?.map (·.seq)).getD 0) + 1, cells := s.net.holes, dies := s.net.dieHoles } :: s.bst.copies).take 2) ∧
    (∃ t, exec (.holeMapDurable false) s = .next t ∧ t.bst.undurable = true ∧ t.bst.copies = s.bst.copies ∧ t.err = (raise unitBR bBST sDef 0x0D none 0 0 0 s).err)) ∧
  (∀ (cl : Fin 64000) (s : State), sliceFree s (headOf cl) = true →
    (∀ e ∈ s.bst.suspect, logReach e.1 = logReach (headOf cl) → sliceFree s e.1 = true → (tget? s.bst.suspect (headOf cl)).isSome) →
    ∃ t, exec (.sliceStart cl) s = .next t ∧ t.bst = { s.bst with slices := s.bst.slices ++ [{ head := headOf cl, bnd := s.tide.bnd }] } ∧ Frame [.bst] s t) ∧
  (∀ (cl : Fin 64000) (s : State) (x : Slice), sliceOf s (headOf cl) = some x →
    (x.st = .save → ∃ t, exec (.sliceSaveDone cl) s = .next t ∧ Now cl (fun y => { y with st := .test }) s t ∧ Frame [.bst] s t) ∧
    (x.st = .save ∨ x.st = .test → x.bnd + max (regL s 0x10004 0 7 4) 2 ≤ s.tide.bnd →
      ∃ t, exec (.sliceAbandon cl) s = .next t ∧ Now cl (fun y => { y with st := .restore }) s t ∧ Counted (telKey bBST 1 0 0) 1 s t ∧ Frame [.bst, .tel] s t) ∧
    (x.st = .restored → x.back < s.tide.bnd →
      ∃ t, exec (.sliceRelease cl) s = .next t ∧ t.bst = { s.bst with slices := s.bst.slices.filter (·.head != headOf cl) } ∧ Frame [.bst] s t) ∧
    (x.st = .restore →
      let dying := (s.ctxs.filter fun e => match e.2.kill with | some k => k.started | none => false).map (·.1)
      ∃ t, exec (.sliceRestoreDone cl) s = .next t ∧ Now cl (fun y => { y with st := .restored, back := s.tide.bnd }) s t ∧ Frame [.bst, .cells] s t ∧
        (∀ l, l ∉ clusterCells (headOf cl) → getCell t l = getCell s l) ∧
        ∀ l ∈ clusterCells (headOf cl),
          (dying.flatMap (ownedSlots (getCell s l)) = [] → getCell t l = getCell s l) ∧
          (dying.flatMap (ownedSlots (getCell s l)) ≠ [] → getCell t l = scrubFinish { slots := dying.flatMap (ownedSlots (getCell s l)), owner := ownerNone, kill := none } (getCell s l))) ∧
    (x.st = .test →
      (∃ t, exec (.sliceTestDone cl []) s = .next t ∧ Now cl (fun y => { y with st := .restore }) s t ∧ Counted (telKey bBST 0 0 0) 1 s t ∧ Frame [.bst, .tel, .cells] s t ∧
        (tget s.bst.seg (headOf cl) 0 + 1 < 128 → tget t.bst.seg (headOf cl) 0 = tget s.bst.seg (headOf cl) 0 + 1)) ∧
      ∀ bad : List (Fin 16), bad ≠ [] →
        let ls := (bad.map fun i => (clusterCells (headOf cl)).getD i.val 0).eraseDups
        ((∀ l ∈ ls, l ∉ tget s.bst.again (headOf cl) []) →
          ∃ t, exec (.sliceTestDone cl bad) s = .next t ∧ Now cl (fun y => { y with st := .restore }) s t ∧ Counted (telKey bBST 2 0 0) 1 s t ∧ Frame [.bst, .tel] s t ∧
            tget t.bst.again (headOf cl) [] = ls) ∧
        ((∀ l ∈ ls, l ∈ tget s.bst.again (headOf cl) [] ∧ physValid (physOf s l) = true) →
          ∃ t, exec (.sliceTestDone cl bad) s = .next t ∧ Now cl (fun y => { y with st := .restore }) s t ∧ ∀ l ∈ ls, isHole t (physOf s l) = true))) ∧
  (∀ s : State, s.bst.ready = true → bitN (regLive s 0x10004 0) 0 = true →
    ∃ t, exec .coverTimeout s = .next t ∧ t.now = max s.now (s.bst.passAt + msTicks (3600000 * (if regL s 0x10004 0 31 16 = 0 then 24 else regL s 0x10004 0 31 16))) ∧
      t.bst = { s.bst with passAt := t.now } ∧ t.err = (raise unitBR bBST sInfo 0x06 none 0 0 0 s).err ∧ Frame [.now, .out, .err, .tel, .bst] s t)

/-- R402, R404, R405: a die is cleared and tested whole, and returns or fails; a reach whose site has failed recovers step by step, or its
oxbow stays isolated. -/
def Obligations.DiesAreTestedAndRecovered : Prop :=
  (∀ (site : Fin 88) (s : State) (y : DieTest), s.bst.tests.find? (·.site == site.val) = some y → y.st = .queued →
    (∀ u ∈ s.bst.tests, siteReach u.site = siteReach site → u.st = .queued) → slicedDie s site = false →
    (siteAvail s site = true →
      ∃ t, exec (.dieTestRequest (.due site)) s = .next t ∧ t.bst.tests = s.bst.tests.map (fun u => if u.site = site.val then { u with st := .clearing } else u) ∧
        t.wsh.asked = s.wsh.asked ++ [{ site := site, slot := slotNow s, why := .dieTest, bnd := s.tide.bnd }] ∧ Frame [.bst, .wsh] s t) ∧
    (siteAvail s site = false →
      ∃ t, exec (.dieTestRequest (.due site)) s = .next t ∧ t.bst.tests = s.bst.tests.map (fun u => if u.site = site.val then { u with st := .running } else u) ∧
        OutWhy.dieTest ∈ siteReasons t site ∧ Frame [.bst, .net] s t)) ∧
  (∀ (site : Fin 88) (u : BringUp) (s : State) (y : DieTest), s.bst.tests.find? (·.site == site.val) = some y → y.st ≠ .queued → OutWhy.dieTest ∈ siteReasons s site →
    ∃ t, exec (.dieTestDone site u) s = .next t ∧ (∀ v ∈ t.bst.tests, v.site ≠ site.val) ∧
      (∀ a ∈ u.cells, physSite a = site.val → physValid a = true → isHole t a = true) ∧ (site.val ∈ u.dies → siteHoles t site = dieCells) ∧
      (siteHoles t site < dieCells → tget? t.net.rejoin site = some { slot := slotNow s + 1, started := false, misses := 0, relocked := false })) ∧
  (∀ (site : Fin 88) (s : State) (d : Nat), siteDie s site = some d → bitN (regLive s 0x10008 0) 0 = true → siteFailed s site = true →
    let r := d / 10
    siteReasons s (11 * r + 10) = [.oxbowIdle] → r ∉ s.bst.oxbowBad → tget? s.bst.recov r = none → r ∉ s.net.reachOut → tget? s.net.leaving (11 * r + 10) = none →
    (∀ z ∈ s.wsh.freezes, z.site ≠ 11 * r + 10) → dieSite s d = site.val → site.val ≠ 11 * r + 10 →
    ∃ t, exec (.recoverRequest (.due site)) s = .next t ∧ t.bst = { s.bst with recov := tset s.bst.recov r { ldie := d % 10, step := 1 } } ∧ Frame [.bst, .lev] s t) ∧
  (∀ (reach : Fin 8) (u : BringUp) (s : State) (x : Recovery), tget? s.bst.recov reach = some x →
    let ox := 11 * reach.val + 10
    let Isolated (t : State) : Prop :=
      t.bst = { s.bst with recov := tdel s.bst.recov reach } ∧ OutWhy.isolated ∈ siteReasons t ox ∧ ox ∉ t.net.toJoin ∧
        t.err = (raise (152 + reach) bBST sDef 0x10 none ox 0 0 s).err ∧ Frame [.out, .err, .tel, .net, .bst] s t
    (∃ t, exec (.recoveryStepEnd reach false u) s = .next t ∧ Isolated t) ∧
    (x.step = 1 → ∃ t, exec (.recoveryStepEnd reach true u) s = .next t ∧ tget? t.bst.recov reach = some { x with step := 2 } ∧
      OutWhy.isolated ∈ siteReasons t (dieSite s (10 * reach + x.ldie)) ∧ Out.pin 0x23 ox ∈ t.out ∧ Frame [.out, .net, .bst] s t) ∧
    (x.step = 2 → ∃ t, exec (.recoveryStepEnd reach true u) s = .next t ∧ t.bst = { s.bst with recov := tset s.bst.recov reach { x with step := 3 } } ∧ Frame [.bst] s t) ∧
    (x.step = 3 → ox ∉ u.dies → ∃ t, exec (.recoveryStepEnd reach true u) s = .next t ∧ tget? t.bst.recov reach = some { x with step := 4 } ∧
      ∀ a ∈ u.cells, physSite a = ox → physValid a = true → isHole t a = true) ∧
    (x.step = 3 → ox ∈ u.dies → ∃ t, exec (.recoveryStepEnd reach true u) s = .next t ∧ t.bst.recov = tdel s.bst.recov reach ∧ reach.val ∈ t.bst.oxbowBad ∧ ox ∈ t.net.dieHoles) ∧
    (x.step = 4 → ∃ t, exec (.recoveryStepEnd reach true u) s = .next t ∧ tget? t.bst.recov reach = some { x with step := 5 } ∧
      dieSite t (10 * reach + x.ldie) = (10 * reach + x.ldie) / 10 * 11 + 10 ∧ ox ∈ t.net.toJoin ∧ t.net.routesDue = true ∧ Frame [.bst, .net] s t) ∧
    (x.step = 5 → siteAvail s ox = true → ∃ t, exec (.recoveryStepEnd reach true u) s = .next t ∧ t.bst = { s.bst with recov := tdel s.bst.recov reach } ∧
      Counted (telKey bBST 5 0 0) 1 s t ∧ Frame [.tel, .bst] s t) ∧
    (x.step ≠ 5 ∨ siteAvail s ox = false → ∃ t, exec (.recoveryBudgetExpiry reach) s = .next t ∧ Isolated t))

/-- R397, R410 to R417, R421: while the runtime's image is not being replaced an object is checked and taken, or refused with the code of
its first failed check; updates and licences
take effect at their boundary; the recovery loader takes a runtime. -/
def Obligations.ObjectsTakeEffect : Prop :=
  (∀ (stored : Bool) (s : State) (o : ObjOp), s.hdw.obj = some o → updating s 1 = false →
    let b := o.obj
    let Refused (code : Nat) : Prop := ∃ t, exec (.objectVerifyDone stored) s = .next t ∧ t.hdw = { s.hdw with obj := none, objState := 3, objResult := code } ∧
      t.err = (raise unitBR bHDW sInfo 0x05 none (regLive s 0xB000 0 + 2 ^ 32 * regLive s 0xB004 0) 0 code s).err ∧ Frame [.out, .err, .tel, .hdw] s t
    (objCheck s b ≠ 0 → Refused (objCheck s b)) ∧
    (objCheck s b = 0 → objNow s b = false → Refused 8) ∧
    (objCheck s b = 0 → objNow s b = true → stored = false → Refused 9) ∧
    (objCheck s b = 0 → objNow s b = true → stored = true → objFree s b = false → Refused 10) ∧
    (objCheck s b = 0 → objNow s b = true → stored = true → objFree s b = true →
      ∃ t, exec (.objectVerifyDone stored) s = .next t ∧ t.hdw.obj = none ∧ t.hdw.objState = 2 ∧ t.hdw.objResult = 0 ∧ Frame [.hdw] s t ∧
        (oKind b = 1 →
          let bank := match tget? s.hdw.active (oSub b) with | some x => 1 - x | none => 0
          t.hdw.banks = tset s.hdw.banks (2 * oSub b + bank) b ∧
            t.hdw.updates = if o.act then tset s.hdw.updates (oSub b) { bank := bank, slot := o.slot, bnd := s.tide.bnd, act := true } else s.hdw.updates) ∧
        (oKind b = 2 → t.hdw.licNext = some (b, s.tide.bnd)) ∧
        (oKind b = 3 → t.hdw.resetMask = (s.hdw.resetMask ||| (leNat (oBody b) % 2 ^ 88)) ∧ t.hdw.resets = s.hdw.resets ++ [(digest32 b, oSvn b)]) ∧
        (oKind b = 4 → t.hdw.gen = s.hdw.gen + 1 ∧ t.hdw.certs = tset s.hdw.certs (s.hdw.gen + 1) b ∧ t.hdw.rekey = none ∧ s.hdw.gen ∉ t.hdw.seeds ∧
          measAt t 14 = fitB (digest32 (measAt s 14 ++ digest32 b)) 32) ∧
        (oKind b = 5 → leField (oBody b) 0 1 ∈ t.hdw.revoked ∧ svnMin t 14 = max (svnMin s 14) (oSvn b) ∧ measAt t 14 = fitB (digest32 (measAt s 14 ++ digest32 b)) 32))) ∧
  (∀ (sub : Fin 12) (s : State) (u : Update), tget? s.hdw.updates sub = some u →
    (u.startAt = none → u.bnd < s.tide.bnd → u.slot ≤ slotNow s → activatable s sub = true →
      ∃ t, exec (.imageActivate sub) s = .next t ∧ t.hdw = { s.hdw with updates := tset s.hdw.updates sub { u with startAt := some s.now } } ∧ Frame [.hdw] s t) ∧
    (∀ a, u.startAt = some a →
      (∃ t, exec (.imageRunning sub) s = .next t ∧ tget? t.hdw.active sub = some u.bank ∧ sub.val ∉ t.hdw.stopped ∧ t.hdw.updates = tdel s.hdw.updates sub ∧
        svnMin t sub = max (svnMin s sub) (oSvn (bankAtH s sub u.bank)) ∧ measAt t sub = fitB (digest32 (measAt s sub ++ digest32 (bankAtH s sub u.bank))) 32 ∧ Frame [.net, .hdw] s t) ∧
      (∃ t, exec (.imageStartTimeout sub) s = .next t ∧ t.now = max s.now (a + msTicks 10) ∧
        t.hdw = { s.hdw with updates := tdel s.hdw.updates sub, banks := tdel s.hdw.banks (2 * sub + u.bank) } ∧
        t.err = (raise unitBR bHDW sDef 0x0D none sub 0 0 s).err ∧ Frame [.now, .out, .err, .tel, .hdw] s t))) ∧
  (∀ (s : State) (b : Bytes) (n : Nat), s.hdw.licNext = some (b, n) → n < s.tide.bnd →
    ∃ t, exec .licenceEffect s = .next t ∧ t.full = decide (leField (oBody b) 0 1 = 1) ∧ t.hdw.lic = some b ∧ t.hdw.licNext = none ∧ t.hdw.factory = false ∧
      svnMin t 12 = max (svnMin s 12) (oSvn b) ∧ measAt t 12 = fitB (digest32 (measAt s 12 ++ digest32 b)) 32 ∧
      (s.full = false ∨ leField (oBody b) 0 1 = 1 → Frame [.full, .hdw] s t) ∧
      (s.full = true → leField (oBody b) 0 1 ≠ 1 → t.rsv.wins = [])) ∧
  (∀ (obj : Bytes) (stored : Bool) (s : State), s.bst.step = 15 → 1 ∈ s.hdw.stopped →
    let Refused (c : Nat) : Prop := ∃ t, exec (.recoveryLoaderObject obj stored) s = .next t ∧ Out.mctp 0x12 [BitVec.ofNat 8 c] ∈ t.out ∧ t.hdw = s.hdw ∧ t.bst = s.bst ∧
      t.err = (raise unitBR bHDW sInfo 0x05 none 0 0 c s).err ∧ Frame [.out, .err, .tel] s t
    (oKind obj ≠ 1 ∨ oSub obj ≠ 1 → Refused 1) ∧
    (oKind obj = 1 → oSub obj = 1 → objCheck s obj ≠ 0 → Refused (objCheck s obj)) ∧
    (oKind obj = 1 → oSub obj = 1 → objCheck s obj = 0 → stored = false → Refused 9) ∧
    (oKind obj = 1 → oSub obj = 1 → objCheck s obj = 0 → stored = true →
      ∃ t, exec (.recoveryLoaderObject obj stored) s = .next t ∧ Out.mctp 0x12 [0] ∈ t.out ∧ t.hdw.banks = tset s.hdw.banks 2 obj ∧ t.bst.step = 1 ∧ t.bst.at_ = s.now ∧
        t.lev.power = .on ∧ t.bst.ready = false))

/-- R418 to R426: signatures take fresh indices; attestation answers reports, requests and refusals in order; scan mode clears the module. -/
def Obligations.IdentityIsAttested : Prop :=
  let index (s : State) (bad : Nat) : Nat := if s.hdw.next % 64 = 0 then min (64 * (s.hdw.next / 64 + bad)) (2 ^ 20) else s.hdw.next
  let Answer (status : Nat) (s t : State) : Prop := t.out = .doe 1 (attRsp status []) :: s.out ∧ t.hdw.attest = s.hdw.attest.drop 1
  (∀ (bad : Nat) (s : State) (a : Nat), s.hdw.rekey = some (.building a) →
    let g := s.hdw.gen + 1
    ((tget? s.hdw.requests g).isSome → ∃ t, exec (.rekeyTreeDone bad) s = .next t ∧ t.hdw = { s.hdw with rekey := some .ready } ∧ Frame [.hdw] s t) ∧
    (tget? s.hdw.requests g = none → index s bad < 2 ^ 20 →
      ∃ t, exec (.rekeyTreeDone bad) s = .next t ∧ t.hdw.rekey = some .ready ∧ t.hdw.next = index s bad + 1 ∧
        tget? t.hdw.requests g = some (rekeyRequest s ++ fitB (Config.xmssSign s.hdw.gen (index s bad) (rekeyRequest s)) 2820) ∧ Frame [.out, .err, .tel, .hdw] s t) ∧
    (tget? s.hdw.requests g = none → 2 ^ 20 ≤ index s bad → ∃ t, exec (.rekeyTreeDone bad) s = .next t ∧ t.hdw.rekey = none ∧ tget? t.hdw.requests g = none)) ∧
  (∀ (bad : Nat) (s : State) (b : Bytes) (rest : List Bytes), s.hdw.attest = b :: rest →
    let limit := max (regL s 0xB024 0 12 0) 1
    let i := index s bad
    (attBad b = true → ∃ t, exec (.attestSigned bad) s = .next t ∧ Answer 1 s t ∧ Frame [.out, .hst, .hdw] s t) ∧
    (attBad b = false → leField b 1 1 = 1 →
      (attNotReady s = true → ∃ t, exec (.attestSigned bad) s = .next t ∧ Answer 4 s t ∧ Frame [.out, .hst, .hdw] s t) ∧
      (attNotReady s = false → limit ≤ (signedDay s).length → ∃ t, exec (.attestSigned bad) s = .next t ∧ Answer 2 s t ∧ t.hdw.next = s.hdw.next) ∧
      (attNotReady s = false → (signedDay s).length < limit → 16383 * 64 ≤ i →
        ∃ t, exec (.attestSigned bad) s = .next t ∧ Out.doe 1 (attRsp 3 []) ∈ t.out ∧ t.hdw.attest = rest) ∧
      (attNotReady s = false → (signedDay s).length < limit → i < 16383 * 64 →
        let r := attReport { s with hdw := { s.hdw with next := i + 1 } } (sliceB b 8 32) i
        ∃ t, exec (.attestSigned bad) s = .next t ∧ t.hdw.attest = rest ∧ t.hdw.next = i + 1 ∧ t.hdw.signedAt = signedDay s ++ [s.now] ∧ t.hst.doe = none ∧
          Out.doe 1 (attRsp 0 (r ++ fitB (Config.xmssSign s.hdw.gen i r) 2820 ++ (if s.hdw.gen = 0 then [] else tget s.hdw.certs s.hdw.gen []))) ∈ t.out)) ∧
    (attBad b = false → leField b 1 1 = 2 →
      (attNotReady s = true → ∃ t, exec .attestUnsigned s = .next t ∧ Answer 4 s t) ∧
      (attNotReady s = false → ∃ t, exec .attestUnsigned s = .next t ∧ t.out = .doe 1 (attRsp 0 (attReport s (sliceB b 8 32) 0xFFFFFFFF)) :: s.out ∧
        t.hdw = { s.hdw with attest := rest } ∧ Frame [.out, .hst, .hdw] s t)) ∧
    (attBad b = false → leField b 1 1 = 3 →
      (attNotReady s = true → ∃ t, exec .rekeyRequestRead s = .next t ∧ Answer 4 s t) ∧
      (∀ r, attNotReady s = false → s.hdw.rekey = some .ready → tget? s.hdw.requests (s.hdw.gen + 1) = some r →
        ∃ t, exec .rekeyRequestRead s = .next t ∧ t.out = .doe 1 (attRsp 0 r) :: s.out ∧ t.hdw = { s.hdw with attest := rest } ∧ Frame [.out, .hst, .hdw] s t) ∧
      (attNotReady s = false → s.hdw.rekey ≠ some .ready → ∃ t, exec .rekeyRequestRead s = .next t ∧ Answer 5 s t))) ∧
  (∀ s : State, s.hdw.scan = .out →
    ∃ t, exec .scanEntry s = .next t ∧ t.hdw = { s.hdw with scan := .clearing s.now, rekey := none, obj := none, tests := s.hdw.tests + 1 } ∧ t.cells = [] ∧ t.ctxs = [] ∧ t.fly = [] ∧
      t.mem.data = [] ∧ t.hst.cache = [] ∧ (∀ l, getCell t l = {}) ∧ (∀ n, (getStk t n).key = 0 ∧ (getStk t n).queue = []) ∧
      Frame [.ctxs, .cells, .fly, .frs, .est, .edy, .rsv, .wsh, .slc, .hst, .mem, .hdw] s t) ∧
  (∀ (s : State) (a : Nat), s.hdw.scan = .clearing a →
    ∃ t, exec .clearDone s = .next t ∧ t.hdw = { s.hdw with scan := .test } ∧ t.out = .pin 0x40 0 :: s.out ∧ Frame [.out, .hdw] s t)

/-- R429, R432, R434, R436, R441, R444: sensors are checked; supply, coolant and the power cap act on the throttle, on shutdown and on
the hot-swap, which opens with the store kept. -/
def Obligations.SupplyIsWatched : Prop :=
  let Off (s t : State) : Prop := t.lev.power = .standby ∧ t.out.head? = some (.pin 0x30 0) ∧ t.bst.ready = false ∧ t.ctxs = [] ∧ t.cells = [] ∧ t.mem.data = [] ∧
    t.hdw.banks = s.hdw.banks ∧ t.hdw.minima = s.hdw.minima ∧ t.hdw.gen = s.hdw.gen ∧ t.hdw.lic = s.hdw.lic ∧ t.full = s.full ∧
    (s.bst.undurable = false → t.bst.copies = s.bst.copies)
  let Stop (s t : State) : Prop := t.lev.power = .stopping t.now s.tide.bnd
  (∀ (k : Sensor) (v : Int) (s : State),
    (plausible k (reading s k) v s.now = true → sensorFailed s k = false → ∃ t, exec (.sensorSample k v) s = .next t ∧ sensed t k = some v ∧ Frame [.lev] s t) ∧
    (plausible k (reading s k) v s.now = false → sensorFailed s k = false →
      ∃ t, exec (.sensorSample k v) s = .next t ∧ sensorFailed t k = true ∧ Counted (telKey bLEV 6 0 0) 1 s t ∧
        t.err = (raise (k.region.getD unitAON) bLEV sInfo 0x07 none k.code (unsN 64 v) 7 s).err ∧ Frame [.out, .err, .tel, .lev] s t) ∧
    (∀ r, reading s k = some r → r.failed = true → plausible k (some r) v s.now = true →
      (r.good + msTicks 1000 ≤ s.now → ∃ t, exec (.sensorSample k v) s = .next t ∧ sensed t k = some v ∧ Frame [.lev] s t) ∧
      (s.now < r.good + msTicks 1000 → ∃ t, exec (.sensorSample k v) s = .next t ∧ sensorFailed t k = true ∧ Frame [.lev] s t)) ∧
    (∀ r d, reading s k = some r → r.failed = false → sensorTimeout k = some d →
      ∃ t, exec (.sensorTimeout k) s = .next t ∧ t.now = max s.now (r.at_ + d) ∧ sensorFailed t k = true ∧ Counted (telKey bLEV 6 0 0) 1 s t ∧
        Frame [.now, .out, .err, .tel, .lev] s t)) ∧
  (∀ (s : State), s.lev.power = .standby →
    (∀ a, s.lev.gate = some a → ∃ t, exec .powerSequenceStart s = .next t ∧ t.now = max s.now (a + msTicks 1000) ∧ t.lev = { s.lev with power := .go } ∧ Frame [.now, .lev] s t) ∧
    (s.lev.gate = none → ∃ t, exec .coolantWaitTimeout s = .next t ∧ t.now = max s.now (s.lev.standAt + msTicks 60000) ∧ t.lev = { s.lev with standAt := t.now } ∧
      t.err = (raise unitAON bLEV sDef 0x0C none 0 0 0 s).err ∧ Frame [.now, .out, .err, .tel, .lev] s t)) ∧
  (∀ (s : State), s.lev.power = .on →
    (∀ v, voltNow s = some v → 4800 ≤ v → v < 5130 →
      ∃ t, exec (.undervoltage false) s = .next t ∧ t.err = (raise unitAON bLEV sDef 0x0C none 0 v.toNat 0 s).err ∧ Frame [.out, .err, .tel] s t) ∧
    (∀ v a, voltNow s = some v → tget? s.lev.coolant 6 = some a → ∃ t, exec (.undervoltage true) s = .next t ∧ t.now = max s.now (a + msTicks 1) ∧ Stop s t ∧ Frame [.now, .lev] s t) ∧
    (∀ a, tget? s.lev.coolant 7 = some a → ∃ t, exec .overvoltage s = .next t ∧ t.now = max s.now (a + usTicks 100) ∧ Off s t) ∧
    (∀ a, tget? s.lev.coolant 8 = some a → ∃ t, exec (.overcurrent true) s = .next t ∧ t.now = max s.now (a + usTicks 20) ∧ Off s t) ∧
    (∀ v, ampNow s = some v → 7200 < v → ∃ t, exec (.overcurrent false) s = .next t ∧ t.lev = { s.lev with throttle := min (s.lev.throttle + 1) 16 } ∧ Frame [.lev] s t)) ∧
  (∀ (s : State), 8 ≤ s.lev.overs →
    (s.lev.throttle ≠ 16 ∨ 9000 < coolantLimit s →
      ∃ t, exec .throttleRaise s = .next t ∧ t.lev = { s.lev with throttle := min (s.lev.throttle + 1) 16, overs := 0 } ∧ Frame [.lev] s t) ∧
    (s.lev.throttle = 16 → coolantLimit s ≤ 9000 → s.lev.power = .on → ∃ t, exec .throttleRaise s = .next t ∧ Stop s t ∧ t.lev.throttle = 16 ∧ Frame [.lev] s t)) ∧
  (∀ (s : State), 64 ≤ s.lev.under → ∃ t, exec .throttleLower s = .next t ∧ t.lev = { s.lev with throttle := s.lev.throttle - 1, under := 0 } ∧ Frame [.lev] s t) ∧
  (∀ (row : Fin 6) (s : State) (a : Nat), tget? s.lev.coolant row = some a →
    let f := ((flowNow s).getD 0).toNat
    let i := ((inletNow s).getD 0).toNat
    (row = 0 → ∃ t, exec (.coolantCondition row) s = .next t ∧ coolantLimit t = 36000 ∧ Frame [.lev] s t) ∧
    (row = 1 → ∃ t, exec (.coolantCondition row) s = .next t ∧ t.now = max s.now (a + msTicks 1000) ∧ t.lev.flowLimit = 36000 * f / 480 ∧
      t.lev.inletCut = (if i ≤ 400 then 0 else s.lev.inletCut) ∧ Frame [.now, .lev] s t) ∧
    (row = 2 → ∃ t, exec (.coolantCondition row) s = .next t ∧ t.now = max s.now (a + msTicks 1000) ∧ t.lev.inletCut = 2000 * (i - 400) / 10 ∧
      t.lev.flowLimit = (if 480 ≤ f then 36000 else s.lev.flowLimit) ∧
      t.err = (raise unitAON bLEV sDef 0x0C none 0 i 0 s).err ∧ Frame [.now, .out, .err, .tel, .lev] s t) ∧
    (row = 3 → ∃ t, exec (.coolantCondition row) s = .next t ∧ t.now = max s.now (a + msTicks 1000) ∧ t.lev.flowLimit = 9000 ∧
      t.lev.inletCut = (if i ≤ 400 then 0 else s.lev.inletCut) ∧
      t.err = (raise unitAON bLEV sDef 0x0C none 0 f 0 s).err ∧ Frame [.now, .out, .err, .tel, .lev] s t) ∧
    (row = 4 → s.lev.power = .on → ∃ t, exec (.coolantCondition row) s = .next t ∧ t.now = max s.now (a + msTicks 500) ∧ Stop s t ∧ Frame [.now, .lev] s t) ∧
    (row = 5 → ∃ t, exec (.coolantCondition row) s = .next t ∧ t.now = max s.now (a + msTicks 1000) ∧
      t.err = (raise unitAON bLEV sInfo 0x0C none 0 i 0 s).err ∧ Frame [.now, .out, .err, .tel] s t)) ∧
  (∀ (s : State) (a b : Nat), s.lev.power = .stopping a b → b < s.tide.bnd → ∃ t, exec .shutdownComplete s = .next t ∧ Off s t) ∧
  (∀ (s : State), ∃ t, exec .busbarLoss s = .next t ∧ Off s t ∧
    (s.bst.undurable = true → (t.bst.copies.head?.map fun c => (c.cells, c.dies)) = some (s.net.holes, s.net.dieHoles)))

/-- R435, R437 to R440: heat raises and lowers levels with their actions, trips regions, parks stacks; a region that faults is isolated; a die
off for heat returns. -/
def Obligations.HeatIsActedOn : Prop :=
  (∀ (region : Fin 152) (s : State) (k a : Nat), riseTo s region = some (k, a) → updating s 2 = false →
    ∃ t, exec (.heatLevelRise region) s = .next t ∧ t.now = max s.now a ∧ heatLevel t region = k ∧ t.out = .rill unitTR (if 3 ≤ k then 0 else 2) 0x34 [region.val, k] :: s.out ∧
      Frame [.now, .out, .fly, .tel, .ctxs, .net, .wsh, .lev] s t ∧
      (k = 3 → region.val < 88 → siteAvail s region = true → region.val ∈ t.wsh.emerg) ∧
      (k = 2 → region.val < 88 → siteAvail s region = true → (∀ q ∈ s.wsh.asked, q.site ≠ region.val) → (∀ q ∈ s.wsh.notices, q.site ≠ region.val) →
        (canLose s region = true → t.wsh.asked = s.wsh.asked ++ [{ site := region, slot := slotNow s + max (regL s 0xA010 0 7 0) 1, why := .heat, bnd := s.tide.bnd }]) ∧
        (canLose s region = false → region.val ∈ t.lev.halved ∧ t.wsh = s.wsh))) ∧
  (∀ (region : Fin 152) (s : State) (a : Nat), tget? s.lev.cool region = some a → forcedLevel s region < heatLevel s region →
    ∃ t, exec (.heatLevelFall region) s = .next t ∧ t.now = max s.now (a + msTicks 100) ∧ heatLevel t region = heatLevel s region - 1 ∧
      (heatLevel s region ≤ 2 → region.val ∉ t.lev.halved) ∧ t.out = .rill unitTR (if 4 ≤ heatLevel s region then 0 else 2) 0x34 [region.val, heatLevel s region - 1] :: s.out ∧
      Frame [.now, .out, .fly, .tel, .net, .lev] s t) ∧
  (∀ (region : Fin 152) (s : State) (a : Nat), tget? s.lev.hot (8 * region + 4) = some a → heatLevel s region ≠ 4 →
    ∃ t, exec (.heatTrip region) s = .next t ∧ t.now = max s.now (a + usTicks 10) ∧ heatLevel t region = 4 ∧ tget? t.lev.region region = some 1 ∧
      tget? t.lev.offAt region = some t.now ∧ region.val ∈ t.lev.tripped ∧ Out.pin 0x22 region ∈ t.out ∧ Counted (telKey bLEV 1 0 region) 1 s t ∧
      (region.val < 88 → OutWhy.heat ∈ siteReasons t region) ∧ (88 ≤ region.val → region.val - 88 ∈ t.net.chipOut)) ∧
  (∀ (stk : Fin 64) (s : State) (a : Nat),
    (tget? s.lev.stackHot stk = some a → stk.val ∉ s.lev.selfRef → stackUp s stk = true →
      ∃ t, exec (.stackOverheat stk) s = .next t ∧ t.now = max s.now (a + msTicks 1) ∧ stk.val ∈ t.lev.selfRef ∧ stackUp t stk = false) ∧
    (tget? s.lev.stackOk stk = some a → stk.val ∈ s.lev.selfRef →
      ∃ t, exec (.stackCooldown stk) s = .next t ∧ t.now = max s.now (a + msTicks 1000) ∧ (getStk t stk).retrainWant = true ∧ Frame [.now, .mem] s t)) ∧
  (∀ (region : Fin 164) (value : Word) (s : State), s.lev.power = .on → tget? s.lev.region region = none →
    (region.val < 88 → ¬ (isOxbow region = true ∧ OutWhy.oxbowIdle ∈ siteReasons s region)) →
    ∃ t, exec (.regionFault region value) s = .next t ∧ tget? t.lev.region region = some 3 ∧ Out.pin 0x22 region ∈ t.out ∧ Counted (telKey bLEV 2 0 region) 1 s t ∧
      (region.val < 160 → Out.rill unitTR 0 0x35 [region.val] ∈ t.out ∧ Out.rill unitTL 0 0x35 [region.val] ∈ t.out) ∧
      (region.val < 88 → OutWhy.isolated ∈ siteReasons t region ∧ region.val ∈ t.net.dieHoles) ∧
      (88 ≤ region.val → region.val < 152 → region.val - 88 ∈ t.net.chipOut) ∧ (152 ≤ region.val → region.val < 160 → region.val - 152 ∈ t.net.reachOut) ∧
      (160 ≤ region.val → t.lev.power = .stopping s.now s.tide.bnd ∧ region.val ∈ t.bst.cornerBad ∧
        t.err = (raise region bLEV sModule 0x12 none region value.toNat 0 s).err ∧ Frame [.out, .err, .tel, .bst, .lev] s t)) ∧
  (∀ (site : Fin 88) (slot : BitVec 50) (s : State) (a o : Nat), tget? s.lev.region site = some 1 → tget? s.lev.carrierOk site = some a → tget? s.lev.offAt site = some o →
    tget? s.net.rejoin site = none → slotNow s < slot.toNat → (∀ y ∈ s.bst.tests, y.site ≠ site.val) →
    (site.val ∉ s.lev.tripped →
      ∃ t, exec (.heatReenable site slot) s = .next t ∧ t.now = max s.now (max (a + msTicks 100) (o + msTicks 1000)) ∧ tget t.net.heat site 0 = 0 ∧
        tget? t.net.rejoin site = some { slot := slot.toNat, started := false, misses := 0, relocked := false } ∧ t.out = .rill unitTR 2 0x36 [site.val, slot.toNat] :: .pin 0x23 site :: s.out ∧
        Sent none (.rill { src := unitBL, dst := unitTR, pri := 2, kind := 0x36, words := [site.val, slot.toNat] }) s t ∧ Frame [.now, .out, .fly, .net] s t) ∧
    (site.val ∈ s.lev.tripped →
      ∃ t, exec (.heatReenable site slot) s = .next t ∧ t.now = max s.now (max (a + msTicks 100) (o + msTicks 1000)) ∧ tget t.net.heat site 0 = 0 ∧
        t.bst.tests = s.bst.tests ++ [{ site := site }] ∧ site.val ∉ t.lev.tripped ∧ t.lev.region = tdel s.lev.region site ∧ Frame [.now, .net, .bst, .lev] s t))

/-- R340 to R342, R353, R453 to R456, R466 to R469: a write is merged into its register's fields, a view register has a copy for each
master, and what may not be written is refused with its detail; the host sets configuration space and the MSI-X table. -/
def Obligations.RegistersTakeWrites : Prop :=
  (∀ (c : RegIn → Instr) (x : RegIn) (s r : State) (m : Master) (off val mask : Nat), (c = .registerWrite ∨ (c = .regWrite ∧ ∀ o n v, x ≠ .host o n v)) →
    Writes x s m off val mask r → plainWrite off (val &&& mask) = true →
    (0x800000 ≤ off → off < 0x810000 →
      (m = .host → ∃ t, exec (c x) s = .next t ∧ t = ownClock r) ∧ (m ≠ .host → ∃ t, exec (c x) s = .next t ∧ WriteRefused m off 4 (ownClock r) t ∧ t.regs = r.regs)) ∧
    (m ≠ .host → hostOnly off = true → ∃ t, exec (c x) s = .next t ∧ WriteRefused m off 4 (ownClock r) t ∧ t.regs = r.regs) ∧
    (m = .host → off = 0xF018 ∨ off = 0xF028 → ∃ t, exec (c x) s = .next t ∧ regWritten t off 0 = regNew r off 0 val mask ∧ Frame [.regs, .out, .err, .tel, .csn, .own] r t) ∧
    (m = .host → off = 0xF020 → bitN (val &&& mask) 6 = true → ∃ t, exec (c x) s = .next t ∧ t.own.changed = false) ∧
    ((off < 0x800000 ∨ 0x810000 ≤ off) →
    (∀ d, regAt off = some d → d.view = true →
      ∃ t, exec (c x) s = .next t ∧ Frame [.regs, .out, .err, .tel, .csn, .own] r t ∧
        viewReg t m off = ((viewReg r m off - (viewReg r m off &&& mask)) ||| (val &&& mask)) &&& fieldMask d (fun _ => true)) ∧
    (Owns r m → regAt off = none → ∃ t, exec (c x) s = .next t ∧ WriteRefused m off 4 r t) ∧
    (isOwner (ownClock r) m = false → (∀ d, regAt off = some d → d.view = false) → hostOnly off = false → off ≠ 0xF020 →
      ∃ t, exec (c x) s = .next t ∧ WriteRefused m off 2 (ownClock r) t ∧ t.regs = r.regs) ∧
    (∀ d, Owns r m → regAt off = some d → d.view = false → hostOnly off = false →
      (instOf r m d.idx = none → ∃ t, exec (c x) s = .next t ∧ WriteRefused m off 3 r t ∧ t.regs = r.regs) ∧
      (∀ i, instOf r m d.idx = some i → (0xE008 ≤ off → off ≤ 0xE018 → i ≠ 0) →
        ((∀ f ∈ d.fields, staticNow r off i f = false) → regBad r off i (regNew r off i val mask) = true →
          ∃ t, exec (c x) s = .next t ∧ WriteRefused m off 3 r t ∧ t.regs = r.regs) ∧
        ((∀ f ∈ d.fields, staticNow r off i f = false) → regBad r off i (regNew r off i val mask) = false →
          ∃ t, exec (c x) s = .next t ∧ regWritten t off i = regNew r off i val mask ∧
            regLive t off i = ((regNew r off i val mask &&& fieldMask d (fun f => f.acc == .rw && f.cls != .h)) ||| (regLive r off i &&& fieldMask d (fun f => f.acc == .rw && f.cls == .h))) ∧
            ∀ o j, regKey o j ≠ regKey off i → regWritten t o j = regWritten r o j ∧ regLive t o j = regLive r o j) ∧
        (∀ f ∈ d.fields, (∀ g ∈ d.fields, staticNow r off i g = true) → f.acc = .rw →
          bitsN ((regWritten r off i - (regWritten r off i &&& mask)) ||| (val &&& mask)) f.hi f.lo ≠ bitsN (regWritten r off i) f.hi f.lo → (∀ n, regBad r off i n = false) →
          ∃ t, exec (c x) s = .next t ∧ WriteRefused m off 1 r t ∧ regWritten t off i = regWritten r off i &&& fieldMask d (·.acc == .rw)))))) ∧
  (∀ (item : CfgItem) (v : BitVec 64) (s : State), s.hst.link = .up →
    let c (f : CfgSpace → CfgSpace) (item : CfgItem) : Prop := ∃ t, exec (.registerWrite (.config item v)) s = .next t ∧ t.hst = { s.hst with cfg := f s.hst.cfg } ∧ Frame [.hst] s t
    c (fun y => { y with command := v.toNat % 2 ^ 16 }) .command ∧
    c (fun y => { y with bar0 := y.bar0 / 2 ^ 32 * 2 ^ 32 + v.toNat % 2 ^ 32 / 2 ^ 24 * 2 ^ 24 }) (.bar 0) ∧
    c (fun y => { y with bar0 := y.bar0 % 2 ^ 32 + v.toNat % 2 ^ 32 * 2 ^ 32 }) (.bar 1) ∧
    c (fun y => { y with bar2 := y.bar2 / 2 ^ 32 * 2 ^ 32 + v.toNat % 2 ^ 32 / 2 ^ 16 * 2 ^ 16 }) (.bar 2) ∧
    c (fun y => { y with bar2 := y.bar2 % 2 ^ 32 + v.toNat % 2 ^ 32 * 2 ^ 32 }) (.bar 3) ∧
    (v.toNat ≤ 2 → c (fun y => { y with mps := v.toNat }) .mps) ∧ (v.toNat ≤ 5 → c (fun y => { y with mrrs := v.toNat }) .mrrs) ∧
    (item ∉ [CfgItem.command, .bar 0, .bar 1, .bar 2, .bar 3, .mps, .mrrs] → exec (.registerWrite (.config item v)) s = .next s)) ∧
  (∀ (off : Fin 16384) (v : Word) (s : State), barOpen s = true →
    (4 * off.val < 66 * 16 → ∃ t, exec (.registerWrite (.bar2 off v)) s = .next t ∧ t.hst = { s.hst with msixTab := tset s.hst.msixTab (4 * off) v.toNat } ∧
      bar2Value t (4 * off) = v.toNat ∧ Frame [.hst] s t) ∧
    (66 * 16 ≤ 4 * off.val → exec (.registerWrite (.bar2 off v)) s = .next s)) ∧
  (∀ (x : RegIn) (s : State), (s.hst.link ≠ .up ∧ ∃ item v, x = .config item v) ∨ (barOpen s = false ∧ ∃ off v, x = .bar2 off v) →
    exec (.registerWrite x) s = .next s ∧ exec (.regRead x) s = .next s)

/-- The writes that set something off, on the module's memory, links and tide (R158, R203, R205, R213, R335, R361, R383, R387, R471). -/
def Obligations.LinkWritesAct : Prop :=
  ∀ (x : RegIn) (s r : State) (m : Master) (val mask i : Nat), Owns r m →
    let b (k : Nat) : Bool := bitN (val &&& mask) k
    (Writes x s m 0xE008 val mask r → instOf r m .chkProf = some i → i ≠ 0 → (∀ u ∈ r.chk.bound, u.2.prof ≠ i) → b 12 = true → bitN (regWritten r 0xE008 i) 12 = false →
      let new := regNew r 0xE008 i val mask
      (profOk (regPut r 0xE008 i new) i = true → ∃ t, exec (.profileValidate x) s = .next t ∧ regWritten t 0xE008 i = new ∧ WriteDone [] r t) ∧
      (profOk (regPut r 0xE008 i new) i = false → ∃ t, exec (.profileValidate x) s = .next t ∧ bitN (regWritten t 0xE008 i) 12 = false ∧ WriteRefused m 0xE008 3 r t)) ∧
    (Writes x s m 0xE028 val mask r → instOf r m .chkUnit = some i → mask ≠ 0 →
      (tget? r.chk.bound i = none → ∃ t, exec (.unitRunApply x) s = .next t ∧ t.chk = { r.chk with run := tset r.chk.run i (regWritten r 0xE024 i + 2 ^ 32 * regNew r 0xE028 i val mask) } ∧
        WriteDone [.chk] r t) ∧
      (tget? r.chk.bound i ≠ none → ∃ t, exec (.unitRunApply x) s = .next t ∧ WriteRefused m 0xE028 3 r t)) ∧
    (Writes x s m 0x4020 val mask r → instOf r m .memStk = some i → b 0 = true →
      ∃ t, exec (.retrainRequest x) s = .next t ∧ WriteDone [.mem] r t ∧ (∀ k, k ≠ i → getStk t k = getStk r k) ∧
        getStk t i = if (getStk r i).st = .unavailable then getStk r i else { getStk r i with retrainWant := true }) ∧
    (Writes x s m 0xD010 val mask r → instOf r m .rsvWin = some i → b 31 = true → bitN (regWritten r 0xD010 i) 31 = false →
      let u := regPut r 0xD010 i (regNew r 0xD010 i val mask)
      (winOk u i = true → ∃ t, exec (.windowValidate x) s = .next t ∧ t.rsv = (winSet i u).rsv ∧ WriteDone [.rsv] r t) ∧
      (winOk u i = false → ∃ t, exec (.windowValidate x) s = .next t ∧ bitN (regWritten t 0xD010 i) 31 = false ∧ WriteRefused m 0xD010 3 r t)) ∧
    (Writes x s m 0xD02C val mask r → instOf r m .rsvExp = some i → b 17 = true → bitN (regWritten r 0xD02C i) 17 = false →
      let u := regPut r 0xD02C i (regNew r 0xD02C i val mask)
      (expOk u i = true → ∃ t, exec (.exportValidate x) s = .next t ∧ t.rsv = (expSet i u).rsv ∧ WriteDone [.rsv] r t) ∧
      (expOk u i = false → ∃ t, exec (.exportValidate x) s = .next t ∧ bitN (regWritten t 0xD02C i) 17 = false ∧ WriteRefused m 0xD02C 3 r t)) ∧
    (Writes x s m 0x8018 val mask r → instOf r m .slcQ = some i → b 0 = true → (getPair r i).en = false →
      let cfg := regWritten r 0x8014 i
      ∃ t, exec (.queuePairEnable x) s = .next t ∧ WriteDone [.slc] r t ∧ (∀ k, k ≠ i → getPair t k = getPair r k) ∧ (getPair t i).en = true ∧ (getPair t i).halted = false ∧
        (getPair t i).sqBase = regWritten r 0x8004 i + 2 ^ 32 * regWritten r 0x8008 i ∧ (getPair t i).cqBase = regWritten r 0x800C i + 2 ^ 32 * regWritten r 0x8010 i ∧
        (getPair t i).sqSize = 2 ^ (min (bitsN cfg 3 0) 12 + 4) ∧ (getPair t i).cqSize = 2 ^ (min (bitsN cfg 7 4) 12 + 4) ∧ (b 1 = true → (getPair t i).err = false) ∧
        (cacheUp r = true → Out.hostRead (t.slc.dbBase + 64 * (i / 8)) 64 ∈ t.out)) ∧
    (Writes x s m 0x8018 val mask r → instOf r m .slcQ = some i → bitN mask 0 = true → b 0 = false → b 1 = false → (getPair r i).en = true →
      ∃ t, exec (.queuePairDisable x) s = .next t ∧ WriteDone [.slc] r t ∧ (∀ k, k ≠ i → getPair t k = getPair r k) ∧
        getPair t i = { getPair r i with en := false, halted := false, fetching := 0, sqHead := ((getPair r i).sqHead + (getPair r i).sqSize - (getPair r i).fetched.length) % (getPair r i).sqSize, fetched := [], buf := (getPair r i).buf ++ (getPair r i).posted, posted := [] }) ∧
    (Writes x s m 0xF004 val mask r → b 3 = true →
      (r.hst.link = .up → ∃ t, exec (.linkRetrain x) s = .next t ∧ t.hst = { r.hst with link := .train } ∧ WriteDone [.hst] r t) ∧
      (r.hst.link ≠ .up → ∃ t, exec (.linkRetrain x) s = .next t ∧ WriteDone [] r t)) ∧
    (Writes x s m 0xC018 val mask r → instOf r m .csnLane = some i → b 0 = true → bitN (regNew r 0xC018 i val mask) 1 = bitN (regWritten r 0xC018 i) 1 →
      ((getLane r (i / 16) (i % 16)).st = .ready → ∃ t, exec (.recal x) s = .next t ∧ ((getLane t (i / 16) (i % 16)).recal = true ∨ (getLane t (i / 16) (i % 16)).retrain = true)) ∧
      ((getLane r (i / 16) (i % 16)).st ≠ .ready → ∃ t, exec (.recal x) s = .next t ∧ WriteDone [] r t)) ∧
    (Writes x s m 0xC018 val mask r → instOf r m .csnLane = some i → b 0 = false → bitN (regNew r 0xC018 i val mask) 1 ≠ bitN (regWritten r 0xC018 i) 1 →
      let v := bitN (regNew r 0xC018 i val mask) 1
      ∃ t, exec (.laneDownHold x) s = .next t ∧ (getLane t (i / 16) (i % 16)).hold = v ∧
        (v = true → (getLane r (i / 16) (i % 16)).st ≠ .disabled → (getLane t (i / 16) (i % 16)).st = .down))

/-- The writes that set something off, on the module's boot record, tests, firmware, identity, supply, records and counters (R391, R402,
R404, R415, R421, R439 to R441, R452, R461, R464, R471). -/
def Obligations.ServiceWritesAct : Prop :=
  ∀ (x : RegIn) (s r : State) (m : Master) (val mask i : Nat), Owns r m →
    let b (k : Nat) : Bool := bitN (val &&& mask) k
    let f (hi lo : Nat) : Nat := bitsN (val &&& mask) hi lo
    (Writes x s m 0x10030 val mask r → b 0 = true →
      ∃ t, exec (.bootcfgCommit x) s = .next t ∧ t.bst = { r.bst with bootNext := some ((List.range 4).map fun k => tget r.bst.staged k 0) } ∧ WriteDone [.bst] r t) ∧
    (Writes x s m 0x10010 val mask r → b 7 = true →
      (f 6 0 < 80 → (∀ y ∈ r.bst.tests, y.site ≠ dieSite r (f 6 0)) →
        ∃ t, exec (.dieTestRequest (.write x)) s = .next t ∧ t.bst = { r.bst with tests := r.bst.tests ++ [{ site := dieSite r (f 6 0) }] } ∧ WriteDone [.bst] r t) ∧
      (80 ≤ f 6 0 → ∃ t, exec (.dieTestRequest (.write x)) s = .next t ∧ WriteRefused m 0x10010 3 r t)) ∧
    (Writes x s m 0x1000C val mask r → b 7 = true →
      let ox := 11 * f 2 0 + 10
      let site := dieSite r (10 * f 2 0 + f 6 3)
      (f 6 3 < 10 → siteReasons r ox = [.oxbowIdle] → f 2 0 ∉ r.bst.oxbowBad → tget? r.bst.recov (f 2 0) = none → siteFailed r site = true → f 2 0 ∉ r.net.reachOut →
        tget? r.net.leaving ox = none → (∀ z ∈ r.wsh.freezes, z.site ≠ ox) → site ≠ ox →
        ∃ t, exec (.recoverRequest (.write x)) s = .next t ∧ t.bst = { r.bst with recov := tset r.bst.recov (f 2 0) { ldie := f 6 3, step := 1 } } ∧ WriteDone [.bst, .lev] r t) ∧
      (10 ≤ f 6 3 ∨ siteReasons r ox ≠ [.oxbowIdle] ∨ siteFailed r site = false ∨ tget? r.bst.recov (f 2 0) ≠ none → ∃ t, exec (.recoverRequest (.write x)) s = .next t ∧ WriteRefused m 0x1000C 3 r t)) ∧
    (Writes x s m 0xB00C val mask r → b 0 = true →
      let a := regLive r 0xB000 0 + 2 ^ 32 * regLive r 0xB004 0
      let n := regLive r 0xB008 0
      let obj := if 2956 ≤ n ∧ n ≤ 64 * 2 ^ 20 ∧ fastOk r a n = true ∧ memPoisoned r a n = false then memRead r a n else []
      (r.hdw.obj = none → ∃ t, exec (.objectInstall x) s = .next t ∧ t.hdw = { r.hdw with obj := some { obj := obj, act := b 1, slot := regLive r 0xB010 0 + 2 ^ 32 * regLive r 0xB014 0 }, objState := 1, objResult := 0, objKind := oKind obj } ∧
        WriteDone [.hdw] r t) ∧
      (r.hdw.obj ≠ none → ∃ t, exec (.objectInstall x) s = .next t ∧ t.hdw = r.hdw ∧ t.err = (raise unitBR bHDW sInfo 0x05 none a 0 10 r).err ∧ WriteDone [.err] r t)) ∧
    (Writes x s m 0xB020 val mask r → b 0 = true →
      (r.hdw.gen < 3 → r.hdw.rekey = none → r.hdw.scan = .out →
        ∃ t, exec (.rekeyStart x) s = .next t ∧ t.hdw = { r.hdw with rekey := some (.building r.now), seeds := addN r.hdw.seeds (r.hdw.gen + 1) } ∧ WriteDone [.hdw] r t) ∧
      (3 ≤ r.hdw.gen ∨ r.hdw.rekey ≠ none ∨ r.hdw.scan ≠ .out → ∃ t, exec (.rekeyStart x) s = .next t ∧ WriteRefused m 0xB020 3 r t)) ∧
    (Writes x s m 0xA01C val mask r → instOf r m .levRegion = some i →
      (b 0 = true → b 1 = false →
        (i < 88 → siteAvail r i = true → (∀ q ∈ r.wsh.asked, q.site ≠ i) → (∀ q ∈ r.wsh.notices, q.site ≠ i) → canLose r i = true →
          ∃ t, exec (.switchoffRequest x) s = .next t ∧ WriteDone [.wsh] r t ∧
            t.wsh.asked = r.wsh.asked ++ [{ site := i, slot := slotNow r + max (regL r 0xA010 0 7 0) 1, why := .command, bnd := r.tide.bnd }]) ∧
        (88 ≤ i ∨ siteAvail r i = false ∨ canLose r i = false → ∃ t, exec (.switchoffRequest x) s = .next t ∧ WriteRefused m 0xA01C 3 r t)) ∧
      (b 0 = false → b 1 = true →
        (i < 88 → tget? r.lev.region i = some 2 → tget? r.net.rejoin i = none →
          ∃ t, exec (.regionOnRequest x) s = .next t ∧ WriteDone [.fly, .net] r t ∧ Out.pin 0x23 i ∈ t.out ∧
            tget? t.net.rejoin i = some { slot := slotNow r + 1, started := false, misses := 0, relocked := false }) ∧
        (88 ≤ i ∨ tget? r.lev.region i ≠ some 2 → ∃ t, exec (.regionOnRequest x) s = .next t ∧ WriteRefused m 0xA01C 3 r t))) ∧
    (Writes x s m 0xA020 val mask r → b 0 = true → r.lev.power = .on →
      ∃ t, exec (.shutdown x) s = .next t ∧ t.lev = { r.lev with power := .stopping r.now r.tide.bnd } ∧ WriteDone [.lev] r t) ∧
    (Writes x s m 0x11010 val mask r → mask ≠ 0 →
      ∃ t, exec (.errorAck x) s = .next t ∧ t.err = { r.err with q := r.err.q.filter fun e => seqNewer 32 e.r.seq (val &&& mask) } ∧ WriteDone [.err] r t) ∧
    (Writes x s m 0x11000 val mask r → b 0 = true → bitN (regWritten r 0x11000 0) 0 = false →
      ∃ t, exec (.ringEnable x) s = .next t ∧ t.err.ringBase = regWritten r 0x11004 0 + 2 ^ 32 * regWritten r 0x11008 0 ∧ t.err.ringLog2 = max 10 (regW r 0x1100C 0 3 0) ∧
        t.err.q = r.err.q.map (fun e => if e.delivered then { e with ringed := true } else e) ∧ WriteDone [.err] r t ∧
        ∀ e ∈ r.err.q, e.delivered = true → e.ringed = false → Out.hostWrite (t.err.ringBase + 64 * (e.r.seq % 2 ^ t.err.ringLog2)) (errBytes e.r) ∈ t.out) ∧
    (Writes x s m 0x12018 val mask r → b 0 = true → r.tel.dumpArmed = false → r.tel.snap = none →
      let a := regWritten r 0x12010 0 + 2 ^ 32 * regWritten r 0x12014 0
      (fastOk r a telBytes = true → ∃ t, exec (.telDump x) s = .next t ∧ t.tel.dumpArmed = true ∧ t.tel.dumpBnd = r.tide.bnd ∧ t.tel.dumpAddr = a ∧ WriteDone [] r t) ∧
      (fastOk r a telBytes = false → ∃ t, exec (.telDump x) s = .next t ∧ t.tel.dumpArmed = false ∧ WriteRefused m 0x12018 3 r t))

/-- R1, R65, R340 to R342, R377, R413, R455, R460, R466, R471: a load on BAR0, and a MGMT read, are answered with what the registers read as, in
order; the reads that latch do so; reads of counters wait while telemetry's image is replaced; configuration space and BAR2 are answered
with what they hold. -/
def Obligations.ReadsAreAnswered : Prop :=
  (∀ (off : BitVec 24) (v : BitVec 64) (s : State), pathOpen s .host = true → (off.toNat = 0x12008 → updating s 10 = false) →
    let u := ownClock s
    let o := off.toNat
    (o % 4 = 0 → ∃ t, exec (.regRead (.host off 4 v)) s = .next t ∧ t.out = .regRead .host o (regValue u .host o) :: u.out ∧ Frame [.regs, .out] u t ∧
      (o ≠ 0x9010 → o ≠ 0x12008 → t.regs = u.regs)) ∧
    (∀ n, n = 1 ∨ n = 2 → ∃ t, exec (.regRead (.host off n v)) s = .next t ∧ t.out = .regRead .host o (regValue u .host (o / 4 * 4) / 256 ^ (o % 4) % 256 ^ n) :: u.out ∧
      Frame [.regs, .out] u t) ∧
    (o % 8 = 0 → ∃ t, exec (.regRead (.host off 8 v)) s = .next t ∧
      t.out = .regRead .host o (regValue u .host o + 2 ^ 32 * regValue (regLatch .host o u) .host (o + 4)) :: u.out ∧ Frame [.regs, .out] u t) ∧
    (o = 0x9010 → ∃ t, exec (.countReadLatch (.host off 4 v)) s = .next t ∧ tget t.regs.tidHi Master.host.id 0 = u.tide.count / 2 ^ 32 ∧ Frame [.regs, .out] u t ∧
      (blockUp u bTID = true → t.out = .regRead .host o (u.tide.count % 2 ^ 32) :: u.out ∧ regValue t .host 0x9014 = u.tide.count / 2 ^ 32 % 2 ^ 32)) ∧
    (o = 0x12008 → ∀ k, instOf u .host .tel = some k →
      ∃ t, exec (.telValueRead (.host off 4 v)) s = .next t ∧ t.out = .regRead .host o (telValue u k % 2 ^ 32) :: u.out ∧ tget t.regs.telHi Master.host.id 0 = telValue u k / 2 ^ 32 ∧
        Frame [.regs, .out] u t)) ∧
  (∀ (x : RegIn) (s r : State) (d : Bytes) (off : Nat) (g : RegMsg), regPeek x s = some (4, off, d) → regMsg x s = (some g, r) → leField g.data 0 4 = off → g.data = d.take g.data.length → telHeld x s = false →
    let n := leField g.data 4 2
    (6 ≤ g.data.length → offOk off = true → 1 ≤ n → n ≤ 64 → offOk (off + 4 * (n - 1)) = true →
      ∃ t, exec (.regRead x) s = .next t ∧ Out.regData g.m g.tag 0 (regRun g.m n off (ownClock r)).1 ∈ t.out ∧ Frame [.regs, .out, .tel, .csn] (ownClock r) t ∧
        ((∃ k < n, off + 4 * k = 0x9010) → exec (.countReadLatch x) s = .next t) ∧ ((∃ k < n, off + 4 * k = 0x12008) → exec (.telValueRead x) s = .next t)) ∧
    (g.data.length < 6 ∨ offOk off = false ∨ n = 0 ∨ 64 < n ∨ offOk (off + 4 * (n - 1)) = false → ∃ t, exec (.regRead x) s = .next t ∧ Out.regData g.m g.tag 3 [] ∈ t.out ∧ Frame [.out, .tel, .csn] r t)) ∧
  (∀ (x : RegIn) (s r : State) (d : Bytes) (op off : Nat) (g : RegMsg), regPeek x s = some (op, off, d) → regMsg x s = (some g, r) → g.op = op → op = 0 ∨ 8 ≤ op →
    ∃ t, exec (.regRead x) s = .next t ∧ Out.regData g.m g.tag 3 [] ∈ t.out ∧ Frame [.out, .tel, .csn] r t) ∧
  (∀ (x : RegIn) (s : State), telHeld x s = true → exec (.regRead x) s = .next s ∧ exec (.telValueRead x) s = .next s) ∧
  (∀ (item : CfgItem) (v : BitVec 64) (s : State), s.hst.link = .up →
    (∃ t, exec (.regRead (.config item v)) s = .next t ∧ t.out = .cfgRead item (cfgValue s item) :: s.out ∧ Frame [.out] s t) ∧
    cfgValue s .vendor = 0xCE4A ∧ cfgValue s .device = 0xD150 ∧ cfgValue s .subVendor = 0xCE4A ∧ cfgValue s .subsystem = 1 ∧ cfgValue s .classCode = 0x120000 ∧
    cfgValue s .revision = Config.stepping.toNat ∧ cfgValue s .intPin = 0 ∧ cfgValue s .msixVectors = 66 ∧ cfgValue s .serial = Config.serial.toNat ∧ cfgValue s .noSoftReset = 1 ∧
    cfgValue s .cacheCapable = 1 ∧ cfgValue s .memCapable = 1 ∧ cfgValue s .hdmCount = 1 ∧ cfgValue s .gpfPhase2 = 10 ∧ cfgValue s .flit256 = 1 ∧ cfgValue s .flit68 = 0) ∧
  (∀ (off : Fin 16384) (v : Word) (s : State), barOpen s = true →
    ∃ t, exec (.regRead (.bar2 off v)) s = .next t ∧ t.out = .bar2Read (4 * off) (bar2Value s (4 * off)) :: s.out ∧ Frame [.out] s t)
end

