-- ==== Sys2Proof/Laws/Tables.lean ====
section
/-! SUPPORT. Laws of the sparse tables and of byte memory: a read after a write, what a write leaves, and the canonical form that every
memory operation keeps. -/
namespace Sys2Proof.Machine

variable {α : Type}

@[simp] theorem tget?_tset_same (t : Tab α) (k : Nat) (v : α) : tget? (tset t k v) k = some v := by
  induction t with
  | nil => simp [tset, tget?]
  | cons e r ih =>
    obtain ⟨j, w⟩ := e
    by_cases h : k < j
    · simp [tset, tget?, h]
    · by_cases g : k = j
      · simp [tset, tget?, g]
      · simp [tset, tget?, h, g, Ne.symm g, ih]

theorem tget?_tset_ne (t : Tab α) {k i : Nat} (v : α) (n : i ≠ k) : tget? (tset t k v) i = tget? t i := by
  induction t with
  | nil => simp [tset, tget?, n.symm]
  | cons e r ih =>
    obtain ⟨j, w⟩ := e
    by_cases h : k < j
    · simp [tset, tget?, h, n.symm]
    · by_cases g : k = j
      · subst g; simp [tset, tget?, n.symm]
      · simp only [tset, h, g, if_false, tget?, ih]

@[simp] theorem tget_tset_same (t : Tab α) (k : Nat) (v d : α) : tget (tset t k v) k d = v := by simp [tget]

theorem tget_tset_ne (t : Tab α) {k i : Nat} (v d : α) (n : i ≠ k) : tget (tset t k v) i d = tget t i d := by
  simp [tget, tget?_tset_ne t v n]

theorem tget?_tdel_ne (t : Tab α) {k i : Nat} (n : i ≠ k) : tget? (tdel t k) i = tget? t i := by
  induction t with
  | nil => rfl
  | cons e r ih =>
    obtain ⟨j, w⟩ := e
    by_cases g : j = k
    · subst g; simp [tdel, tget?, n.symm]
    · simp only [tdel, g, if_false, tget?, ih]

/-- The keys of a sorted table rise. -/
theorem sorted_iff (t : Tab α) : Tab.sorted t = true ↔ (t.map Prod.fst).Pairwise (· < ·) := by
  induction t with
  | nil => simp [Tab.sorted]
  | cons e r ih =>
    cases r with
    | nil => simp [Tab.sorted]
    | cons f r =>
      obtain ⟨j, w⟩ := e
      obtain ⟨k, v⟩ := f
      simp only [Tab.sorted, Bool.and_eq_true, decide_eq_true_eq, ih, List.map_cons, List.pairwise_cons]
      constructor
      · rintro ⟨h, g, r⟩
        refine ⟨?_, g, r⟩
        intro a ha
        rcases List.mem_cons.1 ha with rfl | ha
        · exact h
        · exact Nat.lt_trans h (g a ha)
      · rintro ⟨h, g, r⟩
        exact ⟨h k (by simp), g, r⟩

theorem tset_keys (t : Tab α) (k : Nat) (v : α) {i : Nat} (h : i ∈ (tset t k v).map Prod.fst) : i = k ∨ i ∈ t.map Prod.fst := by
  induction t with
  | nil => simp_all [tset]
  | cons e r ih =>
    obtain ⟨j, w⟩ := e
    unfold tset at h
    split at h
    · simpa using h
    · split at h
      · rename_i g; subst g; exact Or.inr (by simpa using h)
      · simp only [List.map_cons, List.mem_cons] at h ⊢
        rcases h with rfl | h
        · exact Or.inr (Or.inl rfl)
        · exact (ih h).imp id Or.inr

theorem tset_sorted (t : Tab α) (k : Nat) (v : α) (h : Tab.sorted t = true) : Tab.sorted (tset t k v) = true := by
  rw [sorted_iff] at h ⊢
  induction t with
  | nil => simp [tset]
  | cons e r ih =>
    obtain ⟨j, w⟩ := e
    simp only [List.map_cons, List.pairwise_cons] at h
    unfold tset
    split
    · rename_i g
      simp only [List.map_cons, List.pairwise_cons]
      refine ⟨?_, h.1, h.2⟩
      intro a ha
      rcases List.mem_cons.1 ha with rfl | ha
      · exact g
      · exact Nat.lt_trans g (h.1 a ha)
    · split
      · rename_i g; subst g; simpa using h
      · rename_i g g'
        simp only [List.map_cons, List.pairwise_cons]
        refine ⟨?_, ih h.2⟩
        intro a ha
        rcases tset_keys r k v ha with rfl | ha
        · omega
        · exact h.1 a ha

theorem tdel_sublist (t : Tab α) (k : Nat) : (tdel t k).Sublist t := by
  induction t with
  | nil => exact List.Sublist.slnil
  | cons e r ih =>
    obtain ⟨j, w⟩ := e
    unfold tdel
    split
    · exact List.sublist_cons_self _ _
    · exact ih.cons_cons _

theorem sublist_sorted {t u : Tab α} (h : u.Sublist t) (g : Tab.sorted t = true) : Tab.sorted u = true := by
  rw [sorted_iff] at g ⊢
  exact g.sublist (h.map _)

theorem tdel_sorted (t : Tab α) (k : Nat) (h : Tab.sorted t = true) : Tab.sorted (tdel t k) = true := sublist_sorted (tdel_sublist t k) h

theorem tget?_none_of_lt (t : Tab α) (k : Nat) (h : ∀ a ∈ t.map Prod.fst, k < a) : tget? t k = none := by
  induction t with
  | nil => rfl
  | cons e r ih =>
    obtain ⟨j, w⟩ := e
    have hj : k < j := h j (by simp)
    have : j ≠ k := by omega
    simp [tget?, this, ih fun a ha => h a (by simp at ha ⊢; exact Or.inr ha)]

theorem tget?_tdel_same (t : Tab α) (k : Nat) (h : Tab.sorted t = true) : tget? (tdel t k) k = none := by
  rw [sorted_iff] at h
  induction t with
  | nil => rfl
  | cons e r ih =>
    obtain ⟨j, w⟩ := e
    simp only [List.map_cons, List.pairwise_cons] at h
    unfold tdel
    split
    · rename_i g; subst g; exact tget?_none_of_lt r j h.1
    · rename_i g; simp [tget?, g, ih h.2]

/-! ### Byte memory -/

theorem bytesWf_iff (m : Tab Byte) : bytesWf m = true ↔ Tab.sorted m = true ∧ ∀ e ∈ m, e.2 ≠ 0 := by simp [bytesWf]

theorem tset_mem (t : Tab α) (k : Nat) (v : α) {e : Nat × α} (h : e ∈ tset t k v) : e = (k, v) ∨ e ∈ t := by
  induction t with
  | nil => simpa [tset] using h
  | cons f r ih =>
    obtain ⟨j, w⟩ := f
    unfold tset at h
    split at h
    · simpa using h
    · split at h
      · simp at h ⊢; exact h.imp id Or.inr
      · rcases List.mem_cons.1 h with h | h
        · simp [h]
        · rcases ih h with h | h <;> simp [h]

/-- A write of one byte keeps the canonical form. -/
theorem bset_wf (m : Tab Byte) (a : Nat) (b : Byte) (h : bytesWf m = true) : bytesWf (bset m a b) = true := by
  rw [bytesWf_iff] at h ⊢
  unfold bset
  split
  · exact ⟨tdel_sorted m a h.1, fun e he => h.2 e ((tdel_sublist m a).subset he)⟩
  · rename_i g
    refine ⟨tset_sorted m a b h.1, fun e he => ?_⟩
    rcases tset_mem m a b he with rfl | he
    · exact g
    · exact h.2 e he

/-- A run of bytes written keeps the canonical form. -/
theorem bwrite_wf (m : Tab Byte) (a : Nat) (bs : Bytes) (h : bytesWf m = true) : bytesWf (bwrite m a bs) = true := by
  induction bs generalizing m a with
  | nil => exact h
  | cons b bs ih => exact ih _ _ (bset_wf m a b h)

/-- A run of zeros keeps the canonical form. -/
theorem bzero_wf (m : Tab Byte) (a n : Nat) (h : bytesWf m = true) : bytesWf (bzero m a n) = true := by
  rw [bytesWf_iff] at h ⊢
  refine ⟨sublist_sorted List.filter_sublist h.1, fun e he => h.2 e (List.mem_filter.1 he).1⟩

/-- A byte read after it was written. -/
theorem bget_bset_same (m : Tab Byte) (a : Nat) (b : Byte) (h : bytesWf m = true) : bget (bset m a b) a = b := by
  rw [bytesWf_iff] at h
  unfold bset bget tget
  split
  · rename_i g; subst g; rw [tget?_tdel_same m a h.1]; rfl
  · simp

/-- A write leaves every other byte. -/
theorem bget_bset_ne (m : Tab Byte) {a i : Nat} (b : Byte) (n : i ≠ a) : bget (bset m a b) i = bget m i := by
  unfold bset bget tget
  split
  · rw [tget?_tdel_ne m n]
  · rw [tget?_tset_ne m b n]

/-- A run written leaves every byte outside it. -/
theorem bget_bwrite_outside (m : Tab Byte) {a i : Nat} (bs : Bytes) (h : i < a ∨ a + bs.length ≤ i) : bget (bwrite m a bs) i = bget m i := by
  induction bs generalizing m a with
  | nil => rfl
  | cons b bs ih =>
    simp only [List.length_cons] at h
    have hne : i ≠ a := by omega
    simp only [bwrite]
    rw [ih (m := bset m a b) (a := a + 1) (by omega), bget_bset_ne m b hne]

/-- A run read back byte by byte. -/
theorem bget_bwrite_inside (m : Tab Byte) (a k : Nat) (bs : Bytes) (hk : k < bs.length) (h : bytesWf m = true) :
    bget (bwrite m a bs) (a + k) = bs.getD k 0 := by
  induction bs generalizing m a k with
  | nil => simp at hk
  | cons b bs ih =>
    cases k with
    | zero =>
      simp only [bwrite, Nat.add_zero]
      rw [bget_bwrite_outside (bset m a b) bs (Or.inl (Nat.lt_succ_self a)), bget_bset_same m a b h]
      rfl
    | succ k =>
      have e : a + (k + 1) = a + 1 + k := by omega
      simp only [bwrite, e]
      rw [ih (bset m a b) (a + 1) k (by simpa using hk) (bset_wf m a b h)]
      rfl

/-- A run read back whole. -/
theorem bread_bwrite (m : Tab Byte) (a : Nat) (bs : Bytes) (h : bytesWf m = true) : bread (bwrite m a bs) a bs.length = bs := by
  induction bs generalizing m a with
  | nil => rfl
  | cons b bs ih =>
    simp only [List.length_cons, bread, bwrite]
    rw [ih (bset m a b) (a + 1) (bset_wf m a b h), bget_bwrite_outside (bset m a b) bs (Or.inl (Nat.lt_succ_self a)), bget_bset_same m a b h]

/-- A run where nothing is listed reads as zeros. -/
theorem bread_zero (m : Tab Byte) (a n : Nat) (h : ∀ i, a ≤ i → i < a + n → bget m i = 0) : bread m a n = List.replicate n 0 := by
  induction n generalizing a with
  | zero => rfl
  | succ n ih =>
    rw [bread, List.replicate_succ, h a (Nat.le_refl a) (by omega), ih (a + 1) fun i h1 h2 => h i (by omega) (by omega)]

end Sys2Proof.Machine
end

