-- ==== Sys2Proof/Laws/Bounds.lean ====
section
/-! SUPPORT. The bounds of the error queues (R450, R451), under each thing that is done to them. -/
namespace Sys2Proof.Machine

theorem tget?_mem {α : Type} (t : Tab α) (k : Nat) {v : α} (h : tget? t k = some v) : (k, v) ∈ t := by
  induction t with
  | nil => cases h
  | cons e t ih =>
    simp only [tget?] at h
    split at h
    · rename_i hk
      cases h
      exact List.mem_cons.mpr (Or.inl (by cases e; simp_all))
    · exact List.mem_cons_of_mem _ (ih h)

theorem lmod_length {α : Type} (l : List α) (i : Nat) (f : α → α) : (lmod l i f).length = l.length := by
  induction l generalizing i with
  | nil => rfl
  | cons x l ih => cases i <;> simp [lmod, ih]

theorem ldel_length_le {α : Type} (l : List α) (i : Nat) : (ldel l i).length ≤ l.length := by
  induction l generalizing i with
  | nil => exact Nat.le_refl _
  | cons x l ih => cases i with
    | zero => simp [ldel]
    | succ n => have := ih n; simp [ldel]; omega

theorem ldel_length {α : Type} (l : List α) (i : Nat) (h : i < l.length) : (ldel l i).length + 1 = l.length := by
  induction l generalizing i with
  | nil => simp at h
  | cons x l ih => cases i with
    | zero => rfl
    | succ n => have := ih n (by simpa using h); simp [ldel]; omega

theorem evictIdx_lt {sevs : List Nat} {b i : Nat} (h : evictIdx sevs b = some i) : i < sevs.length := by
  unfold evictIdx at h
  dsimp only at h
  split at h
  · have := List.mem_of_getLast? h
    simp only [List.mem_filter, List.mem_range] at this
    exact this.1
  · cases h

theorem Err.bounded_iff (e : Err) : e.bounded = true ↔ e.q.length ≤ 1024 ∧ ∀ u ∈ e.units, u.2.q.length ≤ 64 := by simp [Err.bounded]

theorem Err.bounded_unit {e : Err} (h : e.bounded = true) (k : Nat) : (tget e.units k {}).q.length ≤ 64 := by
  rw [Err.bounded_iff] at h
  unfold tget
  cases hk : tget? e.units k with
  | none => exact Nat.zero_le _
  | some u => exact h.2 _ (tget?_mem e.units k hk)

theorem Err.bounded_q {e f : Err} (hu : f.units = e.units) (hq : e.q.length ≤ 1024 → f.q.length ≤ 1024) (h : e.bounded = true) : f.bounded = true := by
  rw [Err.bounded_iff] at *
  exact ⟨hq h.1, by rw [hu]; exact h.2⟩

theorem Err.bounded_put {e f : Err} {k : Nat} {u : UnitQ} (hu : f.units = tset e.units k u) (hl : e.bounded = true → u.q.length ≤ 64)
    (hq : e.q.length ≤ 1024 → f.q.length ≤ 1024) (h : e.bounded = true) : f.bounded = true := by
  have hl := hl h
  rw [Err.bounded_iff] at *
  refine ⟨hq h.1, fun v hv => ?_⟩
  rw [hu] at hv
  rcases tset_mem _ _ _ hv with rfl | hv
  · exact hl
  · exact h.2 v hv

theorem Err.bounded_empty : ({} : Err).bounded = true := rfl

end Sys2Proof.Machine
end

