-- ==== Sys2Proof/Laws/Dispatch.lean ====
section
/-! SUPPORT. What each command is carried out by, and which parts of the state it may touch: one equation for each arm. -/
namespace Sys2Proof.Machine

theorem exec_powerOn {pins} {s : State} : exec (.powerOn pins) s = execPowerOn pins s := rfl
theorem exec_rampDone {u} {s : State} : exec (.rampDone u) s = execRampDone u s := rfl
theorem exec_imageVerifyDone {s : State} : exec .imageVerifyDone s = execImageVerifyDone s := rfl
theorem exec_pllLockDone {u} {s : State} : exec (.pllLockDone u) s = execPllLockDone u s := rfl
theorem exec_linkTrainingDone {u} {s : State} : exec (.linkTrainingDone u) s = execLinkTrainingDone u s := rfl
theorem exec_startupTestDone {u} {s : State} : exec (.startupTestDone u) s = execStartupTestDone u s := rfl
theorem exec_substitutionDone {s : State} : exec .substitutionDone s = execSubstitutionDone s := rfl
theorem exec_memoryTrainingDone {u} {s : State} : exec (.memoryTrainingDone u) s = execMemoryTrainingDone u s := rfl
theorem exec_qualificationDone {u} {s : State} : exec (.qualificationDone u) s = execQualificationDone u s := rfl
theorem exec_bringupBudgetExpiry {u} {s : State} : exec (.bringupBudgetExpiry u) s = execBringupBudgetExpiry u s := rfl
theorem exec_opticalWaitDone {s : State} : exec .opticalWaitDone s = execOpticalWaitDone s := rfl
theorem exec_packetArrival {p} {s : State} : exec (.packetArrival p) s = execPacketArrival p s := rfl
theorem exec_routeTableLoad {site ver hops} {s : State} : exec (.routeTableLoad site ver hops) s = execRouteTableLoad site ver hops s := rfl
theorem exec_routesReady {slot} {s : State} : exec (.routesReady slot) s = execRoutesReady slot s := rfl
theorem exec_commitWithdraw {slot} {s : State} : exec (.commitWithdraw slot) s = execCommitWithdraw slot s := rfl
theorem exec_routeCommit {s : State} : exec .routeCommit s = execRouteCommit s := rfl
theorem exec_routersEmpty {site} {s : State} : exec (.routersEmpty site) s = execRoutersEmpty site s := rfl
theorem exec_pllStop {site} {s : State} : exec (.pllStop site) s = execPllStop site s := rfl
theorem exec_rillMessage {m got} {s : State} : exec (.rillMessage m got) s = execRillMessage m got s := rfl
theorem exec_slotBoundary {overs} {s : State} : exec (.slotBoundary overs) s = execSlotBoundary overs s := rfl
theorem exec_shadowLatch {s : State} : exec .shadowLatch s = execShadowLatch s := rfl
theorem exec_tideFrame {syms capture} {s : State} : exec (.tideFrame syms capture) s = execTideFrame syms capture s := rfl
theorem exec_tideEdgeLoss {s : State} : exec .tideEdgeLoss s = execTideEdgeLoss s := rfl
theorem exec_frequencyWindow {tidein ticks} {s : State} : exec (.frequencyWindow tidein ticks) s = execFrequencyWindow tidein ticks s := rfl
theorem exec_tideMessageAbsent {s : State} : exec .tideMessageAbsent s = execTideMessageAbsent s := rfl
theorem exec_inputQualified {tidein} {s : State} : exec (.inputQualified tidein) s = execInputQualified tidein s := rfl
theorem exec_acquireTimeout {s : State} : exec .acquireTimeout s = execAcquireTimeout s := rfl
theorem exec_srcSelWrite {x} {s : State} : exec (.srcSelWrite x) s = execSrcSelWrite x s := rfl
theorem exec_srcSelApply {s : State} : exec .srcSelApply s = execSrcSelApply s := rfl
theorem exec_rebaseWrite {x} {s : State} : exec (.rebaseWrite x) s = execRebaseWrite x s := rfl
theorem exec_rebaseApply {s : State} : exec .rebaseApply s = execRebaseApply s := rfl
theorem exec_countAdopt {s : State} : exec .countAdopt s = execCountAdopt s := rfl
theorem exec_slotMarkerSend {s : State} : exec .slotMarkerSend s = execSlotMarkerSend s := rfl
theorem exec_slotMarker {ep slot len} {s : State} : exec (.slotMarker ep slot len) s = execSlotMarker ep slot len s := rfl
theorem exec_pllLockLoss {site} {s : State} : exec (.pllLockLoss site) s = execPllLockLoss site s := rfl
theorem exec_dieReenable {site} {s : State} : exec (.dieReenable site) s = execDieReenable site s := rfl
theorem exec_dieRelockDone {site} {s : State} : exec (.dieRelockDone site) s = execDieRelockDone site s := rfl
theorem exec_dieRelockMiss {site} {s : State} : exec (.dieRelockMiss site) s = execDieRelockMiss site s := rfl
theorem exec_ldn {l th rt rb sz sxb off e} {s : State} : exec (.ldn l th rt rb sz sxb off e) s = execLdn l th rt rb sz sxb off e s := rfl
theorem exec_stn {l th rt rb sz off e} {s : State} : exec (.stn l th rt rb sz off e) s = execStn l th rt rb sz off e s := rfl
theorem exec_vld {l th vt rb rel off e} {s : State} : exec (.vld l th vt rb rel off e) s = execVld l th vt rb rel off e s := rfl
theorem exec_vst {l th vt rb off e} {s : State} : exec (.vst l th vt rb off e) s = execVst l th vt rb off e s := rfl
theorem exec_fetch {l th ra rl len cnt e} {s : State} : exec (.fetch l th ra rl len cnt e) s = execFetch l th ra rl len cnt e s := rfl
theorem exec_send {l th ra rl len cnt rel e} {s : State} : exec (.send l th ra rl len cnt rel e) s = execSend l th ra rl len cnt rel e s := rfl
theorem exec_ldx {l th rt ra e} {s : State} : exec (.ldx l th rt ra e) s = execLdx l th rt ra e s := rfl
theorem exec_twait {l th rs n slot e} {s : State} : exec (.twait l th rs n slot e) s = execTwait l th rs n slot e s := rfl
theorem exec_twaite {l th rs n slot e} {s : State} : exec (.twaite l th rs n slot e) s = execTwaite l th rs n slot e s := rfl
theorem exec_tfull {l th rs rc n slot e} {s : State} : exec (.tfull l th rs rc n slot e) s = execTfull l th rs rc n slot e s := rfl
theorem exec_trel {l th rs n slot e} {s : State} : exec (.trel l th rs n slot e) s = execTrel l th rs n slot e s := rfl
theorem exec_tpin {l th rs n slot e} {s : State} : exec (.tpin l th rs n slot e) s = execTpin l th rs n slot e s := rfl
theorem exec_tunpin {l th rs n slot e} {s : State} : exec (.tunpin l th rs n slot e) s = execTunpin l th rs n slot e s := rfl
theorem exec_tstat {l th rs rc n slot e} {s : State} : exec (.tstat l th rs rc n slot e) s = execTstat l th rs rc n slot e s := rfl
theorem exec_amm {l th ra rb rk fmt acc bank relA relB e} {s : State} : exec (.amm l th ra rb rk fmt acc bank relA relB e) s = execAmm l th ra rb rk fmt acc bank relA relB e s := rfl
theorem exec_aout {l th rd rc ofmt pub bank e} {s : State} : exec (.aout l th rd rc ofmt pub bank e) s = execAout l th rd rc ofmt pub bank e s := rfl
theorem exec_trail {l th n e} {s : State} : exec (.trail l th n e) s = execTrail l th n e s := rfl
theorem exec_halt {l th e} {s : State} : exec (.halt l th e) s = execHalt l th e s := rfl
theorem exec_vectorArith {l th op half vd va vb vc e} {s : State} : exec (.vectorArith l th op half vd va vb vc e) s = execVectorArith l th op half vd va vb vc e s := rfl
theorem exec_vectorConvert {l th cv sr vd va e} {s : State} : exec (.vectorConvert l th cv sr vd va e) s = execVectorConvert l th cv sr vd va e s := rfl
theorem exec_branch {l th taken target e} {s : State} : exec (.branch l th taken target e) s = execBranch l th taken target e s := rfl
theorem exec_integerOp {l th op rt ra rb imm e} {s : State} : exec (.integerOp l th op rt ra rb imm e) s = execIntegerOp l th op rt ra rb imm e s := rfl
theorem exec_accessWake {l w e} {s : State} : exec (.accessWake l w e) s = execAccessWake l w e s := rfl
theorem exec_waitLimit {w} {s : State} : exec (.waitLimit w) s = execWaitLimit w s := rfl
theorem exec_fillArrival {m l alter} {s : State} : exec (.fillArrival m l alter) s = execFillArrival m l alter s := rfl
theorem exec_eccWriteback {l} {s : State} : exec (.eccWriteback l) s = execEccWriteback l s := rfl
theorem exec_ldxReturn {m} {s : State} : exec (.ldxReturn m) s = execLdxReturn m s := rfl
theorem exec_remoteReadServe {m e} {s : State} : exec (.remoteReadServe m e) s = execRemoteReadServe m e s := rfl
theorem exec_remoteRefusal {m} {s : State} : exec (.remoteRefusal m) s = execRemoteRefusal m s := rfl
theorem exec_sendDeliver {m e} {s : State} : exec (.sendDeliver m e) s = execSendDeliver m e s := rfl
theorem exec_sendDone {l op} {s : State} : exec (.sendDone l op) s = execSendDone l op s := rfl
theorem exec_scrubCommand {l slots owner} {s : State} : exec (.scrubCommand l slots owner) s = execScrubCommand l slots owner s := rfl
theorem exec_cellKill {l c} {s : State} : exec (.cellKill l c) s = execCellKill l c s := rfl
theorem exec_scrubDone {l} {s : State} : exec (.scrubDone l) s = execScrubDone l s := rfl
theorem exec_patrolRead {l e} {s : State} : exec (.patrolRead l e) s = execPatrolRead l e s := rfl
theorem exec_slotSelection {cl slot picks ps} {s : State} : exec (.slotSelection cl slot picks ps) s = execSlotSelection cl slot picks ps s := rfl
theorem exec_slotProgramStart {l} {s : State} : exec (.slotProgramStart l) s = execSlotProgramStart l s := rfl
theorem exec_ammStreamStart {l at_ e} {s : State} : exec (.ammStreamStart l at_ e) s = execAmmStreamStart l at_ e s := rfl
theorem exec_bankReady {l bank} {s : State} : exec (.bankReady l bank) s = execBankReady l bank s := rfl
theorem exec_aoutWrite {l} {s : State} : exec (.aoutWrite l) s = execAoutWrite l s := rfl
theorem exec_chkRecord {u ctx prof append last close data} {s : State} : exec (.chkRecord u ctx prof append last close data) s = execChkRecord u ctx prof append last close data s := rfl
theorem exec_chkSliceSave {u save} {s : State} : exec (.chkSliceSave u save) s = execChkSliceSave u save s := rfl
theorem exec_chkSliceRestore {u ctx save} {s : State} : exec (.chkSliceRestore u ctx save) s = execChkSliceRestore u ctx save s := rfl
theorem exec_profileValidate {x} {s : State} : exec (.profileValidate x) s = execProfileValidate x s := rfl
theorem exec_unitRunApply {x} {s : State} : exec (.unitRunApply x) s = execUnitRunApply x s := rfl
theorem exec_passRecord {e rec} {s : State} : exec (.passRecord e rec) s = execPassRecord e rec s := rfl
theorem exec_passOwnerScrub {e pass} {s : State} : exec (.passOwnerScrub e pass) s = execPassOwnerScrub e pass s := rfl
theorem exec_passStart {e pass} {s : State} : exec (.passStart e pass) s = execPassStart e pass s := rfl
theorem exec_sourceReadIssue {e pass src} {s : State} : exec (.sourceReadIssue e pass src) s = execSourceReadIssue e pass src s := rfl
theorem exec_mergeWindowClose {e m} {s : State} : exec (.mergeWindowClose e m) s = execMergeWindowClose e m s := rfl
theorem exec_sourceReadReturn {e pass src alter ecc} {s : State} : exec (.sourceReadReturn e pass src alter ecc) s = execSourceReadReturn e pass src alter ecc s := rfl
theorem exec_deliveryIssue {e pass out k} {s : State} : exec (.deliveryIssue e pass out k) s = execDeliveryIssue e pass out k s := rfl
theorem exec_epochProbeAnswer {e pass out k} {s : State} : exec (.epochProbeAnswer e pass out k) s = execEpochProbeAnswer e pass out k s := rfl
theorem exec_landingAck {e did} {s : State} : exec (.landingAck e did) s = execLandingAck e did s := rfl
theorem exec_passEnd {e pass} {s : State} : exec (.passEnd e pass) s = execPassEnd e pass s := rfl
theorem exec_epochWriteReport {e page} {s : State} : exec (.epochWriteReport e page) s = execEpochWriteReport e page s := rfl
theorem exec_prefetchAged {e pass src} {s : State} : exec (.prefetchAged e pass src) s = execPrefetchAged e pass src s := rfl
theorem exec_refetchRequest {e m} {s : State} : exec (.refetchRequest e m) s = execRefetchRequest e m s := rfl
theorem exec_memRequest {q} {s : State} : exec (.memRequest q) s = execMemRequest q s := rfl
theorem exec_memSlotGrant {stk} {s : State} : exec (.memSlotGrant stk) s = execMemSlotGrant stk s := rfl
theorem exec_memAccessServe {stk bank es} {s : State} : exec (.memAccessServe stk bank es) s = execMemAccessServe stk bank es s := rfl
theorem exec_rowRetireDone {stk row ppr} {s : State} : exec (.rowRetireDone stk row ppr) s = execRowRetireDone stk row ppr s := rfl
theorem exec_ageCapReached {stk id} {s : State} : exec (.ageCapReached stk id) s = execAgeCapReached stk id s := rfl
theorem exec_memPatrol {stk e} {s : State} : exec (.memPatrol stk e) s = execMemPatrol stk e s := rfl
theorem exec_bankRefresh {stk bank} {s : State} : exec (.bankRefresh stk bank) s = execBankRefresh stk bank s := rfl
theorem exec_rfmIssue {stk bank} {s : State} : exec (.rfmIssue stk bank) s = execRfmIssue stk bank s := rfl
theorem exec_concWindowEnd {stk} {s : State} : exec (.concWindowEnd stk) s = execConcWindowEnd stk s := rfl
theorem exec_smBatchIssue {stk bank} {s : State} : exec (.smBatchIssue stk bank) s = execSmBatchIssue stk bank s := rfl
theorem exec_retrainRequest {x} {s : State} : exec (.retrainRequest x) s = execRetrainRequest x s := rfl
theorem exec_retrainStart {stk} {s : State} : exec (.retrainStart stk) s = execRetrainStart stk s := rfl
theorem exec_retrainDone {stk ok} {s : State} : exec (.retrainDone stk ok) s = execRetrainDone stk ok s := rfl
theorem exec_windowValidate {x} {s : State} : exec (.windowValidate x) s = execWindowValidate x s := rfl
theorem exec_windowClose {w} {s : State} : exec (.windowClose w) s = execWindowClose w s := rfl
theorem exec_exportValidate {x} {s : State} : exec (.exportValidate x) s = execExportValidate x s := rfl
theorem exec_rsvRequestIssue {agent i} {s : State} : exec (.rsvRequestIssue agent i) s = execRsvRequestIssue agent i s := rfl
theorem exec_read {e i ecc} {s : State} : exec (.read e i ecc) s = execRead e i ecc s := rfl
theorem exec_readData {e i} {s : State} : exec (.readData e i) s = execReadData e i s := rfl
theorem exec_write {e i} {s : State} : exec (.write e i) s = execWrite e i s := rfl
theorem exec_writeAck {e i} {s : State} : exec (.writeAck e i) s = execWriteAck e i s := rfl
theorem exec_flush {e i} {s : State} : exec (.flush e i) s = execFlush e i s := rfl
theorem exec_flushAck {e i} {s : State} : exec (.flushAck e i) s = execFlushAck e i s := rfl
theorem exec_query {e i} {s : State} : exec (.query e i) s = execQuery e i s := rfl
theorem exec_queryData {e i} {s : State} : exec (.queryData e i) s = execQueryData e i s := rfl
theorem exec_abort {e i} {s : State} : exec (.abort e i) s = execAbort e i s := rfl
theorem exec_rsvTimeout {agent slot} {s : State} : exec (.rsvTimeout agent slot) s = execRsvTimeout agent slot s := rfl
theorem exec_rsvBusyRetry {agent slot} {s : State} : exec (.rsvBusyRetry agent slot) s = execRsvBusyRetry agent slot s := rfl
theorem exec_cxlIoCompletion {agent slot ok data} {s : State} : exec (.cxlIoCompletion agent slot ok data) s = execCxlIoCompletion agent slot ok data s := rfl
theorem exec_sweepStart {ctx} {s : State} : exec (.sweepStart ctx) s = execSweepStart ctx s := rfl
theorem exec_granuleProcess {e ctx g flaky fix ecc} {s : State} : exec (.granuleProcess e ctx g flaky fix ecc) s = execGranuleProcess e ctx g flaky fix ecc s := rfl
theorem exec_sweepComplete {e ctx} {s : State} : exec (.sweepComplete e ctx) s = execSweepComplete e ctx s := rfl
theorem exec_shardNotice {e i} {s : State} : exec (.shardNotice e i) s = execShardNotice e i s := rfl
theorem exec_shardFetchTile {ctx id k} {s : State} : exec (.shardFetchTile ctx id k) s = execShardFetchTile ctx id k s := rfl
theorem exec_shardFetchVerify {ctx id k} {s : State} : exec (.shardFetchVerify ctx id k) s = execShardFetchVerify ctx id k s := rfl
theorem exec_auditStart {e fix} {s : State} : exec (.auditStart e fix) s = execAuditStart e fix s := rfl
theorem exec_auditReport {ctx id k digest} {s : State} : exec (.auditReport ctx id k digest) s = execAuditReport ctx id k digest s := rfl
theorem exec_streamBufferSpace {ctx} {s : State} : exec (.streamBufferSpace ctx) s = execStreamBufferSpace ctx s := rfl
theorem exec_streamStallLimit {e ctx} {s : State} : exec (.streamStallLimit e ctx) s = execStreamStallLimit e ctx s := rfl
theorem exec_streamExport {ctx} {s : State} : exec (.streamExport ctx) s = execStreamExport ctx s := rfl
theorem exec_windowRecord {e rec} {s : State} : exec (.windowRecord e rec) s = execWindowRecord e rec s := rfl
theorem exec_contribSendArrival {a} {s : State} : exec (.contribSendArrival a) s = execContribSendArrival a s := rfl
theorem exec_contrib {e i} {s : State} : exec (.contrib e i) s = execContrib e i s := rfl
theorem exec_contribAccept {e hit ecc} {s : State} : exec (.contribAccept e hit ecc) s = execContribAccept e hit ecc s := rfl
theorem exec_sendByBoundary {e ctx step} {s : State} : exec (.sendByBoundary e ctx step) s = execSendByBoundary e ctx step s := rfl
theorem exec_windowDeadline {e ctx step} {s : State} : exec (.windowDeadline e ctx step) s = execWindowDeadline e ctx step s := rfl
theorem exec_health {b} {s : State} : exec (.health b) s = execHealth b s := rfl
theorem exec_outcomeReport {ctx step node eng ok} {s : State} : exec (.outcomeReport ctx step node eng ok) s = execOutcomeReport ctx step node eng ok s := rfl
theorem exec_leadFanout {ctx step} {s : State} : exec (.leadFanout ctx step) s = execLeadFanout ctx step s := rfl
theorem exec_reportTimeout {ctx step} {s : State} : exec (.reportTimeout ctx step) s = execReportTimeout ctx step s := rfl
theorem exec_verdictTimeout {ctx step} {s : State} : exec (.verdictTimeout ctx step) s = execVerdictTimeout ctx step s := rfl
theorem exec_sweepNaming {ctx} {s : State} : exec (.sweepNaming ctx) s = execSweepNaming ctx s := rfl
theorem exec_divergenceNotice {ctx} {s : State} : exec (.divergenceNotice ctx) s = execDivergenceNotice ctx s := rfl
theorem exec_replan {ctx a} {s : State} : exec (.replan ctx a) s = execReplan ctx a s := rfl
theorem exec_move {ctx} {s : State} : exec (.move ctx) s = execMove ctx s := rfl
theorem exec_moveCopyDone {ctx} {s : State} : exec (.moveCopyDone ctx) s = execMoveCopyDone ctx s := rfl
theorem exec_switchoffNotice {s : State} : exec .switchoffNotice s = execSwitchoffNotice s := rfl
theorem exec_migrateLimit {site} {s : State} : exec (.migrateLimit site) s = execMigrateLimit site s := rfl
theorem exec_freeze {s : State} : exec .freeze s = execFreeze s := rfl
theorem exec_freezeStop {site} {s : State} : exec (.freezeStop site) s = execFreezeStop site s := rfl
theorem exec_drainDone {site plans} {s : State} : exec (.drainDone site plans) s = execDrainDone site plans s := rfl
theorem exec_reskewStart {ctx tensor src dst bytes} {s : State} : exec (.reskewStart ctx tensor src dst bytes) s = execReskewStart ctx tensor src dst bytes s := rfl
theorem exec_reskewDone {ctx} {s : State} : exec (.reskewDone ctx) s = execReskewDone ctx s := rfl
theorem exec_doorbellSnoop {j line} {s : State} : exec (.doorbellSnoop j line) s = execDoorbellSnoop j line s := rfl
theorem exec_doorbellPoll {area} {s : State} : exec (.doorbellPoll area) s = execDoorbellPoll area s := rfl
theorem exec_descriptorFetchDone {q data} {s : State} : exec (.descriptorFetchDone q data) s = execDescriptorFetchDone q data s := rfl
theorem exec_descriptorFetchTimeout {q} {s : State} : exec (.descriptorFetchTimeout q) s = execDescriptorFetchTimeout q s := rfl
theorem exec_admitCtx {q} {s : State} : exec (.admitCtx q) s = execAdmit q s := rfl
theorem exec_admitComplete {ctx a} {s : State} : exec (.admitComplete ctx a) s = execAdmitComplete ctx a s := rfl
theorem exec_step {q} {s : State} : exec (.step q) s = execStep q s := rfl
theorem exec_batchReadDone {ctx step data} {s : State} : exec (.batchReadDone ctx step data) s = execBatchReadDone ctx step data s := rfl
theorem exec_copy {q} {s : State} : exec (.copy q) s = execCopy q s := rfl
theorem exec_copyComplete {ctx data} {s : State} : exec (.copyComplete ctx data) s = execCopyComplete ctx data s := rfl
theorem exec_resume {q a} {s : State} : exec (.resume q a) s = execResume q a s := rfl
theorem exec_kill {q} {s : State} : exec (.kill q) s = execKill q s := rfl
theorem exec_debugRead {q} {s : State} : exec (.debugRead q) s = execDebugRead q s := rfl
theorem exec_completionWrite {q} {s : State} : exec (.completionWrite q) s = execCompletionWrite q s := rfl
theorem exec_completionWriteTimeout {q} {s : State} : exec (.completionWriteTimeout q) s = execCompletionWriteTimeout q s := rfl
theorem exec_irqCoalesceTimer {q} {s : State} : exec (.irqCoalesceTimer q) s = execIrqCoalesceTimer q s := rfl
theorem exec_roundStart {ctx} {s : State} : exec (.roundStart ctx) s = execRoundStart ctx s := rfl
theorem exec_stepStart {ctx} {s : State} : exec (.stepStart ctx) s = execStepStart ctx s := rfl
theorem exec_backwardEnd {ctx} {s : State} : exec (.backwardEnd ctx) s = execBackwardEnd ctx s := rfl
theorem exec_stepComplete {ctx} {s : State} : exec (.stepComplete ctx) s = execStepComplete ctx s := rfl
theorem exec_rollback {ctx} {s : State} : exec (.rollback ctx) s = execRollback ctx s := rfl
theorem exec_killBoundary {ctx} {s : State} : exec (.killBoundary ctx) s = execKillBoundary ctx s := rfl
theorem exec_killComplete {ctx} {s : State} : exec (.killComplete ctx) s = execKillComplete ctx s := rfl
theorem exec_streamControlUpdate {ctx consumed} {s : State} : exec (.streamControlUpdate ctx consumed) s = execStreamControlUpdate ctx consumed s := rfl
theorem exec_queuePairEnable {x} {s : State} : exec (.queuePairEnable x) s = execQueuePairEnable x s := rfl
theorem exec_queuePairDisable {x} {s : State} : exec (.queuePairDisable x) s = execQueuePairDisable x s := rfl
theorem exec_portReturn {s : State} : exec .portReturn s = execPortReturn s := rfl
theorem exec_flr {s : State} : exec .flr s = execFlr s := rfl
theorem exec_perst {s : State} : exec .perst s = execPerst s := rfl
theorem exec_d3hotEntry {s : State} : exec .d3hotEntry s = execD3hotEntry s := rfl
theorem exec_d0Return {s : State} : exec .d0Return s = execD0Return s := rfl
theorem exec_linkUp {rate width lopt cxl} {s : State} : exec (.linkUp rate width lopt cxl) s = execLinkUp rate width lopt cxl s := rfl
theorem exec_linkRetrain {x} {s : State} : exec (.linkRetrain x) s = execLinkRetrain x s := rfl
theorem exec_hostMemRead {tag addr grant} {s : State} : exec (.hostMemRead tag addr grant) s = execHostMemRead tag addr grant s := rfl
theorem exec_hostMemWrite {tag addr off data} {s : State} : exec (.hostMemWrite tag addr off data) s = execHostMemWrite tag addr off data s := rfl
theorem exec_bisnpResponse {line dirty} {s : State} : exec (.bisnpResponse line dirty) s = execBisnpResponse line dirty s := rfl
theorem exec_biTimeout {line} {s : State} : exec (.biTimeout line) s = execBiTimeout line s := rfl
theorem exec_hostSnoop {kind line} {s : State} : exec (.hostSnoop kind line) s = execHostSnoop kind line s := rfl
theorem exec_hdmCommit {commit base size ways} {s : State} : exec (.hdmCommit commit base size ways) s = execHdmCommit commit base size ways s := rfl
theorem exec_doeRequest {vendor typ obj} {s : State} : exec (.doeRequest vendor typ obj) s = execDoeRequest vendor typ obj s := rfl
theorem exec_doeTimeout {s : State} : exec .doeTimeout s = execDoeTimeout s := rfl
theorem exec_claim {x} {s : State} : exec (.claim x) s = execClaim x s := rfl
theorem exec_renew {x} {s : State} : exec (.renew x) s = execRenew x s := rfl
theorem exec_handover {x} {s : State} : exec (.handover x) s = execHandover x s := rfl
theorem exec_release {x} {s : State} : exec (.release x) s = execRelease x s := rfl
theorem exec_ownershipQuery {x} {s : State} : exec (.ownershipQuery x) s = execOwnershipQuery x s := rfl
theorem exec_electionClose {s : State} : exec .electionClose s = execElectionClose s := rfl
theorem exec_leaseExpiry {s : State} : exec .leaseExpiry s = execLeaseExpiry s := rfl
theorem exec_mctpAssemblyTimeout {s : State} : exec .mctpAssemblyTimeout s = execMctpAssemblyTimeout s := rfl
theorem exec_flitReceive {e l f} {s : State} : exec (.flitReceive e l f) s = execFlitReceive e l f s := rfl
theorem exec_replayTimeout {e l} {s : State} : exec (.replayTimeout e l) s = execReplayTimeout e l s := rfl
theorem exec_openStream {e i} {s : State} : exec (.openStream e i) s = execOpen e i s := rfl
theorem exec_grant {e i} {s : State} : exec (.grant e i) s = execGrant e i s := rfl
theorem exec_openRetry {e k} {s : State} : exec (.openRetry e k) s = execOpenRetry e k s := rfl
theorem exec_credit {e i} {s : State} : exec (.credit e i) s = execCredit e i s := rfl
theorem exec_creditReturnTimer {e} {s : State} : exec (.creditReturnTimer e) s = execCreditReturnTimer e s := rfl
theorem exec_close {e i} {s : State} : exec (.close e i) s = execClose e i s := rfl
theorem exec_regRead {x} {s : State} : exec (.regRead x) s = execRegRead x s := rfl
theorem exec_regWrite {x} {s : State} : exec (.regWrite x) s = execRegWrite x s := rfl
theorem exec_laneClose {e l last} {s : State} : exec (.laneClose e l last) s = execLaneClose e l last s := rfl
theorem exec_linkHoldExpiry {e} {s : State} : exec (.linkHoldExpiry e) s = execLinkHoldExpiry e s := rfl
theorem exec_laneEnable {e l} {s : State} : exec (.laneEnable e l) s = execLaneEnable e l s := rfl
theorem exec_laneWaitExpiry {e l} {s : State} : exec (.laneWaitExpiry e l) s = execLaneWaitExpiry e l s := rfl
theorem exec_detectDone {e l rx} {s : State} : exec (.detectDone e l rx) s = execDetectDone e l rx s := rfl
theorem exec_trainDone {e l} {s : State} : exec (.trainDone e l) s = execTrainDone e l s := rfl
theorem exec_rangeProbe {e l probe turnaround} {s : State} : exec (.rangeProbe e l probe turnaround) s = execRangeProbe e l probe turnaround s := rfl
theorem exec_rangeDone {e l rtt turn maxTurn answered ptx prx} {s : State} : exec (.rangeDone e l rtt turn maxTurn answered ptx prx) s = execRangeDone e l rtt turn maxTurn answered ptx prx s := rfl
theorem exec_capsDone {e l rec_} {s : State} : exec (.capsDone e l rec_) s = execCapsDone e l rec_ s := rfl
theorem exec_qualifyDone {e l corrected uncorrectable rxMin rxMax remoteOk} {s : State} : exec (.qualifyDone e l corrected uncorrectable rxMin rxMax remoteOk) s = execQualifyDone e l corrected uncorrectable rxMin rxMax remoteOk s := rfl
theorem exec_laneBudgetExpiry {e l} {s : State} : exec (.laneBudgetExpiry e l) s = execLaneBudgetExpiry e l s := rfl
theorem exec_laneMonitor {e l corrected uncorrectable rx tx dark} {s : State} : exec (.laneMonitor e l corrected uncorrectable rx tx dark) s = execLaneMonitor e l corrected uncorrectable rx tx dark s := rfl
theorem exec_recal {x} {s : State} : exec (.recal x) s = execRecal x s := rfl
theorem exec_laneDownHold {x} {s : State} : exec (.laneDownHold x) s = execLaneDownHold x s := rfl
theorem exec_tideFlitSend {s : State} : exec .tideFlitSend s = execTideFlitSend s := rfl
theorem exec_tideFlitReceive {e l flit stamp} {s : State} : exec (.tideFlitReceive e l flit stamp) s = execTideFlitReceive e l flit stamp s := rfl
theorem exec_bootcfgCommit {x} {s : State} : exec (.bootcfgCommit x) s = execBootcfgCommit x s := rfl
theorem exec_holeMapDurable {ok} {s : State} : exec (.holeMapDurable ok) s = execHoleMapDurable ok s := rfl
theorem exec_sliceStart {cl} {s : State} : exec (.sliceStart cl) s = execSliceStart cl s := rfl
theorem exec_sliceSaveDone {cl} {s : State} : exec (.sliceSaveDone cl) s = execSliceSaveDone cl s := rfl
theorem exec_sliceTestDone {cl bad} {s : State} : exec (.sliceTestDone cl bad) s = execSliceTestDone cl bad s := rfl
theorem exec_sliceRestoreDone {cl} {s : State} : exec (.sliceRestoreDone cl) s = execSliceRestoreDone cl s := rfl
theorem exec_sliceRelease {cl} {s : State} : exec (.sliceRelease cl) s = execSliceRelease cl s := rfl
theorem exec_sliceAbandon {cl} {s : State} : exec (.sliceAbandon cl) s = execSliceAbandon cl s := rfl
theorem exec_coverTimeout {s : State} : exec .coverTimeout s = execCoverTimeout s := rfl
theorem exec_dieTestRequest {x} {s : State} : exec (.dieTestRequest x) s = execDieTestRequest x s := rfl
theorem exec_dieTestDone {site u} {s : State} : exec (.dieTestDone site u) s = execDieTestDone site u s := rfl
theorem exec_recoverRequest {x} {s : State} : exec (.recoverRequest x) s = execRecoverRequest x s := rfl
theorem exec_recoveryStepEnd {reach ok u} {s : State} : exec (.recoveryStepEnd reach ok u) s = execRecoveryStepEnd reach ok u s := rfl
theorem exec_recoveryBudgetExpiry {reach} {s : State} : exec (.recoveryBudgetExpiry reach) s = execRecoveryBudgetExpiry reach s := rfl
theorem exec_objectInstall {x} {s : State} : exec (.objectInstall x) s = execObjectInstall x s := rfl
theorem exec_objectVerifyDone {stored} {s : State} : exec (.objectVerifyDone stored) s = execObjectVerifyDone stored s := rfl
theorem exec_imageActivate {sub} {s : State} : exec (.imageActivate sub) s = execImageActivate sub s := rfl
theorem exec_imageRunning {sub} {s : State} : exec (.imageRunning sub) s = execImageRunning sub s := rfl
theorem exec_imageStartTimeout {sub} {s : State} : exec (.imageStartTimeout sub) s = execImageStartTimeout sub s := rfl
theorem exec_licenceEffect {s : State} : exec .licenceEffect s = execLicenceEffect s := rfl
theorem exec_rekeyStart {x} {s : State} : exec (.rekeyStart x) s = execRekeyStart x s := rfl
theorem exec_rekeyTreeDone {bad} {s : State} : exec (.rekeyTreeDone bad) s = execRekeyTreeDone bad s := rfl
theorem exec_attestSigned {bad} {s : State} : exec (.attestSigned bad) s = execAttestSigned bad s := rfl
theorem exec_attestUnsigned {s : State} : exec .attestUnsigned s = execAttestUnsigned s := rfl
theorem exec_rekeyRequestRead {s : State} : exec .rekeyRequestRead s = execRekeyRequestRead s := rfl
theorem exec_scanEntry {s : State} : exec .scanEntry s = execScanEntry s := rfl
theorem exec_clearDone {s : State} : exec .clearDone s = execClearDone s := rfl
theorem exec_recoveryLoaderObject {obj stored} {s : State} : exec (.recoveryLoaderObject obj stored) s = execRecoveryLoaderObject obj stored s := rfl
theorem exec_powerSequenceStart {s : State} : exec .powerSequenceStart s = execPowerSequenceStart s := rfl
theorem exec_coolantWaitTimeout {s : State} : exec .coolantWaitTimeout s = execCoolantWaitTimeout s := rfl
theorem exec_sensorSample {k v} {s : State} : exec (.sensorSample k v) s = execSensorSample k v s := rfl
theorem exec_sensorTimeout {k} {s : State} : exec (.sensorTimeout k) s = execSensorTimeout k s := rfl
theorem exec_undervoltage {deep} {s : State} : exec (.undervoltage deep) s = execUndervoltage deep s := rfl
theorem exec_overvoltage {s : State} : exec .overvoltage s = execOvervoltage s := rfl
theorem exec_overcurrent {hard} {s : State} : exec (.overcurrent hard) s = execOvercurrent hard s := rfl
theorem exec_throttleRaise {s : State} : exec .throttleRaise s = execThrottleRaise s := rfl
theorem exec_throttleLower {s : State} : exec .throttleLower s = execThrottleLower s := rfl
theorem exec_heatLevelRise {region} {s : State} : exec (.heatLevelRise region) s = execHeatLevelRise region s := rfl
theorem exec_heatLevelFall {region} {s : State} : exec (.heatLevelFall region) s = execHeatLevelFall region s := rfl
theorem exec_heatTrip {region} {s : State} : exec (.heatTrip region) s = execHeatTrip region s := rfl
theorem exec_coolantCondition {row} {s : State} : exec (.coolantCondition row) s = execCoolantCondition row s := rfl
theorem exec_stackOverheat {stk} {s : State} : exec (.stackOverheat stk) s = execStackOverheat stk s := rfl
theorem exec_stackCooldown {stk} {s : State} : exec (.stackCooldown stk) s = execStackCooldown stk s := rfl
theorem exec_regionFault {region value} {s : State} : exec (.regionFault region value) s = execRegionFault region value s := rfl
theorem exec_switchoffRequest {x} {s : State} : exec (.switchoffRequest x) s = execSwitchoffRequest x s := rfl
theorem exec_heatReenable {site slot} {s : State} : exec (.heatReenable site slot) s = execHeatReenable site slot s := rfl
theorem exec_regionOnRequest {x} {s : State} : exec (.regionOnRequest x) s = execRegionOnRequest x s := rfl
theorem exec_shutdown {x} {s : State} : exec (.shutdown x) s = execShutdown x s := rfl
theorem exec_shutdownComplete {s : State} : exec .shutdownComplete s = execShutdownComplete s := rfl
theorem exec_busbarLoss {s : State} : exec .busbarLoss s = execBusbarLoss s := rfl
theorem exec_errorRaise {unit block cls sev ctx transient loc0 loc1 detail} {s : State} : exec (.errorRaise unit block cls sev ctx transient loc0 loc1 detail) s = execErrorRaise unit block cls sev ctx transient loc0 loc1 detail s := rfl
theorem exec_errorForward {unit} {s : State} : exec (.errorForward unit) s = execErrorForward unit s := rfl
theorem exec_errorDeliver {s : State} : exec .errorDeliver s = execErrorDeliver s := rfl
theorem exec_errorAck {x} {s : State} : exec (.errorAck x) s = execErrorAck x s := rfl
theorem exec_ringEnable {x} {s : State} : exec (.ringEnable x) s = execRingEnable x s := rfl
theorem exec_errorRecordQuery {body} {s : State} : exec (.errorRecordQuery body) s = execErrorRecordQuery body s := rfl
theorem exec_telDump {x} {s : State} : exec (.telDump x) s = execTelDump x s := rfl
theorem exec_telDumpDone {s : State} : exec .telDumpDone s = execTelDumpDone s := rfl
theorem exec_countReadLatch {x} {s : State} : exec (.countReadLatch x) s = execCountReadLatch x s := rfl
theorem exec_telValueRead {x} {s : State} : exec (.telValueRead x) s = execTelValueRead x s := rfl
theorem exec_registerWrite {x} {s : State} : exec (.registerWrite x) s = execRegisterWrite x s := rfl
theorem exec_cxlIoCompletionTimeout {agent slot} {s : State} : exec (.cxlIoCompletionTimeout agent slot) s = execCxlIoCompletionTimeout agent slot s := rfl
theorem exec_batchReadTimeout {ctx step} {s : State} : exec (.batchReadTimeout ctx step) s = execBatchReadTimeout ctx step s := rfl
theorem exec_perstRelease {s : State} : exec .perstRelease s = execPerstRelease s := rfl

theorem touches_powerOn {pins} : touches (.powerOn pins) = [.out, .free, .err, .tel, .regs, .net, .tide, .fly, .cells, .chk, .ctxs, .slc, .frs, .mem, .rsv, .csn, .est, .edy, .wsh, .hst, .own, .bst, .hdw, .lev] := rfl
theorem touches_rampDone {u} : touches (.rampDone u) = [.out, .free, .full, .err, .tel, .regs, .net, .tide, .fly, .cells, .chk, .ctxs, .slc, .frs, .mem, .rsv, .csn, .est, .edy, .wsh, .hst, .bst, .hdw, .lev] := rfl
theorem touches_imageVerifyDone : touches .imageVerifyDone = [.out, .free, .full, .err, .tel, .regs, .net, .tide, .fly, .cells, .chk, .ctxs, .slc, .frs, .mem, .rsv, .csn, .est, .edy, .wsh, .hst, .bst, .hdw, .lev] := rfl
theorem touches_pllLockDone {u} : touches (.pllLockDone u) = [.out, .free, .full, .err, .tel, .regs, .net, .tide, .fly, .cells, .chk, .ctxs, .slc, .frs, .mem, .rsv, .csn, .est, .edy, .wsh, .hst, .bst, .hdw, .lev] := rfl
theorem touches_linkTrainingDone {u} : touches (.linkTrainingDone u) = [.out, .free, .full, .err, .tel, .regs, .net, .tide, .fly, .cells, .chk, .ctxs, .slc, .frs, .mem, .rsv, .csn, .est, .edy, .wsh, .hst, .bst, .hdw, .lev] := rfl
theorem touches_startupTestDone {u} : touches (.startupTestDone u) = [.out, .free, .full, .err, .tel, .regs, .net, .tide, .fly, .cells, .chk, .ctxs, .slc, .frs, .mem, .rsv, .csn, .est, .edy, .wsh, .hst, .bst, .hdw, .lev] := rfl
theorem touches_substitutionDone : touches .substitutionDone = [.out, .free, .full, .err, .tel, .regs, .net, .tide, .fly, .cells, .chk, .ctxs, .slc, .frs, .mem, .rsv, .csn, .est, .edy, .wsh, .hst, .bst, .hdw, .lev] := rfl
theorem touches_memoryTrainingDone {u} : touches (.memoryTrainingDone u) = [.out, .free, .full, .err, .tel, .regs, .net, .tide, .fly, .cells, .chk, .ctxs, .slc, .frs, .mem, .rsv, .csn, .est, .edy, .wsh, .hst, .bst, .hdw, .lev] := rfl
theorem touches_qualificationDone {u} : touches (.qualificationDone u) = [.out, .free, .full, .err, .tel, .regs, .net, .tide, .fly, .cells, .chk, .ctxs, .slc, .frs, .mem, .rsv, .csn, .est, .edy, .wsh, .hst, .bst, .hdw, .lev] := rfl
theorem touches_bringupBudgetExpiry {u} : touches (.bringupBudgetExpiry u) = [.now, .out, .free, .full, .err, .tel, .regs, .net, .tide, .fly, .cells, .chk, .ctxs, .slc, .frs, .mem, .rsv, .csn, .est, .edy, .wsh, .hst, .bst, .hdw, .lev] := rfl
theorem touches_opticalWaitDone : touches .opticalWaitDone = [.out, .err, .tel, .regs, .frs, .mem, .hst, .bst, .hdw] := rfl
theorem touches_packetArrival {p} : touches (.packetArrival p) = [.out, .err, .tel, .fly] := rfl
theorem touches_routeTableLoad {site ver hops} : touches (.routeTableLoad site ver hops) = [.net] := rfl
theorem touches_routesReady {slot} : touches (.routesReady slot) = [.out, .net, .fly] := rfl
theorem touches_commitWithdraw {slot} : touches (.commitWithdraw slot) = [.out, .net, .fly] := rfl
theorem touches_routeCommit : touches .routeCommit = [.out, .tel, .regs, .net, .frs, .mem, .hst, .lev] := rfl
theorem touches_routersEmpty {site} : touches (.routersEmpty site) = [.out, .net] := rfl
theorem touches_pllStop {site} : touches (.pllStop site) = [.now, .out, .net, .lev] := rfl
theorem touches_rillMessage {m got} : touches (.rillMessage m got) = [.tel, .net, .fly, .rsv, .edy] := rfl
theorem touches_slotBoundary {overs} : touches (.slotBoundary overs) = [.now, .out, .err, .tel, .regs, .net, .tide, .fly, .cells, .ctxs, .frs, .mem, .rsv, .csn, .est, .hst, .lev] := rfl
theorem touches_shadowLatch : touches .shadowLatch = [.out, .err, .tel, .regs, .csn] := rfl
theorem touches_tideFrame {syms capture} : touches (.tideFrame syms capture) = [.out, .err, .tel, .tide, .csn] := rfl
theorem touches_tideEdgeLoss : touches .tideEdgeLoss = [.now, .out, .err, .tel, .tide, .csn] := rfl
theorem touches_frequencyWindow {tidein ticks} : touches (.frequencyWindow tidein ticks) = [.out, .err, .tel, .tide, .csn] := rfl
theorem touches_tideMessageAbsent : touches .tideMessageAbsent = [.now, .out, .err, .tel, .tide, .csn] := rfl
theorem touches_inputQualified {tidein} : touches (.inputQualified tidein) = [.out, .err, .tel, .tide] := rfl
theorem touches_acquireTimeout : touches .acquireTimeout = [.now, .out, .err, .tel, .tide] := rfl
theorem touches_srcSelWrite {x} : touches (.srcSelWrite x) = [.out, .err, .tel, .regs, .net, .tide, .fly, .chk, .slc, .mem, .rsv, .csn, .wsh, .hst, .own, .bst, .hdw, .lev] := rfl
theorem touches_srcSelApply : touches .srcSelApply = [.out, .err, .tel, .tide] := rfl
theorem touches_rebaseWrite {x} : touches (.rebaseWrite x) = [.out, .err, .tel, .regs, .net, .tide, .fly, .chk, .slc, .mem, .rsv, .csn, .wsh, .hst, .own, .bst, .hdw, .lev] := rfl
theorem touches_rebaseApply : touches .rebaseApply = [.out, .err, .tel, .tide] := rfl
theorem touches_countAdopt : touches .countAdopt = [.out, .err, .tel, .tide] := rfl
theorem touches_slotMarkerSend : touches .slotMarkerSend = [.now, .out, .net, .tide, .fly] := rfl
theorem touches_slotMarker {ep slot len} : touches (.slotMarker ep slot len) = [.out, .err, .tel, .tide] := rfl
theorem touches_pllLockLoss {site} : touches (.pllLockLoss site) = [.out, .err, .tel, .net, .fly, .cells, .ctxs, .frs, .wsh, .bst, .lev] := rfl
theorem touches_dieReenable {site} : touches (.dieReenable site) = [.net] := rfl
theorem touches_dieRelockDone {site} : touches (.dieRelockDone site) = [.net] := rfl
theorem touches_dieRelockMiss {site} : touches (.dieRelockMiss site) = [.out, .err, .tel, .net, .bst] := rfl
theorem touches_ldn {l th rt rb sz sxb off e} : touches (.ldn l th rt rb sz sxb off e) = [.out, .err, .tel, .fly, .cells, .ctxs, .slc, .bst] := rfl
theorem touches_stn {l th rt rb sz off e} : touches (.stn l th rt rb sz off e) = [.out, .err, .tel, .fly, .cells, .ctxs, .slc, .bst] := rfl
theorem touches_vld {l th vt rb rel off e} : touches (.vld l th vt rb rel off e) = [.out, .err, .tel, .fly, .cells, .ctxs, .slc, .bst] := rfl
theorem touches_vst {l th vt rb off e} : touches (.vst l th vt rb off e) = [.out, .err, .tel, .fly, .cells, .ctxs, .slc, .bst] := rfl
theorem touches_fetch {l th ra rl len cnt e} : touches (.fetch l th ra rl len cnt e) = [.out, .err, .tel, .fly, .cells, .ctxs, .slc, .bst] := rfl
theorem touches_send {l th ra rl len cnt rel e} : touches (.send l th ra rl len cnt rel e) = [.out, .err, .tel, .fly, .cells, .ctxs, .slc, .bst] := rfl
theorem touches_ldx {l th rt ra e} : touches (.ldx l th rt ra e) = [.out, .err, .tel, .fly, .cells, .ctxs, .slc, .bst] := rfl
theorem touches_twait {l th rs n slot e} : touches (.twait l th rs n slot e) = [.out, .err, .tel, .fly, .cells, .ctxs, .slc, .bst] := rfl
theorem touches_twaite {l th rs n slot e} : touches (.twaite l th rs n slot e) = [.out, .err, .tel, .fly, .cells, .ctxs, .slc, .bst] := rfl
theorem touches_tfull {l th rs rc n slot e} : touches (.tfull l th rs rc n slot e) = [.out, .err, .tel, .fly, .cells, .ctxs, .slc, .bst] := rfl
theorem touches_trel {l th rs n slot e} : touches (.trel l th rs n slot e) = [.out, .err, .tel, .fly, .cells, .ctxs, .slc, .bst] := rfl
theorem touches_tpin {l th rs n slot e} : touches (.tpin l th rs n slot e) = [.out, .err, .tel, .fly, .cells, .ctxs, .slc, .bst] := rfl
theorem touches_tunpin {l th rs n slot e} : touches (.tunpin l th rs n slot e) = [.out, .err, .tel, .fly, .cells, .ctxs, .slc, .bst] := rfl
theorem touches_tstat {l th rs rc n slot e} : touches (.tstat l th rs rc n slot e) = [.out, .err, .tel, .fly, .cells, .ctxs, .slc, .bst] := rfl
theorem touches_amm {l th ra rb rk fmt acc bank relA relB e} : touches (.amm l th ra rb rk fmt acc bank relA relB e) = [.out, .err, .tel, .fly, .cells, .ctxs, .slc, .bst] := rfl
theorem touches_aout {l th rd rc ofmt pub bank e} : touches (.aout l th rd rc ofmt pub bank e) = [.out, .err, .tel, .fly, .cells, .ctxs, .slc, .bst] := rfl
theorem touches_trail {l th n e} : touches (.trail l th n e) = [.out, .err, .tel, .fly, .cells, .ctxs, .slc, .bst] := rfl
theorem touches_halt {l th e} : touches (.halt l th e) = [.out, .err, .tel, .fly, .cells, .ctxs, .slc, .bst] := rfl
theorem touches_vectorArith {l th op half vd va vb vc e} : touches (.vectorArith l th op half vd va vb vc e) = [.out, .free, .err, .tel, .fly, .cells, .ctxs, .slc, .bst] := rfl
theorem touches_vectorConvert {l th cv sr vd va e} : touches (.vectorConvert l th cv sr vd va e) = [.out, .err, .tel, .fly, .cells, .ctxs, .slc, .bst] := rfl
theorem touches_branch {l th taken target e} : touches (.branch l th taken target e) = [.out, .err, .tel, .fly, .cells, .ctxs, .slc, .bst] := rfl
theorem touches_integerOp {l th op rt ra rb imm e} : touches (.integerOp l th op rt ra rb imm e) = [.out, .err, .tel, .fly, .cells, .ctxs, .slc, .bst] := rfl
theorem touches_accessWake {l w e} : touches (.accessWake l w e) = [.out, .err, .tel, .fly, .cells, .ctxs, .slc, .frs, .bst] := rfl
theorem touches_waitLimit {w} : touches (.waitLimit w) = [.out, .err, .tel, .fly, .cells, .ctxs, .slc, .frs] := rfl
theorem touches_fillArrival {m l alter} : touches (.fillArrival m l alter) = [.out, .err, .tel, .fly, .cells, .ctxs, .slc, .frs] := rfl
theorem touches_eccWriteback {l} : touches (.eccWriteback l) = [.cells] := rfl
theorem touches_ldxReturn {m} : touches (.ldxReturn m) = [.out, .err, .tel, .fly, .cells, .ctxs, .slc] := rfl
theorem touches_remoteReadServe {m e} : touches (.remoteReadServe m e) = [.out, .err, .tel, .fly, .cells, .ctxs, .slc, .bst] := rfl
theorem touches_remoteRefusal {m} : touches (.remoteRefusal m) = [.out, .err, .tel, .fly, .cells, .ctxs, .slc] := rfl
theorem touches_sendDeliver {m e} : touches (.sendDeliver m e) = [.out, .err, .tel, .fly, .cells, .ctxs, .slc, .bst] := rfl
theorem touches_sendDone {l op} : touches (.sendDone l op) = [.out, .err, .tel, .cells, .ctxs, .slc] := rfl
theorem touches_scrubCommand {l slots owner} : touches (.scrubCommand l slots owner) = [.tel, .cells, .frs] := rfl
theorem touches_cellKill {l c} : touches (.cellKill l c) = [.tel, .cells, .ctxs, .frs] := rfl
theorem touches_scrubDone {l} : touches (.scrubDone l) = [.out, .net, .fly, .cells, .ctxs] := rfl
theorem touches_patrolRead {l e} : touches (.patrolRead l e) = [.out, .err, .tel, .fly, .cells, .ctxs, .slc, .bst] := rfl
theorem touches_slotSelection {cl slot picks ps} : touches (.slotSelection cl slot picks ps) = [.cells] := rfl
theorem touches_slotProgramStart {l} : touches (.slotProgramStart l) = [.tel, .cells] := rfl
theorem touches_ammStreamStart {l at_ e} : touches (.ammStreamStart l at_ e) = [.out, .err, .tel, .fly, .cells, .ctxs, .slc, .bst] := rfl
theorem touches_bankReady {l bank} : touches (.bankReady l bank) = [.cells] := rfl
theorem touches_aoutWrite {l} : touches (.aoutWrite l) = [.out, .err, .tel, .cells, .ctxs, .slc] := rfl
theorem touches_chkRecord {u ctx prof append last close data} : touches (.chkRecord u ctx prof append last close data) = [.out, .err, .tel, .cells, .chk] := rfl
theorem touches_chkSliceSave {u save} : touches (.chkSliceSave u save) = [.out, .tel, .chk, .frs, .mem, .hst] := rfl
theorem touches_chkSliceRestore {u ctx save} : touches (.chkSliceRestore u ctx save) = [.cells, .chk] := rfl
theorem touches_profileValidate {x} : touches (.profileValidate x) = [.out, .err, .tel, .regs, .net, .tide, .fly, .chk, .slc, .mem, .rsv, .csn, .wsh, .hst, .own, .bst, .hdw, .lev] := rfl
theorem touches_unitRunApply {x} : touches (.unitRunApply x) = [.out, .err, .tel, .regs, .net, .tide, .fly, .chk, .slc, .mem, .rsv, .csn, .wsh, .hst, .own, .bst, .hdw, .lev] := rfl
theorem touches_passRecord {e rec} : touches (.passRecord e rec) = [.out, .err, .tel, .ctxs, .slc, .frs] := rfl
theorem touches_passOwnerScrub {e pass} : touches (.passOwnerScrub e pass) = [.tel, .cells, .frs] := rfl
theorem touches_passStart {e pass} : touches (.passStart e pass) = [.frs] := rfl
theorem touches_sourceReadIssue {e pass src} : touches (.sourceReadIssue e pass src) = [.tel, .frs, .rsv] := rfl
theorem touches_mergeWindowClose {e m} : touches (.mergeWindowClose e m) = [.now, .frs] := rfl
theorem touches_sourceReadReturn {e pass src alter ecc} : touches (.sourceReadReturn e pass src alter ecc) = [.out, .err, .tel, .cells, .frs, .mem, .rsv] := rfl
theorem touches_deliveryIssue {e pass out k} : touches (.deliveryIssue e pass out k) = [.tel, .fly, .frs] := rfl
theorem touches_epochProbeAnswer {e pass out k} : touches (.epochProbeAnswer e pass out k) = [.out, .tel, .frs, .mem, .rsv] := rfl
theorem touches_landingAck {e did} : touches (.landingAck e did) = [.tel, .frs, .rsv] := rfl
theorem touches_passEnd {e pass} : touches (.passEnd e pass) = [.tel, .cells, .frs] := rfl
theorem touches_epochWriteReport {e page} : touches (.epochWriteReport e page) = [.tel, .frs, .rsv] := rfl
theorem touches_prefetchAged {e pass src} : touches (.prefetchAged e pass src) = [.tel, .frs] := rfl
theorem touches_refetchRequest {e m} : touches (.refetchRequest e m) = [.tel, .fly, .frs, .rsv] := rfl
theorem touches_memRequest {q} : touches (.memRequest q) = [.out, .err, .tel, .fly, .cells, .ctxs, .slc, .mem, .rsv, .bst] := rfl
theorem touches_memSlotGrant {stk} : touches (.memSlotGrant stk) = [.out, .err, .tel, .cells, .frs, .mem, .hst] := rfl
theorem touches_memAccessServe {stk bank es} : touches (.memAccessServe stk bank es) = [.out, .err, .tel, .fly, .mem, .hst] := rfl
theorem touches_rowRetireDone {stk row ppr} : touches (.rowRetireDone stk row ppr) = [.out, .err, .tel, .mem] := rfl
theorem touches_ageCapReached {stk id} : touches (.ageCapReached stk id) = [.now, .mem] := rfl
theorem touches_memPatrol {stk e} : touches (.memPatrol stk e) = [.now, .out, .err, .tel, .mem] := rfl
theorem touches_bankRefresh {stk bank} : touches (.bankRefresh stk bank) = [.tel, .mem] := rfl
theorem touches_rfmIssue {stk bank} : touches (.rfmIssue stk bank) = [.tel, .mem] := rfl
theorem touches_concWindowEnd {stk} : touches (.concWindowEnd stk) = [.out, .err, .tel, .mem] := rfl
theorem touches_smBatchIssue {stk bank} : touches (.smBatchIssue stk bank) = [.now, .tel, .mem] := rfl
theorem touches_retrainRequest {x} : touches (.retrainRequest x) = [.out, .err, .tel, .regs, .net, .tide, .fly, .chk, .slc, .mem, .rsv, .csn, .wsh, .hst, .own, .bst, .hdw, .lev] := rfl
theorem touches_retrainStart {stk} : touches (.retrainStart stk) = [.mem] := rfl
theorem touches_retrainDone {stk ok} : touches (.retrainDone stk ok) = [.out, .err, .tel, .net, .fly, .mem, .hst, .lev] := rfl
theorem touches_windowValidate {x} : touches (.windowValidate x) = [.out, .err, .tel, .regs, .net, .tide, .fly, .chk, .slc, .mem, .rsv, .csn, .wsh, .hst, .own, .bst, .hdw, .lev] := rfl
theorem touches_windowClose {w} : touches (.windowClose w) = [.rsv] := rfl
theorem touches_exportValidate {x} : touches (.exportValidate x) = [.out, .err, .tel, .regs, .net, .tide, .fly, .chk, .slc, .mem, .rsv, .csn, .wsh, .hst, .own, .bst, .hdw, .lev] := rfl
theorem touches_rsvRequestIssue {agent i} : touches (.rsvRequestIssue agent i) = [.out, .err, .tel, .fly, .cells, .chk, .mem, .rsv, .csn] := rfl
theorem touches_read {e i ecc} : touches (.read e i ecc) = [.out, .err, .tel, .mem, .rsv, .csn] := rfl
theorem touches_readData {e i} : touches (.readData e i) = [.out, .err, .tel, .fly, .cells, .chk, .mem, .rsv, .csn] := rfl
theorem touches_write {e i} : touches (.write e i) = [.out, .err, .tel, .frs, .mem, .rsv, .csn, .hst] := rfl
theorem touches_writeAck {e i} : touches (.writeAck e i) = [.out, .err, .tel, .fly, .cells, .chk, .mem, .rsv, .csn] := rfl
theorem touches_flush {e i} : touches (.flush e i) = [.out, .err, .tel, .rsv, .csn] := rfl
theorem touches_flushAck {e i} : touches (.flushAck e i) = [.out, .err, .tel, .fly, .cells, .chk, .mem, .rsv, .csn] := rfl
theorem touches_query {e i} : touches (.query e i) = [.out, .err, .tel, .rsv, .csn] := rfl
theorem touches_queryData {e i} : touches (.queryData e i) = [.out, .err, .tel, .fly, .cells, .chk, .mem, .rsv, .csn] := rfl
theorem touches_abort {e i} : touches (.abort e i) = [.out, .err, .tel, .rsv, .csn] := rfl
theorem touches_rsvTimeout {agent slot} : touches (.rsvTimeout agent slot) = [.now, .out, .err, .tel, .fly, .cells, .chk, .mem, .rsv, .csn] := rfl
theorem touches_rsvBusyRetry {agent slot} : touches (.rsvBusyRetry agent slot) = [.now, .out, .tel, .rsv, .csn] := rfl
theorem touches_cxlIoCompletion {agent slot ok data} : touches (.cxlIoCompletion agent slot ok data) = [.out, .err, .tel, .fly, .cells, .chk, .mem, .rsv] := rfl
theorem touches_sweepStart {ctx} : touches (.sweepStart ctx) = [.out, .err, .tel, .ctxs, .frs, .mem, .rsv, .edy, .hst] := rfl
theorem touches_granuleProcess {e ctx g flaky fix ecc} : touches (.granuleProcess e ctx g flaky fix ecc) = [.out, .err, .tel, .net, .fly, .cells, .ctxs, .slc, .frs, .mem, .rsv, .csn, .edy, .hst] := rfl
theorem touches_sweepComplete {e ctx} : touches (.sweepComplete e ctx) = [.out, .err, .tel, .net, .fly, .cells, .ctxs, .slc, .frs, .mem, .rsv, .csn, .edy, .hst] := rfl
theorem touches_shardNotice {e i} : touches (.shardNotice e i) = [.out, .err, .tel, .ctxs, .rsv, .csn, .edy] := rfl
theorem touches_shardFetchTile {ctx id k} : touches (.shardFetchTile ctx id k) = [.out, .tel, .cells, .frs, .mem, .rsv, .edy, .hst] := rfl
theorem touches_shardFetchVerify {ctx id k} : touches (.shardFetchVerify ctx id k) = [.out, .err, .tel, .frs, .mem, .rsv, .est, .edy, .hst] := rfl
theorem touches_auditStart {e fix} : touches (.auditStart e fix) = [.now, .out, .err, .tel, .ctxs, .slc, .frs, .mem, .rsv, .est, .edy, .hst] := rfl
theorem touches_auditReport {ctx id k digest} : touches (.auditReport ctx id k digest) = [.out, .err, .tel, .net, .fly, .csn, .est, .edy] := rfl
theorem touches_streamBufferSpace {ctx} : touches (.streamBufferSpace ctx) = [.tel, .edy] := rfl
theorem touches_streamStallLimit {e ctx} : touches (.streamStallLimit e ctx) = [.out, .err, .tel, .edy] := rfl
theorem touches_streamExport {ctx} : touches (.streamExport ctx) = [.out, .mem, .rsv, .edy] := rfl
theorem touches_windowRecord {e rec} : touches (.windowRecord e rec) = [.out, .err, .tel, .ctxs, .slc, .est] := rfl
theorem touches_contribSendArrival {a} : touches (.contribSendArrival a) = [.out, .err, .tel, .fly, .cells, .ctxs, .slc, .est, .bst] := rfl
theorem touches_contrib {e i} : touches (.contrib e i) = [.csn, .est] := rfl
theorem touches_contribAccept {e hit ecc} : touches (.contribAccept e hit ecc) = [.out, .free, .err, .tel, .net, .fly, .cells, .frs, .mem, .rsv, .csn, .est, .hst] := rfl
theorem touches_sendByBoundary {e ctx step} : touches (.sendByBoundary e ctx step) = [.out, .err, .tel, .net, .fly, .cells, .frs, .mem, .csn, .est, .hst] := rfl
theorem touches_windowDeadline {e ctx step} : touches (.windowDeadline e ctx step) = [.out, .err, .tel, .net, .fly, .cells, .frs, .mem, .csn, .est, .hst] := rfl
theorem touches_health {b} : touches (.health b) = [.out, .err, .tel, .cells, .ctxs, .slc, .rsv, .csn, .est] := rfl
theorem touches_outcomeReport {ctx step node eng ok} : touches (.outcomeReport ctx step node eng ok) = [.est] := rfl
theorem touches_leadFanout {ctx step} : touches (.leadFanout ctx step) = [.out, .tel, .csn, .est] := rfl
theorem touches_reportTimeout {ctx step} : touches (.reportTimeout ctx step) = [.out, .tel, .csn, .est] := rfl
theorem touches_verdictTimeout {ctx step} : touches (.verdictTimeout ctx step) = [.out, .err, .tel, .ctxs, .slc, .est] := rfl
theorem touches_sweepNaming {ctx} : touches (.sweepNaming ctx) = [.ctxs] := rfl
theorem touches_divergenceNotice {ctx} : touches (.divergenceNotice ctx) = [.out, .err, .tel, .ctxs, .slc, .csn, .est] := rfl
theorem touches_replan {ctx a} : touches (.replan ctx a) = [.out, .err, .tel, .ctxs, .slc, .frs, .mem, .rsv, .hst] := rfl
theorem touches_move {ctx} : touches (.move ctx) = [.tel, .cells, .ctxs, .frs] := rfl
theorem touches_moveCopyDone {ctx} : touches (.moveCopyDone ctx) = [.out, .tel, .net, .fly, .cells, .ctxs, .frs, .wsh] := rfl
theorem touches_switchoffNotice : touches .switchoffNotice = [.out, .net, .fly, .ctxs, .wsh] := rfl
theorem touches_migrateLimit {site} : touches (.migrateLimit site) = [.tel, .net, .cells, .ctxs, .frs, .wsh] := rfl
theorem touches_freeze : touches .freeze = [.tel, .net, .cells, .ctxs, .frs, .wsh, .bst] := rfl
theorem touches_freezeStop {site} : touches (.freezeStop site) = [.tel, .cells, .ctxs, .wsh] := rfl
theorem touches_drainDone {site plans} : touches (.drainDone site plans) = [.out, .err, .tel, .net, .fly, .cells, .ctxs, .frs, .mem, .rsv, .wsh, .hst] := rfl
theorem touches_reskewStart {ctx tensor src dst bytes} : touches (.reskewStart ctx tensor src dst bytes) = [.mem, .wsh] := rfl
theorem touches_reskewDone {ctx} : touches (.reskewDone ctx) = [.out, .err, .tel, .ctxs, .frs, .mem, .rsv, .edy, .wsh, .hst] := rfl
theorem touches_doorbellSnoop {j line} : touches (.doorbellSnoop j line) = [.out, .err, .tel, .slc, .hst] := rfl
theorem touches_doorbellPoll {area} : touches (.doorbellPoll area) = [.out, .err, .tel, .slc, .hst] := rfl
theorem touches_descriptorFetchDone {q data} : touches (.descriptorFetchDone q data) = [.out, .err, .tel, .slc, .hst] := rfl
theorem touches_descriptorFetchTimeout {q} : touches (.descriptorFetchTimeout q) = [.now, .out, .err, .tel, .slc] := rfl
theorem touches_admitCtx {q} : touches (.admitCtx q) = [.out, .err, .tel, .ctxs, .slc, .hst] := rfl
theorem touches_admitComplete {ctx a} : touches (.admitComplete ctx a) = [.out, .err, .tel, .cells, .chk, .ctxs, .slc, .frs, .mem, .rsv, .edy, .wsh, .hst] := rfl
theorem touches_step {q} : touches (.step q) = [.out, .err, .tel, .ctxs, .slc, .hst] := rfl
theorem touches_batchReadDone {ctx step data} : touches (.batchReadDone ctx step data) = [.tel, .ctxs, .slc] := rfl
theorem touches_copy {q} : touches (.copy q) = [.out, .err, .tel, .ctxs, .slc, .hst] := rfl
theorem touches_copyComplete {ctx data} : touches (.copyComplete ctx data) = [.out, .err, .tel, .ctxs, .slc, .frs, .mem, .hst] := rfl
theorem touches_resume {q a} : touches (.resume q a) = [.out, .err, .tel, .cells, .ctxs, .slc, .frs, .mem, .rsv, .hst] := rfl
theorem touches_kill {q} : touches (.kill q) = [.out, .err, .tel, .net, .fly, .ctxs, .slc, .csn, .hst] := rfl
theorem touches_debugRead {q} : touches (.debugRead q) = [.out, .err, .tel, .slc, .hst] := rfl
theorem touches_completionWrite {q} : touches (.completionWrite q) = [.out, .tel, .slc] := rfl
theorem touches_completionWriteTimeout {q} : touches (.completionWriteTimeout q) = [.slc] := rfl
theorem touches_irqCoalesceTimer {q} : touches (.irqCoalesceTimer q) = [.now, .out, .slc] := rfl
theorem touches_roundStart {ctx} : touches (.roundStart ctx) = [.tel, .cells, .chk, .ctxs, .slc, .rsv, .edy] := rfl
theorem touches_stepStart {ctx} : touches (.stepStart ctx) = [.tel, .cells, .chk, .ctxs, .slc, .rsv, .edy] := rfl
theorem touches_backwardEnd {ctx} : touches (.backwardEnd ctx) = [.out, .err, .tel, .ctxs, .slc] := rfl
theorem touches_stepComplete {ctx} : touches (.stepComplete ctx) = [.out, .err, .tel, .ctxs, .slc, .est, .edy] := rfl
theorem touches_rollback {ctx} : touches (.rollback ctx) = [.out, .tel, .cells, .ctxs, .frs, .mem, .est, .edy, .hst] := rfl
theorem touches_killBoundary {ctx} : touches (.killBoundary ctx) = [.out, .tel, .cells, .chk, .ctxs, .slc, .frs, .mem, .rsv, .csn, .est, .edy, .wsh, .hst] := rfl
theorem touches_killComplete {ctx} : touches (.killComplete ctx) = [.out, .tel, .cells, .ctxs, .slc, .rsv, .csn] := rfl
theorem touches_streamControlUpdate {ctx consumed} : touches (.streamControlUpdate ctx consumed) = [.out, .err, .tel, .edy, .hst] := rfl
theorem touches_queuePairEnable {x} : touches (.queuePairEnable x) = [.out, .err, .tel, .regs, .net, .tide, .fly, .chk, .slc, .mem, .rsv, .csn, .wsh, .hst, .own, .bst, .hdw, .lev] := rfl
theorem touches_queuePairDisable {x} : touches (.queuePairDisable x) = [.out, .err, .tel, .regs, .net, .tide, .fly, .chk, .slc, .mem, .rsv, .csn, .wsh, .hst, .own, .bst, .hdw, .lev] := rfl
theorem touches_portReturn : touches .portReturn = [.out, .err, .tel, .regs, .fly, .cells, .chk, .slc, .mem, .rsv, .hst] := rfl
theorem touches_flr : touches .flr = [.out, .err, .tel, .regs, .net, .fly, .cells, .chk, .ctxs, .slc, .mem, .rsv, .csn, .hst, .own] := rfl
theorem touches_perst : touches .perst = [.now, .out, .err, .tel, .regs, .fly, .cells, .chk, .slc, .mem, .rsv, .hst] := rfl
theorem touches_d3hotEntry : touches .d3hotEntry = [.hst] := rfl
theorem touches_d0Return : touches .d0Return = [.out, .slc, .hst] := rfl
theorem touches_linkUp {rate width lopt cxl} : touches (.linkUp rate width lopt cxl) = [.out, .err, .tel, .hst] := rfl
theorem touches_linkRetrain {x} : touches (.linkRetrain x) = [.out, .err, .tel, .regs, .net, .tide, .fly, .chk, .slc, .mem, .rsv, .csn, .wsh, .hst, .own, .bst, .hdw, .lev] := rfl
theorem touches_hostMemRead {tag addr grant} : touches (.hostMemRead tag addr grant) = [.out, .err, .tel, .mem, .hst] := rfl
theorem touches_hostMemWrite {tag addr off data} : touches (.hostMemWrite tag addr off data) = [.out, .err, .tel, .mem, .hst] := rfl
theorem touches_bisnpResponse {line dirty} : touches (.bisnpResponse line dirty) = [.out, .tel, .frs, .mem, .hst] := rfl
theorem touches_biTimeout {line} : touches (.biTimeout line) = [.now, .out, .err, .tel, .mem, .hst] := rfl
theorem touches_hostSnoop {kind line} : touches (.hostSnoop kind line) = [.out, .hst] := rfl
theorem touches_hdmCommit {commit base size ways} : touches (.hdmCommit commit base size ways) = [.mem, .hst] := rfl
theorem touches_doeRequest {vendor typ obj} : touches (.doeRequest vendor typ obj) = [.out, .hst, .hdw] := rfl
theorem touches_doeTimeout : touches .doeTimeout = [.now, .out, .hst, .hdw] := rfl
theorem touches_claim {x} : touches (.claim x) = [.out, .err, .tel, .csn, .own] := rfl
theorem touches_renew {x} : touches (.renew x) = [.out, .err, .tel, .csn, .own] := rfl
theorem touches_handover {x} : touches (.handover x) = [.out, .err, .tel, .csn, .own] := rfl
theorem touches_release {x} : touches (.release x) = [.out, .err, .tel, .csn, .own] := rfl
theorem touches_ownershipQuery {x} : touches (.ownershipQuery x) = [.out, .err, .tel, .csn, .own] := rfl
theorem touches_electionClose : touches .electionClose = [.now, .out, .err, .tel, .csn, .own] := rfl
theorem touches_leaseExpiry : touches .leaseExpiry = [.now, .out, .err, .tel, .csn, .own] := rfl
theorem touches_mctpAssemblyTimeout : touches .mctpAssemblyTimeout = [.now, .hst] := rfl
theorem touches_flitReceive {e l f} : touches (.flitReceive e l f) = [.out, .err, .tel, .tide, .csn] := rfl
theorem touches_replayTimeout {e l} : touches (.replayTimeout e l) = [.now, .out, .err, .tel, .tide, .csn] := rfl
theorem touches_openStream {e i} : touches (.openStream e i) = [.out, .tel, .csn] := rfl
theorem touches_grant {e i} : touches (.grant e i) = [.out, .tel, .csn] := rfl
theorem touches_openRetry {e k} : touches (.openRetry e k) = [.now, .out, .tel, .csn] := rfl
theorem touches_credit {e i} : touches (.credit e i) = [.out, .err, .tel, .csn] := rfl
theorem touches_creditReturnTimer {e} : touches (.creditReturnTimer e) = [.out, .tel, .csn] := rfl
theorem touches_close {e i} : touches (.close e i) = [.out, .tel, .csn] := rfl
theorem touches_regRead {x} : touches (.regRead x) = [.out, .err, .tel, .regs, .csn, .own] := rfl
theorem touches_regWrite {x} : touches (.regWrite x) = [.out, .err, .tel, .regs, .net, .tide, .fly, .chk, .slc, .mem, .rsv, .csn, .wsh, .hst, .own, .bst, .hdw, .lev] := rfl
theorem touches_laneClose {e l last} : touches (.laneClose e l last) = [.out, .err, .tel, .tide, .csn] := rfl
theorem touches_linkHoldExpiry {e} : touches (.linkHoldExpiry e) = [.now, .out, .err, .tel, .csn] := rfl
theorem touches_laneEnable {e l} : touches (.laneEnable e l) = [.csn] := rfl
theorem touches_laneWaitExpiry {e l} : touches (.laneWaitExpiry e l) = [.now, .csn] := rfl
theorem touches_detectDone {e l rx} : touches (.detectDone e l rx) = [.now, .csn] := rfl
theorem touches_trainDone {e l} : touches (.trainDone e l) = [.out, .tel, .csn] := rfl
theorem touches_rangeProbe {e l probe turnaround} : touches (.rangeProbe e l probe turnaround) = [.out, .tel, .csn] := rfl
theorem touches_rangeDone {e l rtt turn maxTurn answered ptx prx} : touches (.rangeDone e l rtt turn maxTurn answered ptx prx) = [.out, .err, .tel, .tide, .csn] := rfl
theorem touches_capsDone {e l rec_} : touches (.capsDone e l rec_) = [.out, .err, .tel, .tide, .csn] := rfl
theorem touches_qualifyDone {e l corrected uncorrectable rxMin rxMax remoteOk} : touches (.qualifyDone e l corrected uncorrectable rxMin rxMax remoteOk) = [.now, .out, .err, .tel, .tide, .cells, .csn] := rfl
theorem touches_laneBudgetExpiry {e l} : touches (.laneBudgetExpiry e l) = [.now, .out, .err, .tel, .tide, .csn] := rfl
theorem touches_laneMonitor {e l corrected uncorrectable rx tx dark} : touches (.laneMonitor e l corrected uncorrectable rx tx dark) = [.out, .err, .tel, .tide, .cells, .csn] := rfl
theorem touches_recal {x} : touches (.recal x) = [.out, .err, .tel, .regs, .net, .tide, .fly, .chk, .slc, .mem, .rsv, .csn, .wsh, .hst, .own, .bst, .hdw, .lev] := rfl
theorem touches_laneDownHold {x} : touches (.laneDownHold x) = [.out, .err, .tel, .regs, .net, .tide, .fly, .chk, .slc, .mem, .rsv, .csn, .wsh, .hst, .own, .bst, .hdw, .lev] := rfl
theorem touches_tideFlitSend : touches .tideFlitSend = [.now, .out, .free, .tel, .tide, .csn] := rfl
theorem touches_tideFlitReceive {e l flit stamp} : touches (.tideFlitReceive e l flit stamp) = [.out, .err, .tel, .tide, .csn] := rfl
theorem touches_bootcfgCommit {x} : touches (.bootcfgCommit x) = [.out, .err, .tel, .regs, .net, .tide, .fly, .chk, .slc, .mem, .rsv, .csn, .wsh, .hst, .own, .bst, .hdw, .lev] := rfl
theorem touches_holeMapDurable {ok} : touches (.holeMapDurable ok) = [.out, .err, .tel, .bst] := rfl
theorem touches_sliceStart {cl} : touches (.sliceStart cl) = [.bst] := rfl
theorem touches_sliceSaveDone {cl} : touches (.sliceSaveDone cl) = [.bst] := rfl
theorem touches_sliceTestDone {cl bad} : touches (.sliceTestDone cl bad) = [.out, .err, .tel, .net, .cells, .ctxs, .slc, .bst] := rfl
theorem touches_sliceRestoreDone {cl} : touches (.sliceRestoreDone cl) = [.cells, .bst] := rfl
theorem touches_sliceRelease {cl} : touches (.sliceRelease cl) = [.bst] := rfl
theorem touches_sliceAbandon {cl} : touches (.sliceAbandon cl) = [.tel, .bst] := rfl
theorem touches_coverTimeout : touches .coverTimeout = [.now, .out, .err, .tel, .bst] := rfl
theorem touches_dieTestRequest {x} : touches (.dieTestRequest x) = [.out, .err, .tel, .regs, .net, .tide, .fly, .chk, .slc, .mem, .rsv, .csn, .wsh, .hst, .own, .bst, .hdw, .lev] := rfl
theorem touches_dieTestDone {site u} : touches (.dieTestDone site u) = [.out, .err, .tel, .net, .fly, .cells, .ctxs, .slc, .frs, .wsh, .bst, .lev] := rfl
theorem touches_recoverRequest {x} : touches (.recoverRequest x) = [.out, .err, .tel, .regs, .net, .tide, .fly, .chk, .slc, .mem, .rsv, .csn, .wsh, .hst, .own, .bst, .hdw, .lev] := rfl
theorem touches_recoveryStepEnd {reach ok u} : touches (.recoveryStepEnd reach ok u) = [.out, .err, .tel, .net, .cells, .ctxs, .slc, .bst] := rfl
theorem touches_recoveryBudgetExpiry {reach} : touches (.recoveryBudgetExpiry reach) = [.out, .err, .tel, .net, .bst] := rfl
theorem touches_objectInstall {x} : touches (.objectInstall x) = [.out, .err, .tel, .regs, .net, .tide, .fly, .chk, .slc, .mem, .rsv, .csn, .wsh, .hst, .own, .bst, .hdw, .lev] := rfl
theorem touches_objectVerifyDone {stored} : touches (.objectVerifyDone stored) = [.out, .err, .tel, .hdw] := rfl
theorem touches_imageActivate {sub} : touches (.imageActivate sub) = [.hdw] := rfl
theorem touches_imageRunning {sub} : touches (.imageRunning sub) = [.net, .hdw] := rfl
theorem touches_imageStartTimeout {sub} : touches (.imageStartTimeout sub) = [.now, .out, .err, .tel, .hdw] := rfl
theorem touches_licenceEffect : touches .licenceEffect = [.out, .full, .err, .tel, .fly, .cells, .chk, .ctxs, .mem, .rsv, .csn, .hdw] := rfl
theorem touches_rekeyStart {x} : touches (.rekeyStart x) = [.out, .err, .tel, .regs, .net, .tide, .fly, .chk, .slc, .mem, .rsv, .csn, .wsh, .hst, .own, .bst, .hdw, .lev] := rfl
theorem touches_rekeyTreeDone {bad} : touches (.rekeyTreeDone bad) = [.out, .err, .tel, .hdw] := rfl
theorem touches_attestSigned {bad} : touches (.attestSigned bad) = [.out, .err, .tel, .hst, .hdw] := rfl
theorem touches_attestUnsigned : touches .attestUnsigned = [.out, .hst, .hdw] := rfl
theorem touches_rekeyRequestRead : touches .rekeyRequestRead = [.out, .hst, .hdw] := rfl
theorem touches_scanEntry : touches .scanEntry = [.fly, .cells, .ctxs, .slc, .frs, .mem, .rsv, .est, .edy, .wsh, .hst, .hdw] := rfl
theorem touches_clearDone : touches .clearDone = [.out, .hdw] := rfl
theorem touches_recoveryLoaderObject {obj stored} : touches (.recoveryLoaderObject obj stored) = [.out, .free, .err, .tel, .regs, .net, .tide, .fly, .cells, .chk, .ctxs, .slc, .frs, .mem, .rsv, .csn, .est, .edy, .wsh, .hst, .own, .bst, .hdw, .lev] := rfl
theorem touches_powerSequenceStart : touches .powerSequenceStart = [.now, .lev] := rfl
theorem touches_coolantWaitTimeout : touches .coolantWaitTimeout = [.now, .out, .err, .tel, .lev] := rfl
theorem touches_sensorSample {k v} : touches (.sensorSample k v) = [.out, .err, .tel, .lev] := rfl
theorem touches_sensorTimeout {k} : touches (.sensorTimeout k) = [.now, .out, .err, .tel, .lev] := rfl
theorem touches_undervoltage {deep} : touches (.undervoltage deep) = [.now, .out, .err, .tel, .lev] := rfl
theorem touches_overvoltage : touches .overvoltage = [.now, .out, .err, .tel, .regs, .net, .tide, .fly, .cells, .chk, .ctxs, .slc, .frs, .mem, .rsv, .csn, .est, .edy, .wsh, .hst, .own, .bst, .hdw, .lev] := rfl
theorem touches_overcurrent {hard} : touches (.overcurrent hard) = [.now, .out, .err, .tel, .regs, .net, .tide, .fly, .cells, .chk, .ctxs, .slc, .frs, .mem, .rsv, .csn, .est, .edy, .wsh, .hst, .own, .bst, .hdw, .lev] := rfl
theorem touches_throttleRaise : touches .throttleRaise = [.lev] := rfl
theorem touches_throttleLower : touches .throttleLower = [.lev] := rfl
theorem touches_heatLevelRise {region} : touches (.heatLevelRise region) = [.now, .out, .tel, .net, .fly, .ctxs, .wsh, .lev] := rfl
theorem touches_heatLevelFall {region} : touches (.heatLevelFall region) = [.now, .out, .tel, .net, .fly, .lev] := rfl
theorem touches_heatTrip {region} : touches (.heatTrip region) = [.now, .out, .err, .tel, .net, .fly, .cells, .chk, .ctxs, .frs, .mem, .rsv, .csn, .est, .edy, .wsh, .hst, .bst, .lev] := rfl
theorem touches_coolantCondition {row} : touches (.coolantCondition row) = [.now, .out, .err, .tel, .lev] := rfl
theorem touches_stackOverheat {stk} : touches (.stackOverheat stk) = [.now, .out, .err, .tel, .net, .fly, .mem, .hst, .lev] := rfl
theorem touches_stackCooldown {stk} : touches (.stackCooldown stk) = [.now, .mem] := rfl
theorem touches_regionFault {region value} : touches (.regionFault region value) = [.out, .err, .tel, .net, .fly, .cells, .chk, .ctxs, .frs, .mem, .rsv, .csn, .est, .edy, .wsh, .hst, .bst, .lev] := rfl
theorem touches_switchoffRequest {x} : touches (.switchoffRequest x) = [.out, .err, .tel, .regs, .net, .tide, .fly, .chk, .slc, .mem, .rsv, .csn, .wsh, .hst, .own, .bst, .hdw, .lev] := rfl
theorem touches_heatReenable {site slot} : touches (.heatReenable site slot) = [.now, .out, .net, .fly, .bst, .lev] := rfl
theorem touches_regionOnRequest {x} : touches (.regionOnRequest x) = [.out, .err, .tel, .regs, .net, .tide, .fly, .chk, .slc, .mem, .rsv, .csn, .wsh, .hst, .own, .bst, .hdw, .lev] := rfl
theorem touches_shutdown {x} : touches (.shutdown x) = [.out, .err, .tel, .regs, .net, .tide, .fly, .chk, .slc, .mem, .rsv, .csn, .wsh, .hst, .own, .bst, .hdw, .lev] := rfl
theorem touches_shutdownComplete : touches .shutdownComplete = [.out, .err, .tel, .regs, .net, .tide, .fly, .cells, .chk, .ctxs, .slc, .frs, .mem, .rsv, .csn, .est, .edy, .wsh, .hst, .own, .bst, .hdw, .lev] := rfl
theorem touches_busbarLoss : touches .busbarLoss = [.out, .err, .tel, .regs, .net, .tide, .fly, .cells, .chk, .ctxs, .slc, .frs, .mem, .rsv, .csn, .est, .edy, .wsh, .hst, .own, .bst, .hdw, .lev] := rfl
theorem touches_errorRaise {unit block cls sev ctx transient loc0 loc1 detail} : touches (.errorRaise unit block cls sev ctx transient loc0 loc1 detail) = [.out, .err, .tel] := rfl
theorem touches_errorForward {unit} : touches (.errorForward unit) = [.out, .err] := rfl
theorem touches_errorDeliver : touches .errorDeliver = [.out, .err, .tel, .csn] := rfl
theorem touches_errorAck {x} : touches (.errorAck x) = [.out, .err, .tel, .regs, .net, .tide, .fly, .chk, .slc, .mem, .rsv, .csn, .wsh, .hst, .own, .bst, .hdw, .lev] := rfl
theorem touches_ringEnable {x} : touches (.ringEnable x) = [.out, .err, .tel, .regs, .net, .tide, .fly, .chk, .slc, .mem, .rsv, .csn, .wsh, .hst, .own, .bst, .hdw, .lev] := rfl
theorem touches_errorRecordQuery {body} : touches (.errorRecordQuery body) = [.out, .own] := rfl
theorem touches_telDump {x} : touches (.telDump x) = [.out, .err, .tel, .regs, .net, .tide, .fly, .chk, .slc, .mem, .rsv, .csn, .wsh, .hst, .own, .bst, .hdw, .lev] := rfl
theorem touches_telDumpDone : touches .telDumpDone = [.out, .tel, .frs, .mem, .hst] := rfl
theorem touches_countReadLatch {x} : touches (.countReadLatch x) = [.out, .err, .tel, .regs, .csn, .own] := rfl
theorem touches_telValueRead {x} : touches (.telValueRead x) = [.out, .err, .tel, .regs, .csn, .own] := rfl
theorem touches_registerWrite {x} : touches (.registerWrite x) = [.out, .err, .tel, .regs, .net, .tide, .fly, .chk, .slc, .mem, .rsv, .csn, .wsh, .hst, .own, .bst, .hdw, .lev] := rfl
theorem touches_cxlIoCompletionTimeout {agent slot} : touches (.cxlIoCompletionTimeout agent slot) = [.out, .err, .tel, .fly, .cells, .chk, .mem, .rsv] := rfl
theorem touches_batchReadTimeout {ctx step} : touches (.batchReadTimeout ctx step) = [.tel, .ctxs, .slc] := rfl
theorem touches_perstRelease : touches .perstRelease = [.hst] := rfl

end Sys2Proof.Machine
end

