-- ==== Sys2Proof/Laws/Frame.lean ====
section
/-! SUPPORT. The calculus of frames: reflexive, transitive, closed under folds, and the frame of one update of the record. -/
namespace Sys2Proof.Machine

theorem Part.same_refl (p : Part) (s : State) : p.same s s := by cases p <;> first | rfl | exact ⟨rfl, rfl⟩

theorem Part.same_trans {p : Part} {s t u : State} (h : p.same s t) (g : p.same t u) : p.same s u := by
  cases p <;> first | exact Eq.trans g h | exact ⟨g.1.trans h.1, g.2.trans h.2⟩

theorem Frame.refl (ps : List Part) (s : State) : Frame ps s s := fun p _ => p.same_refl s

theorem Frame.trans {ps : List Part} {s t u : State} (h : Frame ps s t) (g : Frame ps t u) : Frame ps s u :=
  fun p hp => Part.same_trans (h p hp) (g p hp)

theorem Frame.mono {ps qs : List Part} {s t : State} (hs : ∀ p ∈ ps, p ∈ qs) (h : Frame ps s t) : Frame qs s t :=
  fun p hp => h p fun hq => hp (hs p hq)

/-- An operation whose own frame lies in the frame asked for. -/
theorem Frame.via {ps qs : List Part} {s t u : State} (g : Frame qs t u) (hs : ∀ p ∈ qs, p ∈ ps) (h : Frame ps s t) : Frame ps s u :=
  h.trans (g.mono hs)

/-- What every effect keeps besides: time does not run back, the fast tier keeps its canonical form, the error queues their bounds. -/
structure Keeps (s t : State) : Prop where
  now : s.now ≤ t.now
  mem : bytesWf s.mem.data = true → bytesWf t.mem.data = true
  err : s.err.bounded = true → t.err.bounded = true

theorem Keeps.refl (s : State) : Keeps s s := ⟨Nat.le_refl _, id, id⟩

theorem Keeps.trans {s t u : State} (h : Keeps s t) (g : Keeps t u) : Keeps s u :=
  ⟨Nat.le_trans h.now g.now, fun k => g.mem (h.mem k), fun k => g.err (h.err k)⟩

theorem Keeps.same {s t : State} (hn : t.now = s.now) (hm : t.mem.data = s.mem.data) (he : t.err = s.err) : Keeps s t :=
  ⟨Nat.le_of_eq hn.symm, fun h => hm ▸ h, fun h => he ▸ h⟩

/-- The frame of an effect, and what every effect keeps. -/
structure Framed (ps : List Part) (s t : State) : Prop where
  frame : Frame ps s t
  keeps : Keeps s t

theorem Framed.refl (ps : List Part) (s : State) : Framed ps s s := ⟨Frame.refl ps s, Keeps.refl s⟩

theorem Framed.trans {ps : List Part} {s t u : State} (h : Framed ps s t) (g : Framed ps t u) : Framed ps s u :=
  ⟨h.frame.trans g.frame, h.keeps.trans g.keeps⟩

theorem Framed.mono {ps qs : List Part} {s t : State} (hs : ∀ p ∈ ps, p ∈ qs) (h : Framed ps s t) : Framed qs s t :=
  ⟨h.frame.mono hs, h.keeps⟩

/-- An operation whose own frame lies in the frame asked for. -/
theorem Framed.via {ps qs : List Part} {s t u : State} (g : Framed qs t u) (hs : ∀ p ∈ qs, p ∈ ps) (h : Framed ps s t) : Framed ps s u :=
  h.trans (g.mono hs)

theorem Framed.foldl {α : Type} {ps : List Part} (f : State → α → State) (hf : ∀ t x, Framed ps t (f t x)) (l : List α) (s t : State)
    (h : Framed ps s t) : Framed ps s (l.foldl f t) := by
  induction l generalizing t with
  | nil => exact h
  | cons x l ih => exact ih _ (h.trans (hf t x))

theorem Framed.foldl_fst {α β : Type} {ps : List Part} (f : State × β → α → State × β) (hf : ∀ a x, Framed ps a.1 (f a x).1) (l : List α)
    (s : State) (a : State × β) (h : Framed ps s a.1) : Framed ps s (l.foldl f a).1 := by
  induction l generalizing a with
  | nil => exact h
  | cons x l ih => exact ih _ (h.trans (hf a x))

theorem Framed.ite {c : Prop} [Decidable c] {ps : List Part} {s t u : State} (h : c → Framed ps s t) (g : ¬c → Framed ps s u) :
    Framed ps s (if c then t else u) := by
  by_cases hc : c
  · rw [if_pos hc]; exact h hc
  · rw [if_neg hc]; exact g hc

/-- One update of the record: a field that changes belongs to a part of the frame. -/
theorem Framed.upd {ps : List Part} {s t : State} {q n o fr fu er te re ne ti fl fn ce ck cx sl fs me rs cs es ed ws hs ow bs hd lv}
    (hq : q = t.pending) (h : Framed ps s t)
    (hn : (Part.now ∈ ps ∧ t.now ≤ n) ∨ n = t.now) (ho : Part.out ∈ ps ∨ o = t.out) (hfr : Part.free ∈ ps ∨ fr = t.free) (hfu : Part.full ∈ ps ∨ fu = t.full)
    (her : (Part.err ∈ ps ∧ (t.err.bounded = true → er.bounded = true)) ∨ er = t.err) (hte : Part.tel ∈ ps ∨ te = t.tel) (hre : Part.regs ∈ ps ∨ re = t.regs) (hne : Part.net ∈ ps ∨ ne = t.net)
    (hti : Part.tide ∈ ps ∨ ti = t.tide) (hfl : Part.fly ∈ ps ∨ (fl = t.fly ∧ fn = t.flyNext)) (hce : Part.cells ∈ ps ∨ ce = t.cells)
    (hck : Part.chk ∈ ps ∨ ck = t.chk) (hcx : Part.ctxs ∈ ps ∨ cx = t.ctxs) (hsl : Part.slc ∈ ps ∨ sl = t.slc) (hfs : Part.frs ∈ ps ∨ fs = t.frs)
    (hme : (Part.mem ∈ ps ∧ (bytesWf t.mem.data = true → bytesWf me.data = true)) ∨ me = t.mem) (hrs : Part.rsv ∈ ps ∨ rs = t.rsv) (hcs : Part.csn ∈ ps ∨ cs = t.csn) (hes : Part.est ∈ ps ∨ es = t.est)
    (hed : Part.edy ∈ ps ∨ ed = t.edy) (hws : Part.wsh ∈ ps ∨ ws = t.wsh) (hhs : Part.hst ∈ ps ∨ hs = t.hst) (how : Part.own ∈ ps ∨ ow = t.own)
    (hbs : Part.bst ∈ ps ∨ bs = t.bst) (hhd : Part.hdw ∈ ps ∨ hd = t.hdw) (hlv : Part.lev ∈ ps ∨ lv = t.lev) :
    Framed ps s ⟨q, n, o, fr, fu, er, te, re, ne, ti, fl, fn, ce, ck, cx, sl, fs, me, rs, cs, es, ed, ws, hs, ow, bs, hd, lv⟩ := by
  refine h.trans ⟨fun p hp => ?_, ⟨?_, ?_, ?_⟩⟩
  · cases p
    all_goals first
      | exact hq | exact hn.elim (fun k => absurd k.1 hp) id | exact ho.resolve_left hp | exact hfr.resolve_left hp | exact hfu.resolve_left hp
      | exact her.elim (fun k => absurd k.1 hp) id | exact hte.resolve_left hp | exact hre.resolve_left hp | exact hne.resolve_left hp
      | exact hti.resolve_left hp | exact hfl.resolve_left hp | exact hce.resolve_left hp | exact hck.resolve_left hp | exact hcx.resolve_left hp
      | exact hsl.resolve_left hp | exact hfs.resolve_left hp | exact hme.elim (fun k => absurd k.1 hp) id | exact hrs.resolve_left hp
      | exact hcs.resolve_left hp | exact hes.resolve_left hp | exact hed.resolve_left hp | exact hws.resolve_left hp | exact hhs.resolve_left hp
      | exact how.resolve_left hp | exact hbs.resolve_left hp | exact hhd.resolve_left hp | exact hlv.resolve_left hp
  · exact hn.elim (fun k => k.2) (fun k => Nat.le_of_eq k.symm)
  · exact hme.elim (fun k => k.2) (fun k h => k ▸ h)
  · exact her.elim (fun k => k.2) (fun k h => k ▸ h)

end Sys2Proof.Machine
end

