-- ==== Sys2Proof/Laws/FrameOps.lean ====
section
/-! SUPPORT. What the shared operations leave as it was: shared records, counters, contexts, cells. Each lemma carries a frame over one operation. -/
namespace Sys2Proof.Machine

variable {ps : List Part} {s0 s : State}

theorem modCell_frame {l : Nat} {f : Cell → Cell}  (sub : ∀ p ∈ [.cells], p ∈ ps) (fr : Framed ps s0 s) :
    Framed ps s0 (modCell l f s) := by
  refine fr.trans ⟨fun p hp => ?_, Keeps.same rfl rfl rfl⟩
  cases p <;> first | rfl | exact ⟨rfl, rfl⟩ | exact absurd (sub _ (by decide)) hp

theorem abandonIf_frame {go : Stream → Bool} {l : Nat}  (sub : ∀ p ∈ [.cells], p ∈ ps) (fr : Framed ps s0 s) :
    Framed ps s0 (abandonIf go l s) := by
  refine fr.trans (Framed.mono sub ?_)
  clear sub fr
  unfold abandonIf
  repeat' first
    | with_reducible exact Framed.refl _ _
    | decide
    | with_reducible refine modCell_frame ?_ ?_
    | with_reducible refine Framed.foldl _ (fun _ _ => ?_) _ _ _ ?_
    | with_reducible refine Framed.foldl_fst _ (fun _ _ => ?_) _ _ _ ?_
    | dsimp only [id]

theorem abandon_frame {l : Nat}  (sub : ∀ p ∈ [.cells], p ∈ ps) (fr : Framed ps s0 s) :
    Framed ps s0 (abandon l s) := by
  refine fr.trans (Framed.mono sub ?_)
  clear sub fr
  unfold abandon
  repeat' first
    | with_reducible exact Framed.refl _ _
    | decide
    | with_reducible refine abandonIf_frame ?_ ?_
    | with_reducible refine modCell_frame ?_ ?_
    | dsimp only [id]

theorem countN_frame {block num kind inst n : Nat}  (sub : ∀ p ∈ [.tel], p ∈ ps) (fr : Framed ps s0 s) :
    Framed ps s0 (countN block num kind inst n s) := by
  refine fr.trans ⟨fun p hp => ?_, Keeps.same rfl rfl rfl⟩
  cases p <;> first | rfl | exact ⟨rfl, rfl⟩ | exact absurd (sub _ (by decide)) hp

theorem count_frame {block num kind inst : Nat}  (sub : ∀ p ∈ [.tel], p ∈ ps) (fr : Framed ps s0 s) :
    Framed ps s0 (count block num kind inst s) := by
  refine fr.trans (Framed.mono sub ?_)
  clear sub fr
  unfold count
  repeat' first
    | with_reducible exact Framed.refl _ _
    | decide
    | with_reducible refine countN_frame ?_ ?_
    | dsimp only [id]

theorem emit_frame {o : Out}  (sub : ∀ p ∈ [.out], p ∈ ps) (fr : Framed ps s0 s) :
    Framed ps s0 (emit o s) := by
  refine fr.trans ⟨fun p hp => ?_, Keeps.same rfl rfl rfl⟩
  cases p <;> first | rfl | exact ⟨rfl, rfl⟩ | exact absurd (sub _ (by decide)) hp

theorem unitPush_frame {o : ErrRec}  (sub : ∀ p ∈ [.err, .tel], p ∈ ps) (fr : Framed ps s0 s) :
    Framed ps s0 (unitPush o s) := by
  refine fr.trans (Framed.mono sub ?_)
  clear sub fr
  unfold unitPush
  repeat' first
    | with_reducible exact Framed.refl _ _
    | decide
    | with_reducible refine count_frame ?_ ?_
    | with_reducible refine Framed.ite (fun _ => ?_) (fun _ => ?_)
    | dsimp only [id]
    | split
  all_goals try (with_reducible apply Framed.upd rfl <;> first | exact Or.inl (by decide) | with_reducible exact Or.inr rfl | with_reducible exact Or.inr ⟨rfl, rfl⟩ | with_reducible exact Or.inl ⟨by decide, fun h => h⟩ | with_reducible exact Or.inl ⟨by decide, Nat.le_refl _⟩ | skip)
  repeat' first
    | with_reducible exact Framed.refl _ _
    | decide
    | with_reducible refine count_frame ?_ ?_
    | with_reducible refine Framed.ite (fun _ => ?_) (fun _ => ?_)
    | dsimp only [id]
    | split
  · rename_i h
    exact Or.inl ⟨by decide, Err.bounded_put rfl (fun _ => by simp only [List.length_append, List.length_singleton]; omega) id⟩
  · rename_i h
    have := evictIdx_lt h
    rw [List.length_map] at this
    exact Or.inl ⟨by decide, Err.bounded_put rfl (fun hb => by have := ldel_length _ _ this; have := Err.bounded_unit hb o.unit; simp only [List.length_append, List.length_singleton]; omega) id⟩
  · exact Or.inl ⟨by decide, Err.bounded_put rfl (fun hb => Err.bounded_unit hb _) id⟩

theorem raiseRec_frame {o : ErrRec}  (sub : ∀ p ∈ [.out, .err, .tel], p ∈ ps) (fr : Framed ps s0 s) :
    Framed ps s0 (raiseRec o s) := by
  refine fr.trans (Framed.mono sub ?_)
  clear sub fr
  unfold raiseRec
  repeat' first
    | with_reducible exact Framed.refl _ _
    | decide
    | with_reducible refine emit_frame ?_ ?_
    | with_reducible refine unitPush_frame ?_ ?_
    | with_reducible refine Framed.ite (fun _ => ?_) (fun _ => ?_)
    | dsimp only [id]
    | split
  all_goals try (with_reducible apply Framed.upd rfl <;> first | exact Or.inl (by decide) | with_reducible exact Or.inr rfl | with_reducible exact Or.inr ⟨rfl, rfl⟩ | with_reducible exact Or.inl ⟨by decide, fun h => h⟩ | with_reducible exact Or.inl ⟨by decide, Nat.le_refl _⟩ | skip)
  repeat' first
    | with_reducible exact Framed.refl _ _
    | decide
    | with_reducible refine emit_frame ?_ ?_
    | with_reducible refine unitPush_frame ?_ ?_
    | with_reducible refine Framed.ite (fun _ => ?_) (fun _ => ?_)
    | dsimp only [id]
    | split
  all_goals first
    | exact Or.inl ⟨by decide, Err.bounded_put rfl (fun hb => by rw [lmod_length]; exact Err.bounded_unit hb _) id⟩
    | exact Or.inl ⟨by decide, Err.bounded_q rfl (fun hb => by rw [lmod_length]; exact hb)⟩

theorem raise_frame {unit block sev cls : Nat} {ctx : Option Nat} {loc0 loc1 detail : Nat}  (sub : ∀ p ∈ [.out, .err, .tel], p ∈ ps) (fr : Framed ps s0 s) :
    Framed ps s0 (raise unit block sev cls ctx loc0 loc1 detail s) := by
  refine fr.trans (Framed.mono sub ?_)
  clear sub fr
  unfold raise
  repeat' first
    | with_reducible exact Framed.refl _ _
    | decide
    | with_reducible refine raiseRec_frame ?_ ?_
    | dsimp only [id]

theorem modCtx_frame {c : Nat} {f : Ctx → Ctx}  (sub : ∀ p ∈ [.ctxs], p ∈ ps) (fr : Framed ps s0 s) :
    Framed ps s0 (modCtx c f s) := by
  refine fr.trans ⟨fun p hp => ?_, Keeps.same rfl rfl rfl⟩
  cases p <;> first | rfl | exact ⟨rfl, rfl⟩ | exact absurd (sub _ (by decide)) hp

theorem rollNoHold_frame {c : Nat}  (sub : ∀ p ∈ [.ctxs], p ∈ ps) (fr : Framed ps s0 s) :
    Framed ps s0 (rollNoHold c s) := by
  refine fr.trans (Framed.mono sub ?_)
  clear sub fr
  unfold rollNoHold
  repeat' first
    | with_reducible exact Framed.refl _ _
    | decide
    | with_reducible refine modCtx_frame ?_ ?_
    | with_reducible refine Framed.ite (fun _ => ?_) (fun _ => ?_)
    | dsimp only [id]
    | split

theorem countCtx_frame {block num kind inst : Nat} {ctx : Option Nat}  (sub : ∀ p ∈ [.tel], p ∈ ps) (fr : Framed ps s0 s) :
    Framed ps s0 (countCtx block num kind inst ctx s) := by
  refine fr.trans (Framed.mono sub ?_)
  clear sub fr
  unfold countCtx
  repeat' first
    | with_reducible exact Framed.refl _ _
    | decide
    | with_reducible refine count_frame ?_ ?_
    | dsimp only [id]
    | split

theorem modPair_frame {q : Nat} {f : Pair → Pair}  (sub : ∀ p ∈ [.slc], p ∈ ps) (fr : Framed ps s0 s) :
    Framed ps s0 (modPair q f s) := by
  refine fr.trans ⟨fun p hp => ?_, Keeps.same rfl rfl rfl⟩
  cases p <;> first | rfl | exact ⟨rfl, rfl⟩ | exact absurd (sub _ (by decide)) hp

theorem post_frame {q : Nat} {c : Cpl}  (sub : ∀ p ∈ [.slc], p ∈ ps) (fr : Framed ps s0 s) :
    Framed ps s0 (post q c s) := by
  refine fr.trans (Framed.mono sub ?_)
  clear sub fr
  unfold post
  repeat' first
    | with_reducible exact Framed.refl _ _
    | decide
    | with_reducible refine modPair_frame ?_ ?_
    | dsimp only [id]

theorem postStep_frame {c : Nat} {x : Step} {status detail : Nat}  (sub : ∀ p ∈ [.tel, .slc], p ∈ ps) (fr : Framed ps s0 s) :
    Framed ps s0 (postStep c x status detail s) := by
  refine fr.trans (Framed.mono sub ?_)
  clear sub fr
  unfold postStep
  repeat' first
    | with_reducible exact Framed.refl _ _
    | decide
    | with_reducible refine countCtx_frame ?_ ?_
    | with_reducible refine post_frame ?_ ?_
    | with_reducible refine Framed.ite (fun _ => ?_) (fun _ => ?_)
    | dsimp only [id]
    | split

theorem stepFail_frame {c cls code : Nat}  (sub : ∀ p ∈ [.tel, .ctxs, .slc], p ∈ ps) (fr : Framed ps s0 s) :
    Framed ps s0 (stepFail c cls code s) := by
  refine fr.trans (Framed.mono sub ?_)
  clear sub fr
  unfold stepFail
  repeat' first
    | with_reducible exact Framed.refl _ _
    | decide
    | with_reducible refine modCtx_frame ?_ ?_
    | with_reducible refine postStep_frame ?_ ?_
    | with_reducible refine Framed.ite (fun _ => ?_) (fun _ => ?_)
    | dsimp only [id]
    | split

theorem stopProgram_frame {l : Nat}  (sub : ∀ p ∈ [.cells], p ∈ ps) (fr : Framed ps s0 s) :
    Framed ps s0 (stopProgram l s) := by
  refine fr.trans (Framed.mono sub ?_)
  clear sub fr
  unfold stopProgram
  repeat' first
    | with_reducible exact Framed.refl _ _
    | decide
    | with_reducible refine abandon_frame ?_ ?_
    | with_reducible refine modCell_frame ?_ ?_
    | dsimp only [id]
    | split

theorem trapAt_frame {l th pc : Nat} {c : Cause}  (sub : ∀ p ∈ [.out, .err, .tel, .cells, .ctxs, .slc], p ∈ ps) (fr : Framed ps s0 s) :
    Framed ps s0 (trapAt l th pc c s) := by
  refine fr.trans (Framed.mono sub ?_)
  clear sub fr
  unfold trapAt
  repeat' first
    | with_reducible exact Framed.refl _ _
    | decide
    | with_reducible refine modCell_frame ?_ ?_
    | with_reducible refine raise_frame ?_ ?_
    | with_reducible refine stepFail_frame ?_ ?_
    | with_reducible refine stopProgram_frame ?_ ?_
    | dsimp only [id]
    | split

theorem trapLate_frame {l th pc prog ctx : Nat} {c : Cause}  (sub : ∀ p ∈ [.out, .err, .tel, .cells, .ctxs, .slc], p ∈ ps) (fr : Framed ps s0 s) :
    Framed ps s0 (trapLate l th pc prog ctx c s) := by
  refine fr.trans (Framed.mono sub ?_)
  clear sub fr
  unfold trapLate
  repeat' first
    | with_reducible exact Framed.refl _ _
    | decide
    | with_reducible refine raise_frame ?_ ?_
    | with_reducible refine stepFail_frame ?_ ?_
    | with_reducible refine trapAt_frame ?_ ?_
    | with_reducible refine Framed.ite (fun _ => ?_) (fun _ => ?_)
    | dsimp only [id]
    | split

theorem streamTrap_frame {l : Nat} {m : Stream} {c : Cause}  (sub : ∀ p ∈ [.out, .err, .tel, .cells, .ctxs, .slc], p ∈ ps) (fr : Framed ps s0 s) :
    Framed ps s0 (streamTrap l m c s) := by
  refine fr.trans (Framed.mono sub ?_)
  clear sub fr
  unfold streamTrap
  repeat' first
    | with_reducible exact Framed.refl _ _
    | decide
    | with_reducible refine abandonIf_frame ?_ ?_
    | with_reducible refine trapLate_frame ?_ ?_
    | dsimp only [id]

theorem gangBreak_frame {l : Nat}  (sub : ∀ p ∈ [.out, .err, .tel, .cells, .ctxs, .slc], p ∈ ps) (fr : Framed ps s0 s) :
    Framed ps s0 (gangBreak l s) := by
  refine fr.trans (Framed.mono sub ?_)
  clear sub fr
  unfold gangBreak
  repeat' first
    | with_reducible exact Framed.refl _ _
    | decide
    | with_reducible refine streamTrap_frame ?_ ?_
    | dsimp only [id]
    | split

theorem modFrs_frame {e : Nat} {f : Frs → Frs}  (sub : ∀ p ∈ [.frs], p ∈ ps) (fr : Framed ps s0 s) :
    Framed ps s0 (modFrs e f s) := by
  refine fr.trans ⟨fun p hp => ?_, Keeps.same rfl rfl rfl⟩
  cases p <;> first | rfl | exact ⟨rfl, rfl⟩ | exact absurd (sub _ (by decide)) hp

theorem modDel_frame {e did : Nat} {f : Del → Del}  (sub : ∀ p ∈ [.frs], p ∈ ps) (fr : Framed ps s0 s) :
    Framed ps s0 (modDel e did f s) := by
  refine fr.trans (Framed.mono sub ?_)
  clear sub fr
  unfold modDel
  repeat' first
    | with_reducible exact Framed.refl _ _
    | decide
    | with_reducible refine modFrs_frame ?_ ?_
    | with_reducible refine Framed.ite (fun _ => ?_) (fun _ => ?_)
    | dsimp only [id]
    | split

theorem delEnded_frame {e did l : Nat}  (sub : ∀ p ∈ [.frs], p ∈ ps) (fr : Framed ps s0 s) :
    Framed ps s0 (delEnded e did l s) := by
  refine fr.trans (Framed.mono sub ?_)
  clear sub fr
  unfold delEnded
  repeat' first
    | with_reducible exact Framed.refl _ _
    | decide
    | with_reducible refine modDel_frame ?_ ?_
    | dsimp only [id]

theorem delLanded_frame {e did l : Nat}  (sub : ∀ p ∈ [.frs], p ∈ ps) (fr : Framed ps s0 s) :
    Framed ps s0 (delLanded e did l s) := by
  refine fr.trans (Framed.mono sub ?_)
  clear sub fr
  unfold delLanded
  repeat' first
    | with_reducible exact Framed.refl _ _
    | decide
    | with_reducible refine modDel_frame ?_ ?_
    | dsimp only [id]

theorem dropOp_frame {l op : Nat}  (sub : ∀ p ∈ [.cells], p ∈ ps) (fr : Framed ps s0 s) :
    Framed ps s0 (dropOp l op s) := by
  refine fr.trans (Framed.mono sub ?_)
  clear sub fr
  unfold dropOp
  repeat' first
    | with_reducible exact Framed.refl _ _
    | decide
    | with_reducible refine modCell_frame ?_ ?_
    | dsimp only [id]

theorem fillOver_frame {l : Nat} {f : Fill} {landed : Bool}  (sub : ∀ p ∈ [.cells, .frs], p ∈ ps) (fr : Framed ps s0 s) :
    Framed ps s0 (fillOver l f landed s) := by
  refine fr.trans (Framed.mono sub ?_)
  clear sub fr
  unfold fillOver
  repeat' first
    | with_reducible exact Framed.refl _ _
    | decide
    | with_reducible refine delEnded_frame ?_ ?_
    | with_reducible refine delLanded_frame ?_ ?_
    | with_reducible refine dropOp_frame ?_ ?_
    | with_reducible refine Framed.ite (fun _ => ?_) (fun _ => ?_)
    | dsimp only [id]
    | split

theorem scrubSlots_frame {l : Nat} {slots : List Nat} {owner : Nat} {kill : Option Nat}  (sub : ∀ p ∈ [.tel, .cells, .frs], p ∈ ps) (fr : Framed ps s0 s) :
    Framed ps s0 (scrubSlots l slots owner kill s) := by
  refine fr.trans (Framed.mono sub ?_)
  clear sub fr
  unfold scrubSlots
  repeat' first
    | with_reducible exact Framed.refl _ _
    | decide
    | with_reducible refine count_frame ?_ ?_
    | with_reducible refine fillOver_frame ?_ ?_
    | with_reducible refine modCell_frame ?_ ?_
    | with_reducible refine Framed.foldl _ (fun _ _ => ?_) _ _ _ ?_
    | with_reducible refine Framed.foldl_fst _ (fun _ _ => ?_) _ _ _ ?_
    | with_reducible refine Framed.ite (fun _ => ?_) (fun _ => ?_)
    | dsimp only [id]
    | split

theorem postDesc_frame {q tag ctx op status detail step sqHead : Nat}  (sub : ∀ p ∈ [.slc], p ∈ ps) (fr : Framed ps s0 s) :
    Framed ps s0 (postDesc q tag ctx op status detail step sqHead s) := by
  refine fr.trans (Framed.mono sub ?_)
  clear sub fr
  unfold postDesc
  repeat' first
    | with_reducible exact Framed.refl _ _
    | decide
    | with_reducible refine post_frame ?_ ?_
    | dsimp only [id]

theorem done_frame {l th : Nat} {f : Thread → Thread}  (sub : ∀ p ∈ [.cells], p ∈ ps) (fr : Framed ps s0 s) :
    Framed ps s0 (done l th f s) := by
  refine fr.trans (Framed.mono sub ?_)
  clear sub fr
  unfold done
  repeat' first
    | with_reducible exact Framed.refl _ _
    | decide
    | with_reducible refine modCell_frame ?_ ?_
    | dsimp only [id]

theorem aoutGo_frame {l : Nat} {cells : List Nat} {o : AoutOp} {p : Prog}  (sub : ∀ p ∈ [.tel, .cells], p ∈ ps) (fr : Framed ps s0 s) :
    Framed ps s0 (aoutGo l cells o p s) := by
  refine fr.trans (Framed.mono sub ?_)
  clear sub fr
  unfold aoutGo
  repeat' first
    | with_reducible exact Framed.refl _ _
    | decide
    | with_reducible refine countN_frame ?_ ?_
    | with_reducible refine done_frame ?_ ?_
    | with_reducible refine modCell_frame ?_ ?_
    | with_reducible refine Framed.foldl _ (fun _ _ => ?_) _ _ _ ?_
    | with_reducible refine Framed.foldl_fst _ (fun _ _ => ?_) _ _ _ ?_
    | with_reducible refine Framed.ite (fun _ => ?_) (fun _ => ?_)
    | dsimp only [id]
    | split

theorem holdDue_frame {c bits : Nat}  (sub : ∀ p ∈ [.ctxs], p ∈ ps) (fr : Framed ps s0 s) :
    Framed ps s0 (holdDue c bits s) := by
  refine fr.trans (Framed.mono sub ?_)
  clear sub fr
  unfold holdDue
  repeat' first
    | with_reducible exact Framed.refl _ _
    | decide
    | with_reducible refine modCtx_frame ?_ ?_
    | dsimp only [id]

theorem stallEvent_frame {unit : Nat}  (sub : ∀ p ∈ [.tel], p ∈ ps) (fr : Framed ps s0 s) :
    Framed ps s0 (stallEvent unit s) := by
  refine fr.trans (Framed.mono sub ?_)
  clear sub fr
  unfold stallEvent
  repeat' first
    | with_reducible exact Framed.refl _ _
    | decide
    | with_reducible refine count_frame ?_ ?_
    | dsimp only [id]

theorem cellStall_frame {l : Nat}  (sub : ∀ p ∈ [.tel], p ∈ ps) (fr : Framed ps s0 s) :
    Framed ps s0 (cellStall l s) := by
  refine fr.trans (Framed.mono sub ?_)
  clear sub fr
  unfold cellStall
  repeat' first
    | with_reducible exact Framed.refl _ _
    | decide
    | with_reducible refine count_frame ?_ ?_
    | with_reducible refine stallEvent_frame ?_ ?_
    | dsimp only [id]

theorem modStream_frame {l bank : Nat} {f : Stream → Stream}  (sub : ∀ p ∈ [.cells], p ∈ ps) (fr : Framed ps s0 s) :
    Framed ps s0 (modStream l bank f s) := by
  refine fr.trans (Framed.mono sub ?_)
  clear sub fr
  unfold modStream
  repeat' first
    | with_reducible exact Framed.refl _ _
    | decide
    | with_reducible refine modCell_frame ?_ ?_
    | with_reducible refine Framed.ite (fun _ => ?_) (fun _ => ?_)
    | dsimp only [id]
    | split

theorem relApply_frame {xs : List (Nat × Nat)}  (sub : ∀ p ∈ [.cells], p ∈ ps) (fr : Framed ps s0 s) :
    Framed ps s0 ((relApply xs s).1) := by
  refine fr.trans (Framed.mono sub ?_)
  clear sub fr
  induction xs generalizing s with
  | nil => exact Framed.refl _ _
  | cons x xs ih =>
    unfold relApply
    split
    · exact (modCell_frame (by decide) (Framed.refl _ _)).trans ih
    · exact Framed.refl _ _

theorem relApply_of {xs : List (Nat × Nat)}  {u : State} {o : Bool} (eq : relApply xs s = (u, o)) (sub : ∀ p ∈ [.cells], p ∈ ps) (fr : Framed ps s0 s) : Framed ps s0 u := by
  have g := @relApply_frame ps s0 s xs sub fr
  rw [eq] at g
  exact g

theorem corrected_frame {l addr : Nat}  (sub : ∀ p ∈ [.out, .err, .tel, .cells], p ∈ ps) (fr : Framed ps s0 s) :
    Framed ps s0 (corrected l addr s) := by
  refine fr.trans (Framed.mono sub ?_)
  clear sub fr
  unfold corrected
  repeat' first
    | with_reducible exact Framed.refl _ _
    | decide
    | with_reducible refine count_frame ?_ ?_
    | with_reducible refine modCell_frame ?_ ?_
    | with_reducible refine raise_frame ?_ ?_
    | dsimp only [id]

theorem send_frame {m : Msg}  (sub : ∀ p ∈ [.fly], p ∈ ps) (fr : Framed ps s0 s) :
    Framed ps s0 (send m s) := by
  refine fr.trans ⟨fun p hp => ?_, Keeps.same rfl rfl rfl⟩
  cases p <;> first | rfl | exact ⟨rfl, rfl⟩ | exact absurd (sub _ (by decide)) hp

theorem askRefetch_frame {l span : Nat} {what : RefetchOf}  (sub : ∀ p ∈ [.fly, .cells], p ∈ ps) (fr : Framed ps s0 s) :
    Framed ps s0 (askRefetch l span what s) := by
  refine fr.trans (Framed.mono sub ?_)
  clear sub fr
  unfold askRefetch
  repeat' first
    | with_reducible exact Framed.refl _ _
    | decide
    | with_reducible refine modCell_frame ?_ ?_
    | with_reducible refine send_frame ?_ ?_
    | dsimp only [id]
    | split

theorem finalAs_frame {l slot code id : Nat}  (sub : ∀ p ∈ [.out, .err, .tel, .cells, .ctxs, .slc], p ∈ ps) (fr : Framed ps s0 s) :
    Framed ps s0 (finalAs l slot code id s) := by
  refine fr.trans (Framed.mono sub ?_)
  clear sub fr
  unfold finalAs
  repeat' first
    | with_reducible exact Framed.refl _ _
    | decide
    | with_reducible refine modCell_frame ?_ ?_
    | with_reducible refine raise_frame ?_ ?_
    | with_reducible refine stepFail_frame ?_ ?_
    | dsimp only [id]
    | split
  all_goals try (with_reducible apply Framed.upd rfl <;> first | exact Or.inl (by decide) | with_reducible exact Or.inr rfl | with_reducible exact Or.inr ⟨rfl, rfl⟩ | with_reducible exact Or.inl ⟨by decide, fun h => h⟩ | with_reducible exact Or.inl ⟨by decide, Nat.le_refl _⟩ | exact Or.inl ⟨by decide, fun h => bwrite_wf _ _ _ h⟩ | exact Or.inl ⟨by decide, fun h => bzero_wf _ _ _ h⟩ | exact Or.inl ⟨by decide, fun _ => rfl⟩ | exact Or.inl ⟨by decide, Err.bounded_q rfl (fun h => by rw [lmod_length]; exact h)⟩ | exact Or.inl ⟨by decide, Err.bounded_q rfl (fun h => h)⟩ | exact Or.inl ⟨by decide, Err.bounded_q rfl (fun h => by rw [List.length_map]; exact h)⟩ | exact Or.inl ⟨by decide, Nat.le_succ _⟩ | exact Or.inl ⟨by decide, Err.bounded_put rfl (fun h => Err.bounded_unit h _) (fun h => h)⟩ | skip)
  repeat' first
    | with_reducible exact Framed.refl _ _
    | decide
    | with_reducible refine modCell_frame ?_ ?_
    | with_reducible refine raise_frame ?_ ?_
    | with_reducible refine stepFail_frame ?_ ?_
    | dsimp only [id]
    | split

theorem finalPoison_frame {l slot code : Nat}  (sub : ∀ p ∈ [.out, .err, .tel, .cells, .ctxs, .slc], p ∈ ps) (fr : Framed ps s0 s) :
    Framed ps s0 (finalPoison l slot code s) := by
  refine fr.trans (Framed.mono sub ?_)
  clear sub fr
  unfold finalPoison
  repeat' first
    | with_reducible exact Framed.refl _ _
    | decide
    | with_reducible refine finalAs_frame ?_ ?_
    | dsimp only [id]

theorem poisonSlot_frame {l slot : Nat}  (sub : ∀ p ∈ [.out, .err, .tel, .fly, .cells, .ctxs, .slc], p ∈ ps) (fr : Framed ps s0 s) :
    Framed ps s0 (poisonSlot l slot s) := by
  refine fr.trans (Framed.mono sub ?_)
  clear sub fr
  unfold poisonSlot
  repeat' first
    | with_reducible exact Framed.refl _ _
    | decide
    | with_reducible refine askRefetch_frame ?_ ?_
    | with_reducible refine finalPoison_frame ?_ ?_
    | with_reducible refine modCell_frame ?_ ?_
    | with_reducible refine Framed.ite (fun _ => ?_) (fun _ => ?_)
    | dsimp only [id]
    | split

theorem suspectCell_frame {l : Nat}  (sub : ∀ p ∈ [.bst], p ∈ ps) (fr : Framed ps s0 s) :
    Framed ps s0 (suspectCell l s) := by
  refine fr.trans (Framed.mono sub ?_)
  clear sub fr
  unfold suspectCell
  repeat' first
    | with_reducible exact Framed.refl _ _
    | decide
    | with_reducible refine Framed.ite (fun _ => ?_) (fun _ => ?_)
    | dsimp only [id]
    | split
  all_goals try (with_reducible apply Framed.upd rfl <;> first | exact Or.inl (by decide) | with_reducible exact Or.inr rfl | with_reducible exact Or.inr ⟨rfl, rfl⟩ | with_reducible exact Or.inl ⟨by decide, fun h => h⟩ | with_reducible exact Or.inl ⟨by decide, Nat.le_refl _⟩ | exact Or.inl ⟨by decide, fun h => bwrite_wf _ _ _ h⟩ | exact Or.inl ⟨by decide, fun h => bzero_wf _ _ _ h⟩ | exact Or.inl ⟨by decide, fun _ => rfl⟩ | exact Or.inl ⟨by decide, Err.bounded_q rfl (fun h => by rw [lmod_length]; exact h)⟩ | exact Or.inl ⟨by decide, Err.bounded_q rfl (fun h => h)⟩ | exact Or.inl ⟨by decide, Err.bounded_q rfl (fun h => by rw [List.length_map]; exact h)⟩ | exact Or.inl ⟨by decide, Nat.le_succ _⟩ | exact Or.inl ⟨by decide, Err.bounded_put rfl (fun h => Err.bounded_unit h _) (fun h => h)⟩ | skip)
  repeat' first
    | with_reducible exact Framed.refl _ _
    | decide
    | with_reducible refine Framed.ite (fun _ => ?_) (fun _ => ?_)
    | dsimp only [id]
    | split

theorem tagFailure_frame {l slot : Nat}  (sub : ∀ p ∈ [.out, .err, .tel, .cells, .ctxs, .slc, .bst], p ∈ ps) (fr : Framed ps s0 s) :
    Framed ps s0 (tagFailure l slot s) := by
  refine fr.trans (Framed.mono sub ?_)
  clear sub fr
  unfold tagFailure
  repeat' first
    | with_reducible exact Framed.refl _ _
    | decide
    | with_reducible refine modCell_frame ?_ ?_
    | with_reducible refine raise_frame ?_ ?_
    | with_reducible refine stepFail_frame ?_ ?_
    | with_reducible refine stopProgram_frame ?_ ?_
    | with_reducible refine suspectCell_frame ?_ ?_
    | dsimp only [id]
    | split

theorem trailerLost_frame {l slot : Nat}  (sub : ∀ p ∈ [.out, .err, .tel, .cells, .ctxs, .slc], p ∈ ps) (fr : Framed ps s0 s) :
    Framed ps s0 (trailerLost l slot s) := by
  refine fr.trans (Framed.mono sub ?_)
  clear sub fr
  unfold trailerLost
  repeat' first
    | with_reducible exact Framed.refl _ _
    | decide
    | with_reducible refine finalAs_frame ?_ ?_
    | with_reducible refine modCell_frame ?_ ?_
    | with_reducible refine Framed.ite (fun _ => ?_) (fun _ => ?_)
    | dsimp only [id]
    | split

theorem eccRead_frame {l addr : Nat} {e : Ecc}  (sub : ∀ p ∈ [.out, .err, .tel, .fly, .cells, .ctxs, .slc, .bst], p ∈ ps) (fr : Framed ps s0 s) :
    Framed ps s0 ((eccRead l addr e s).1) := by
  refine fr.trans (Framed.mono sub ?_)
  clear sub fr
  unfold eccRead
  repeat' first
    | with_reducible exact Framed.refl _ _
    | decide
    | with_reducible refine corrected_frame ?_ ?_
    | with_reducible refine poisonSlot_frame ?_ ?_
    | with_reducible refine tagFailure_frame ?_ ?_
    | with_reducible refine trailerLost_frame ?_ ?_
    | dsimp only [id]
    | split

theorem eccRead_of {l addr : Nat} {e : Ecc}  {u : State} {o : Bool} (eq : eccRead l addr e s = (u, o)) (sub : ∀ p ∈ [.out, .err, .tel, .fly, .cells, .ctxs, .slc, .bst], p ∈ ps) (fr : Framed ps s0 s) : Framed ps s0 u := by
  have g := @eccRead_frame ps s0 s l addr e sub fr
  rw [eq] at g
  exact g

theorem rowRead_frame {l : Nat} {m : Stream} {i : Nat} {r : OpSrc × Nat} {e : Ecc}  (sub : ∀ p ∈ [.out, .err, .tel, .fly, .cells, .ctxs, .slc, .bst], p ∈ ps) (fr : Framed ps s0 s) :
    Framed ps s0 ((rowRead l m i r e s).1) := by
  refine fr.trans (Framed.mono sub ?_)
  clear sub fr
  unfold rowRead
  repeat' first
    | with_reducible exact Framed.refl _ _
    | decide
    | with_reducible refine eccRead_frame ?_ ?_
    | with_reducible refine eccRead_of (by assumption) ?_ ?_
    | with_reducible refine modStream_frame ?_ ?_
    | dsimp only [id]
    | split

theorem rowRead_of {l : Nat} {m : Stream} {i : Nat} {r : OpSrc × Nat} {e : Ecc}  {u : State} {o : Acc75} (eq : rowRead l m i r e s = (u, o)) (sub : ∀ p ∈ [.out, .err, .tel, .fly, .cells, .ctxs, .slc, .bst], p ∈ ps) (fr : Framed ps s0 s) : Framed ps s0 u := by
  have g := @rowRead_frame ps s0 s l m i r e sub fr
  rw [eq] at g
  exact g

theorem rowsRead_frame {l : Nat} {m : Stream} {hit : Nat → Nat → Ecc}  (sub : ∀ p ∈ [.out, .err, .tel, .fly, .cells, .ctxs, .slc, .bst], p ∈ ps) (fr : Framed ps s0 s) :
    Framed ps s0 ((rowsRead l m hit s).1) := by
  refine fr.trans (Framed.mono sub ?_)
  clear sub fr
  unfold rowsRead
  repeat' first
    | with_reducible exact Framed.refl _ _
    | decide
    | with_reducible refine rowRead_frame ?_ ?_
    | with_reducible refine rowRead_of (by assumption) ?_ ?_
    | with_reducible refine Framed.foldl _ (fun _ _ => ?_) _ _ _ ?_
    | with_reducible refine Framed.foldl_fst _ (fun _ _ => ?_) _ _ _ ?_
    | dsimp only [id]
    | split

theorem rowsRead_of {l : Nat} {m : Stream} {hit : Nat → Nat → Ecc}  {u : State} {o : Acc75} (eq : rowsRead l m hit s = (u, o)) (sub : ∀ p ∈ [.out, .err, .tel, .fly, .cells, .ctxs, .slc, .bst], p ∈ ps) (fr : Framed ps s0 s) : Framed ps s0 u := by
  have g := @rowsRead_frame ps s0 s l m hit sub fr
  rw [eq] at g
  exact g

theorem streamRun_frame {l : Nat} {m : Stream}  (sub : ∀ p ∈ [.cells], p ∈ ps) (fr : Framed ps s0 s) :
    Framed ps s0 (streamRun l m s) := by
  refine fr.trans (Framed.mono sub ?_)
  clear sub fr
  unfold streamRun
  repeat' first
    | with_reducible exact Framed.refl _ _
    | decide
    | with_reducible refine modCell_frame ?_ ?_
    | with_reducible refine Framed.foldl _ (fun _ _ => ?_) _ _ _ ?_
    | with_reducible refine Framed.foldl_fst _ (fun _ _ => ?_) _ _ _ ?_
    | dsimp only [id]

theorem streamGo_frame {l bank : Nat} {hit : Nat → Nat → Ecc} {n : Nat}  (sub : ∀ p ∈ [.out, .err, .tel, .fly, .cells, .ctxs, .slc, .bst], p ∈ ps) (fr : Framed ps s0 s) :
    Framed ps s0 (streamGo l bank hit n s) := by
  refine fr.trans (Framed.mono sub ?_)
  clear sub fr
  induction n generalizing s with
  | zero => exact Framed.refl _ _
  | succ n ih =>
  unfold streamGo
  repeat' first
    | with_reducible exact Framed.refl _ _
    | decide
    | with_reducible refine cellStall_frame ?_ ?_
    | with_reducible refine count_frame ?_ ?_
    | with_reducible refine modStream_frame ?_ ?_
    | with_reducible refine relApply_frame ?_ ?_
    | with_reducible refine relApply_of (by assumption) ?_ ?_
    | with_reducible refine rowsRead_frame ?_ ?_
    | with_reducible refine rowsRead_of (by assumption) ?_ ?_
    | with_reducible refine streamRun_frame ?_ ?_
    | with_reducible refine streamTrap_frame ?_ ?_
    | with_reducible refine Framed.trans ?_ ih
    | with_reducible refine Framed.ite (fun _ => ?_) (fun _ => ?_)
    | dsimp only [id]
    | split

theorem arrayGo_frame {l : Nat} {hit : Nat → Nat → Ecc}  (sub : ∀ p ∈ [.out, .err, .tel, .fly, .cells, .ctxs, .slc, .bst], p ∈ ps) (fr : Framed ps s0 s) :
    Framed ps s0 (arrayGo l hit s) := by
  refine fr.trans (Framed.mono sub ?_)
  clear sub fr
  unfold arrayGo
  repeat' first
    | with_reducible exact Framed.refl _ _
    | decide
    | with_reducible refine streamGo_frame ?_ ?_
    | with_reducible refine streamTrap_frame ?_ ?_
    | with_reducible refine Framed.ite (fun _ => ?_) (fun _ => ?_)
    | dsimp only [id]
    | split

theorem regSet_frame {off inst v : Nat}  (sub : ∀ p ∈ [.regs], p ∈ ps) (fr : Framed ps s0 s) :
    Framed ps s0 (regSet off inst v s) := by
  refine fr.trans ⟨fun p hp => ?_, Keeps.same rfl rfl rfl⟩
  cases p <;> first | rfl | exact ⟨rfl, rfl⟩ | exact absurd (sub _ (by decide)) hp

theorem cellDrop_frame {src dst ctx cls : Nat}  (sub : ∀ p ∈ [.out, .err, .tel], p ∈ ps) (fr : Framed ps s0 s) :
    Framed ps s0 (cellDrop src dst ctx cls s) := by
  refine fr.trans (Framed.mono sub ?_)
  clear sub fr
  unfold cellDrop
  repeat' first
    | with_reducible exact Framed.refl _ _
    | decide
    | with_reducible refine count_frame ?_ ?_
    | with_reducible refine raise_frame ?_ ?_
    | with_reducible refine Framed.ite (fun _ => ?_) (fun _ => ?_)
    | dsimp only [id]
    | split

theorem cellKill_frame {l c : Nat}  (sub : ∀ p ∈ [.tel, .cells, .frs], p ∈ ps) (fr : Framed ps s0 s) :
    Framed ps s0 (cellKill l c s) := by
  refine fr.trans (Framed.mono sub ?_)
  clear sub fr
  unfold cellKill
  repeat' first
    | with_reducible exact Framed.refl _ _
    | decide
    | with_reducible refine abandonIf_frame ?_ ?_
    | with_reducible refine modCell_frame ?_ ?_
    | with_reducible refine scrubSlots_frame ?_ ?_
    | with_reducible refine Framed.foldl _ (fun _ _ => ?_) _ _ _ ?_
    | with_reducible refine Framed.foldl_fst _ (fun _ _ => ?_) _ _ _ ?_
    | with_reducible refine Framed.ite (fun _ => ?_) (fun _ => ?_)
    | dsimp only [id]
    | split

theorem chkEng_frame {kind e num n : Nat}  (sub : ∀ p ∈ [.tel], p ∈ ps) (fr : Framed ps s0 s) :
    Framed ps s0 (chkEng kind e num n s) := by
  refine fr.trans (Framed.mono sub ?_)
  clear sub fr
  unfold chkEng
  repeat' first
    | with_reducible exact Framed.refl _ _
    | decide
    | with_reducible refine countN_frame ?_ ?_
    | dsimp only [id]

theorem chkFail_frame {u : Nat} {b : ChkBind} {got : Nat}  (sub : ∀ p ∈ [.out, .err, .tel], p ∈ ps) (fr : Framed ps s0 s) :
    Framed ps s0 (chkFail u b got s) := by
  refine fr.trans (Framed.mono sub ?_)
  clear sub fr
  unfold chkFail
  repeat' first
    | with_reducible exact Framed.refl _ _
    | decide
    | with_reducible refine count_frame ?_ ?_
    | with_reducible refine raise_frame ?_ ?_
    | dsimp only [id]
    | split

theorem countCtxN_frame {block num inst ctx n : Nat}  (sub : ∀ p ∈ [.tel], p ∈ ps) (fr : Framed ps s0 s) :
    Framed ps s0 (countCtxN block num inst ctx n s) := by
  refine fr.trans (Framed.mono sub ?_)
  clear sub fr
  unfold countCtxN
  repeat' first
    | with_reducible exact Framed.refl _ _
    | decide
    | with_reducible refine countN_frame ?_ ?_
    | dsimp only [id]

theorem countDel_frame {num e did : Nat}  (sub : ∀ p ∈ [.tel], p ∈ ps) (fr : Framed ps s0 s) :
    Framed ps s0 (countDel num e did s) := by
  refine fr.trans (Framed.mono sub ?_)
  clear sub fr
  unfold countDel
  repeat' first
    | with_reducible exact Framed.refl _ _
    | decide
    | with_reducible refine count_frame ?_ ?_
    | with_reducible refine Framed.foldl _ (fun _ _ => ?_) _ _ _ ?_
    | with_reducible refine Framed.foldl_fst _ (fun _ _ => ?_) _ _ _ ?_
    | dsimp only [id]

theorem delDropped_frame {e did ctx : Nat}  (sub : ∀ p ∈ [.out, .err, .tel], p ∈ ps) (fr : Framed ps s0 s) :
    Framed ps s0 (delDropped e did ctx s) := by
  refine fr.trans (Framed.mono sub ?_)
  clear sub fr
  unfold delDropped
  repeat' first
    | with_reducible exact Framed.refl _ _
    | decide
    | with_reducible refine raise_frame ?_ ?_
    | dsimp only [id]

theorem delStale_frame {e did l : Nat}  (sub : ∀ p ∈ [.tel, .frs], p ∈ ps) (fr : Framed ps s0 s) :
    Framed ps s0 (delStale e did l s) := by
  refine fr.trans (Framed.mono sub ?_)
  clear sub fr
  unfold delStale
  repeat' first
    | with_reducible exact Framed.refl _ _
    | decide
    | with_reducible refine countDel_frame ?_ ?_
    | with_reducible refine modDel_frame ?_ ?_
    | dsimp only [id]

theorem rillSend_frame {src dst pri kind : Nat} {words : List Nat}  (sub : ∀ p ∈ [.out, .net, .fly], p ∈ ps) (fr : Framed ps s0 s) :
    Framed ps s0 (rillSend src dst pri kind words s) := by
  refine fr.trans (Framed.mono sub ?_)
  clear sub fr
  unfold rillSend
  repeat' first
    | with_reducible exact Framed.refl _ _
    | decide
    | with_reducible refine emit_frame ?_ ?_
    | with_reducible refine send_frame ?_ ?_
    | with_reducible refine Framed.ite (fun _ => ?_) (fun _ => ?_)
    | dsimp only [id]
    | split
  all_goals try (with_reducible apply Framed.upd rfl <;> first | exact Or.inl (by decide) | with_reducible exact Or.inr rfl | with_reducible exact Or.inr ⟨rfl, rfl⟩ | with_reducible exact Or.inl ⟨by decide, fun h => h⟩ | with_reducible exact Or.inl ⟨by decide, Nat.le_refl _⟩ | exact Or.inl ⟨by decide, fun h => bwrite_wf _ _ _ h⟩ | exact Or.inl ⟨by decide, fun h => bzero_wf _ _ _ h⟩ | exact Or.inl ⟨by decide, fun _ => rfl⟩ | exact Or.inl ⟨by decide, Err.bounded_q rfl (fun h => by rw [lmod_length]; exact h)⟩ | exact Or.inl ⟨by decide, Err.bounded_q rfl (fun h => h)⟩ | exact Or.inl ⟨by decide, Err.bounded_q rfl (fun h => by rw [List.length_map]; exact h)⟩ | exact Or.inl ⟨by decide, Nat.le_succ _⟩ | exact Or.inl ⟨by decide, Err.bounded_put rfl (fun h => Err.bounded_unit h _) (fun h => h)⟩ | skip)
  repeat' first
    | with_reducible exact Framed.refl _ _
    | decide
    | with_reducible refine emit_frame ?_ ?_
    | with_reducible refine send_frame ?_ ?_
    | with_reducible refine Framed.ite (fun _ => ?_) (fun _ => ?_)
    | dsimp only [id]
    | split

theorem threadWait_frame {l th : Nat} {i : Sir} {since : Nat}  (sub : ∀ p ∈ [.tel, .cells], p ∈ ps) (fr : Framed ps s0 s) :
    Framed ps s0 (threadWait l th i since s) := by
  refine fr.trans (Framed.mono sub ?_)
  clear sub fr
  unfold threadWait
  repeat' first
    | with_reducible exact Framed.refl _ _
    | decide
    | with_reducible refine cellStall_frame ?_ ?_
    | with_reducible refine modCell_frame ?_ ?_
    | dsimp only [id]

theorem trap_frame {l th : Nat} {c : Cause}  (sub : ∀ p ∈ [.out, .err, .tel, .cells, .ctxs, .slc], p ∈ ps) (fr : Framed ps s0 s) :
    Framed ps s0 (trap l th c s) := by
  refine fr.trans (Framed.mono sub ?_)
  clear sub fr
  unfold trap
  repeat' first
    | with_reducible exact Framed.refl _ _
    | decide
    | with_reducible refine trapAt_frame ?_ ?_
    | dsimp only [id]

theorem goAmm_frame {l th ctx : Nat} {gang : Bool} {i : Sir} {ra rb rk fmt : Nat} {acc : Bool} {bank : Nat} {relA relB : Bool} {since : Nat}  (sub : ∀ p ∈ [.out, .err, .tel, .cells, .ctxs, .slc], p ∈ ps) (fr : Framed ps s0 s) :
    Framed ps s0 (goAmm l th ctx gang i ra rb rk fmt acc bank relA relB since s) := by
  refine fr.trans (Framed.mono sub ?_)
  clear sub fr
  unfold goAmm
  repeat' first
    | with_reducible exact Framed.refl _ _
    | decide
    | with_reducible refine done_frame ?_ ?_
    | with_reducible refine modCell_frame ?_ ?_
    | with_reducible refine threadWait_frame ?_ ?_
    | with_reducible refine trap_frame ?_ ?_
    | with_reducible refine Framed.ite (fun _ => ?_) (fun _ => ?_)
    | dsimp only [id]
    | split

theorem tagRead_frame {l addr : Nat} {e : Ecc}  (sub : ∀ p ∈ [.out, .err, .tel, .cells, .ctxs, .slc, .bst], p ∈ ps) (fr : Framed ps s0 s) :
    Framed ps s0 ((tagRead l addr e s).1) := by
  refine fr.trans (Framed.mono sub ?_)
  clear sub fr
  unfold tagRead
  repeat' first
    | with_reducible exact Framed.refl _ _
    | decide
    | with_reducible refine corrected_frame ?_ ?_
    | with_reducible refine tagFailure_frame ?_ ?_
    | dsimp only [id]
    | split

theorem tagRead_of {l addr : Nat} {e : Ecc}  {u : State} {o : Bool} (eq : tagRead l addr e s = (u, o)) (sub : ∀ p ∈ [.out, .err, .tel, .cells, .ctxs, .slc, .bst], p ∈ ps) (fr : Framed ps s0 s) : Framed ps s0 u := by
  have g := @tagRead_frame ps s0 s l addr e sub fr
  rw [eq] at g
  exact g

theorem goAout_frame {l th ctx : Nat} {gang : Bool} {i : Sir} {rd rc ofmt : Nat} {pub : Bool} {bank : Nat} {since : Nat} {e : Ecc}  (sub : ∀ p ∈ [.out, .err, .tel, .cells, .ctxs, .slc, .bst], p ∈ ps) (fr : Framed ps s0 s) :
    Framed ps s0 (goAout l th ctx gang i rd rc ofmt pub bank since e s) := by
  refine fr.trans (Framed.mono sub ?_)
  clear sub fr
  unfold goAout
  repeat' first
    | with_reducible exact Framed.refl _ _
    | decide
    | with_reducible refine modCell_frame ?_ ?_
    | with_reducible refine tagRead_frame ?_ ?_
    | with_reducible refine tagRead_of (by assumption) ?_ ?_
    | with_reducible refine trap_frame ?_ ?_
    | with_reducible refine Framed.ite (fun _ => ?_) (fun _ => ?_)
    | dsimp only [id]
    | split

theorem leaveOp_frame {l : Nat} {o : RemOp}  (sub : ∀ p ∈ [.fly], p ∈ ps) (fr : Framed ps s0 s) :
    Framed ps s0 (leaveOp l o s) := by
  refine fr.trans (Framed.mono sub ?_)
  clear sub fr
  unfold leaveOp
  repeat' first
    | with_reducible exact Framed.refl _ _
    | decide
    | with_reducible refine send_frame ?_ ?_
    | with_reducible refine Framed.ite (fun _ => ?_) (fun _ => ?_)
    | dsimp only [id]
    | split

theorem pushOp_frame {l : Nat} {o : RemOp}  (sub : ∀ p ∈ [.cells], p ∈ ps) (fr : Framed ps s0 s) :
    Framed ps s0 (pushOp l o s) := by
  refine fr.trans (Framed.mono sub ?_)
  clear sub fr
  unfold pushOp
  repeat' first
    | with_reducible exact Framed.refl _ _
    | decide
    | with_reducible refine modCell_frame ?_ ?_
    | dsimp only [id]

theorem goFetch_frame {l th ctx : Nat} {i : Sir} {ra rl len cnt : Nat} {since : Nat} {e : Ecc}  (sub : ∀ p ∈ [.out, .err, .tel, .fly, .cells, .ctxs, .slc, .bst], p ∈ ps) (fr : Framed ps s0 s) :
    Framed ps s0 (goFetch l th ctx i ra rl len cnt since e s) := by
  refine fr.trans (Framed.mono sub ?_)
  clear sub fr
  unfold goFetch
  repeat' first
    | with_reducible exact Framed.refl _ _
    | decide
    | with_reducible refine done_frame ?_ ?_
    | with_reducible refine leaveOp_frame ?_ ?_
    | with_reducible refine modCell_frame ?_ ?_
    | with_reducible refine pushOp_frame ?_ ?_
    | with_reducible refine tagRead_frame ?_ ?_
    | with_reducible refine tagRead_of (by assumption) ?_ ?_
    | with_reducible refine threadWait_frame ?_ ?_
    | with_reducible refine trap_frame ?_ ?_
    | with_reducible refine Framed.foldl _ (fun _ _ => ?_) _ _ _ ?_
    | with_reducible refine Framed.foldl_fst _ (fun _ _ => ?_) _ _ _ ?_
    | with_reducible refine Framed.ite (fun _ => ?_) (fun _ => ?_)
    | dsimp only [id]
    | split

theorem goLdn_frame {l th ctx : Nat} {i : Sir} {rt rb sz : Nat} {sxb : Bool} {off : Int} {since : Nat} {e : Ecc}  (sub : ∀ p ∈ [.out, .err, .tel, .fly, .cells, .ctxs, .slc, .bst], p ∈ ps) (fr : Framed ps s0 s) :
    Framed ps s0 (goLdn l th ctx i rt rb sz sxb off since e s) := by
  refine fr.trans (Framed.mono sub ?_)
  clear sub fr
  unfold goLdn
  repeat' first
    | with_reducible exact Framed.refl _ _
    | decide
    | with_reducible refine done_frame ?_ ?_
    | with_reducible refine eccRead_frame ?_ ?_
    | with_reducible refine eccRead_of (by assumption) ?_ ?_
    | with_reducible refine threadWait_frame ?_ ?_
    | with_reducible refine trap_frame ?_ ?_
    | with_reducible refine Framed.ite (fun _ => ?_) (fun _ => ?_)
    | dsimp only [id]
    | split

theorem goLdx_frame {l th ctx : Nat} {i : Sir} {rt ra : Nat} {since : Nat}  (sub : ∀ p ∈ [.out, .err, .tel, .fly, .cells, .ctxs, .slc], p ∈ ps) (fr : Framed ps s0 s) :
    Framed ps s0 (goLdx l th ctx i rt ra since s) := by
  refine fr.trans (Framed.mono sub ?_)
  clear sub fr
  unfold goLdx
  repeat' first
    | with_reducible exact Framed.refl _ _
    | decide
    | with_reducible refine leaveOp_frame ?_ ?_
    | with_reducible refine modCell_frame ?_ ?_
    | with_reducible refine pushOp_frame ?_ ?_
    | with_reducible refine threadWait_frame ?_ ?_
    | with_reducible refine trap_frame ?_ ?_
    | with_reducible refine Framed.ite (fun _ => ?_) (fun _ => ?_)
    | dsimp only [id]
    | split

theorem goSend_frame {l th ctx : Nat} {i : Sir} {ra rl len cnt : Nat} {rel : Bool} {since : Nat} {e : Ecc}  (sub : ∀ p ∈ [.out, .err, .tel, .fly, .cells, .ctxs, .slc, .bst], p ∈ ps) (fr : Framed ps s0 s) :
    Framed ps s0 (goSend l th ctx i ra rl len cnt rel since e s) := by
  refine fr.trans (Framed.mono sub ?_)
  clear sub fr
  unfold goSend
  repeat' first
    | with_reducible exact Framed.refl _ _
    | decide
    | with_reducible refine done_frame ?_ ?_
    | with_reducible refine leaveOp_frame ?_ ?_
    | with_reducible refine pushOp_frame ?_ ?_
    | with_reducible refine tagRead_frame ?_ ?_
    | with_reducible refine tagRead_of (by assumption) ?_ ?_
    | with_reducible refine threadWait_frame ?_ ?_
    | with_reducible refine trap_frame ?_ ?_
    | with_reducible refine Framed.ite (fun _ => ?_) (fun _ => ?_)
    | dsimp only [id]
    | split

theorem storeNarrow_frame {l th rt a n : Nat}  (sub : ∀ p ∈ [.cells], p ∈ ps) (fr : Framed ps s0 s) :
    Framed ps s0 (storeNarrow l th rt a n s) := by
  refine fr.trans (Framed.mono sub ?_)
  clear sub fr
  unfold storeNarrow
  repeat' first
    | with_reducible exact Framed.refl _ _
    | decide
    | with_reducible refine done_frame ?_ ?_
    | with_reducible refine modCell_frame ?_ ?_
    | dsimp only [id]

theorem goStn_frame {l th ctx : Nat} {i : Sir} {rt rb sz : Nat} {off : Int} {since : Nat} {e : Ecc}  (sub : ∀ p ∈ [.out, .err, .tel, .fly, .cells, .ctxs, .slc, .bst], p ∈ ps) (fr : Framed ps s0 s) :
    Framed ps s0 (goStn l th ctx i rt rb sz off since e s) := by
  refine fr.trans (Framed.mono sub ?_)
  clear sub fr
  unfold goStn
  repeat' first
    | with_reducible exact Framed.refl _ _
    | decide
    | with_reducible refine eccRead_frame ?_ ?_
    | with_reducible refine eccRead_of (by assumption) ?_ ?_
    | with_reducible refine modCell_frame ?_ ?_
    | with_reducible refine raise_frame ?_ ?_
    | with_reducible refine storeNarrow_frame ?_ ?_
    | with_reducible refine threadWait_frame ?_ ?_
    | with_reducible refine trap_frame ?_ ?_
    | with_reducible refine Framed.ite (fun _ => ?_) (fun _ => ?_)
    | dsimp only [id]
    | split

theorem goTag_frame {l th ctx : Nat} {i : Sir} {op rs rc n slot : Nat} {since : Nat} {e : Ecc}  (sub : ∀ p ∈ [.out, .err, .tel, .cells, .ctxs, .slc, .bst], p ∈ ps) (fr : Framed ps s0 s) :
    Framed ps s0 (goTag l th ctx i op rs rc n slot since e s) := by
  refine fr.trans (Framed.mono sub ?_)
  clear sub fr
  unfold goTag
  repeat' first
    | with_reducible exact Framed.refl _ _
    | decide
    | with_reducible refine done_frame ?_ ?_
    | with_reducible refine modCell_frame ?_ ?_
    | with_reducible refine tagRead_frame ?_ ?_
    | with_reducible refine tagRead_of (by assumption) ?_ ?_
    | with_reducible refine threadWait_frame ?_ ?_
    | with_reducible refine trap_frame ?_ ?_
    | with_reducible refine Framed.foldl _ (fun _ _ => ?_) _ _ _ ?_
    | with_reducible refine Framed.foldl_fst _ (fun _ _ => ?_) _ _ _ ?_
    | with_reducible refine Framed.ite (fun _ => ?_) (fun _ => ?_)
    | dsimp only [id]
    | split

theorem goVld_frame {l th ctx : Nat} {i : Sir} {vt rb : Nat} {rel : Bool} {off : Int} {since : Nat} {e : Ecc}  (sub : ∀ p ∈ [.out, .err, .tel, .fly, .cells, .ctxs, .slc, .bst], p ∈ ps) (fr : Framed ps s0 s) :
    Framed ps s0 (goVld l th ctx i vt rb rel off since e s) := by
  refine fr.trans (Framed.mono sub ?_)
  clear sub fr
  unfold goVld
  repeat' first
    | with_reducible exact Framed.refl _ _
    | decide
    | with_reducible refine done_frame ?_ ?_
    | with_reducible refine eccRead_frame ?_ ?_
    | with_reducible refine eccRead_of (by assumption) ?_ ?_
    | with_reducible refine modCell_frame ?_ ?_
    | with_reducible refine threadWait_frame ?_ ?_
    | with_reducible refine trap_frame ?_ ?_
    | with_reducible refine Framed.ite (fun _ => ?_) (fun _ => ?_)
    | dsimp only [id]
    | split

theorem goVst_frame {l th ctx : Nat} {i : Sir} {vt rb : Nat} {off : Int} {since : Nat} {e : Ecc}  (sub : ∀ p ∈ [.out, .err, .tel, .cells, .ctxs, .slc, .bst], p ∈ ps) (fr : Framed ps s0 s) :
    Framed ps s0 (goVst l th ctx i vt rb off since e s) := by
  refine fr.trans (Framed.mono sub ?_)
  clear sub fr
  unfold goVst
  repeat' first
    | with_reducible exact Framed.refl _ _
    | decide
    | with_reducible refine done_frame ?_ ?_
    | with_reducible refine modCell_frame ?_ ?_
    | with_reducible refine tagRead_frame ?_ ?_
    | with_reducible refine tagRead_of (by assumption) ?_ ?_
    | with_reducible refine threadWait_frame ?_ ?_
    | with_reducible refine trap_frame ?_ ?_
    | with_reducible refine Framed.ite (fun _ => ?_) (fun _ => ?_)
    | dsimp only [id]
    | split

theorem doSir_frame {l th : Nat} {i : Sir} {since : Nat} {e : Ecc}  (sub : ∀ p ∈ [.out, .err, .tel, .fly, .cells, .ctxs, .slc, .bst], p ∈ ps) (fr : Framed ps s0 s) :
    Framed ps s0 (doSir l th i since e s) := by
  refine fr.trans (Framed.mono sub ?_)
  clear sub fr
  unfold doSir
  repeat' first
    | with_reducible exact Framed.refl _ _
    | decide
    | with_reducible refine goAmm_frame ?_ ?_
    | with_reducible refine goAout_frame ?_ ?_
    | with_reducible refine goFetch_frame ?_ ?_
    | with_reducible refine goLdn_frame ?_ ?_
    | with_reducible refine goLdx_frame ?_ ?_
    | with_reducible refine goSend_frame ?_ ?_
    | with_reducible refine goStn_frame ?_ ?_
    | with_reducible refine goTag_frame ?_ ?_
    | with_reducible refine goVld_frame ?_ ?_
    | with_reducible refine goVst_frame ?_ ?_
    | dsimp only [id]
    | split

theorem emits_frame {os : List Out}  (sub : ∀ p ∈ [.out], p ∈ ps) (fr : Framed ps s0 s) :
    Framed ps s0 (emits os s) := by
  refine fr.trans (Framed.mono sub ?_)
  clear sub fr
  unfold emits
  repeat' first
    | with_reducible exact Framed.refl _ _
    | decide
    | with_reducible refine emit_frame ?_ ?_
    | with_reducible refine Framed.foldl _ (fun _ _ => ?_) _ _ _ ?_
    | with_reducible refine Framed.foldl_fst _ (fun _ _ => ?_) _ _ _ ?_
    | dsimp only [id]

theorem errAck_frame {seq : Nat}  (sub : ∀ p ∈ [.err], p ∈ ps) (fr : Framed ps s0 s) :
    Framed ps s0 (errAck seq s) := by
  refine fr.trans ⟨fun p hp => ?_, ⟨Nat.le_refl _, id, Err.bounded_q rfl (fun h => Nat.le_trans (List.length_filter_le _ _) h)⟩⟩
  cases p <;> first | rfl | exact ⟨rfl, rfl⟩ | exact absurd (sub _ (by decide)) hp

theorem errForward_bounded {unit : Nat} (hb : s.err.bounded = true) : (errForward unit s).err.bounded = true := by
  unfold errForward
  dsimp only [emit]
  split
  · exact hb
  · split
    · refine Err.bounded_put (e := s.err) (k := unit) rfl (fun _ => Nat.le_trans (ldel_length_le _ _) (Err.bounded_unit hb unit)) (fun _ => ?_) hb
      simp only [List.length_append, List.length_singleton]
      omega
    · split
      · split
        · rename_i i hi
          have hl := evictIdx_lt hi
          rw [List.length_map] at hl
          have h1 := ldel_length _ _ hl
          have hq := ((Err.bounded_iff _).mp hb).1
          have key : ∀ u : State, u.err.units = s.err.units → u.err.q = ldel s.err.q i →
              ({ u.err with units := tset u.err.units unit { tget s.err.units unit {} with q := ldel (tget s.err.units unit {}).q (forwardIdx (tget s.err.units unit {}).q) }, q := u.err.q ++ [{ r := { (by assumption : ErrRec) with seq := u.err.nextSeq } }], nextSeq := (u.err.nextSeq + 1) % 2 ^ 32 } : Err).bounded = true := by
            intro u hu hq'
            refine Err.bounded_put (e := s.err) (k := unit) (by dsimp only; rw [hu]) (fun _ => Nat.le_trans (ldel_length_le _ _) (Err.bounded_unit hb unit)) (fun _ => ?_) hb
            dsimp only
            rw [hq']
            simp only [List.length_append, List.length_singleton]
            omega
          split
          · split <;> exact key _ rfl rfl
          · exact key _ rfl rfl
        · exact hb
      · exact hb

theorem errForward_frame {unit : Nat}  (sub : ∀ p ∈ [.out, .err], p ∈ ps) (fr : Framed ps s0 s) :
    Framed ps s0 (errForward unit s) := by
  refine fr.trans ⟨Frame.mono sub ?_, ⟨?_, ?_, errForward_bounded⟩⟩
  · unfold errForward
    dsimp only
    repeat' split
    all_goals (intro p hp; cases p <;> first | rfl | exact ⟨rfl, rfl⟩ | exact absurd (by decide) hp)
  · unfold errForward
    dsimp only
    repeat' split
    all_goals exact Nat.le_refl _
  · unfold errForward
    dsimp only
    repeat' split
    all_goals exact id

theorem fetchGo_frame {l th : Nat} {e : Ecc} {f : Prog → State → State} (sub : ∀ p ∈ [.out, .err, .tel, .fly, .cells, .ctxs, .slc, .bst], p ∈ ps) (hf : ∀ p t, Framed ps t (f p t)) (fr : Framed ps s0 s) : Framed ps s0 (fetchGo l th e f s) := by
  unfold fetchGo
  repeat' first
    | with_reducible exact Framed.refl _ _
    | decide
    | with_reducible refine corrected_frame ?_ ?_
    | with_reducible refine poisonSlot_frame ?_ ?_
    | with_reducible refine tagFailure_frame ?_ ?_
    | with_reducible refine trap_frame ?_ ?_
    | with_reducible refine Framed.trans ?_ (hf _ _)
    | exact fr
    | (intro p hp; exact sub p (by revert p; decide))
    | with_reducible refine Framed.ite (fun _ => ?_) (fun _ => ?_)
    | dsimp only [id]
    | split

theorem finishProgram_frame {l : Nat}  (sub : ∀ p ∈ [.cells], p ∈ ps) (fr : Framed ps s0 s) :
    Framed ps s0 (finishProgram l s) := by
  refine fr.trans (Framed.mono sub ?_)
  clear sub fr
  unfold finishProgram
  repeat' first
    | with_reducible exact Framed.refl _ _
    | decide
    | with_reducible refine modCell_frame ?_ ?_
    | with_reducible refine Framed.ite (fun _ => ?_) (fun _ => ?_)
    | dsimp only [id]
    | split

theorem flagRead_frame {l addr : Nat} {e : Ecc}  (sub : ∀ p ∈ [.out, .err, .tel, .fly, .cells, .ctxs, .slc], p ∈ ps) (fr : Framed ps s0 s) :
    Framed ps s0 (flagRead l addr e s) := by
  refine fr.trans (Framed.mono sub ?_)
  clear sub fr
  unfold flagRead
  repeat' first
    | with_reducible exact Framed.refl _ _
    | decide
    | with_reducible refine corrected_frame ?_ ?_
    | with_reducible refine modCell_frame ?_ ?_
    | with_reducible refine poisonSlot_frame ?_ ?_
    | with_reducible refine raise_frame ?_ ?_
    | with_reducible refine trailerLost_frame ?_ ?_
    | with_reducible refine Framed.ite (fun _ => ?_) (fun _ => ?_)
    | dsimp only [id]
    | split

theorem issue_frame {l th : Nat} {i : Sir} {e : Ecc}  (sub : ∀ p ∈ [.out, .err, .tel, .fly, .cells, .ctxs, .slc, .bst], p ∈ ps) (fr : Framed ps s0 s) :
    Framed ps s0 (issue l th i e s) := by
  refine fr.trans (Framed.mono sub ?_)
  clear sub fr
  unfold issue
  repeat' first
    | with_reducible exact Framed.refl _ _
    | decide
    | with_reducible refine doSir_frame ?_ ?_
    | with_reducible refine fetchGo_frame ?_ (fun _ _ => ?_) ?_
    | with_reducible refine Framed.ite (fun _ => ?_) (fun _ => ?_)
    | dsimp only [id]
    | split
  all_goals try (with_reducible apply Framed.upd rfl <;> first | exact Or.inl (by decide) | with_reducible exact Or.inr rfl | with_reducible exact Or.inr ⟨rfl, rfl⟩ | with_reducible exact Or.inl ⟨by decide, fun h => h⟩ | with_reducible exact Or.inl ⟨by decide, Nat.le_refl _⟩ | exact Or.inl ⟨by decide, fun h => bwrite_wf _ _ _ h⟩ | exact Or.inl ⟨by decide, fun h => bzero_wf _ _ _ h⟩ | exact Or.inl ⟨by decide, fun _ => rfl⟩ | exact Or.inl ⟨by decide, Err.bounded_q rfl (fun h => by rw [lmod_length]; exact h)⟩ | exact Or.inl ⟨by decide, Err.bounded_q rfl (fun h => h)⟩ | exact Or.inl ⟨by decide, Err.bounded_q rfl (fun h => by rw [List.length_map]; exact h)⟩ | exact Or.inl ⟨by decide, Nat.le_succ _⟩ | exact Or.inl ⟨by decide, Err.bounded_put rfl (fun h => Err.bounded_unit h _) (fun h => h)⟩ | skip)
  repeat' first
    | with_reducible exact Framed.refl _ _
    | decide
    | with_reducible refine doSir_frame ?_ ?_
    | with_reducible refine fetchGo_frame ?_ (fun _ _ => ?_) ?_
    | with_reducible refine Framed.ite (fun _ => ?_) (fun _ => ?_)
    | dsimp only [id]
    | split
  all_goals try (with_reducible apply Framed.upd rfl <;> first | exact Or.inl (by decide) | with_reducible exact Or.inr rfl | with_reducible exact Or.inr ⟨rfl, rfl⟩ | with_reducible exact Or.inl ⟨by decide, fun h => h⟩ | with_reducible exact Or.inl ⟨by decide, Nat.le_refl _⟩ | exact Or.inl ⟨by decide, fun h => bwrite_wf _ _ _ h⟩ | exact Or.inl ⟨by decide, fun h => bzero_wf _ _ _ h⟩ | exact Or.inl ⟨by decide, fun _ => rfl⟩ | exact Or.inl ⟨by decide, Err.bounded_q rfl (fun h => by rw [lmod_length]; exact h)⟩ | exact Or.inl ⟨by decide, Err.bounded_q rfl (fun h => h)⟩ | exact Or.inl ⟨by decide, Err.bounded_q rfl (fun h => by rw [List.length_map]; exact h)⟩ | exact Or.inl ⟨by decide, Nat.le_succ _⟩ | exact Or.inl ⟨by decide, Err.bounded_put rfl (fun h => Err.bounded_unit h _) (fun h => h)⟩ | skip)
  repeat' first
    | with_reducible exact Framed.refl _ _
    | decide
    | with_reducible refine doSir_frame ?_ ?_
    | with_reducible refine fetchGo_frame ?_ (fun _ _ => ?_) ?_
    | with_reducible refine Framed.ite (fun _ => ?_) (fun _ => ?_)
    | dsimp only [id]
    | split
  all_goals try (with_reducible apply Framed.upd rfl <;> first | exact Or.inl (by decide) | with_reducible exact Or.inr rfl | with_reducible exact Or.inr ⟨rfl, rfl⟩ | with_reducible exact Or.inl ⟨by decide, fun h => h⟩ | with_reducible exact Or.inl ⟨by decide, Nat.le_refl _⟩ | exact Or.inl ⟨by decide, fun h => bwrite_wf _ _ _ h⟩ | exact Or.inl ⟨by decide, fun h => bzero_wf _ _ _ h⟩ | exact Or.inl ⟨by decide, fun _ => rfl⟩ | exact Or.inl ⟨by decide, Err.bounded_q rfl (fun h => by rw [lmod_length]; exact h)⟩ | exact Or.inl ⟨by decide, Err.bounded_q rfl (fun h => h)⟩ | exact Or.inl ⟨by decide, Err.bounded_q rfl (fun h => by rw [List.length_map]; exact h)⟩ | exact Or.inl ⟨by decide, Nat.le_succ _⟩ | exact Or.inl ⟨by decide, Err.bounded_put rfl (fun h => Err.bounded_unit h _) (fun h => h)⟩ | skip)
  repeat' first
    | with_reducible exact Framed.refl _ _
    | decide
    | with_reducible refine doSir_frame ?_ ?_
    | with_reducible refine fetchGo_frame ?_ (fun _ _ => ?_) ?_
    | with_reducible refine Framed.ite (fun _ => ?_) (fun _ => ?_)
    | dsimp only [id]
    | split

theorem killReport_frame {l c : Nat}  (sub : ∀ p ∈ [.ctxs], p ∈ ps) (fr : Framed ps s0 s) :
    Framed ps s0 (killReport l c s) := by
  refine fr.trans (Framed.mono sub ?_)
  clear sub fr
  unfold killReport
  repeat' first
    | with_reducible exact Framed.refl _ _
    | decide
    | with_reducible refine modCtx_frame ?_ ?_
    | dsimp only [id]

theorem landCorrupt_frame {l : Nat} {f : Fill} {refetch : Bool}  (sub : ∀ p ∈ [.out, .err, .tel, .fly, .cells, .ctxs, .slc, .frs], p ∈ ps) (fr : Framed ps s0 s) :
    Framed ps s0 (landCorrupt l f refetch s) := by
  refine fr.trans (Framed.mono sub ?_)
  clear sub fr
  unfold landCorrupt
  repeat' first
    | with_reducible exact Framed.refl _ _
    | decide
    | with_reducible refine askRefetch_frame ?_ ?_
    | with_reducible refine count_frame ?_ ?_
    | with_reducible refine delEnded_frame ?_ ?_
    | with_reducible refine fillOver_frame ?_ ?_
    | with_reducible refine finalAs_frame ?_ ?_
    | with_reducible refine leaveOp_frame ?_ ?_
    | with_reducible refine modCell_frame ?_ ?_
    | with_reducible refine send_frame ?_ ?_
    | with_reducible refine Framed.ite (fun _ => ?_) (fun _ => ?_)
    | dsimp only [id]
    | split

theorem landData_frame {l : Nat} {f : Fill} {t : Tag → Tag}  (sub : ∀ p ∈ [.cells], p ∈ ps) (fr : Framed ps s0 s) :
    Framed ps s0 (landData l f t s) := by
  refine fr.trans (Framed.mono sub ?_)
  clear sub fr
  unfold landData
  repeat' first
    | with_reducible exact Framed.refl _ _
    | decide
    | with_reducible refine modCell_frame ?_ ?_
    | with_reducible refine Framed.foldl _ (fun _ _ => ?_) _ _ _ ?_
    | with_reducible refine Framed.foldl_fst _ (fun _ _ => ?_) _ _ _ ?_
    | dsimp only [id]

theorem landTile_frame {l : Nat} {f : Fill} {refetch : Bool}  (sub : ∀ p ∈ [.out, .err, .tel, .cells], p ∈ ps) (fr : Framed ps s0 s) :
    Framed ps s0 (landTile l f refetch s) := by
  refine fr.trans (Framed.mono sub ?_)
  clear sub fr
  unfold landTile
  repeat' first
    | with_reducible exact Framed.refl _ _
    | decide
    | with_reducible refine count_frame ?_ ?_
    | with_reducible refine landData_frame ?_ ?_
    | with_reducible refine modCell_frame ?_ ?_
    | with_reducible refine raise_frame ?_ ?_
    | with_reducible refine Framed.ite (fun _ => ?_) (fun _ => ?_)
    | dsimp only [id]
    | split

theorem staleFill_frame {l : Nat} {f : Fill} {refetch : Bool}  (sub : ∀ p ∈ [.out, .err, .tel, .fly, .cells, .ctxs, .slc, .frs], p ∈ ps) (fr : Framed ps s0 s) :
    Framed ps s0 (staleFill l f refetch s) := by
  refine fr.trans (Framed.mono sub ?_)
  clear sub fr
  unfold staleFill
  repeat' first
    | with_reducible exact Framed.refl _ _
    | decide
    | with_reducible refine count_frame ?_ ?_
    | with_reducible refine delStale_frame ?_ ?_
    | with_reducible refine landCorrupt_frame ?_ ?_
    | with_reducible refine Framed.ite (fun _ => ?_) (fun _ => ?_)
    | dsimp only [id]
    | split

theorem landSpan_frame {l : Nat} {f : Fill} {refetch : Bool}  (sub : ∀ p ∈ [.out, .err, .tel, .fly, .cells, .ctxs, .slc, .frs], p ∈ ps) (fr : Framed ps s0 s) :
    Framed ps s0 (landSpan l f refetch s) := by
  refine fr.trans (Framed.mono sub ?_)
  clear sub fr
  unfold landSpan
  repeat' first
    | with_reducible exact Framed.refl _ _
    | decide
    | with_reducible refine fillOver_frame ?_ ?_
    | with_reducible refine landCorrupt_frame ?_ ?_
    | with_reducible refine landTile_frame ?_ ?_
    | with_reducible refine staleFill_frame ?_ ?_
    | with_reducible refine Framed.ite (fun _ => ?_) (fun _ => ?_)
    | dsimp only [id]
    | split

theorem landFill_frame {l : Nat} {f : Fill}  (sub : ∀ p ∈ [.out, .err, .tel, .fly, .cells, .ctxs, .slc, .frs], p ∈ ps) (fr : Framed ps s0 s) :
    Framed ps s0 (landFill l f s) := by
  refine fr.trans (Framed.mono sub ?_)
  clear sub fr
  unfold landFill
  repeat' first
    | with_reducible exact Framed.refl _ _
    | decide
    | with_reducible refine cellStall_frame ?_ ?_
    | with_reducible refine count_frame ?_ ?_
    | with_reducible refine fillOver_frame ?_ ?_
    | with_reducible refine finalPoison_frame ?_ ?_
    | with_reducible refine landData_frame ?_ ?_
    | with_reducible refine landSpan_frame ?_ ?_
    | with_reducible refine modCell_frame ?_ ?_
    | with_reducible refine send_frame ?_ ?_
    | with_reducible refine Framed.foldl _ (fun _ _ => ?_) _ _ _ ?_
    | with_reducible refine Framed.foldl_fst _ (fun _ _ => ?_) _ _ _ ?_
    | with_reducible refine Framed.ite (fun _ => ?_) (fun _ => ?_)
    | dsimp only [id]
    | split

theorem lateEvent_frame {unit : Nat}  (sub : ∀ p ∈ [.tel], p ∈ ps) (fr : Framed ps s0 s) :
    Framed ps s0 (lateEvent unit s) := by
  refine fr.trans (Framed.mono sub ?_)
  clear sub fr
  unfold lateEvent
  repeat' first
    | with_reducible exact Framed.refl _ _
    | decide
    | with_reducible refine count_frame ?_ ?_
    | dsimp only [id]

theorem modOp_frame {l op : Nat} {f : RemOp → RemOp}  (sub : ∀ p ∈ [.cells], p ∈ ps) (fr : Framed ps s0 s) :
    Framed ps s0 (modOp l op f s) := by
  refine fr.trans (Framed.mono sub ?_)
  clear sub fr
  unfold modOp
  repeat' first
    | with_reducible exact Framed.refl _ _
    | decide
    | with_reducible refine modCell_frame ?_ ?_
    | with_reducible refine Framed.ite (fun _ => ?_) (fun _ => ?_)
    | dsimp only [id]
    | split

theorem modStep_frame {c n : Nat} {f : Step → Step}  (sub : ∀ p ∈ [.ctxs], p ∈ ps) (fr : Framed ps s0 s) :
    Framed ps s0 (modStep c n f s) := by
  refine fr.trans (Framed.mono sub ?_)
  clear sub fr
  unfold modStep
  repeat' first
    | with_reducible exact Framed.refl _ _
    | decide
    | with_reducible refine modCtx_frame ?_ ?_
    | with_reducible refine Framed.ite (fun _ => ?_) (fun _ => ?_)
    | dsimp only [id]
    | split

theorem opTrap_frame {l : Nat} {o : RemOp} {c : Cause}  (sub : ∀ p ∈ [.out, .err, .tel, .cells, .ctxs, .slc], p ∈ ps) (fr : Framed ps s0 s) :
    Framed ps s0 (opTrap l o c s) := by
  refine fr.trans (Framed.mono sub ?_)
  clear sub fr
  unfold opTrap
  repeat' first
    | with_reducible exact Framed.refl _ _
    | decide
    | with_reducible refine trapLate_frame ?_ ?_
    | dsimp only [id]

theorem refly_frame {i : Nat} {m : Msg}  (sub : ∀ p ∈ [.fly], p ∈ ps) (fr : Framed ps s0 s) :
    Framed ps s0 (refly i m s) := by
  refine fr.trans ⟨fun p hp => ?_, Keeps.same rfl rfl rfl⟩
  cases p <;> first | rfl | exact ⟨rfl, rfl⟩ | exact absurd (sub _ (by decide)) hp

theorem unfly_frame {i : Nat}  (sub : ∀ p ∈ [.fly], p ∈ ps) (fr : Framed ps s0 s) :
    Framed ps s0 (unfly i s) := by
  refine fr.trans ⟨fun p hp => ?_, Keeps.same rfl rfl rfl⟩
  cases p <;> first | rfl | exact ⟨rfl, rfl⟩ | exact absurd (sub _ (by decide)) hp

theorem plain_frame {l th : Nat} {e : Ecc} {f : Prog → State → State} (sub : ∀ p ∈ [.out, .err, .tel, .fly, .cells, .ctxs, .slc, .bst], p ∈ ps) (hf : ∀ p t, Framed ps t (f p t)) (fr : Framed ps s0 s) : Framed ps s0 (plain l th e f s) := by
  unfold plain
  repeat' first
    | with_reducible exact Framed.refl _ _
    | decide
    | with_reducible refine fetchGo_frame ?_ (fun _ _ => ?_) ?_
    | with_reducible refine Framed.trans ?_ (hf _ _)
    | exact fr
    | (intro p hp; exact sub p (by revert p; decide))
    | with_reducible refine Framed.ite (fun _ => ?_) (fun _ => ?_)
    | dsimp only [id]
    | split
  all_goals try (with_reducible apply Framed.upd rfl <;> first | exact Or.inl (by decide) | with_reducible exact Or.inr rfl | with_reducible exact Or.inr ⟨rfl, rfl⟩ | with_reducible exact Or.inl ⟨by decide, fun h => h⟩ | with_reducible exact Or.inl ⟨by decide, Nat.le_refl _⟩ | exact Or.inl ⟨by decide, fun h => bwrite_wf _ _ _ h⟩ | exact Or.inl ⟨by decide, fun h => bzero_wf _ _ _ h⟩ | exact Or.inl ⟨by decide, fun _ => rfl⟩ | exact Or.inl ⟨by decide, Err.bounded_q rfl (fun h => by rw [lmod_length]; exact h)⟩ | exact Or.inl ⟨by decide, Err.bounded_q rfl (fun h => h)⟩ | exact Or.inl ⟨by decide, Err.bounded_q rfl (fun h => by rw [List.length_map]; exact h)⟩ | exact Or.inl ⟨by decide, Nat.le_succ _⟩ | exact Or.inl ⟨by decide, Err.bounded_put rfl (fun h => Err.bounded_unit h _) (fun h => h)⟩ | skip)
  repeat' first
    | with_reducible exact Framed.refl _ _
    | decide
    | with_reducible refine fetchGo_frame ?_ (fun _ _ => ?_) ?_
    | with_reducible refine Framed.trans ?_ (hf _ _)
    | exact fr
    | (intro p hp; exact sub p (by revert p; decide))
    | with_reducible refine Framed.ite (fun _ => ?_) (fun _ => ?_)
    | dsimp only [id]
    | split
  all_goals try (with_reducible apply Framed.upd rfl <;> first | exact Or.inl (by decide) | with_reducible exact Or.inr rfl | with_reducible exact Or.inr ⟨rfl, rfl⟩ | with_reducible exact Or.inl ⟨by decide, fun h => h⟩ | with_reducible exact Or.inl ⟨by decide, Nat.le_refl _⟩ | exact Or.inl ⟨by decide, fun h => bwrite_wf _ _ _ h⟩ | exact Or.inl ⟨by decide, fun h => bzero_wf _ _ _ h⟩ | exact Or.inl ⟨by decide, fun _ => rfl⟩ | exact Or.inl ⟨by decide, Err.bounded_q rfl (fun h => by rw [lmod_length]; exact h)⟩ | exact Or.inl ⟨by decide, Err.bounded_q rfl (fun h => h)⟩ | exact Or.inl ⟨by decide, Err.bounded_q rfl (fun h => by rw [List.length_map]; exact h)⟩ | exact Or.inl ⟨by decide, Nat.le_succ _⟩ | exact Or.inl ⟨by decide, Err.bounded_put rfl (fun h => Err.bounded_unit h _) (fun h => h)⟩ | skip)
  repeat' first
    | with_reducible exact Framed.refl _ _
    | decide
    | with_reducible refine fetchGo_frame ?_ (fun _ _ => ?_) ?_
    | with_reducible refine Framed.trans ?_ (hf _ _)
    | exact fr
    | (intro p hp; exact sub p (by revert p; decide))
    | with_reducible refine Framed.ite (fun _ => ?_) (fun _ => ?_)
    | dsimp only [id]
    | split
  all_goals try (with_reducible apply Framed.upd rfl <;> first | exact Or.inl (by decide) | with_reducible exact Or.inr rfl | with_reducible exact Or.inr ⟨rfl, rfl⟩ | with_reducible exact Or.inl ⟨by decide, fun h => h⟩ | with_reducible exact Or.inl ⟨by decide, Nat.le_refl _⟩ | exact Or.inl ⟨by decide, fun h => bwrite_wf _ _ _ h⟩ | exact Or.inl ⟨by decide, fun h => bzero_wf _ _ _ h⟩ | exact Or.inl ⟨by decide, fun _ => rfl⟩ | exact Or.inl ⟨by decide, Err.bounded_q rfl (fun h => by rw [lmod_length]; exact h)⟩ | exact Or.inl ⟨by decide, Err.bounded_q rfl (fun h => h)⟩ | exact Or.inl ⟨by decide, Err.bounded_q rfl (fun h => by rw [List.length_map]; exact h)⟩ | exact Or.inl ⟨by decide, Nat.le_succ _⟩ | exact Or.inl ⟨by decide, Err.bounded_put rfl (fun h => Err.bounded_unit h _) (fun h => h)⟩ | skip)
  repeat' first
    | with_reducible exact Framed.refl _ _
    | decide
    | with_reducible refine fetchGo_frame ?_ (fun _ _ => ?_) ?_
    | with_reducible refine Framed.trans ?_ (hf _ _)
    | exact fr
    | (intro p hp; exact sub p (by revert p; decide))
    | with_reducible refine Framed.ite (fun _ => ?_) (fun _ => ?_)
    | dsimp only [id]
    | split

theorem sendLook_frame {l : Nat} {r : RemOp}  (sub : ∀ p ∈ [.out, .err, .tel, .cells, .ctxs, .slc], p ∈ ps) (fr : Framed ps s0 s) :
    Framed ps s0 ((sendLook l r s).1) := by
  refine fr.trans (Framed.mono sub ?_)
  clear sub fr
  unfold sendLook
  repeat' first
    | with_reducible exact Framed.refl _ _
    | decide
    | with_reducible refine cellStall_frame ?_ ?_
    | with_reducible refine dropOp_frame ?_ ?_
    | with_reducible refine opTrap_frame ?_ ?_
    | dsimp only [id]
    | split

theorem sendLook_of {l : Nat} {r : RemOp}  {u : State} {o : SrcRead} (eq : sendLook l r s = (u, o)) (sub : ∀ p ∈ [.out, .err, .tel, .cells, .ctxs, .slc], p ∈ ps) (fr : Framed ps s0 s) : Framed ps s0 u := by
  have g := @sendLook_frame ps s0 s l r sub fr
  rw [eq] at g
  exact g

theorem readSend_frame {l : Nat} {r : RemOp} {e : Ecc}  (sub : ∀ p ∈ [.out, .err, .tel, .fly, .cells, .ctxs, .slc, .bst], p ∈ ps) (fr : Framed ps s0 s) :
    Framed ps s0 ((readSend l r e s).1) := by
  refine fr.trans (Framed.mono sub ?_)
  clear sub fr
  unfold readSend
  repeat' first
    | with_reducible exact Framed.refl _ _
    | decide
    | with_reducible refine dropOp_frame ?_ ?_
    | with_reducible refine eccRead_frame ?_ ?_
    | with_reducible refine eccRead_of (by assumption) ?_ ?_
    | with_reducible refine sendLook_frame ?_ ?_
    | with_reducible refine sendLook_of (by assumption) ?_ ?_
    | with_reducible refine Framed.ite (fun _ => ?_) (fun _ => ?_)
    | dsimp only [id]
    | split
  all_goals try (with_reducible apply Framed.upd rfl <;> first | exact Or.inl (by decide) | with_reducible exact Or.inr rfl | with_reducible exact Or.inr ⟨rfl, rfl⟩ | with_reducible exact Or.inl ⟨by decide, fun h => h⟩ | with_reducible exact Or.inl ⟨by decide, Nat.le_refl _⟩ | exact Or.inl ⟨by decide, fun h => bwrite_wf _ _ _ h⟩ | exact Or.inl ⟨by decide, fun h => bzero_wf _ _ _ h⟩ | exact Or.inl ⟨by decide, fun _ => rfl⟩ | exact Or.inl ⟨by decide, Err.bounded_q rfl (fun h => by rw [lmod_length]; exact h)⟩ | exact Or.inl ⟨by decide, Err.bounded_q rfl (fun h => h)⟩ | exact Or.inl ⟨by decide, Err.bounded_q rfl (fun h => by rw [List.length_map]; exact h)⟩ | exact Or.inl ⟨by decide, Nat.le_succ _⟩ | exact Or.inl ⟨by decide, Err.bounded_put rfl (fun h => Err.bounded_unit h _) (fun h => h)⟩ | skip)
  repeat' first
    | with_reducible exact Framed.refl _ _
    | decide
    | with_reducible refine dropOp_frame ?_ ?_
    | with_reducible refine eccRead_frame ?_ ?_
    | with_reducible refine eccRead_of (by assumption) ?_ ?_
    | with_reducible refine sendLook_frame ?_ ?_
    | with_reducible refine sendLook_of (by assumption) ?_ ?_
    | with_reducible refine Framed.ite (fun _ => ?_) (fun _ => ?_)
    | dsimp only [id]
    | split
  all_goals try (with_reducible apply Framed.upd rfl <;> first | exact Or.inl (by decide) | with_reducible exact Or.inr rfl | with_reducible exact Or.inr ⟨rfl, rfl⟩ | with_reducible exact Or.inl ⟨by decide, fun h => h⟩ | with_reducible exact Or.inl ⟨by decide, Nat.le_refl _⟩ | exact Or.inl ⟨by decide, fun h => bwrite_wf _ _ _ h⟩ | exact Or.inl ⟨by decide, fun h => bzero_wf _ _ _ h⟩ | exact Or.inl ⟨by decide, fun _ => rfl⟩ | exact Or.inl ⟨by decide, Err.bounded_q rfl (fun h => by rw [lmod_length]; exact h)⟩ | exact Or.inl ⟨by decide, Err.bounded_q rfl (fun h => h)⟩ | exact Or.inl ⟨by decide, Err.bounded_q rfl (fun h => by rw [List.length_map]; exact h)⟩ | exact Or.inl ⟨by decide, Nat.le_succ _⟩ | exact Or.inl ⟨by decide, Err.bounded_put rfl (fun h => Err.bounded_unit h _) (fun h => h)⟩ | skip)
  repeat' first
    | with_reducible exact Framed.refl _ _
    | decide
    | with_reducible refine dropOp_frame ?_ ?_
    | with_reducible refine eccRead_frame ?_ ?_
    | with_reducible refine eccRead_of (by assumption) ?_ ?_
    | with_reducible refine sendLook_frame ?_ ?_
    | with_reducible refine sendLook_of (by assumption) ?_ ?_
    | with_reducible refine Framed.ite (fun _ => ?_) (fun _ => ?_)
    | dsimp only [id]
    | split
  all_goals try (with_reducible apply Framed.upd rfl <;> first | exact Or.inl (by decide) | with_reducible exact Or.inr rfl | with_reducible exact Or.inr ⟨rfl, rfl⟩ | with_reducible exact Or.inl ⟨by decide, fun h => h⟩ | with_reducible exact Or.inl ⟨by decide, Nat.le_refl _⟩ | exact Or.inl ⟨by decide, fun h => bwrite_wf _ _ _ h⟩ | exact Or.inl ⟨by decide, fun h => bzero_wf _ _ _ h⟩ | exact Or.inl ⟨by decide, fun _ => rfl⟩ | exact Or.inl ⟨by decide, Err.bounded_q rfl (fun h => by rw [lmod_length]; exact h)⟩ | exact Or.inl ⟨by decide, Err.bounded_q rfl (fun h => h)⟩ | exact Or.inl ⟨by decide, Err.bounded_q rfl (fun h => by rw [List.length_map]; exact h)⟩ | exact Or.inl ⟨by decide, Nat.le_succ _⟩ | exact Or.inl ⟨by decide, Err.bounded_put rfl (fun h => Err.bounded_unit h _) (fun h => h)⟩ | skip)
  repeat' first
    | with_reducible exact Framed.refl _ _
    | decide
    | with_reducible refine dropOp_frame ?_ ?_
    | with_reducible refine eccRead_frame ?_ ?_
    | with_reducible refine eccRead_of (by assumption) ?_ ?_
    | with_reducible refine sendLook_frame ?_ ?_
    | with_reducible refine sendLook_of (by assumption) ?_ ?_
    | with_reducible refine Framed.ite (fun _ => ?_) (fun _ => ?_)
    | dsimp only [id]
    | split

theorem readSend_of {l : Nat} {r : RemOp} {e : Ecc}  {u : State} {o : SrcRead} (eq : readSend l r e s = (u, o)) (sub : ∀ p ∈ [.out, .err, .tel, .fly, .cells, .ctxs, .slc, .bst], p ∈ ps) (fr : Framed ps s0 s) : Framed ps s0 u := by
  have g := @readSend_frame ps s0 s l r e sub fr
  rw [eq] at g
  exact g

theorem unpend_frame {l : Nat} {o : RemOp}  (sub : ∀ p ∈ [.cells], p ∈ ps) (fr : Framed ps s0 s) :
    Framed ps s0 (unpend l o s) := by
  refine fr.trans (Framed.mono sub ?_)
  clear sub fr
  unfold unpend
  repeat' first
    | with_reducible exact Framed.refl _ _
    | decide
    | with_reducible refine modCell_frame ?_ ?_
    | with_reducible refine Framed.foldl _ (fun _ _ => ?_) _ _ _ ?_
    | with_reducible refine Framed.foldl_fst _ (fun _ _ => ?_) _ _ _ ?_
    | with_reducible refine Framed.ite (fun _ => ?_) (fun _ => ?_)
    | dsimp only [id]
    | split

theorem refuseOp_frame {l op : Nat}  (sub : ∀ p ∈ [.out, .err, .tel, .cells, .ctxs, .slc], p ∈ ps) (fr : Framed ps s0 s) :
    Framed ps s0 (refuseOp l op s) := by
  refine fr.trans (Framed.mono sub ?_)
  clear sub fr
  unfold refuseOp
  repeat' first
    | with_reducible exact Framed.refl _ _
    | decide
    | with_reducible refine dropOp_frame ?_ ?_
    | with_reducible refine opTrap_frame ?_ ?_
    | with_reducible refine unpend_frame ?_ ?_
    | dsimp only [id]
    | split
  all_goals try (with_reducible apply Framed.upd rfl <;> first | exact Or.inl (by decide) | with_reducible exact Or.inr rfl | with_reducible exact Or.inr ⟨rfl, rfl⟩ | with_reducible exact Or.inl ⟨by decide, fun h => h⟩ | with_reducible exact Or.inl ⟨by decide, Nat.le_refl _⟩ | exact Or.inl ⟨by decide, fun h => bwrite_wf _ _ _ h⟩ | exact Or.inl ⟨by decide, fun h => bzero_wf _ _ _ h⟩ | exact Or.inl ⟨by decide, fun _ => rfl⟩ | exact Or.inl ⟨by decide, Err.bounded_q rfl (fun h => by rw [lmod_length]; exact h)⟩ | exact Or.inl ⟨by decide, Err.bounded_q rfl (fun h => h)⟩ | exact Or.inl ⟨by decide, Err.bounded_q rfl (fun h => by rw [List.length_map]; exact h)⟩ | exact Or.inl ⟨by decide, Nat.le_succ _⟩ | exact Or.inl ⟨by decide, Err.bounded_put rfl (fun h => Err.bounded_unit h _) (fun h => h)⟩ | skip)
  repeat' first
    | with_reducible exact Framed.refl _ _
    | decide
    | with_reducible refine dropOp_frame ?_ ?_
    | with_reducible refine opTrap_frame ?_ ?_
    | with_reducible refine unpend_frame ?_ ?_
    | dsimp only [id]
    | split
  all_goals try (with_reducible apply Framed.upd rfl <;> first | exact Or.inl (by decide) | with_reducible exact Or.inr rfl | with_reducible exact Or.inr ⟨rfl, rfl⟩ | with_reducible exact Or.inl ⟨by decide, fun h => h⟩ | with_reducible exact Or.inl ⟨by decide, Nat.le_refl _⟩ | exact Or.inl ⟨by decide, fun h => bwrite_wf _ _ _ h⟩ | exact Or.inl ⟨by decide, fun h => bzero_wf _ _ _ h⟩ | exact Or.inl ⟨by decide, fun _ => rfl⟩ | exact Or.inl ⟨by decide, Err.bounded_q rfl (fun h => by rw [lmod_length]; exact h)⟩ | exact Or.inl ⟨by decide, Err.bounded_q rfl (fun h => h)⟩ | exact Or.inl ⟨by decide, Err.bounded_q rfl (fun h => by rw [List.length_map]; exact h)⟩ | exact Or.inl ⟨by decide, Nat.le_succ _⟩ | exact Or.inl ⟨by decide, Err.bounded_put rfl (fun h => Err.bounded_unit h _) (fun h => h)⟩ | skip)
  repeat' first
    | with_reducible exact Framed.refl _ _
    | decide
    | with_reducible refine dropOp_frame ?_ ?_
    | with_reducible refine opTrap_frame ?_ ?_
    | with_reducible refine unpend_frame ?_ ?_
    | dsimp only [id]
    | split
  all_goals try (with_reducible apply Framed.upd rfl <;> first | exact Or.inl (by decide) | with_reducible exact Or.inr rfl | with_reducible exact Or.inr ⟨rfl, rfl⟩ | with_reducible exact Or.inl ⟨by decide, fun h => h⟩ | with_reducible exact Or.inl ⟨by decide, Nat.le_refl _⟩ | exact Or.inl ⟨by decide, fun h => bwrite_wf _ _ _ h⟩ | exact Or.inl ⟨by decide, fun h => bzero_wf _ _ _ h⟩ | exact Or.inl ⟨by decide, fun _ => rfl⟩ | exact Or.inl ⟨by decide, Err.bounded_q rfl (fun h => by rw [lmod_length]; exact h)⟩ | exact Or.inl ⟨by decide, Err.bounded_q rfl (fun h => h)⟩ | exact Or.inl ⟨by decide, Err.bounded_q rfl (fun h => by rw [List.length_map]; exact h)⟩ | exact Or.inl ⟨by decide, Nat.le_succ _⟩ | exact Or.inl ⟨by decide, Err.bounded_put rfl (fun h => Err.bounded_unit h _) (fun h => h)⟩ | skip)
  repeat' first
    | with_reducible exact Framed.refl _ _
    | decide
    | with_reducible refine dropOp_frame ?_ ?_
    | with_reducible refine opTrap_frame ?_ ?_
    | with_reducible refine unpend_frame ?_ ?_
    | dsimp only [id]
    | split

theorem retryFill_frame {l i : Nat}  (sub : ∀ p ∈ [.out, .err, .tel, .fly, .cells, .ctxs, .slc, .frs], p ∈ ps) (fr : Framed ps s0 s) :
    Framed ps s0 (retryFill l i s) := by
  refine fr.trans (Framed.mono sub ?_)
  clear sub fr
  unfold retryFill
  repeat' first
    | with_reducible exact Framed.refl _ _
    | decide
    | with_reducible refine landFill_frame ?_ ?_
    | with_reducible refine modCell_frame ?_ ?_
    | with_reducible refine Framed.ite (fun _ => ?_) (fun _ => ?_)
    | dsimp only [id]
    | split

theorem rillRelease_frame {src : Nat}  (sub : ∀ p ∈ [.net, .fly], p ∈ ps) (fr : Framed ps s0 s) :
    Framed ps s0 (rillRelease src s) := by
  refine fr.trans (Framed.mono sub ?_)
  clear sub fr
  unfold rillRelease
  repeat' first
    | with_reducible exact Framed.refl _ _
    | decide
    | with_reducible refine send_frame ?_ ?_
    | with_reducible refine Framed.ite (fun _ => ?_) (fun _ => ?_)
    | dsimp only [id]
    | split
  all_goals try (with_reducible apply Framed.upd rfl <;> first | exact Or.inl (by decide) | with_reducible exact Or.inr rfl | with_reducible exact Or.inr ⟨rfl, rfl⟩ | with_reducible exact Or.inl ⟨by decide, fun h => h⟩ | with_reducible exact Or.inl ⟨by decide, Nat.le_refl _⟩ | exact Or.inl ⟨by decide, fun h => bwrite_wf _ _ _ h⟩ | exact Or.inl ⟨by decide, fun h => bzero_wf _ _ _ h⟩ | exact Or.inl ⟨by decide, fun _ => rfl⟩ | exact Or.inl ⟨by decide, Err.bounded_q rfl (fun h => by rw [lmod_length]; exact h)⟩ | exact Or.inl ⟨by decide, Err.bounded_q rfl (fun h => h)⟩ | exact Or.inl ⟨by decide, Err.bounded_q rfl (fun h => by rw [List.length_map]; exact h)⟩ | exact Or.inl ⟨by decide, Nat.le_succ _⟩ | exact Or.inl ⟨by decide, Err.bounded_put rfl (fun h => Err.bounded_unit h _) (fun h => h)⟩ | skip)
  repeat' first
    | with_reducible exact Framed.refl _ _
    | decide
    | with_reducible refine send_frame ?_ ?_
    | with_reducible refine Framed.ite (fun _ => ?_) (fun _ => ?_)
    | dsimp only [id]
    | split

theorem telRestart_frame {c : Nat}  (sub : ∀ p ∈ [.tel], p ∈ ps) (fr : Framed ps s0 s) :
    Framed ps s0 (telRestart c s) := by
  refine fr.trans ⟨fun p hp => ?_, Keeps.same rfl rfl rfl⟩
  cases p <;> first | rfl | exact ⟨rfl, rfl⟩ | exact absurd (sub _ (by decide)) hp

theorem telStarted_frame {l : Nat}  (sub : ∀ p ∈ [.tel], p ∈ ps) (fr : Framed ps s0 s) :
    Framed ps s0 (telStarted l s) := by
  refine fr.trans ⟨fun p hp => ?_, Keeps.same rfl rfl rfl⟩
  cases p <;> first | rfl | exact ⟨rfl, rfl⟩ | exact absurd (sub _ (by decide)) hp

theorem until__frame {t : Nat}  (sub : ∀ p ∈ [.now], p ∈ ps) (fr : Framed ps s0 s) :
    Framed ps s0 (until_ t s) := by
  refine fr.trans ⟨fun p hp => ?_, ⟨Nat.le_max_left _ _, id, id⟩⟩
  cases p <;> first | rfl | exact ⟨rfl, rfl⟩ | exact absurd (sub _ (by decide)) hp

theorem undefinedOp_frame {l th : Nat} {e : Ecc}  (sub : ∀ p ∈ [.out, .err, .tel, .fly, .cells, .ctxs, .slc, .bst], p ∈ ps) (fr : Framed ps s0 s) :
    Framed ps s0 (undefinedOp l th e s) := by
  refine fr.trans (Framed.mono sub ?_)
  clear sub fr
  unfold undefinedOp
  repeat' first
    | with_reducible exact Framed.refl _ _
    | decide
    | with_reducible refine fetchGo_frame ?_ (fun _ _ => ?_) ?_
    | with_reducible refine trap_frame ?_ ?_
    | with_reducible refine Framed.ite (fun _ => ?_) (fun _ => ?_)
    | dsimp only [id]
    | split
  all_goals try (with_reducible apply Framed.upd rfl <;> first | exact Or.inl (by decide) | with_reducible exact Or.inr rfl | with_reducible exact Or.inr ⟨rfl, rfl⟩ | with_reducible exact Or.inl ⟨by decide, fun h => h⟩ | with_reducible exact Or.inl ⟨by decide, Nat.le_refl _⟩ | exact Or.inl ⟨by decide, fun h => bwrite_wf _ _ _ h⟩ | exact Or.inl ⟨by decide, fun h => bzero_wf _ _ _ h⟩ | exact Or.inl ⟨by decide, fun _ => rfl⟩ | exact Or.inl ⟨by decide, Err.bounded_q rfl (fun h => by rw [lmod_length]; exact h)⟩ | exact Or.inl ⟨by decide, Err.bounded_q rfl (fun h => h)⟩ | exact Or.inl ⟨by decide, Err.bounded_q rfl (fun h => by rw [List.length_map]; exact h)⟩ | exact Or.inl ⟨by decide, Nat.le_succ _⟩ | exact Or.inl ⟨by decide, Err.bounded_put rfl (fun h => Err.bounded_unit h _) (fun h => h)⟩ | skip)
  repeat' first
    | with_reducible exact Framed.refl _ _
    | decide
    | with_reducible refine fetchGo_frame ?_ (fun _ _ => ?_) ?_
    | with_reducible refine trap_frame ?_ ?_
    | with_reducible refine Framed.ite (fun _ => ?_) (fun _ => ?_)
    | dsimp only [id]
    | split
  all_goals try (with_reducible apply Framed.upd rfl <;> first | exact Or.inl (by decide) | with_reducible exact Or.inr rfl | with_reducible exact Or.inr ⟨rfl, rfl⟩ | with_reducible exact Or.inl ⟨by decide, fun h => h⟩ | with_reducible exact Or.inl ⟨by decide, Nat.le_refl _⟩ | exact Or.inl ⟨by decide, fun h => bwrite_wf _ _ _ h⟩ | exact Or.inl ⟨by decide, fun h => bzero_wf _ _ _ h⟩ | exact Or.inl ⟨by decide, fun _ => rfl⟩ | exact Or.inl ⟨by decide, Err.bounded_q rfl (fun h => by rw [lmod_length]; exact h)⟩ | exact Or.inl ⟨by decide, Err.bounded_q rfl (fun h => h)⟩ | exact Or.inl ⟨by decide, Err.bounded_q rfl (fun h => by rw [List.length_map]; exact h)⟩ | exact Or.inl ⟨by decide, Nat.le_succ _⟩ | exact Or.inl ⟨by decide, Err.bounded_put rfl (fun h => Err.bounded_unit h _) (fun h => h)⟩ | skip)
  repeat' first
    | with_reducible exact Framed.refl _ _
    | decide
    | with_reducible refine fetchGo_frame ?_ (fun _ _ => ?_) ?_
    | with_reducible refine trap_frame ?_ ?_
    | with_reducible refine Framed.ite (fun _ => ?_) (fun _ => ?_)
    | dsimp only [id]
    | split
  all_goals try (with_reducible apply Framed.upd rfl <;> first | exact Or.inl (by decide) | with_reducible exact Or.inr rfl | with_reducible exact Or.inr ⟨rfl, rfl⟩ | with_reducible exact Or.inl ⟨by decide, fun h => h⟩ | with_reducible exact Or.inl ⟨by decide, Nat.le_refl _⟩ | exact Or.inl ⟨by decide, fun h => bwrite_wf _ _ _ h⟩ | exact Or.inl ⟨by decide, fun h => bzero_wf _ _ _ h⟩ | exact Or.inl ⟨by decide, fun _ => rfl⟩ | exact Or.inl ⟨by decide, Err.bounded_q rfl (fun h => by rw [lmod_length]; exact h)⟩ | exact Or.inl ⟨by decide, Err.bounded_q rfl (fun h => h)⟩ | exact Or.inl ⟨by decide, Err.bounded_q rfl (fun h => by rw [List.length_map]; exact h)⟩ | exact Or.inl ⟨by decide, Nat.le_succ _⟩ | exact Or.inl ⟨by decide, Err.bounded_put rfl (fun h => Err.bounded_unit h _) (fun h => h)⟩ | skip)
  repeat' first
    | with_reducible exact Framed.refl _ _
    | decide
    | with_reducible refine fetchGo_frame ?_ (fun _ _ => ?_) ?_
    | with_reducible refine trap_frame ?_ ?_
    | with_reducible refine Framed.ite (fun _ => ?_) (fun _ => ?_)
    | dsimp only [id]
    | split

end Sys2Proof.Machine
end

