-- ==== Sys2Proof/Laws/FrameMem.lean ====
section
/-! SUPPORT. What the shared operations leave as it was: the fast tier, the tide unit, Cisan, Reservoir, Freshet. Each lemma carries a frame over one operation. -/
namespace Sys2Proof.Machine

variable {ps : List Part} {s0 s : State}

theorem modEng_frame {e : Nat} {f : CsnEng → CsnEng}  (sub : ∀ p ∈ [.csn], p ∈ ps) (fr : Framed ps s0 s) :
    Framed ps s0 (modEng e f s) := by
  refine fr.trans ⟨fun p hp => ?_, Keeps.same rfl rfl rfl⟩
  cases p <;> first | rfl | exact ⟨rfl, rfl⟩ | exact absurd (sub _ (by decide)) hp

theorem modLane_frame {e l : Nat} {f : Lane → Lane}  (sub : ∀ p ∈ [.csn], p ∈ ps) (fr : Framed ps s0 s) :
    Framed ps s0 (modLane e l f s) := by
  refine fr.trans (Framed.mono sub ?_)
  clear sub fr
  unfold modLane
  repeat' first
    | with_reducible exact Framed.refl _ _
    | decide
    | with_reducible refine modEng_frame ?_ ?_
    | dsimp only [id]

theorem modTx_frame {e node dst cls ctx : Nat} {f : TxStream → TxStream}  (sub : ∀ p ∈ [.csn], p ∈ ps) (fr : Framed ps s0 s) :
    Framed ps s0 (modTx e node dst cls ctx f s) := by
  refine fr.trans (Framed.mono sub ?_)
  clear sub fr
  unfold modTx
  repeat' first
    | with_reducible exact Framed.refl _ _
    | decide
    | with_reducible refine modEng_frame ?_ ?_
    | with_reducible refine Framed.ite (fun _ => ?_) (fun _ => ?_)
    | dsimp only [id]
    | split

theorem flitRun_frame {e l : Nat} {fs : List Bytes}  (sub : ∀ p ∈ [.out, .tel, .csn], p ∈ ps) (fr : Framed ps s0 s) :
    Framed ps s0 (flitRun e l fs s) := by
  refine fr.trans (Framed.mono sub ?_)
  clear sub fr
  unfold flitRun
  repeat' first
    | with_reducible exact Framed.refl _ _
    | decide
    | with_reducible refine countN_frame ?_ ?_
    | with_reducible refine modLane_frame ?_ ?_
    | dsimp only [id]
  all_goals try (with_reducible apply Framed.upd rfl <;> first | exact Or.inl (by decide) | with_reducible exact Or.inr rfl | with_reducible exact Or.inr ⟨rfl, rfl⟩ | with_reducible exact Or.inl ⟨by decide, fun h => h⟩ | with_reducible exact Or.inl ⟨by decide, Nat.le_refl _⟩ | exact Or.inl ⟨by decide, fun h => bwrite_wf _ _ _ h⟩ | exact Or.inl ⟨by decide, fun h => bzero_wf _ _ _ h⟩ | exact Or.inl ⟨by decide, fun _ => rfl⟩ | exact Or.inl ⟨by decide, Err.bounded_q rfl (fun h => by rw [lmod_length]; exact h)⟩ | exact Or.inl ⟨by decide, Err.bounded_q rfl (fun h => h)⟩ | exact Or.inl ⟨by decide, Err.bounded_q rfl (fun h => by rw [List.length_map]; exact h)⟩ | exact Or.inl ⟨by decide, Nat.le_succ _⟩ | exact Or.inl ⟨by decide, Err.bounded_put rfl (fun h => Err.bounded_unit h _) (fun h => h)⟩ | skip)
  repeat' first
    | with_reducible exact Framed.refl _ _
    | decide
    | with_reducible refine countN_frame ?_ ?_
    | with_reducible refine modLane_frame ?_ ?_
    | dsimp only [id]

theorem flitOut_frame {e l seq ftype off : Nat} {payload : Bytes}  (sub : ∀ p ∈ [.out, .tel, .csn], p ∈ ps) (fr : Framed ps s0 s) :
    Framed ps s0 (flitOut e l seq ftype off payload s) := by
  refine fr.trans (Framed.mono sub ?_)
  clear sub fr
  unfold flitOut
  repeat' first
    | with_reducible exact Framed.refl _ _
    | decide
    | with_reducible refine flitRun_frame ?_ ?_
    | dsimp only [id]

theorem lanePump_frame {e l n : Nat}  (sub : ∀ p ∈ [.out, .tel, .csn], p ∈ ps) (fr : Framed ps s0 s) :
    Framed ps s0 (lanePump e l n s) := by
  refine fr.trans (Framed.mono sub ?_)
  clear sub fr
  induction n generalizing s with
  | zero => exact Framed.refl _ _
  | succ n ih =>
  unfold lanePump
  repeat' first
    | with_reducible exact Framed.refl _ _
    | decide
    | with_reducible refine flitOut_frame ?_ ?_
    | with_reducible refine modLane_frame ?_ ?_
    | with_reducible refine Framed.trans ?_ ih
    | with_reducible refine Framed.ite (fun _ => ?_) (fun _ => ?_)
    | dsimp only [id]
    | split

theorem toLane_frame {e : Nat} {lane : Option Nat} {m : CsnMsg}  (sub : ∀ p ∈ [.out, .tel, .csn], p ∈ ps) (fr : Framed ps s0 s) :
    Framed ps s0 (toLane e lane m s) := by
  refine fr.trans (Framed.mono sub ?_)
  clear sub fr
  unfold toLane
  repeat' first
    | with_reducible exact Framed.refl _ _
    | decide
    | with_reducible refine lanePump_frame ?_ ?_
    | with_reducible refine modLane_frame ?_ ?_
    | dsimp only [id]
    | split

theorem ctlFlush_frame {e : Nat}  (sub : ∀ p ∈ [.out, .tel, .csn], p ∈ ps) (fr : Framed ps s0 s) :
    Framed ps s0 (ctlFlush e s) := by
  refine fr.trans (Framed.mono sub ?_)
  clear sub fr
  unfold ctlFlush
  repeat' first
    | with_reducible exact Framed.refl _ _
    | decide
    | with_reducible refine modEng_frame ?_ ?_
    | with_reducible refine toLane_frame ?_ ?_
    | with_reducible refine Framed.foldl _ (fun _ _ => ?_) _ _ _ ?_
    | with_reducible refine Framed.foldl_fst _ (fun _ _ => ?_) _ _ _ ?_
    | with_reducible refine Framed.ite (fun _ => ?_) (fun _ => ?_)
    | dsimp only [id]
    | split

theorem txPump_frame {e node dst cls ctx n : Nat}  (sub : ∀ p ∈ [.out, .tel, .csn], p ∈ ps) (fr : Framed ps s0 s) :
    Framed ps s0 (txPump e node dst cls ctx n s) := by
  refine fr.trans (Framed.mono sub ?_)
  clear sub fr
  induction n generalizing s with
  | zero => exact Framed.refl _ _
  | succ n ih =>
  unfold txPump
  repeat' first
    | with_reducible exact Framed.refl _ _
    | decide
    | with_reducible refine count_frame ?_ ?_
    | with_reducible refine modTx_frame ?_ ?_
    | with_reducible refine toLane_frame ?_ ?_
    | with_reducible refine Framed.trans ?_ ih
    | with_reducible refine Framed.ite (fun _ => ?_) (fun _ => ?_)
    | dsimp only [id]
    | split

theorem pumpAll_frame {e : Nat}  (sub : ∀ p ∈ [.out, .tel, .csn], p ∈ ps) (fr : Framed ps s0 s) :
    Framed ps s0 (pumpAll e s) := by
  refine fr.trans (Framed.mono sub ?_)
  clear sub fr
  unfold pumpAll
  repeat' first
    | with_reducible exact Framed.refl _ _
    | decide
    | with_reducible refine ctlFlush_frame ?_ ?_
    | with_reducible refine txPump_frame ?_ ?_
    | with_reducible refine Framed.foldl _ (fun _ _ => ?_) _ _ _ ?_
    | with_reducible refine Framed.foldl_fst _ (fun _ _ => ?_) _ _ _ ?_
    | dsimp only [id]

theorem laneMove_frame {e l : Nat}  (sub : ∀ p ∈ [.out, .tel, .csn], p ∈ ps) (fr : Framed ps s0 s) :
    Framed ps s0 (laneMove e l s) := by
  refine fr.trans (Framed.mono sub ?_)
  clear sub fr
  unfold laneMove
  repeat' first
    | with_reducible exact Framed.refl _ _
    | decide
    | with_reducible refine modEng_frame ?_ ?_
    | with_reducible refine modLane_frame ?_ ?_
    | with_reducible refine modTx_frame ?_ ?_
    | with_reducible refine pumpAll_frame ?_ ?_
    | with_reducible refine toLane_frame ?_ ?_
    | with_reducible refine Framed.foldl _ (fun _ _ => ?_) _ _ _ ?_
    | with_reducible refine Framed.foldl_fst _ (fun _ _ => ?_) _ _ _ ?_
    | with_reducible refine Framed.ite (fun _ => ?_) (fun _ => ?_)
    | dsimp only [id]
    | split

theorem drainCheck_frame {e l : Nat}  (sub : ∀ p ∈ [.out, .tel, .csn], p ∈ ps) (fr : Framed ps s0 s) :
    Framed ps s0 (drainCheck e l s) := by
  refine fr.trans (Framed.mono sub ?_)
  clear sub fr
  unfold drainCheck
  repeat' first
    | with_reducible exact Framed.refl _ _
    | decide
    | with_reducible refine laneMove_frame ?_ ?_
    | with_reducible refine modLane_frame ?_ ?_
    | with_reducible refine Framed.ite (fun _ => ?_) (fun _ => ?_)
    | dsimp only [id]
    | split

theorem closeSend_frame {e : Nat}  (sub : ∀ p ∈ [.out, .tel, .csn], p ∈ ps) (fr : Framed ps s0 s) :
    Framed ps s0 (closeSend e s) := by
  refine fr.trans (Framed.mono sub ?_)
  clear sub fr
  unfold closeSend
  repeat' first
    | with_reducible exact Framed.refl _ _
    | decide
    | with_reducible refine flitOut_frame ?_ ?_
    | with_reducible refine modLane_frame ?_ ?_
    | with_reducible refine Framed.foldl _ (fun _ _ => ?_) _ _ _ ?_
    | with_reducible refine Framed.foldl_fst _ (fun _ _ => ?_) _ _ _ ?_
    | dsimp only [id]
    | split

theorem linkFail_frame {e cause : Nat}  (sub : ∀ p ∈ [.out, .err, .tel, .csn], p ∈ ps) (fr : Framed ps s0 s) :
    Framed ps s0 (linkFail e cause s) := by
  refine fr.trans (Framed.mono sub ?_)
  clear sub fr
  unfold linkFail
  repeat' first
    | with_reducible exact Framed.refl _ _
    | decide
    | with_reducible refine modEng_frame ?_ ?_
    | with_reducible refine raise_frame ?_ ?_
    | with_reducible refine Framed.ite (fun _ => ?_) (fun _ => ?_)
    | dsimp only [id]
    | split

theorem linkJudge_frame {e : Nat}  (sub : ∀ p ∈ [.out, .err, .tel, .csn], p ∈ ps) (fr : Framed ps s0 s) :
    Framed ps s0 (linkJudge e s) := by
  refine fr.trans (Framed.mono sub ?_)
  clear sub fr
  unfold linkJudge
  repeat' first
    | with_reducible exact Framed.refl _ _
    | decide
    | with_reducible refine closeSend_frame ?_ ?_
    | with_reducible refine linkFail_frame ?_ ?_
    | with_reducible refine modEng_frame ?_ ?_
    | with_reducible refine pumpAll_frame ?_ ?_
    | with_reducible refine Framed.ite (fun _ => ?_) (fun _ => ?_)
    | dsimp only [id]
    | split

theorem recalNext_frame {e : Nat}  (sub : ∀ p ∈ [.out, .err, .tel, .csn], p ∈ ps) (fr : Framed ps s0 s) :
    Framed ps s0 (recalNext e s) := by
  refine fr.trans (Framed.mono sub ?_)
  clear sub fr
  unfold recalNext
  repeat' first
    | with_reducible exact Framed.refl _ _
    | decide
    | with_reducible refine drainCheck_frame ?_ ?_
    | with_reducible refine linkJudge_frame ?_ ?_
    | with_reducible refine modLane_frame ?_ ?_
    | with_reducible refine Framed.ite (fun _ => ?_) (fun _ => ?_)
    | dsimp only [id]
    | split

theorem ackTake_frame {e l ack : Nat}  (sub : ∀ p ∈ [.out, .err, .tel, .csn], p ∈ ps) (fr : Framed ps s0 s) :
    Framed ps s0 (ackTake e l ack s) := by
  refine fr.trans (Framed.mono sub ?_)
  clear sub fr
  unfold ackTake
  repeat' first
    | with_reducible exact Framed.refl _ _
    | decide
    | with_reducible refine drainCheck_frame ?_ ?_
    | with_reducible refine lanePump_frame ?_ ?_
    | with_reducible refine modLane_frame ?_ ?_
    | with_reducible refine recalNext_frame ?_ ?_
    | with_reducible refine Framed.ite (fun _ => ?_) (fun _ => ?_)
    | dsimp only [id]
    | split

theorem modNet_frame {f : Net → Net}  (sub : ∀ p ∈ [.net], p ∈ ps) (fr : Framed ps s0 s) :
    Framed ps s0 (modNet f s) := by
  refine fr.trans ⟨fun p hp => ?_, Keeps.same rfl rfl rfl⟩
  cases p <;> first | rfl | exact ⟨rfl, rfl⟩ | exact absurd (sub _ (by decide)) hp

theorem addMargin_frame {kind inst : Nat} {m : Int}  (sub : ∀ p ∈ [.tel], p ∈ ps) (fr : Framed ps s0 s) :
    Framed ps s0 (addMargin kind inst m s) := by
  refine fr.trans ⟨fun p hp => ?_, Keeps.same rfl rfl rfl⟩
  cases p <;> first | rfl | exact ⟨rfl, rfl⟩ | exact absurd (sub _ (by decide)) hp

theorem addMargins_frame {e : Nat} {p : Pass} {g : Grp} {m : Int}  (sub : ∀ p ∈ [.tel], p ∈ ps) (fr : Framed ps s0 s) :
    Framed ps s0 (addMargins e p g m s) := by
  refine fr.trans (Framed.mono sub ?_)
  clear sub fr
  unfold addMargins
  repeat' first
    | with_reducible exact Framed.refl _ _
    | decide
    | with_reducible refine addMargin_frame ?_ ?_
    | with_reducible refine Framed.foldl _ (fun _ _ => ?_) _ _ _ ?_
    | with_reducible refine Framed.foldl_fst _ (fun _ _ => ?_) _ _ _ ?_
    | dsimp only [id]

theorem rsvAsk_frame {w : RsvWant}  (sub : ∀ p ∈ [.rsv], p ∈ ps) (fr : Framed ps s0 s) :
    Framed ps s0 (rsvAsk w s) := by
  refine fr.trans ⟨fun p hp => ?_, Keeps.same rfl rfl rfl⟩
  cases p <;> first | rfl | exact ⟨rfl, rfl⟩ | exact absurd (sub _ (by decide)) hp

theorem askSlow_frame {e : Nat} {p : Pass} {j : Nat}  (sub : ∀ p ∈ [.rsv], p ∈ ps) (fr : Framed ps s0 s) :
    Framed ps s0 (askSlow e p j s) := by
  refine fr.trans (Framed.mono sub ?_)
  clear sub fr
  unfold askSlow
  repeat' first
    | with_reducible exact Framed.refl _ _
    | decide
    | with_reducible refine rsvAsk_frame ?_ ?_
    | dsimp only [id]

theorem modStk_frame {n : Nat} {f : Stack → Stack}  (sub : ∀ p ∈ [.mem], p ∈ ps) (fr : Framed ps s0 s) :
    Framed ps s0 (modStk n f s) := by
  refine fr.trans ⟨fun p hp => ?_, Keeps.same rfl rfl rfl⟩
  cases p <;> first | rfl | exact ⟨rfl, rfl⟩ | exact absurd (sub _ (by decide)) hp

theorem epochTouch_frame {page : Nat}  (sub : ∀ p ∈ [.tel, .mem], p ∈ ps) (fr : Framed ps s0 s) :
    Framed ps s0 (epochTouch page s) := by
  refine fr.trans (Framed.mono sub ?_)
  clear sub fr
  unfold epochTouch
  repeat' first
    | with_reducible exact Framed.refl _ _
    | decide
    | with_reducible refine count_frame ?_ ?_
    | with_reducible refine modStk_frame ?_ ?_
    | with_reducible refine Framed.ite (fun _ => ?_) (fun _ => ?_)
    | dsimp only [id]
    | split

theorem reportWrite_frame {a n : Nat}  (sub : ∀ p ∈ [.frs], p ∈ ps) (fr : Framed ps s0 s) :
    Framed ps s0 (reportWrite a n s) := by
  refine fr.trans (Framed.mono sub ?_)
  clear sub fr
  unfold reportWrite
  repeat' first
    | with_reducible exact Framed.refl _ _
    | decide
    | with_reducible refine modFrs_frame ?_ ?_
    | with_reducible refine Framed.foldl _ (fun _ _ => ?_) _ _ _ ?_
    | with_reducible refine Framed.foldl_fst _ (fun _ _ => ?_) _ _ _ ?_
    | with_reducible refine Framed.ite (fun _ => ?_) (fun _ => ?_)
    | dsimp only [id]
    | split

theorem snoopWrite_frame {a n : Nat}  (sub : ∀ p ∈ [.out, .tel, .mem, .hst], p ∈ ps) (fr : Framed ps s0 s) :
    Framed ps s0 (snoopWrite a n s) := by
  refine fr.trans (Framed.mono sub ?_)
  clear sub fr
  unfold snoopWrite
  repeat' first
    | with_reducible exact Framed.refl _ _
    | decide
    | with_reducible refine count_frame ?_ ?_
    | with_reducible refine emit_frame ?_ ?_
    | with_reducible refine Framed.foldl _ (fun _ _ => ?_) _ _ _ ?_
    | with_reducible refine Framed.foldl_fst _ (fun _ _ => ?_) _ _ _ ?_
    | with_reducible refine Framed.ite (fun _ => ?_) (fun _ => ?_)
    | dsimp only [id]
    | split
  all_goals try (with_reducible apply Framed.upd rfl <;> first | exact Or.inl (by decide) | with_reducible exact Or.inr rfl | with_reducible exact Or.inr ⟨rfl, rfl⟩ | with_reducible exact Or.inl ⟨by decide, fun h => h⟩ | with_reducible exact Or.inl ⟨by decide, Nat.le_refl _⟩ | exact Or.inl ⟨by decide, fun h => bwrite_wf _ _ _ h⟩ | exact Or.inl ⟨by decide, fun h => bzero_wf _ _ _ h⟩ | exact Or.inl ⟨by decide, fun _ => rfl⟩ | exact Or.inl ⟨by decide, Err.bounded_q rfl (fun h => by rw [lmod_length]; exact h)⟩ | exact Or.inl ⟨by decide, Err.bounded_q rfl (fun h => h)⟩ | exact Or.inl ⟨by decide, Err.bounded_q rfl (fun h => by rw [List.length_map]; exact h)⟩ | exact Or.inl ⟨by decide, Nat.le_succ _⟩ | exact Or.inl ⟨by decide, Err.bounded_put rfl (fun h => Err.bounded_unit h _) (fun h => h)⟩ | skip)
  repeat' first
    | with_reducible exact Framed.refl _ _
    | decide
    | with_reducible refine count_frame ?_ ?_
    | with_reducible refine emit_frame ?_ ?_
    | with_reducible refine Framed.foldl _ (fun _ _ => ?_) _ _ _ ?_
    | with_reducible refine Framed.foldl_fst _ (fun _ _ => ?_) _ _ _ ?_
    | with_reducible refine Framed.ite (fun _ => ?_) (fun _ => ?_)
    | dsimp only [id]
    | split

theorem memWrite_frame {own : Bool} {a : Nat} {data : Bytes}  (sub : ∀ p ∈ [.out, .tel, .frs, .mem, .hst], p ∈ ps) (fr : Framed ps s0 s) :
    Framed ps s0 (memWrite own a data s) := by
  refine fr.trans (Framed.mono sub ?_)
  clear sub fr
  unfold memWrite
  repeat' first
    | with_reducible exact Framed.refl _ _
    | decide
    | with_reducible refine epochTouch_frame ?_ ?_
    | with_reducible refine modStk_frame ?_ ?_
    | with_reducible refine reportWrite_frame ?_ ?_
    | with_reducible refine snoopWrite_frame ?_ ?_
    | with_reducible refine Framed.foldl _ (fun _ _ => ?_) _ _ _ ?_
    | with_reducible refine Framed.foldl_fst _ (fun _ _ => ?_) _ _ _ ?_
    | with_reducible refine Framed.ite (fun _ => ?_) (fun _ => ?_)
    | dsimp only [id]
    | split
  all_goals try (with_reducible apply Framed.upd rfl <;> first | exact Or.inl (by decide) | with_reducible exact Or.inr rfl | with_reducible exact Or.inr ⟨rfl, rfl⟩ | with_reducible exact Or.inl ⟨by decide, fun h => h⟩ | with_reducible exact Or.inl ⟨by decide, Nat.le_refl _⟩ | exact Or.inl ⟨by decide, fun h => bwrite_wf _ _ _ h⟩ | exact Or.inl ⟨by decide, fun h => bzero_wf _ _ _ h⟩ | exact Or.inl ⟨by decide, fun _ => rfl⟩ | exact Or.inl ⟨by decide, Err.bounded_q rfl (fun h => by rw [lmod_length]; exact h)⟩ | exact Or.inl ⟨by decide, Err.bounded_q rfl (fun h => h)⟩ | exact Or.inl ⟨by decide, Err.bounded_q rfl (fun h => by rw [List.length_map]; exact h)⟩ | exact Or.inl ⟨by decide, Nat.le_succ _⟩ | exact Or.inl ⟨by decide, Err.bounded_put rfl (fun h => Err.bounded_unit h _) (fun h => h)⟩ | skip)
  repeat' first
    | with_reducible exact Framed.refl _ _
    | decide
    | with_reducible refine epochTouch_frame ?_ ?_
    | with_reducible refine modStk_frame ?_ ?_
    | with_reducible refine reportWrite_frame ?_ ?_
    | with_reducible refine snoopWrite_frame ?_ ?_
    | with_reducible refine Framed.foldl _ (fun _ _ => ?_) _ _ _ ?_
    | with_reducible refine Framed.foldl_fst _ (fun _ _ => ?_) _ _ _ ?_
    | with_reducible refine Framed.ite (fun _ => ?_) (fun _ => ?_)
    | dsimp only [id]
    | split

theorem memPutTile_frame {pay trl : Nat} {payload trailer : Bytes}  (sub : ∀ p ∈ [.out, .tel, .frs, .mem, .hst], p ∈ ps) (fr : Framed ps s0 s) :
    Framed ps s0 (memPutTile pay trl payload trailer s) := by
  refine fr.trans (Framed.mono sub ?_)
  clear sub fr
  unfold memPutTile
  repeat' first
    | with_reducible exact Framed.refl _ _
    | decide
    | with_reducible refine memWrite_frame ?_ ?_
    | dsimp only [id]

theorem exportRewrite_frame {slot : Nat}  (sub : ∀ p ∈ [.out, .tel, .regs, .frs, .mem, .hst], p ∈ ps) (fr : Framed ps s0 s) :
    Framed ps s0 (exportRewrite slot s) := by
  refine fr.trans (Framed.mono sub ?_)
  clear sub fr
  unfold exportRewrite
  repeat' first
    | with_reducible exact Framed.refl _ _
    | decide
    | with_reducible refine memWrite_frame ?_ ?_
    | with_reducible refine regSet_frame ?_ ?_
    | dsimp only [id]

theorem siteBack_frame {site : Nat} {w : OutWhy}  (sub : ∀ p ∈ [.net], p ∈ ps) (fr : Framed ps s0 s) :
    Framed ps s0 (siteBack site w s) := by
  refine fr.trans (Framed.mono sub ?_)
  clear sub fr
  unfold siteBack
  repeat' first
    | with_reducible exact Framed.refl _ _
    | decide
    | with_reducible refine modNet_frame ?_ ?_
    | dsimp only [id]

theorem siteOut_frame {site : Nat} {w : OutWhy}  (sub : ∀ p ∈ [.net], p ∈ ps) (fr : Framed ps s0 s) :
    Framed ps s0 (siteOut site w s) := by
  refine fr.trans (Framed.mono sub ?_)
  clear sub fr
  unfold siteOut
  repeat' first
    | with_reducible exact Framed.refl _ _
    | decide
    | with_reducible refine modNet_frame ?_ ?_
    | with_reducible refine Framed.ite (fun _ => ?_) (fun _ => ?_)
    | dsimp only [id]
    | split

theorem cutJudge_frame  (sub : ∀ p ∈ [.net], p ∈ ps) (fr : Framed ps s0 s) :
    Framed ps s0 (cutJudge s) := by
  refine fr.trans (Framed.mono sub ?_)
  clear sub fr
  unfold cutJudge
  repeat' first
    | with_reducible exact Framed.refl _ _
    | decide
    | with_reducible refine siteBack_frame ?_ ?_
    | with_reducible refine siteOut_frame ?_ ?_
    | with_reducible refine Framed.foldl _ (fun _ _ => ?_) _ _ _ ?_
    | with_reducible refine Framed.foldl_fst _ (fun _ _ => ?_) _ _ _ ?_
    | with_reducible refine Framed.ite (fun _ => ?_) (fun _ => ?_)
    | dsimp only [id]
    | split

theorem hostAnswer_frame {tag : Nat} {ok : Bool} {data : Bytes}  (sub : ∀ p ∈ [.out, .tel, .mem, .hst], p ∈ ps) (fr : Framed ps s0 s) :
    Framed ps s0 (hostAnswer tag ok data s) := by
  refine fr.trans (Framed.mono sub ?_)
  clear sub fr
  unfold hostAnswer
  repeat' first
    | with_reducible exact Framed.refl _ _
    | decide
    | with_reducible refine count_frame ?_ ?_
    | with_reducible refine emit_frame ?_ ?_
    | with_reducible refine Framed.ite (fun _ => ?_) (fun _ => ?_)
    | dsimp only [id]
    | split
  all_goals try (with_reducible apply Framed.upd rfl <;> first | exact Or.inl (by decide) | with_reducible exact Or.inr rfl | with_reducible exact Or.inr ⟨rfl, rfl⟩ | with_reducible exact Or.inl ⟨by decide, fun h => h⟩ | with_reducible exact Or.inl ⟨by decide, Nat.le_refl _⟩ | exact Or.inl ⟨by decide, fun h => bwrite_wf _ _ _ h⟩ | exact Or.inl ⟨by decide, fun h => bzero_wf _ _ _ h⟩ | exact Or.inl ⟨by decide, fun _ => rfl⟩ | exact Or.inl ⟨by decide, Err.bounded_q rfl (fun h => by rw [lmod_length]; exact h)⟩ | exact Or.inl ⟨by decide, Err.bounded_q rfl (fun h => h)⟩ | exact Or.inl ⟨by decide, Err.bounded_q rfl (fun h => by rw [List.length_map]; exact h)⟩ | exact Or.inl ⟨by decide, Nat.le_succ _⟩ | exact Or.inl ⟨by decide, Err.bounded_put rfl (fun h => Err.bounded_unit h _) (fun h => h)⟩ | skip)
  repeat' first
    | with_reducible exact Framed.refl _ _
    | decide
    | with_reducible refine count_frame ?_ ?_
    | with_reducible refine emit_frame ?_ ?_
    | with_reducible refine Framed.ite (fun _ => ?_) (fun _ => ?_)
    | dsimp only [id]
    | split
  all_goals try (with_reducible apply Framed.upd rfl <;> first | exact Or.inl (by decide) | with_reducible exact Or.inr rfl | with_reducible exact Or.inr ⟨rfl, rfl⟩ | with_reducible exact Or.inl ⟨by decide, fun h => h⟩ | with_reducible exact Or.inl ⟨by decide, Nat.le_refl _⟩ | exact Or.inl ⟨by decide, fun h => bwrite_wf _ _ _ h⟩ | exact Or.inl ⟨by decide, fun h => bzero_wf _ _ _ h⟩ | exact Or.inl ⟨by decide, fun _ => rfl⟩ | exact Or.inl ⟨by decide, Err.bounded_q rfl (fun h => by rw [lmod_length]; exact h)⟩ | exact Or.inl ⟨by decide, Err.bounded_q rfl (fun h => h)⟩ | exact Or.inl ⟨by decide, Err.bounded_q rfl (fun h => by rw [List.length_map]; exact h)⟩ | exact Or.inl ⟨by decide, Nat.le_succ _⟩ | exact Or.inl ⟨by decide, Err.bounded_put rfl (fun h => Err.bounded_unit h _) (fun h => h)⟩ | skip)
  repeat' first
    | with_reducible exact Framed.refl _ _
    | decide
    | with_reducible refine count_frame ?_ ?_
    | with_reducible refine emit_frame ?_ ?_
    | with_reducible refine Framed.ite (fun _ => ?_) (fun _ => ?_)
    | dsimp only [id]
    | split
  all_goals try (with_reducible apply Framed.upd rfl <;> first | exact Or.inl (by decide) | with_reducible exact Or.inr rfl | with_reducible exact Or.inr ⟨rfl, rfl⟩ | with_reducible exact Or.inl ⟨by decide, fun h => h⟩ | with_reducible exact Or.inl ⟨by decide, Nat.le_refl _⟩ | exact Or.inl ⟨by decide, fun h => bwrite_wf _ _ _ h⟩ | exact Or.inl ⟨by decide, fun h => bzero_wf _ _ _ h⟩ | exact Or.inl ⟨by decide, fun _ => rfl⟩ | exact Or.inl ⟨by decide, Err.bounded_q rfl (fun h => by rw [lmod_length]; exact h)⟩ | exact Or.inl ⟨by decide, Err.bounded_q rfl (fun h => h)⟩ | exact Or.inl ⟨by decide, Err.bounded_q rfl (fun h => by rw [List.length_map]; exact h)⟩ | exact Or.inl ⟨by decide, Nat.le_succ _⟩ | exact Or.inl ⟨by decide, Err.bounded_put rfl (fun h => Err.bounded_unit h _) (fun h => h)⟩ | skip)
  repeat' first
    | with_reducible exact Framed.refl _ _
    | decide
    | with_reducible refine count_frame ?_ ?_
    | with_reducible refine emit_frame ?_ ?_
    | with_reducible refine Framed.ite (fun _ => ?_) (fun _ => ?_)
    | dsimp only [id]
    | split

theorem memLost_frame {stk : Nat} {f : MemFrom} {ctx : Option Nat} {addr : Nat} {act : MemAct}  (sub : ∀ p ∈ [.out, .err, .tel, .fly, .mem, .hst], p ∈ ps) (fr : Framed ps s0 s) :
    Framed ps s0 (memLost stk f ctx addr act s) := by
  refine fr.trans (Framed.mono sub ?_)
  clear sub fr
  unfold memLost
  repeat' first
    | with_reducible exact Framed.refl _ _
    | decide
    | with_reducible refine emit_frame ?_ ?_
    | with_reducible refine hostAnswer_frame ?_ ?_
    | with_reducible refine raise_frame ?_ ?_
    | with_reducible refine send_frame ?_ ?_
    | dsimp only [id]
    | split
  all_goals try (with_reducible apply Framed.upd rfl <;> first | exact Or.inl (by decide) | with_reducible exact Or.inr rfl | with_reducible exact Or.inr ⟨rfl, rfl⟩ | with_reducible exact Or.inl ⟨by decide, fun h => h⟩ | with_reducible exact Or.inl ⟨by decide, Nat.le_refl _⟩ | exact Or.inl ⟨by decide, fun h => bwrite_wf _ _ _ h⟩ | exact Or.inl ⟨by decide, fun h => bzero_wf _ _ _ h⟩ | exact Or.inl ⟨by decide, fun _ => rfl⟩ | exact Or.inl ⟨by decide, Err.bounded_q rfl (fun h => by rw [lmod_length]; exact h)⟩ | exact Or.inl ⟨by decide, Err.bounded_q rfl (fun h => h)⟩ | exact Or.inl ⟨by decide, Err.bounded_q rfl (fun h => by rw [List.length_map]; exact h)⟩ | exact Or.inl ⟨by decide, Nat.le_succ _⟩ | exact Or.inl ⟨by decide, Err.bounded_put rfl (fun h => Err.bounded_unit h _) (fun h => h)⟩ | skip)
  repeat' first
    | with_reducible exact Framed.refl _ _
    | decide
    | with_reducible refine emit_frame ?_ ?_
    | with_reducible refine hostAnswer_frame ?_ ?_
    | with_reducible refine raise_frame ?_ ?_
    | with_reducible refine send_frame ?_ ?_
    | dsimp only [id]
    | split

theorem stackLost_frame {stk : Nat}  (sub : ∀ p ∈ [.out, .err, .tel, .net, .fly, .mem, .hst], p ∈ ps) (fr : Framed ps s0 s) :
    Framed ps s0 (stackLost stk s) := by
  refine fr.trans (Framed.mono sub ?_)
  clear sub fr
  unfold stackLost
  repeat' first
    | with_reducible exact Framed.refl _ _
    | decide
    | with_reducible refine memLost_frame ?_ ?_
    | with_reducible refine modStk_frame ?_ ?_
    | with_reducible refine Framed.foldl _ (fun _ _ => ?_) _ _ _ ?_
    | with_reducible refine Framed.foldl_fst _ (fun _ _ => ?_) _ _ _ ?_
    | dsimp only [id]
  all_goals try (with_reducible apply Framed.upd rfl <;> first | exact Or.inl (by decide) | with_reducible exact Or.inr rfl | with_reducible exact Or.inr ⟨rfl, rfl⟩ | with_reducible exact Or.inl ⟨by decide, fun h => h⟩ | with_reducible exact Or.inl ⟨by decide, Nat.le_refl _⟩ | exact Or.inl ⟨by decide, fun h => bwrite_wf _ _ _ h⟩ | exact Or.inl ⟨by decide, fun h => bzero_wf _ _ _ h⟩ | exact Or.inl ⟨by decide, fun _ => rfl⟩ | exact Or.inl ⟨by decide, Err.bounded_q rfl (fun h => by rw [lmod_length]; exact h)⟩ | exact Or.inl ⟨by decide, Err.bounded_q rfl (fun h => h)⟩ | exact Or.inl ⟨by decide, Err.bounded_q rfl (fun h => by rw [List.length_map]; exact h)⟩ | exact Or.inl ⟨by decide, Nat.le_succ _⟩ | exact Or.inl ⟨by decide, Err.bounded_put rfl (fun h => Err.bounded_unit h _) (fun h => h)⟩ | skip)
  repeat' first
    | with_reducible exact Framed.refl _ _
    | decide
    | with_reducible refine memLost_frame ?_ ?_
    | with_reducible refine modStk_frame ?_ ?_
    | with_reducible refine Framed.foldl _ (fun _ _ => ?_) _ _ _ ?_
    | with_reducible refine Framed.foldl_fst _ (fun _ _ => ?_) _ _ _ ?_
    | dsimp only [id]

theorem routesChanged_frame  (sub : ∀ p ∈ [.net], p ∈ ps) (fr : Framed ps s0 s) :
    Framed ps s0 (routesChanged s) := by
  refine fr.trans (Framed.mono sub ?_)
  clear sub fr
  unfold routesChanged
  repeat' first
    | with_reducible exact Framed.refl _ _
    | decide
    | with_reducible refine modNet_frame ?_ ?_
    | dsimp only [id]

theorem modChk_frame {f : Chk → Chk}  (sub : ∀ p ∈ [.chk], p ∈ ps) (fr : Framed ps s0 s) :
    Framed ps s0 (modChk f s) := by
  refine fr.trans ⟨fun p hp => ?_, Keeps.same rfl rfl rfl⟩
  cases p <;> first | rfl | exact ⟨rfl, rfl⟩ | exact absurd (sub _ (by decide)) hp

theorem unitFree_frame {p : ChkBind → Bool}  (sub : ∀ p ∈ [.chk], p ∈ ps) (fr : Framed ps s0 s) :
    Framed ps s0 (unitFree p s) := by
  refine fr.trans (Framed.mono sub ?_)
  clear sub fr
  unfold unitFree
  repeat' first
    | with_reducible exact Framed.refl _ _
    | decide
    | with_reducible refine modChk_frame ?_ ?_
    | dsimp only [id]

theorem rsvFree_frame {agent ctx : Nat}  (sub : ∀ p ∈ [.chk], p ∈ ps) (fr : Framed ps s0 s) :
    Framed ps s0 (rsvFree agent ctx s) := by
  refine fr.trans (Framed.mono sub ?_)
  clear sub fr
  unfold rsvFree
  repeat' first
    | with_reducible exact Framed.refl _ _
    | decide
    | with_reducible refine unitFree_frame ?_ ?_
    | with_reducible refine Framed.ite (fun _ => ?_) (fun _ => ?_)
    | dsimp only [id]
    | split

theorem winKeep_frame {a : Nat} {d : Bytes}  (sub : ∀ p ∈ [.mem], p ∈ ps) (fr : Framed ps s0 s) :
    Framed ps s0 (winKeep a d s) := by
  refine fr.trans (Framed.mono sub ?_)
  clear sub fr
  refine ⟨fun p hp => ?_, ⟨Nat.le_refl _, fun h => bwrite_wf _ _ _ h, id⟩⟩
  cases p <;> first | rfl | exact ⟨rfl, rfl⟩ | exact absurd (by decide) hp

theorem rsvOver_frame {o : RsvOp} {status : Nat} {data : Bytes}  (sub : ∀ p ∈ [.fly, .cells, .chk, .mem, .rsv], p ∈ ps) (fr : Framed ps s0 s) :
    Framed ps s0 (rsvOver o status data s) := by
  refine fr.trans (Framed.mono sub ?_)
  clear sub fr
  unfold rsvOver
  repeat' first
    | with_reducible exact Framed.refl _ _
    | decide
    | with_reducible refine done_frame ?_ ?_
    | with_reducible refine rsvFree_frame ?_ ?_
    | with_reducible refine send_frame ?_ ?_
    | with_reducible refine winKeep_frame ?_ ?_
    | with_reducible refine Framed.ite (fun _ => ?_) (fun _ => ?_)
    | dsimp only [id]
    | split
  all_goals try (with_reducible apply Framed.upd rfl <;> first | exact Or.inl (by decide) | with_reducible exact Or.inr rfl | with_reducible exact Or.inr ⟨rfl, rfl⟩ | with_reducible exact Or.inl ⟨by decide, fun h => h⟩ | with_reducible exact Or.inl ⟨by decide, Nat.le_refl _⟩ | exact Or.inl ⟨by decide, fun h => bwrite_wf _ _ _ h⟩ | exact Or.inl ⟨by decide, fun h => bzero_wf _ _ _ h⟩ | exact Or.inl ⟨by decide, fun _ => rfl⟩ | exact Or.inl ⟨by decide, Err.bounded_q rfl (fun h => by rw [lmod_length]; exact h)⟩ | exact Or.inl ⟨by decide, Err.bounded_q rfl (fun h => h)⟩ | exact Or.inl ⟨by decide, Err.bounded_q rfl (fun h => by rw [List.length_map]; exact h)⟩ | exact Or.inl ⟨by decide, Nat.le_succ _⟩ | exact Or.inl ⟨by decide, Err.bounded_put rfl (fun h => Err.bounded_unit h _) (fun h => h)⟩ | skip)
  repeat' first
    | with_reducible exact Framed.refl _ _
    | decide
    | with_reducible refine done_frame ?_ ?_
    | with_reducible refine rsvFree_frame ?_ ?_
    | with_reducible refine send_frame ?_ ?_
    | with_reducible refine winKeep_frame ?_ ?_
    | with_reducible refine Framed.ite (fun _ => ?_) (fun _ => ?_)
    | dsimp only [id]
    | split
  all_goals try (with_reducible apply Framed.upd rfl <;> first | exact Or.inl (by decide) | with_reducible exact Or.inr rfl | with_reducible exact Or.inr ⟨rfl, rfl⟩ | with_reducible exact Or.inl ⟨by decide, fun h => h⟩ | with_reducible exact Or.inl ⟨by decide, Nat.le_refl _⟩ | exact Or.inl ⟨by decide, fun h => bwrite_wf _ _ _ h⟩ | exact Or.inl ⟨by decide, fun h => bzero_wf _ _ _ h⟩ | exact Or.inl ⟨by decide, fun _ => rfl⟩ | exact Or.inl ⟨by decide, Err.bounded_q rfl (fun h => by rw [lmod_length]; exact h)⟩ | exact Or.inl ⟨by decide, Err.bounded_q rfl (fun h => h)⟩ | exact Or.inl ⟨by decide, Err.bounded_q rfl (fun h => by rw [List.length_map]; exact h)⟩ | exact Or.inl ⟨by decide, Nat.le_succ _⟩ | exact Or.inl ⟨by decide, Err.bounded_put rfl (fun h => Err.bounded_unit h _) (fun h => h)⟩ | skip)
  repeat' first
    | with_reducible exact Framed.refl _ _
    | decide
    | with_reducible refine done_frame ?_ ?_
    | with_reducible refine rsvFree_frame ?_ ?_
    | with_reducible refine send_frame ?_ ?_
    | with_reducible refine winKeep_frame ?_ ?_
    | with_reducible refine Framed.ite (fun _ => ?_) (fun _ => ?_)
    | dsimp only [id]
    | split

theorem rsvFail_frame {o : RsvOp} {status : Nat}  (sub : ∀ p ∈ [.out, .err, .tel, .fly, .cells, .chk, .mem, .rsv], p ∈ ps) (fr : Framed ps s0 s) :
    Framed ps s0 (rsvFail o status s) := by
  refine fr.trans (Framed.mono sub ?_)
  clear sub fr
  unfold rsvFail
  repeat' first
    | with_reducible exact Framed.refl _ _
    | decide
    | with_reducible refine raise_frame ?_ ?_
    | with_reducible refine rsvOver_frame ?_ ?_
    | with_reducible refine Framed.ite (fun _ => ?_) (fun _ => ?_)
    | dsimp only [id]
    | split

theorem rsvTake_frame {by_ : RsvBy}  (sub : ∀ p ∈ [.cells, .rsv], p ∈ ps) (fr : Framed ps s0 s) :
    Framed ps s0 (rsvTake by_ s) := by
  refine fr.trans (Framed.mono sub ?_)
  clear sub fr
  unfold rsvTake
  repeat' first
    | with_reducible exact Framed.refl _ _
    | decide
    | with_reducible refine done_frame ?_ ?_
    | dsimp only [id]
  all_goals try (with_reducible apply Framed.upd rfl <;> first | exact Or.inl (by decide) | with_reducible exact Or.inr rfl | with_reducible exact Or.inr ⟨rfl, rfl⟩ | with_reducible exact Or.inl ⟨by decide, fun h => h⟩ | with_reducible exact Or.inl ⟨by decide, Nat.le_refl _⟩ | exact Or.inl ⟨by decide, fun h => bwrite_wf _ _ _ h⟩ | exact Or.inl ⟨by decide, fun h => bzero_wf _ _ _ h⟩ | exact Or.inl ⟨by decide, fun _ => rfl⟩ | exact Or.inl ⟨by decide, Err.bounded_q rfl (fun h => by rw [lmod_length]; exact h)⟩ | exact Or.inl ⟨by decide, Err.bounded_q rfl (fun h => h)⟩ | exact Or.inl ⟨by decide, Err.bounded_q rfl (fun h => by rw [List.length_map]; exact h)⟩ | exact Or.inl ⟨by decide, Nat.le_succ _⟩ | exact Or.inl ⟨by decide, Err.bounded_put rfl (fun h => Err.bounded_unit h _) (fun h => h)⟩ | skip)
  repeat' first
    | with_reducible exact Framed.refl _ _
    | decide
    | with_reducible refine done_frame ?_ ?_
    | dsimp only [id]

theorem slowAsk_frame {blk inst c a n : Nat}  (sub : ∀ p ∈ [.cells, .rsv], p ∈ ps) (fr : Framed ps s0 s) :
    Framed ps s0 (slowAsk blk inst c a n s) := by
  refine fr.trans (Framed.mono sub ?_)
  clear sub fr
  unfold slowAsk
  repeat' first
    | with_reducible exact Framed.refl _ _
    | decide
    | with_reducible refine rsvAsk_frame ?_ ?_
    | with_reducible refine rsvTake_frame ?_ ?_
    | with_reducible refine Framed.foldl _ (fun _ _ => ?_) _ _ _ ?_
    | with_reducible refine Framed.foldl_fst _ (fun _ _ => ?_) _ _ _ ?_
    | with_reducible refine Framed.ite (fun _ => ?_) (fun _ => ?_)
    | dsimp only [id]
    | split

theorem memDiscard_frame {requester : Nat} {ctx : Option Nat} {a : Nat}  (sub : ∀ p ∈ [.out, .err, .tel], p ∈ ps) (fr : Framed ps s0 s) :
    Framed ps s0 (memDiscard requester ctx a s) := by
  refine fr.trans (Framed.mono sub ?_)
  clear sub fr
  unfold memDiscard
  repeat' first
    | with_reducible exact Framed.refl _ _
    | decide
    | with_reducible refine raise_frame ?_ ?_
    | with_reducible refine Framed.ite (fun _ => ?_) (fun _ => ?_)
    | dsimp only [id]
    | split

theorem countGrp_frame {num e : Nat} {p : Pass} {g : Grp}  (sub : ∀ p ∈ [.tel], p ∈ ps) (fr : Framed ps s0 s) :
    Framed ps s0 (countGrp num e p g s) := by
  refine fr.trans (Framed.mono sub ?_)
  clear sub fr
  unfold countGrp
  repeat' first
    | with_reducible exact Framed.refl _ _
    | decide
    | with_reducible refine count_frame ?_ ?_
    | with_reducible refine Framed.foldl _ (fun _ _ => ?_) _ _ _ ?_
    | with_reducible refine Framed.foldl_fst _ (fun _ _ => ?_) _ _ _ ?_
    | dsimp only [id]

theorem countPass_frame {num e : Nat} {p : Pass}  (sub : ∀ p ∈ [.tel], p ∈ ps) (fr : Framed ps s0 s) :
    Framed ps s0 (countPass num e p s) := by
  refine fr.trans (Framed.mono sub ?_)
  clear sub fr
  unfold countPass
  repeat' first
    | with_reducible exact Framed.refl _ _
    | decide
    | with_reducible refine count_frame ?_ ?_
    | with_reducible refine Framed.foldl _ (fun _ _ => ?_) _ _ _ ?_
    | with_reducible refine Framed.foldl_fst _ (fun _ _ => ?_) _ _ _ ?_
    | dsimp only [id]

theorem creditEntry_frame {e : Nat} {m : CsnMsg} {id units : Nat}  (sub : ∀ p ∈ [.out, .err, .tel, .csn], p ∈ ps) (fr : Framed ps s0 s) :
    Framed ps s0 (creditEntry e m id units s) := by
  refine fr.trans (Framed.mono sub ?_)
  clear sub fr
  unfold creditEntry
  repeat' first
    | with_reducible exact Framed.refl _ _
    | decide
    | with_reducible refine modTx_frame ?_ ?_
    | with_reducible refine raise_frame ?_ ?_
    | with_reducible refine txPump_frame ?_ ?_
    | with_reducible refine Framed.ite (fun _ => ?_) (fun _ => ?_)
    | dsimp only [id]
    | split

theorem csnCtl_frame {e node dstEng mtype : Nat} {body : Bytes}  (sub : ∀ p ∈ [.out, .tel, .csn], p ∈ ps) (fr : Framed ps s0 s) :
    Framed ps s0 (csnCtl e node dstEng mtype body s) := by
  refine fr.trans (Framed.mono sub ?_)
  clear sub fr
  unfold csnCtl
  repeat' first
    | with_reducible exact Framed.refl _ _
    | decide
    | with_reducible refine ctlFlush_frame ?_ ?_
    | with_reducible refine modEng_frame ?_ ?_
    | with_reducible refine Framed.ite (fun _ => ?_) (fun _ => ?_)
    | dsimp only [id]
    | split

theorem creditSend_frame {e node dst n : Nat} {rs : List RxStream}  (sub : ∀ p ∈ [.out, .tel, .csn], p ∈ ps) (fr : Framed ps s0 s) :
    Framed ps s0 (creditSend e node dst n rs s) := by
  refine fr.trans (Framed.mono sub ?_)
  clear sub fr
  induction n generalizing rs s with
  | zero => exact Framed.refl _ _
  | succ n ih =>
  unfold creditSend
  repeat' first
    | with_reducible exact Framed.refl _ _
    | decide
    | with_reducible refine csnCtl_frame ?_ ?_
    | with_reducible refine Framed.trans ?_ ih
    | with_reducible refine Framed.ite (fun _ => ?_) (fun _ => ?_)
    | dsimp only [id]
    | split

theorem csnFleet_frame {op tag : Nat} {data : Bytes}  (sub : ∀ p ∈ [.out, .tel, .csn], p ∈ ps) (fr : Framed ps s0 s) :
    Framed ps s0 (csnFleet op tag data s) := by
  refine fr.trans (Framed.mono sub ?_)
  clear sub fr
  unfold csnFleet
  repeat' first
    | with_reducible exact Framed.refl _ _
    | decide
    | with_reducible refine csnCtl_frame ?_ ?_
    | with_reducible refine Framed.ite (fun _ => ?_) (fun _ => ?_)
    | dsimp only [id]
    | split

theorem csnKill_frame {c : Nat}  (sub : ∀ p ∈ [.out, .tel, .csn], p ∈ ps) (fr : Framed ps s0 s) :
    Framed ps s0 (csnKill c s) := by
  refine fr.trans (Framed.mono sub ?_)
  clear sub fr
  unfold csnKill
  repeat' first
    | with_reducible exact Framed.refl _ _
    | decide
    | with_reducible refine csnCtl_frame ?_ ?_
    | with_reducible refine modEng_frame ?_ ?_
    | with_reducible refine Framed.foldl _ (fun _ _ => ?_) _ _ _ ?_
    | with_reducible refine Framed.foldl_fst _ (fun _ _ => ?_) _ _ _ ?_
    | dsimp only [id]
    | split

theorem openAsk_frame {e node dst cls ctx : Nat}  (sub : ∀ p ∈ [.out, .tel, .csn], p ∈ ps) (fr : Framed ps s0 s) :
    Framed ps s0 (openAsk e node dst cls ctx s) := by
  refine fr.trans (Framed.mono sub ?_)
  clear sub fr
  unfold openAsk
  repeat' first
    | with_reducible exact Framed.refl _ _
    | decide
    | with_reducible refine count_frame ?_ ?_
    | with_reducible refine csnCtl_frame ?_ ?_
    | with_reducible refine modEng_frame ?_ ?_
    | with_reducible refine modTx_frame ?_ ?_
    | dsimp only [id]

theorem csnSend_frame {e node dst mtype cls ctx : Nat} {body : Bytes}  (sub : ∀ p ∈ [.out, .tel, .csn], p ∈ ps) (fr : Framed ps s0 s) :
    Framed ps s0 (csnSend e node dst mtype cls ctx body s) := by
  refine fr.trans (Framed.mono sub ?_)
  clear sub fr
  unfold csnSend
  repeat' first
    | with_reducible exact Framed.refl _ _
    | decide
    | with_reducible refine count_frame ?_ ?_
    | with_reducible refine modEng_frame ?_ ?_
    | with_reducible refine modTx_frame ?_ ?_
    | with_reducible refine openAsk_frame ?_ ?_
    | with_reducible refine txPump_frame ?_ ?_
    | with_reducible refine Framed.ite (fun _ => ?_) (fun _ => ?_)
    | dsimp only [id]
    | split

theorem csnTake_frame {e i : Nat}  (sub : ∀ p ∈ [.csn], p ∈ ps) (fr : Framed ps s0 s) :
    Framed ps s0 (csnTake e i s) := by
  refine fr.trans (Framed.mono sub ?_)
  clear sub fr
  unfold csnTake
  repeat' first
    | with_reducible exact Framed.refl _ _
    | decide
    | with_reducible refine modEng_frame ?_ ?_
    | with_reducible refine Framed.ite (fun _ => ?_) (fun _ => ?_)
    | dsimp only [id]
    | split

theorem recPut_frame {blk inst c a : Nat} {d : Bytes}  (sub : ∀ p ∈ [.out, .err, .tel, .frs, .mem, .rsv, .hst], p ∈ ps) (fr : Framed ps s0 s) :
    Framed ps s0 (recPut blk inst c a d s) := by
  refine fr.trans (Framed.mono sub ?_)
  clear sub fr
  unfold recPut
  repeat' first
    | with_reducible exact Framed.refl _ _
    | decide
    | with_reducible refine memDiscard_frame ?_ ?_
    | with_reducible refine memWrite_frame ?_ ?_
    | with_reducible refine rsvAsk_frame ?_ ?_
    | with_reducible refine winKeep_frame ?_ ?_
    | with_reducible refine Framed.foldl _ (fun _ _ => ?_) _ _ _ ?_
    | with_reducible refine Framed.foldl_fst _ (fun _ _ => ?_) _ _ _ ?_
    | with_reducible refine Framed.ite (fun _ => ?_) (fun _ => ?_)
    | dsimp only [id]
    | split

theorem modPass_frame {e id : Nat} {f : Pass → Pass}  (sub : ∀ p ∈ [.frs], p ∈ ps) (fr : Framed ps s0 s) :
    Framed ps s0 (modPass e id f s) := by
  refine fr.trans (Framed.mono sub ?_)
  clear sub fr
  unfold modPass
  repeat' first
    | with_reducible exact Framed.refl _ _
    | decide
    | with_reducible refine modFrs_frame ?_ ?_
    | with_reducible refine Framed.ite (fun _ => ?_) (fun _ => ?_)
    | dsimp only [id]
    | split

theorem dropEntry_frame {e pass j : Nat}  (sub : ∀ p ∈ [.frs], p ∈ ps) (fr : Framed ps s0 s) :
    Framed ps s0 (dropEntry e pass j s) := by
  refine fr.trans (Framed.mono sub ?_)
  clear sub fr
  unfold dropEntry
  repeat' first
    | with_reducible exact Framed.refl _ _
    | decide
    | with_reducible refine modFrs_frame ?_ ?_
    | with_reducible refine modPass_frame ?_ ?_
    | with_reducible refine Framed.ite (fun _ => ?_) (fun _ => ?_)
    | dsimp only [id]
    | split

theorem unitCount_frame {num ctx job : Nat}  (sub : ∀ p ∈ [.tel], p ∈ ps) (fr : Framed ps s0 s) :
    Framed ps s0 (unitCount num ctx job s) := by
  refine fr.trans (Framed.mono sub ?_)
  clear sub fr
  unfold unitCount
  repeat' first
    | with_reducible exact Framed.refl _ _
    | decide
    | with_reducible refine count_frame ?_ ?_
    | dsimp only [id]
    | split

theorem modTide_frame {f : Tide → Tide}  (sub : ∀ p ∈ [.tide], p ∈ ps) (fr : Framed ps s0 s) :
    Framed ps s0 (modTide f s) := by
  refine fr.trans ⟨fun p hp => ?_, Keeps.same rfl rfl rfl⟩
  cases p <;> first | rfl | exact ⟨rfl, rfl⟩ | exact absurd (sub _ (by decide)) hp

theorem tideRec_frame {sev code qual : Nat}  (sub : ∀ p ∈ [.out, .err, .tel], p ∈ ps) (fr : Framed ps s0 s) :
    Framed ps s0 (tideRec sev code qual s) := by
  refine fr.trans (Framed.mono sub ?_)
  clear sub fr
  unfold tideRec
  repeat' first
    | with_reducible exact Framed.refl _ _
    | decide
    | with_reducible refine raise_frame ?_ ?_
    | dsimp only [id]

theorem enterHoldover_frame {row : Nat}  (sub : ∀ p ∈ [.out, .err, .tel, .tide], p ∈ ps) (fr : Framed ps s0 s) :
    Framed ps s0 (enterHoldover row s) := by
  refine fr.trans (Framed.mono sub ?_)
  clear sub fr
  unfold enterHoldover
  repeat' first
    | with_reducible exact Framed.refl _ _
    | decide
    | with_reducible refine modTide_frame ?_ ?_
    | with_reducible refine tideRec_frame ?_ ?_
    | with_reducible refine Framed.ite (fun _ => ?_) (fun _ => ?_)
    | dsimp only [id]
    | split

theorem modIn_frame {tidein : Bool} {f : TideIn → TideIn}  (sub : ∀ p ∈ [.tide, .csn], p ∈ ps) (fr : Framed ps s0 s) :
    Framed ps s0 (modIn tidein f s) := by
  refine fr.trans (Framed.mono sub ?_)
  clear sub fr
  unfold modIn
  repeat' first
    | with_reducible exact Framed.refl _ _
    | decide
    | with_reducible refine modTide_frame ?_ ?_
    | with_reducible refine Framed.ite (fun _ => ?_) (fun _ => ?_)
    | dsimp only [id]
    | split

theorem inputFail_frame {tidein : Bool} {row : Nat}  (sub : ∀ p ∈ [.out, .err, .tel, .tide, .csn], p ∈ ps) (fr : Framed ps s0 s) :
    Framed ps s0 (inputFail tidein row s) := by
  refine fr.trans (Framed.mono sub ?_)
  clear sub fr
  unfold inputFail
  repeat' first
    | with_reducible exact Framed.refl _ _
    | decide
    | with_reducible refine enterHoldover_frame ?_ ?_
    | with_reducible refine modIn_frame ?_ ?_
    | with_reducible refine modTide_frame ?_ ?_
    | with_reducible refine Framed.ite (fun _ => ?_) (fun _ => ?_)
    | dsimp only [id]
    | split

theorem engJudge_frame {e : Nat}  (sub : ∀ p ∈ [.out, .err, .tel, .tide, .csn], p ∈ ps) (fr : Framed ps s0 s) :
    Framed ps s0 (engJudge e s) := by
  refine fr.trans (Framed.mono sub ?_)
  clear sub fr
  unfold engJudge
  repeat' first
    | with_reducible exact Framed.refl _ _
    | decide
    | with_reducible refine inputFail_frame ?_ ?_
    | with_reducible refine linkFail_frame ?_ ?_
    | with_reducible refine linkJudge_frame ?_ ?_
    | with_reducible refine modEng_frame ?_ ?_
    | with_reducible refine Framed.ite (fun _ => ?_) (fun _ => ?_)
    | dsimp only [id]
    | split

theorem enterTide_frame {st : TideSt}  (sub : ∀ p ∈ [.out, .err, .tel, .tide], p ∈ ps) (fr : Framed ps s0 s) :
    Framed ps s0 (enterTide st s) := by
  refine fr.trans (Framed.mono sub ?_)
  clear sub fr
  unfold enterTide
  repeat' first
    | with_reducible exact Framed.refl _ _
    | decide
    | with_reducible refine modTide_frame ?_ ?_
    | with_reducible refine tideRec_frame ?_ ?_
    | with_reducible refine Framed.ite (fun _ => ?_) (fun _ => ?_)
    | dsimp only [id]
    | split

theorem errDeliver_frame  (sub : ∀ p ∈ [.out, .err, .tel, .csn], p ∈ ps) (fr : Framed ps s0 s) :
    Framed ps s0 (errDeliver s) := by
  refine fr.trans (Framed.mono sub ?_)
  clear sub fr
  unfold errDeliver
  repeat' first
    | with_reducible exact Framed.refl _ _
    | decide
    | with_reducible refine csnFleet_frame ?_ ?_
    | with_reducible refine emit_frame ?_ ?_
    | with_reducible refine Framed.ite (fun _ => ?_) (fun _ => ?_)
    | dsimp only [id]
    | split
  all_goals try (with_reducible apply Framed.upd rfl <;> first | exact Or.inl (by decide) | with_reducible exact Or.inr rfl | with_reducible exact Or.inr ⟨rfl, rfl⟩ | with_reducible exact Or.inl ⟨by decide, fun h => h⟩ | with_reducible exact Or.inl ⟨by decide, Nat.le_refl _⟩ | exact Or.inl ⟨by decide, fun h => bwrite_wf _ _ _ h⟩ | exact Or.inl ⟨by decide, fun h => bzero_wf _ _ _ h⟩ | exact Or.inl ⟨by decide, fun _ => rfl⟩ | exact Or.inl ⟨by decide, Err.bounded_q rfl (fun h => by rw [lmod_length]; exact h)⟩ | exact Or.inl ⟨by decide, Err.bounded_q rfl (fun h => h)⟩ | exact Or.inl ⟨by decide, Err.bounded_q rfl (fun h => by rw [List.length_map]; exact h)⟩ | exact Or.inl ⟨by decide, Nat.le_succ _⟩ | exact Or.inl ⟨by decide, Err.bounded_put rfl (fun h => Err.bounded_unit h _) (fun h => h)⟩ | skip)
  repeat' first
    | with_reducible exact Framed.refl _ _
    | decide
    | with_reducible refine csnFleet_frame ?_ ?_
    | with_reducible refine emit_frame ?_ ?_
    | with_reducible refine Framed.ite (fun _ => ?_) (fun _ => ?_)
    | dsimp only [id]
    | split

theorem expSet_frame {i : Nat}  (sub : ∀ p ∈ [.rsv], p ∈ ps) (fr : Framed ps s0 s) :
    Framed ps s0 (expSet i s) := by
  refine fr.trans ⟨fun p hp => ?_, Keeps.same rfl rfl rfl⟩
  cases p <;> first | rfl | exact ⟨rfl, rfl⟩ | exact absurd (sub _ (by decide)) hp

theorem headerBad_frame {e l : Nat} {b : Bytes}  (sub : ∀ p ∈ [.out, .err, .tel, .csn], p ∈ ps) (fr : Framed ps s0 s) :
    Framed ps s0 (headerBad e l b s) := by
  refine fr.trans (Framed.mono sub ?_)
  clear sub fr
  unfold headerBad
  repeat' first
    | with_reducible exact Framed.refl _ _
    | decide
    | with_reducible refine count_frame ?_ ?_
    | with_reducible refine modEng_frame ?_ ?_
    | with_reducible refine raise_frame ?_ ?_
    | with_reducible refine Framed.ite (fun _ => ?_) (fun _ => ?_)
    | dsimp only [id]
    | split

theorem msgArrive_frame {e l : Nat} {b : Bytes}  (sub : ∀ p ∈ [.out, .err, .tel, .csn], p ∈ ps) (fr : Framed ps s0 s) :
    Framed ps s0 (msgArrive e l b s) := by
  refine fr.trans (Framed.mono sub ?_)
  clear sub fr
  unfold msgArrive
  repeat' first
    | with_reducible exact Framed.refl _ _
    | decide
    | with_reducible refine count_frame ?_ ?_
    | with_reducible refine csnCtl_frame ?_ ?_
    | with_reducible refine modEng_frame ?_ ?_
    | with_reducible refine raise_frame ?_ ?_
    | with_reducible refine Framed.ite (fun _ => ?_) (fun _ => ?_)
    | dsimp only [id]
    | split

theorem msgParse_frame {e l n : Nat} {b : Bytes}  (sub : ∀ p ∈ [.out, .err, .tel, .csn], p ∈ ps) (fr : Framed ps s0 s) :
    Framed ps s0 (msgParse e l n b s) := by
  refine fr.trans (Framed.mono sub ?_)
  clear sub fr
  induction n generalizing b s with
  | zero => exact Framed.refl _ _
  | succ n ih =>
  unfold msgParse
  repeat' first
    | with_reducible exact Framed.refl _ _
    | decide
    | with_reducible refine headerBad_frame ?_ ?_
    | with_reducible refine modLane_frame ?_ ?_
    | with_reducible refine msgArrive_frame ?_ ?_
    | with_reducible refine Framed.trans ?_ ih
    | with_reducible refine Framed.ite (fun _ => ?_) (fun _ => ?_)
    | dsimp only [id]
    | split

theorem payloadTake_frame {e l off : Nat} {p : Bytes}  (sub : ∀ p ∈ [.out, .err, .tel, .csn], p ∈ ps) (fr : Framed ps s0 s) :
    Framed ps s0 (payloadTake e l off p s) := by
  refine fr.trans (Framed.mono sub ?_)
  clear sub fr
  unfold payloadTake
  repeat' first
    | with_reducible exact Framed.refl _ _
    | decide
    | with_reducible refine headerBad_frame ?_ ?_
    | with_reducible refine modLane_frame ?_ ?_
    | with_reducible refine msgArrive_frame ?_ ?_
    | with_reducible refine msgParse_frame ?_ ?_
    | with_reducible refine Framed.ite (fun _ => ?_) (fun _ => ?_)
    | dsimp only [id]
    | split

theorem laneFall_frame {e l cause : Nat}  (sub : ∀ p ∈ [.out, .err, .tel, .tide, .csn], p ∈ ps) (fr : Framed ps s0 s) :
    Framed ps s0 (laneFall e l cause s) := by
  refine fr.trans (Framed.mono sub ?_)
  clear sub fr
  unfold laneFall
  repeat' first
    | with_reducible exact Framed.refl _ _
    | decide
    | with_reducible refine closeSend_frame ?_ ?_
    | with_reducible refine count_frame ?_ ?_
    | with_reducible refine inputFail_frame ?_ ?_
    | with_reducible refine modLane_frame ?_ ?_
    | with_reducible refine raise_frame ?_ ?_
    | with_reducible refine Framed.ite (fun _ => ?_) (fun _ => ?_)
    | dsimp only [id]
    | split

theorem laneOut_frame {e l cause : Nat}  (sub : ∀ p ∈ [.out, .err, .tel, .tide, .csn], p ∈ ps) (fr : Framed ps s0 s) :
    Framed ps s0 (laneOut e l cause s) := by
  refine fr.trans (Framed.mono sub ?_)
  clear sub fr
  unfold laneOut
  repeat' first
    | with_reducible exact Framed.refl _ _
    | decide
    | with_reducible refine laneFall_frame ?_ ?_
    | with_reducible refine linkJudge_frame ?_ ?_
    | with_reducible refine recalNext_frame ?_ ?_
    | dsimp only [id]

theorem resend_frame {e l : Nat}  (sub : ∀ p ∈ [.out, .err, .tel, .tide, .csn], p ∈ ps) (fr : Framed ps s0 s) :
    Framed ps s0 (resend e l s) := by
  refine fr.trans (Framed.mono sub ?_)
  clear sub fr
  unfold resend
  repeat' first
    | with_reducible exact Framed.refl _ _
    | decide
    | with_reducible refine count_frame ?_ ?_
    | with_reducible refine flitOut_frame ?_ ?_
    | with_reducible refine laneOut_frame ?_ ?_
    | with_reducible refine modLane_frame ?_ ?_
    | with_reducible refine Framed.foldl _ (fun _ _ => ?_) _ _ _ ?_
    | with_reducible refine Framed.foldl_fst _ (fun _ _ => ?_) _ _ _ ?_
    | with_reducible refine Framed.ite (fun _ => ?_) (fun _ => ?_)
    | dsimp only [id]
    | split

theorem flitTake_frame {e l : Nat} {flit : Bytes}  (sub : ∀ p ∈ [.out, .err, .tel, .tide, .csn], p ∈ ps) (fr : Framed ps s0 s) :
    Framed ps s0 (flitTake e l flit s) := by
  refine fr.trans (Framed.mono sub ?_)
  clear sub fr
  unfold flitTake
  repeat' first
    | with_reducible exact Framed.refl _ _
    | decide
    | with_reducible refine ackTake_frame ?_ ?_
    | with_reducible refine count_frame ?_ ?_
    | with_reducible refine flitOut_frame ?_ ?_
    | with_reducible refine modLane_frame ?_ ?_
    | with_reducible refine payloadTake_frame ?_ ?_
    | with_reducible refine resend_frame ?_ ?_
    | with_reducible refine Framed.ite (fun _ => ?_) (fun _ => ?_)
    | dsimp only [id]
    | split

theorem guardRecord_frame {a requester : Nat} {ctx : Option Nat}  (sub : ∀ p ∈ [.out, .err, .tel], p ∈ ps) (fr : Framed ps s0 s) :
    Framed ps s0 (guardRecord a requester ctx s) := by
  refine fr.trans (Framed.mono sub ?_)
  clear sub fr
  unfold guardRecord
  repeat' first
    | with_reducible exact Framed.refl _ _
    | decide
    | with_reducible refine raise_frame ?_ ?_
    | dsimp only [id]

theorem laneHold_frame {e l : Nat} {v : Bool}  (sub : ∀ p ∈ [.out, .err, .tel, .tide, .csn], p ∈ ps) (fr : Framed ps s0 s) :
    Framed ps s0 (laneHold e l v s) := by
  refine fr.trans (Framed.mono sub ?_)
  clear sub fr
  unfold laneHold
  repeat' first
    | with_reducible exact Framed.refl _ _
    | decide
    | with_reducible refine laneOut_frame ?_ ?_
    | with_reducible refine modLane_frame ?_ ?_
    | with_reducible refine Framed.ite (fun _ => ?_) (fun _ => ?_)
    | dsimp only [id]
    | split

theorem mismatch_frame  (sub : ∀ p ∈ [.out, .err, .tel, .tide], p ∈ ps) (fr : Framed ps s0 s) :
    Framed ps s0 (mismatch s) := by
  refine fr.trans (Framed.mono sub ?_)
  clear sub fr
  unfold mismatch
  repeat' first
    | with_reducible exact Framed.refl _ _
    | decide
    | with_reducible refine modTide_frame ?_ ?_
    | with_reducible refine tideRec_frame ?_ ?_
    | dsimp only [id]
    | split

theorem recalAsk_frame {e l : Nat}  (sub : ∀ p ∈ [.out, .err, .tel, .csn], p ∈ ps) (fr : Framed ps s0 s) :
    Framed ps s0 (recalAsk e l s) := by
  refine fr.trans (Framed.mono sub ?_)
  clear sub fr
  unfold recalAsk
  repeat' first
    | with_reducible exact Framed.refl _ _
    | decide
    | with_reducible refine modLane_frame ?_ ?_
    | with_reducible refine recalNext_frame ?_ ?_
    | with_reducible refine Framed.ite (fun _ => ?_) (fun _ => ?_)
    | dsimp only [id]
    | split

theorem winSet_frame {w : Nat}  (sub : ∀ p ∈ [.rsv], p ∈ ps) (fr : Framed ps s0 s) :
    Framed ps s0 (winSet w s) := by
  refine fr.trans ⟨fun p hp => ?_, Keeps.same rfl rfl rfl⟩
  cases p <;> first | rfl | exact ⟨rfl, rfl⟩ | exact absurd (sub _ (by decide)) hp

theorem inputSlot_frame {tidein : Bool} {frameOk : Bool} {slot : Nat} {off : Int}  (sub : ∀ p ∈ [.out, .err, .tel, .tide, .csn], p ∈ ps) (fr : Framed ps s0 s) :
    Framed ps s0 (inputSlot tidein frameOk slot off s) := by
  refine fr.trans (Framed.mono sub ?_)
  clear sub fr
  unfold inputSlot
  repeat' first
    | with_reducible exact Framed.refl _ _
    | decide
    | with_reducible refine count_frame ?_ ?_
    | with_reducible refine inputFail_frame ?_ ?_
    | with_reducible refine modIn_frame ?_ ?_
    | with_reducible refine Framed.ite (fun _ => ?_) (fun _ => ?_)
    | dsimp only [id]
    | split

theorem judge_frame {off : Int}  (sub : ∀ p ∈ [.out, .err, .tel, .tide], p ∈ ps) (fr : Framed ps s0 s) :
    Framed ps s0 (judge off s) := by
  refine fr.trans (Framed.mono sub ?_)
  clear sub fr
  unfold judge
  repeat' first
    | with_reducible exact Framed.refl _ _
    | decide
    | with_reducible refine enterHoldover_frame ?_ ?_
    | with_reducible refine enterTide_frame ?_ ?_
    | with_reducible refine mismatch_frame ?_ ?_
    | with_reducible refine modTide_frame ?_ ?_
    | with_reducible refine Framed.ite (fun _ => ?_) (fun _ => ?_)
    | dsimp only [id]
    | split

theorem memDropCtx_frame {c : Nat}  (sub : ∀ p ∈ [.cells, .chk, .mem, .rsv], p ∈ ps) (fr : Framed ps s0 s) :
    Framed ps s0 (memDropCtx c s) := by
  refine fr.trans (Framed.mono sub ?_)
  clear sub fr
  unfold memDropCtx
  repeat' first
    | with_reducible exact Framed.refl _ _
    | decide
    | with_reducible refine done_frame ?_ ?_
    | with_reducible refine unitFree_frame ?_ ?_
    | dsimp only [id]
  all_goals try (with_reducible apply Framed.upd rfl <;> first | exact Or.inl (by decide) | with_reducible exact Or.inr rfl | with_reducible exact Or.inr ⟨rfl, rfl⟩ | with_reducible exact Or.inl ⟨by decide, fun h => h⟩ | with_reducible exact Or.inl ⟨by decide, Nat.le_refl _⟩ | exact Or.inl ⟨by decide, fun h => bwrite_wf _ _ _ h⟩ | exact Or.inl ⟨by decide, fun h => bzero_wf _ _ _ h⟩ | exact Or.inl ⟨by decide, fun _ => rfl⟩ | exact Or.inl ⟨by decide, Err.bounded_q rfl (fun h => by rw [lmod_length]; exact h)⟩ | exact Or.inl ⟨by decide, Err.bounded_q rfl (fun h => h)⟩ | exact Or.inl ⟨by decide, Err.bounded_q rfl (fun h => by rw [List.length_map]; exact h)⟩ | exact Or.inl ⟨by decide, Nat.le_succ _⟩ | exact Or.inl ⟨by decide, Err.bounded_put rfl (fun h => Err.bounded_unit h _) (fun h => h)⟩ | skip)
  repeat' first
    | with_reducible exact Framed.refl _ _
    | decide
    | with_reducible refine done_frame ?_ ?_
    | with_reducible refine unitFree_frame ?_ ?_
    | dsimp only [id]

theorem memZero_frame {a n : Nat}  (sub : ∀ p ∈ [.out, .tel, .frs, .mem, .hst], p ∈ ps) (fr : Framed ps s0 s) :
    Framed ps s0 (memZero a n s) := by
  refine fr.trans (Framed.mono sub ?_)
  clear sub fr
  unfold memZero
  repeat' first
    | with_reducible exact Framed.refl _ _
    | decide
    | with_reducible refine epochTouch_frame ?_ ?_
    | with_reducible refine modStk_frame ?_ ?_
    | with_reducible refine reportWrite_frame ?_ ?_
    | with_reducible refine snoopWrite_frame ?_ ?_
    | with_reducible refine Framed.foldl _ (fun _ _ => ?_) _ _ _ ?_
    | with_reducible refine Framed.foldl_fst _ (fun _ _ => ?_) _ _ _ ?_
    | dsimp only [id]
  all_goals try (with_reducible apply Framed.upd rfl <;> first | exact Or.inl (by decide) | with_reducible exact Or.inr rfl | with_reducible exact Or.inr ⟨rfl, rfl⟩ | with_reducible exact Or.inl ⟨by decide, fun h => h⟩ | with_reducible exact Or.inl ⟨by decide, Nat.le_refl _⟩ | exact Or.inl ⟨by decide, fun h => bwrite_wf _ _ _ h⟩ | exact Or.inl ⟨by decide, fun h => bzero_wf _ _ _ h⟩ | exact Or.inl ⟨by decide, fun _ => rfl⟩ | exact Or.inl ⟨by decide, Err.bounded_q rfl (fun h => by rw [lmod_length]; exact h)⟩ | exact Or.inl ⟨by decide, Err.bounded_q rfl (fun h => h)⟩ | exact Or.inl ⟨by decide, Err.bounded_q rfl (fun h => by rw [List.length_map]; exact h)⟩ | exact Or.inl ⟨by decide, Nat.le_succ _⟩ | exact Or.inl ⟨by decide, Err.bounded_put rfl (fun h => Err.bounded_unit h _) (fun h => h)⟩ | skip)
  repeat' first
    | with_reducible exact Framed.refl _ _
    | decide
    | with_reducible refine epochTouch_frame ?_ ?_
    | with_reducible refine modStk_frame ?_ ?_
    | with_reducible refine reportWrite_frame ?_ ?_
    | with_reducible refine snoopWrite_frame ?_ ?_
    | with_reducible refine Framed.foldl _ (fun _ _ => ?_) _ _ _ ?_
    | with_reducible refine Framed.foldl_fst _ (fun _ _ => ?_) _ _ _ ?_
    | dsimp only [id]

theorem rsvOut_frame {o : RsvOp} {h : RsvHdr} {d : Bytes}  (sub : ∀ p ∈ [.out, .tel, .csn], p ∈ ps) (fr : Framed ps s0 s) :
    Framed ps s0 (rsvOut o h d s) := by
  refine fr.trans (Framed.mono sub ?_)
  clear sub fr
  unfold rsvOut
  repeat' first
    | with_reducible exact Framed.refl _ _
    | decide
    | with_reducible refine csnSend_frame ?_ ?_
    | dsimp only [id]

theorem rsvAbortMsg_frame {o : RsvOp}  (sub : ∀ p ∈ [.out, .tel, .csn], p ∈ ps) (fr : Framed ps s0 s) :
    Framed ps s0 (rsvAbortMsg o s) := by
  refine fr.trans (Framed.mono sub ?_)
  clear sub fr
  unfold rsvAbortMsg
  repeat' first
    | with_reducible exact Framed.refl _ _
    | decide
    | with_reducible refine rsvOut_frame ?_ ?_
    | with_reducible refine Framed.ite (fun _ => ?_) (fun _ => ?_)
    | dsimp only [id]
    | split

theorem rowError_frame {stk a : Nat} {persistent : Bool}  (sub : ∀ p ∈ [.mem], p ∈ ps) (fr : Framed ps s0 s) :
    Framed ps s0 (rowError stk a persistent s) := by
  refine fr.trans (Framed.mono sub ?_)
  clear sub fr
  unfold rowError
  repeat' first
    | with_reducible exact Framed.refl _ _
    | decide
    | with_reducible refine modStk_frame ?_ ?_
    | with_reducible refine Framed.ite (fun _ => ?_) (fun _ => ?_)
    | dsimp only [id]
    | split

theorem lineCheck_frame {stk a : Nat} {ctx : Option Nat} {e : MemEcc}  (sub : ∀ p ∈ [.out, .err, .tel, .mem], p ∈ ps) (fr : Framed ps s0 s) :
    Framed ps s0 ((lineCheck stk a ctx e s).1) := by
  refine fr.trans (Framed.mono sub ?_)
  clear sub fr
  unfold lineCheck
  repeat' first
    | with_reducible exact Framed.refl _ _
    | decide
    | with_reducible refine countCtx_frame ?_ ?_
    | with_reducible refine modStk_frame ?_ ?_
    | with_reducible refine raise_frame ?_ ?_
    | with_reducible refine raiseRec_frame ?_ ?_
    | with_reducible refine rowError_frame ?_ ?_
    | with_reducible refine Framed.ite (fun _ => ?_) (fun _ => ?_)
    | dsimp only [id]
    | split

theorem lineCheck_of {stk a : Nat} {ctx : Option Nat} {e : MemEcc}  {u : State} {o : Bool} (eq : lineCheck stk a ctx e s = (u, o)) (sub : ∀ p ∈ [.out, .err, .tel, .mem], p ∈ ps) (fr : Framed ps s0 s) : Framed ps s0 u := by
  have g := @lineCheck_frame ps s0 s stk a ctx e sub fr
  rw [eq] at g
  exact g

theorem linesCheck_frame {stk : Nat} {ls : List Nat} {ctx : Option Nat} {es : List MemEcc}  (sub : ∀ p ∈ [.out, .err, .tel, .mem], p ∈ ps) (fr : Framed ps s0 s) :
    Framed ps s0 ((linesCheck stk ls ctx es s).1) := by
  refine fr.trans (Framed.mono sub ?_)
  clear sub fr
  unfold linesCheck
  repeat' first
    | with_reducible exact Framed.refl _ _
    | decide
    | with_reducible refine lineCheck_frame ?_ ?_
    | with_reducible refine lineCheck_of (by assumption) ?_ ?_
    | with_reducible refine Framed.foldl _ (fun _ _ => ?_) _ _ _ ?_
    | with_reducible refine Framed.foldl_fst _ (fun _ _ => ?_) _ _ _ ?_
    | dsimp only [id]
    | split

theorem linesCheck_of {stk : Nat} {ls : List Nat} {ctx : Option Nat} {es : List MemEcc}  {u : State} {o : Bool} (eq : linesCheck stk ls ctx es s = (u, o)) (sub : ∀ p ∈ [.out, .err, .tel, .mem], p ∈ ps) (fr : Framed ps s0 s) : Framed ps s0 u := by
  have g := @linesCheck_frame ps s0 s stk ls ctx es sub fr
  rw [eq] at g
  exact g

theorem memAccept_frame {stk : Nat} {r : MemReq}  (sub : ∀ p ∈ [.out, .err, .tel, .frs, .mem, .hst], p ∈ ps) (fr : Framed ps s0 s) :
    Framed ps s0 (memAccept stk r s) := by
  refine fr.trans (Framed.mono sub ?_)
  clear sub fr
  unfold memAccept
  repeat' first
    | with_reducible exact Framed.refl _ _
    | decide
    | with_reducible refine epochTouch_frame ?_ ?_
    | with_reducible refine memWrite_frame ?_ ?_
    | with_reducible refine modStk_frame ?_ ?_
    | with_reducible refine raise_frame ?_ ?_
    | with_reducible refine Framed.foldl _ (fun _ _ => ?_) _ _ _ ?_
    | with_reducible refine Framed.foldl_fst _ (fun _ _ => ?_) _ _ _ ?_
    | with_reducible refine Framed.ite (fun _ => ?_) (fun _ => ?_)
    | dsimp only [id]
    | split

theorem memGive_frame {r : MemReq} {ok : Bool}  (sub : ∀ p ∈ [.out, .tel, .fly, .mem, .hst], p ∈ ps) (fr : Framed ps s0 s) :
    Framed ps s0 (memGive r ok s) := by
  refine fr.trans (Framed.mono sub ?_)
  clear sub fr
  unfold memGive
  repeat' first
    | with_reducible exact Framed.refl _ _
    | decide
    | with_reducible refine emit_frame ?_ ?_
    | with_reducible refine hostAnswer_frame ?_ ?_
    | with_reducible refine send_frame ?_ ?_
    | with_reducible refine Framed.ite (fun _ => ?_) (fun _ => ?_)
    | dsimp only [id]
    | split
  all_goals try (with_reducible apply Framed.upd rfl <;> first | exact Or.inl (by decide) | with_reducible exact Or.inr rfl | with_reducible exact Or.inr ⟨rfl, rfl⟩ | with_reducible exact Or.inl ⟨by decide, fun h => h⟩ | with_reducible exact Or.inl ⟨by decide, Nat.le_refl _⟩ | exact Or.inl ⟨by decide, fun h => bwrite_wf _ _ _ h⟩ | exact Or.inl ⟨by decide, fun h => bzero_wf _ _ _ h⟩ | exact Or.inl ⟨by decide, fun _ => rfl⟩ | exact Or.inl ⟨by decide, Err.bounded_q rfl (fun h => by rw [lmod_length]; exact h)⟩ | exact Or.inl ⟨by decide, Err.bounded_q rfl (fun h => h)⟩ | exact Or.inl ⟨by decide, Err.bounded_q rfl (fun h => by rw [List.length_map]; exact h)⟩ | exact Or.inl ⟨by decide, Nat.le_succ _⟩ | exact Or.inl ⟨by decide, Err.bounded_put rfl (fun h => Err.bounded_unit h _) (fun h => h)⟩ | skip)
  repeat' first
    | with_reducible exact Framed.refl _ _
    | decide
    | with_reducible refine emit_frame ?_ ?_
    | with_reducible refine hostAnswer_frame ?_ ?_
    | with_reducible refine send_frame ?_ ?_
    | with_reducible refine Framed.ite (fun _ => ?_) (fun _ => ?_)
    | dsimp only [id]
    | split

theorem memAnswer_frame {r : MemReq} {ok : Bool}  (sub : ∀ p ∈ [.out, .tel, .fly, .mem, .hst], p ∈ ps) (fr : Framed ps s0 s) :
    Framed ps s0 (memAnswer r ok s) := by
  refine fr.trans (Framed.mono sub ?_)
  clear sub fr
  unfold memAnswer
  repeat' first
    | with_reducible exact Framed.refl _ _
    | decide
    | with_reducible refine memGive_frame ?_ ?_
    | with_reducible refine Framed.foldl _ (fun _ _ => ?_) _ _ _ ?_
    | with_reducible refine Framed.foldl_fst _ (fun _ _ => ?_) _ _ _ ?_
    | dsimp only [id]

theorem queueHold_frame {r : MemReq}  (sub : ∀ p ∈ [.tel], p ∈ ps) (fr : Framed ps s0 s) :
    Framed ps s0 (queueHold r s) := by
  refine fr.trans (Framed.mono sub ?_)
  clear sub fr
  unfold queueHold
  repeat' first
    | with_reducible exact Framed.refl _ _
    | decide
    | with_reducible refine countCtx_frame ?_ ?_
    | dsimp only [id]

theorem memEnqueue_frame {r : MemReq}  (sub : ∀ p ∈ [.tel, .mem], p ∈ ps) (fr : Framed ps s0 s) :
    Framed ps s0 (memEnqueue r s) := by
  refine fr.trans (Framed.mono sub ?_)
  clear sub fr
  unfold memEnqueue
  repeat' first
    | with_reducible exact Framed.refl _ _
    | decide
    | with_reducible refine countCtx_frame ?_ ?_
    | with_reducible refine modStk_frame ?_ ?_
    | with_reducible refine queueHold_frame ?_ ?_
    | with_reducible refine Framed.ite (fun _ => ?_) (fun _ => ?_)
    | dsimp only [id]
    | split

theorem modRsv_frame {agent slot : Nat} {f : RsvOp → RsvOp}  (sub : ∀ p ∈ [.rsv], p ∈ ps) (fr : Framed ps s0 s) :
    Framed ps s0 (modRsv agent slot f s) := by
  refine fr.trans (Framed.mono sub ?_)
  clear sub fr
  unfold modRsv
  repeat' first
    | with_reducible exact Framed.refl _ _
    | decide
    | with_reducible refine Framed.ite (fun _ => ?_) (fun _ => ?_)
    | dsimp only [id]
    | split
  all_goals try (with_reducible apply Framed.upd rfl <;> first | exact Or.inl (by decide) | with_reducible exact Or.inr rfl | with_reducible exact Or.inr ⟨rfl, rfl⟩ | with_reducible exact Or.inl ⟨by decide, fun h => h⟩ | with_reducible exact Or.inl ⟨by decide, Nat.le_refl _⟩ | exact Or.inl ⟨by decide, fun h => bwrite_wf _ _ _ h⟩ | exact Or.inl ⟨by decide, fun h => bzero_wf _ _ _ h⟩ | exact Or.inl ⟨by decide, fun _ => rfl⟩ | exact Or.inl ⟨by decide, Err.bounded_q rfl (fun h => by rw [lmod_length]; exact h)⟩ | exact Or.inl ⟨by decide, Err.bounded_q rfl (fun h => h)⟩ | exact Or.inl ⟨by decide, Err.bounded_q rfl (fun h => by rw [List.length_map]; exact h)⟩ | exact Or.inl ⟨by decide, Nat.le_succ _⟩ | exact Or.inl ⟨by decide, Err.bounded_put rfl (fun h => Err.bounded_unit h _) (fun h => h)⟩ | skip)
  repeat' first
    | with_reducible exact Framed.refl _ _
    | decide
    | with_reducible refine Framed.ite (fun _ => ?_) (fun _ => ?_)
    | dsimp only [id]
    | split

theorem ownLines_frame {stk : Nat} {ctx : Option Nat} {es : List (Nat × MemEcc)}  (sub : ∀ p ∈ [.out, .err, .tel, .mem], p ∈ ps) (fr : Framed ps s0 s) :
    Framed ps s0 (ownLines stk ctx es s) := by
  refine fr.trans (Framed.mono sub ?_)
  clear sub fr
  unfold ownLines
  repeat' first
    | with_reducible exact Framed.refl _ _
    | decide
    | with_reducible refine lineCheck_frame ?_ ?_
    | with_reducible refine lineCheck_of (by assumption) ?_ ?_
    | with_reducible refine Framed.foldl _ (fun _ _ => ?_) _ _ _ ?_
    | with_reducible refine Framed.foldl_fst _ (fun _ _ => ?_) _ _ _ ?_
    | with_reducible refine Framed.ite (fun _ => ?_) (fun _ => ?_)
    | dsimp only [id]
    | split

theorem packetDrop_frame {site num src dst cls : Nat}  (sub : ∀ p ∈ [.out, .err, .tel], p ∈ ps) (fr : Framed ps s0 s) :
    Framed ps s0 (packetDrop site num src dst cls s) := by
  refine fr.trans (Framed.mono sub ?_)
  clear sub fr
  unfold packetDrop
  repeat' first
    | with_reducible exact Framed.refl _ _
    | decide
    | with_reducible refine count_frame ?_ ?_
    | with_reducible refine raise_frame ?_ ?_
    | dsimp only [id]

theorem packetAcross_frame {m : Nat} {p : Packet}  (sub : ∀ p ∈ [.out, .err, .tel, .fly], p ∈ ps) (fr : Framed ps s0 s) :
    Framed ps s0 (packetAcross m p s) := by
  refine fr.trans (Framed.mono sub ?_)
  clear sub fr
  unfold packetAcross
  repeat' first
    | with_reducible exact Framed.refl _ _
    | decide
    | with_reducible refine emit_frame ?_ ?_
    | with_reducible refine packetDrop_frame ?_ ?_
    | with_reducible refine refly_frame ?_ ?_
    | with_reducible refine unfly_frame ?_ ?_
    | with_reducible refine Framed.ite (fun _ => ?_) (fun _ => ?_)
    | dsimp only [id]
    | split

theorem packetInDie_frame {m : Nat} {p : Packet}  (sub : ∀ p ∈ [.out, .err, .tel, .fly], p ∈ ps) (fr : Framed ps s0 s) :
    Framed ps s0 (packetInDie m p s) := by
  refine fr.trans (Framed.mono sub ?_)
  clear sub fr
  unfold packetInDie
  repeat' first
    | with_reducible exact Framed.refl _ _
    | decide
    | with_reducible refine emit_frame ?_ ?_
    | with_reducible refine packetDrop_frame ?_ ?_
    | with_reducible refine send_frame ?_ ?_
    | with_reducible refine unfly_frame ?_ ?_
    | with_reducible refine Framed.foldl _ (fun _ _ => ?_) _ _ _ ?_
    | with_reducible refine Framed.foldl_fst _ (fun _ _ => ?_) _ _ _ ?_
    | with_reducible refine Framed.ite (fun _ => ?_) (fun _ => ?_)
    | dsimp only [id]
    | split

theorem partCheck_frame {stk : Nat} {ls : List Nat} {ctx : Option Nat} {es : List MemEcc}  (sub : ∀ p ∈ [.out, .err, .tel, .mem], p ∈ ps) (fr : Framed ps s0 s) :
    Framed ps s0 (partCheck stk ls ctx es s) := by
  refine fr.trans (Framed.mono sub ?_)
  clear sub fr
  unfold partCheck
  repeat' first
    | with_reducible exact Framed.refl _ _
    | decide
    | with_reducible refine lineCheck_frame ?_ ?_
    | with_reducible refine lineCheck_of (by assumption) ?_ ?_
    | with_reducible refine raise_frame ?_ ?_
    | with_reducible refine Framed.foldl _ (fun _ _ => ?_) _ _ _ ?_
    | with_reducible refine Framed.foldl_fst _ (fun _ _ => ?_) _ _ _ ?_
    | with_reducible refine Framed.ite (fun _ => ?_) (fun _ => ?_)
    | dsimp only [id]
    | split

theorem passRefuse_frame {e : Nat} {p : Pass}  (sub : ∀ p ∈ [.out, .err, .tel, .ctxs, .slc], p ∈ ps) (fr : Framed ps s0 s) :
    Framed ps s0 (passRefuse e p s) := by
  refine fr.trans (Framed.mono sub ?_)
  clear sub fr
  unfold passRefuse
  repeat' first
    | with_reducible exact Framed.refl _ _
    | decide
    | with_reducible refine raise_frame ?_ ?_
    | with_reducible refine stepFail_frame ?_ ?_
    | with_reducible refine Framed.foldl _ (fun _ _ => ?_) _ _ _ ?_
    | with_reducible refine Framed.foldl_fst _ (fun _ _ => ?_) _ _ _ ?_
    | with_reducible refine Framed.ite (fun _ => ?_) (fun _ => ?_)
    | dsimp only [id]
    | split

theorem peerAnswer_frame {e : Nat} {m : CsnMsg} {h : RsvHdr} {data : Bytes}  (sub : ∀ p ∈ [.out, .tel, .csn], p ∈ ps) (fr : Framed ps s0 s) :
    Framed ps s0 (peerAnswer e m h data s) := by
  refine fr.trans (Framed.mono sub ?_)
  clear sub fr
  unfold peerAnswer
  repeat' first
    | with_reducible exact Framed.refl _ _
    | decide
    | with_reducible refine csnSend_frame ?_ ?_
    | with_reducible refine Framed.ite (fun _ => ?_) (fun _ => ?_)
    | dsimp only [id]
    | split

theorem peerSet_frame {m : CsnMsg} {h : RsvHdr} {w : Option PeerWrite}  (sub : ∀ p ∈ [.rsv], p ∈ ps) (fr : Framed ps s0 s) :
    Framed ps s0 (peerSet m h w s) := by
  refine fr.trans ⟨fun p hp => ?_, Keeps.same rfl rfl rfl⟩
  cases p <;> first | rfl | exact ⟨rfl, rfl⟩ | exact absurd (sub _ (by decide)) hp

theorem peerDeny_frame {e : Nat} {m : CsnMsg} {h : RsvHdr} {st : Nat}  (sub : ∀ p ∈ [.out, .tel, .rsv, .csn], p ∈ ps) (fr : Framed ps s0 s) :
    Framed ps s0 (peerDeny e m h st s) := by
  refine fr.trans (Framed.mono sub ?_)
  clear sub fr
  unfold peerDeny
  repeat' first
    | with_reducible exact Framed.refl _ _
    | decide
    | with_reducible refine peerAnswer_frame ?_ ?_
    | with_reducible refine peerSet_frame ?_ ?_
    | with_reducible refine Framed.ite (fun _ => ?_) (fun _ => ?_)
    | dsimp only [id]
    | split

theorem rsvBad_frame {e row : Nat} {ctx : Nat}  (sub : ∀ p ∈ [.out, .err, .tel], p ∈ ps) (fr : Framed ps s0 s) :
    Framed ps s0 (rsvBad e row ctx s) := by
  refine fr.trans (Framed.mono sub ?_)
  clear sub fr
  unfold rsvBad
  repeat' first
    | with_reducible exact Framed.refl _ _
    | decide
    | with_reducible refine countCtx_frame ?_ ?_
    | with_reducible refine raise_frame ?_ ?_
    | with_reducible refine Framed.ite (fun _ => ?_) (fun _ => ?_)
    | dsimp only [id]
    | split

theorem peerRequest_frame {e i op : Nat} {f : CsnMsg → RsvHdr → Bytes → State → State} (sub : ∀ p ∈ [.out, .err, .tel, .rsv, .csn], p ∈ ps) (hf : ∀ m h d t, Framed ps t (f m h d t)) (fr : Framed ps s0 s) : Framed ps s0 (peerRequest e i op f s) := by
  unfold peerRequest
  repeat' first
    | with_reducible exact Framed.refl _ _
    | decide
    | with_reducible refine csnTake_frame ?_ ?_
    | with_reducible refine peerDeny_frame ?_ ?_
    | with_reducible refine peerSet_frame ?_ ?_
    | with_reducible refine rsvBad_frame ?_ ?_
    | with_reducible refine Framed.trans ?_ (hf _ _ _ _)
    | exact fr
    | (intro p hp; exact sub p (by revert p; decide))
    | with_reducible refine Framed.ite (fun _ => ?_) (fun _ => ?_)
    | dsimp only [id]
    | split

theorem putDel_frame {e : Nat} {d : Del}  (sub : ∀ p ∈ [.frs], p ∈ ps) (fr : Framed ps s0 s) :
    Framed ps s0 (putDel e d s) := by
  refine fr.trans (Framed.mono sub ?_)
  clear sub fr
  unfold putDel
  repeat' first
    | with_reducible exact Framed.refl _ _
    | decide
    | with_reducible refine modFrs_frame ?_ ?_
    | with_reducible refine Framed.ite (fun _ => ?_) (fun _ => ?_)
    | dsimp only [id]
    | split

theorem readSource_frame {e : Nat} {p : Pass} {j copies : Nat} {en : Entry}  (sub : ∀ p ∈ [.tel, .frs, .rsv], p ∈ ps) (fr : Framed ps s0 s) :
    Framed ps s0 (readSource e p j copies en s) := by
  refine fr.trans (Framed.mono sub ?_)
  clear sub fr
  unfold readSource
  repeat' first
    | with_reducible exact Framed.refl _ _
    | decide
    | with_reducible refine askSlow_frame ?_ ?_
    | with_reducible refine countPass_frame ?_ ?_
    | with_reducible refine modFrs_frame ?_ ?_
    | with_reducible refine Framed.ite (fun _ => ?_) (fun _ => ?_)
    | dsimp only [id]
    | split

theorem readAgain_frame {e : Nat} {p : Pass} {j : Nat}  (sub : ∀ p ∈ [.tel, .frs, .rsv], p ∈ ps) (fr : Framed ps s0 s) :
    Framed ps s0 (readAgain e p j s) := by
  refine fr.trans (Framed.mono sub ?_)
  clear sub fr
  unfold readAgain
  repeat' first
    | with_reducible exact Framed.refl _ _
    | decide
    | with_reducible refine dropEntry_frame ?_ ?_
    | with_reducible refine modFrs_frame ?_ ?_
    | with_reducible refine readSource_frame ?_ ?_
    | with_reducible refine Framed.ite (fun _ => ?_) (fun _ => ?_)
    | dsimp only [id]
    | split

theorem slowTake_frame {blk inst a n : Nat}  (sub : ∀ p ∈ [.cells, .rsv], p ∈ ps) (fr : Framed ps s0 s) :
    Framed ps s0 (slowTake blk inst a n s) := by
  refine fr.trans (Framed.mono sub ?_)
  clear sub fr
  unfold slowTake
  repeat' first
    | with_reducible exact Framed.refl _ _
    | decide
    | with_reducible refine rsvTake_frame ?_ ?_
    | with_reducible refine Framed.foldl _ (fun _ _ => ?_) _ _ _ ?_
    | with_reducible refine Framed.foldl_fst _ (fun _ _ => ?_) _ _ _ ?_
    | dsimp only [id]

theorem releaseEntries_frame {e : Nat}  (sub : ∀ p ∈ [.frs], p ∈ ps) (fr : Framed ps s0 s) :
    Framed ps s0 (releaseEntries e s) := by
  refine fr.trans (Framed.mono sub ?_)
  clear sub fr
  unfold releaseEntries
  repeat' first
    | with_reducible exact Framed.refl _ _
    | decide
    | with_reducible refine modFrs_frame ?_ ?_
    | dsimp only [id]

theorem rsvEmit_frame {o : RsvOp}  (sub : ∀ p ∈ [.out, .tel, .csn], p ∈ ps) (fr : Framed ps s0 s) :
    Framed ps s0 (rsvEmit o s) := by
  refine fr.trans (Framed.mono sub ?_)
  clear sub fr
  unfold rsvEmit
  repeat' first
    | with_reducible exact Framed.refl _ _
    | decide
    | with_reducible refine emit_frame ?_ ?_
    | with_reducible refine rsvOut_frame ?_ ?_
    | with_reducible refine Framed.foldl _ (fun _ _ => ?_) _ _ _ ?_
    | with_reducible refine Framed.foldl_fst _ (fun _ _ => ?_) _ _ _ ?_
    | with_reducible refine Framed.ite (fun _ => ?_) (fun _ => ?_)
    | dsimp only [id]
    | split

theorem rsvAgain_frame {o : RsvOp} {eng : Nat}  (sub : ∀ p ∈ [.out, .tel, .rsv, .csn], p ∈ ps) (fr : Framed ps s0 s) :
    Framed ps s0 (rsvAgain o eng s) := by
  refine fr.trans (Framed.mono sub ?_)
  clear sub fr
  unfold rsvAgain
  repeat' first
    | with_reducible exact Framed.refl _ _
    | decide
    | with_reducible refine countCtx_frame ?_ ?_
    | with_reducible refine rsvEmit_frame ?_ ?_
    | with_reducible refine Framed.ite (fun _ => ?_) (fun _ => ?_)
    | dsimp only [id]
    | split
  all_goals try (with_reducible apply Framed.upd rfl <;> first | exact Or.inl (by decide) | with_reducible exact Or.inr rfl | with_reducible exact Or.inr ⟨rfl, rfl⟩ | with_reducible exact Or.inl ⟨by decide, fun h => h⟩ | with_reducible exact Or.inl ⟨by decide, Nat.le_refl _⟩ | exact Or.inl ⟨by decide, fun h => bwrite_wf _ _ _ h⟩ | exact Or.inl ⟨by decide, fun h => bzero_wf _ _ _ h⟩ | exact Or.inl ⟨by decide, fun _ => rfl⟩ | exact Or.inl ⟨by decide, Err.bounded_q rfl (fun h => by rw [lmod_length]; exact h)⟩ | exact Or.inl ⟨by decide, Err.bounded_q rfl (fun h => h)⟩ | exact Or.inl ⟨by decide, Err.bounded_q rfl (fun h => by rw [List.length_map]; exact h)⟩ | exact Or.inl ⟨by decide, Nat.le_succ _⟩ | exact Or.inl ⟨by decide, Err.bounded_put rfl (fun h => Err.bounded_unit h _) (fun h => h)⟩ | skip)
  repeat' first
    | with_reducible exact Framed.refl _ _
    | decide
    | with_reducible refine countCtx_frame ?_ ?_
    | with_reducible refine rsvEmit_frame ?_ ?_
    | with_reducible refine Framed.ite (fun _ => ?_) (fun _ => ?_)
    | dsimp only [id]
    | split

theorem unitBind_frame {chip : Nat} {b : ChkBind}  (sub : ∀ p ∈ [.chk], p ∈ ps) (fr : Framed ps s0 s) :
    Framed ps s0 (unitBind chip b s) := by
  refine fr.trans (Framed.mono sub ?_)
  clear sub fr
  unfold unitBind
  repeat' first
    | with_reducible exact Framed.refl _ _
    | decide
    | with_reducible refine modChk_frame ?_ ?_
    | dsimp only [id]
    | split

theorem rsvBind_frame {o : RsvOp}  (sub : ∀ p ∈ [.cells, .chk], p ∈ ps) (fr : Framed ps s0 s) :
    Framed ps s0 (rsvBind o s) := by
  refine fr.trans (Framed.mono sub ?_)
  clear sub fr
  unfold rsvBind
  repeat' first
    | with_reducible exact Framed.refl _ _
    | decide
    | with_reducible refine done_frame ?_ ?_
    | with_reducible refine unitBind_frame ?_ ?_
    | with_reducible refine Framed.ite (fun _ => ?_) (fun _ => ?_)
    | dsimp only [id]
    | split

theorem rsvStatus_frame {o : RsvOp} {status : Nat}  (sub : ∀ p ∈ [.out, .err, .tel, .fly, .cells, .chk, .mem, .rsv], p ∈ ps) (fr : Framed ps s0 s) :
    Framed ps s0 (rsvStatus o status s) := by
  refine fr.trans (Framed.mono sub ?_)
  clear sub fr
  unfold rsvStatus
  repeat' first
    | with_reducible exact Framed.refl _ _
    | decide
    | with_reducible refine modRsv_frame ?_ ?_
    | with_reducible refine rsvFail_frame ?_ ?_
    | with_reducible refine rsvOver_frame ?_ ?_
    | with_reducible refine Framed.ite (fun _ => ?_) (fun _ => ?_)
    | dsimp only [id]
    | split

theorem rsvUnit_frame {h : RsvHdr} {num : Nat}  (sub : ∀ p ∈ [.tel], p ∈ ps) (fr : Framed ps s0 s) :
    Framed ps s0 (rsvUnit h num s) := by
  refine fr.trans (Framed.mono sub ?_)
  clear sub fr
  unfold rsvUnit
  repeat' first
    | with_reducible exact Framed.refl _ _
    | decide
    | with_reducible refine unitCount_frame ?_ ?_
    | with_reducible refine Framed.ite (fun _ => ?_) (fun _ => ?_)
    | dsimp only [id]
    | split

theorem rsvResponse_frame {e i op : Nat} {f : RsvOp → RsvHdr → Bytes → State → State} (sub : ∀ p ∈ [.out, .err, .tel, .fly, .cells, .chk, .mem, .rsv, .csn], p ∈ ps) (hf : ∀ o h d t, Framed ps t (f o h d t)) (fr : Framed ps s0 s) : Framed ps s0 (rsvResponse e i op f s) := by
  unfold rsvResponse
  repeat' first
    | with_reducible exact Framed.refl _ _
    | decide
    | with_reducible refine csnTake_frame ?_ ?_
    | with_reducible refine rsvBad_frame ?_ ?_
    | with_reducible refine rsvStatus_frame ?_ ?_
    | with_reducible refine rsvUnit_frame ?_ ?_
    | with_reducible refine Framed.trans ?_ (hf _ _ _ _)
    | exact fr
    | (intro p hp; exact sub p (by revert p; decide))
    | with_reducible refine Framed.ite (fun _ => ?_) (fun _ => ?_)
    | dsimp only [id]
    | split
  all_goals try (with_reducible apply Framed.upd rfl <;> first | exact Or.inl (by decide) | with_reducible exact Or.inr rfl | with_reducible exact Or.inr ⟨rfl, rfl⟩ | with_reducible exact Or.inl ⟨by decide, fun h => h⟩ | with_reducible exact Or.inl ⟨by decide, Nat.le_refl _⟩ | exact Or.inl ⟨by decide, fun h => bwrite_wf _ _ _ h⟩ | exact Or.inl ⟨by decide, fun h => bzero_wf _ _ _ h⟩ | exact Or.inl ⟨by decide, fun _ => rfl⟩ | exact Or.inl ⟨by decide, Err.bounded_q rfl (fun h => by rw [lmod_length]; exact h)⟩ | exact Or.inl ⟨by decide, Err.bounded_q rfl (fun h => h)⟩ | exact Or.inl ⟨by decide, Err.bounded_q rfl (fun h => by rw [List.length_map]; exact h)⟩ | exact Or.inl ⟨by decide, Nat.le_succ _⟩ | exact Or.inl ⟨by decide, Err.bounded_put rfl (fun h => Err.bounded_unit h _) (fun h => h)⟩ | skip)
  repeat' first
    | with_reducible exact Framed.refl _ _
    | decide
    | with_reducible refine csnTake_frame ?_ ?_
    | with_reducible refine rsvBad_frame ?_ ?_
    | with_reducible refine rsvStatus_frame ?_ ?_
    | with_reducible refine rsvUnit_frame ?_ ?_
    | with_reducible refine Framed.trans ?_ (hf _ _ _ _)
    | exact fr
    | (intro p hp; exact sub p (by revert p; decide))
    | with_reducible refine Framed.ite (fun _ => ?_) (fun _ => ?_)
    | dsimp only [id]
    | split
  all_goals try (with_reducible apply Framed.upd rfl <;> first | exact Or.inl (by decide) | with_reducible exact Or.inr rfl | with_reducible exact Or.inr ⟨rfl, rfl⟩ | with_reducible exact Or.inl ⟨by decide, fun h => h⟩ | with_reducible exact Or.inl ⟨by decide, Nat.le_refl _⟩ | exact Or.inl ⟨by decide, fun h => bwrite_wf _ _ _ h⟩ | exact Or.inl ⟨by decide, fun h => bzero_wf _ _ _ h⟩ | exact Or.inl ⟨by decide, fun _ => rfl⟩ | exact Or.inl ⟨by decide, Err.bounded_q rfl (fun h => by rw [lmod_length]; exact h)⟩ | exact Or.inl ⟨by decide, Err.bounded_q rfl (fun h => h)⟩ | exact Or.inl ⟨by decide, Err.bounded_q rfl (fun h => by rw [List.length_map]; exact h)⟩ | exact Or.inl ⟨by decide, Nat.le_succ _⟩ | exact Or.inl ⟨by decide, Err.bounded_put rfl (fun h => Err.bounded_unit h _) (fun h => h)⟩ | skip)
  repeat' first
    | with_reducible exact Framed.refl _ _
    | decide
    | with_reducible refine csnTake_frame ?_ ?_
    | with_reducible refine rsvBad_frame ?_ ?_
    | with_reducible refine rsvStatus_frame ?_ ?_
    | with_reducible refine rsvUnit_frame ?_ ?_
    | with_reducible refine Framed.trans ?_ (hf _ _ _ _)
    | exact fr
    | (intro p hp; exact sub p (by revert p; decide))
    | with_reducible refine Framed.ite (fun _ => ?_) (fun _ => ?_)
    | dsimp only [id]
    | split
  all_goals try (with_reducible apply Framed.upd rfl <;> first | exact Or.inl (by decide) | with_reducible exact Or.inr rfl | with_reducible exact Or.inr ⟨rfl, rfl⟩ | with_reducible exact Or.inl ⟨by decide, fun h => h⟩ | with_reducible exact Or.inl ⟨by decide, Nat.le_refl _⟩ | exact Or.inl ⟨by decide, fun h => bwrite_wf _ _ _ h⟩ | exact Or.inl ⟨by decide, fun h => bzero_wf _ _ _ h⟩ | exact Or.inl ⟨by decide, fun _ => rfl⟩ | exact Or.inl ⟨by decide, Err.bounded_q rfl (fun h => by rw [lmod_length]; exact h)⟩ | exact Or.inl ⟨by decide, Err.bounded_q rfl (fun h => h)⟩ | exact Or.inl ⟨by decide, Err.bounded_q rfl (fun h => by rw [List.length_map]; exact h)⟩ | exact Or.inl ⟨by decide, Nat.le_succ _⟩ | exact Or.inl ⟨by decide, Err.bounded_put rfl (fun h => Err.bounded_unit h _) (fun h => h)⟩ | skip)
  repeat' first
    | with_reducible exact Framed.refl _ _
    | decide
    | with_reducible refine csnTake_frame ?_ ?_
    | with_reducible refine rsvBad_frame ?_ ?_
    | with_reducible refine rsvStatus_frame ?_ ?_
    | with_reducible refine rsvUnit_frame ?_ ?_
    | with_reducible refine Framed.trans ?_ (hf _ _ _ _)
    | exact fr
    | (intro p hp; exact sub p (by revert p; decide))
    | with_reducible refine Framed.ite (fun _ => ?_) (fun _ => ?_)
    | dsimp only [id]
    | split

theorem setCount_frame {v : Nat}  (sub : ∀ p ∈ [.tel, .tide], p ∈ ps) (fr : Framed ps s0 s) :
    Framed ps s0 (setCount v s) := by
  refine fr.trans (Framed.mono sub ?_)
  clear sub fr
  unfold setCount
  repeat' first
    | with_reducible exact Framed.refl _ _
    | decide
    | with_reducible refine count_frame ?_ ?_
    | with_reducible refine modTide_frame ?_ ?_
    | dsimp only [id]

theorem slewStep_frame  (sub : ∀ p ∈ [.out, .err, .tel, .tide], p ∈ ps) (fr : Framed ps s0 s) :
    Framed ps s0 (slewStep s) := by
  refine fr.trans (Framed.mono sub ?_)
  clear sub fr
  unfold slewStep
  repeat' first
    | with_reducible exact Framed.refl _ _
    | decide
    | with_reducible refine enterTide_frame ?_ ?_
    | with_reducible refine modTide_frame ?_ ?_
    | with_reducible refine Framed.ite (fun _ => ?_) (fun _ => ?_)
    | dsimp only [id]
    | split

theorem snoopAsk_frame {write : Bool} {ls : List Nat}  (sub : ∀ p ∈ [.out, .tel, .mem], p ∈ ps) (fr : Framed ps s0 s) :
    Framed ps s0 (snoopAsk write ls s) := by
  refine fr.trans (Framed.mono sub ?_)
  clear sub fr
  unfold snoopAsk
  repeat' first
    | with_reducible exact Framed.refl _ _
    | decide
    | with_reducible refine count_frame ?_ ?_
    | with_reducible refine emit_frame ?_ ?_
    | with_reducible refine Framed.foldl _ (fun _ _ => ?_) _ _ _ ?_
    | with_reducible refine Framed.foldl_fst _ (fun _ _ => ?_) _ _ _ ?_
    | with_reducible refine Framed.ite (fun _ => ?_) (fun _ => ?_)
    | dsimp only [id]
    | split
  all_goals try (with_reducible apply Framed.upd rfl <;> first | exact Or.inl (by decide) | with_reducible exact Or.inr rfl | with_reducible exact Or.inr ⟨rfl, rfl⟩ | with_reducible exact Or.inl ⟨by decide, fun h => h⟩ | with_reducible exact Or.inl ⟨by decide, Nat.le_refl _⟩ | exact Or.inl ⟨by decide, fun h => bwrite_wf _ _ _ h⟩ | exact Or.inl ⟨by decide, fun h => bzero_wf _ _ _ h⟩ | exact Or.inl ⟨by decide, fun _ => rfl⟩ | exact Or.inl ⟨by decide, Err.bounded_q rfl (fun h => by rw [lmod_length]; exact h)⟩ | exact Or.inl ⟨by decide, Err.bounded_q rfl (fun h => h)⟩ | exact Or.inl ⟨by decide, Err.bounded_q rfl (fun h => by rw [List.length_map]; exact h)⟩ | exact Or.inl ⟨by decide, Nat.le_succ _⟩ | exact Or.inl ⟨by decide, Err.bounded_put rfl (fun h => Err.bounded_unit h _) (fun h => h)⟩ | skip)
  repeat' first
    | with_reducible exact Framed.refl _ _
    | decide
    | with_reducible refine count_frame ?_ ?_
    | with_reducible refine emit_frame ?_ ?_
    | with_reducible refine Framed.foldl _ (fun _ _ => ?_) _ _ _ ?_
    | with_reducible refine Framed.foldl_fst _ (fun _ _ => ?_) _ _ _ ?_
    | with_reducible refine Framed.ite (fun _ => ?_) (fun _ => ?_)
    | dsimp only [id]
    | split

theorem tideBoundary_frame  (sub : ∀ p ∈ [.now, .out, .err, .tel, .tide], p ∈ ps) (fr : Framed ps s0 s) :
    Framed ps s0 (tideBoundary s) := by
  refine fr.trans (Framed.mono sub ?_)
  clear sub fr
  unfold tideBoundary
  repeat' first
    | with_reducible exact Framed.refl _ _
    | decide
    | with_reducible refine count_frame ?_ ?_
    | with_reducible refine modTide_frame ?_ ?_
    | with_reducible refine slewStep_frame ?_ ?_
    | with_reducible refine until__frame ?_ ?_
    | dsimp only [id]
  all_goals try (with_reducible apply Framed.upd rfl <;> first | exact Or.inl (by decide) | with_reducible exact Or.inr rfl | with_reducible exact Or.inr ⟨rfl, rfl⟩ | with_reducible exact Or.inl ⟨by decide, fun h => h⟩ | with_reducible exact Or.inl ⟨by decide, Nat.le_refl _⟩ | exact Or.inl ⟨by decide, fun h => bwrite_wf _ _ _ h⟩ | exact Or.inl ⟨by decide, fun h => bzero_wf _ _ _ h⟩ | exact Or.inl ⟨by decide, fun _ => rfl⟩ | exact Or.inl ⟨by decide, Err.bounded_q rfl (fun h => by rw [lmod_length]; exact h)⟩ | exact Or.inl ⟨by decide, Err.bounded_q rfl (fun h => h)⟩ | exact Or.inl ⟨by decide, Err.bounded_q rfl (fun h => by rw [List.length_map]; exact h)⟩ | exact Or.inl ⟨by decide, Nat.le_succ _⟩ | exact Or.inl ⟨by decide, Err.bounded_put rfl (fun h => Err.bounded_unit h _) (fun h => h)⟩ | skip)
  repeat' first
    | with_reducible exact Framed.refl _ _
    | decide
    | with_reducible refine count_frame ?_ ?_
    | with_reducible refine modTide_frame ?_ ?_
    | with_reducible refine slewStep_frame ?_ ?_
    | with_reducible refine until__frame ?_ ?_
    | dsimp only [id]
  all_goals try (with_reducible apply Framed.upd rfl <;> first | exact Or.inl (by decide) | with_reducible exact Or.inr rfl | with_reducible exact Or.inr ⟨rfl, rfl⟩ | with_reducible exact Or.inl ⟨by decide, fun h => h⟩ | with_reducible exact Or.inl ⟨by decide, Nat.le_refl _⟩ | exact Or.inl ⟨by decide, fun h => bwrite_wf _ _ _ h⟩ | exact Or.inl ⟨by decide, fun h => bzero_wf _ _ _ h⟩ | exact Or.inl ⟨by decide, fun _ => rfl⟩ | exact Or.inl ⟨by decide, Err.bounded_q rfl (fun h => by rw [lmod_length]; exact h)⟩ | exact Or.inl ⟨by decide, Err.bounded_q rfl (fun h => h)⟩ | exact Or.inl ⟨by decide, Err.bounded_q rfl (fun h => by rw [List.length_map]; exact h)⟩ | exact Or.inl ⟨by decide, Nat.le_succ _⟩ | exact Or.inl ⟨by decide, Err.bounded_put rfl (fun h => Err.bounded_unit h _) (fun h => h)⟩ | skip)
  repeat' first
    | with_reducible exact Framed.refl _ _
    | decide
    | with_reducible refine count_frame ?_ ?_
    | with_reducible refine modTide_frame ?_ ?_
    | with_reducible refine slewStep_frame ?_ ?_
    | with_reducible refine until__frame ?_ ?_
    | dsimp only [id]
  all_goals try (with_reducible apply Framed.upd rfl <;> first | exact Or.inl (by decide) | with_reducible exact Or.inr rfl | with_reducible exact Or.inr ⟨rfl, rfl⟩ | with_reducible exact Or.inl ⟨by decide, fun h => h⟩ | with_reducible exact Or.inl ⟨by decide, Nat.le_refl _⟩ | exact Or.inl ⟨by decide, fun h => bwrite_wf _ _ _ h⟩ | exact Or.inl ⟨by decide, fun h => bzero_wf _ _ _ h⟩ | exact Or.inl ⟨by decide, fun _ => rfl⟩ | exact Or.inl ⟨by decide, Err.bounded_q rfl (fun h => by rw [lmod_length]; exact h)⟩ | exact Or.inl ⟨by decide, Err.bounded_q rfl (fun h => h)⟩ | exact Or.inl ⟨by decide, Err.bounded_q rfl (fun h => by rw [List.length_map]; exact h)⟩ | exact Or.inl ⟨by decide, Nat.le_succ _⟩ | exact Or.inl ⟨by decide, Err.bounded_put rfl (fun h => Err.bounded_unit h _) (fun h => h)⟩ | skip)
  repeat' first
    | with_reducible exact Framed.refl _ _
    | decide
    | with_reducible refine count_frame ?_ ?_
    | with_reducible refine modTide_frame ?_ ?_
    | with_reducible refine slewStep_frame ?_ ?_
    | with_reducible refine until__frame ?_ ?_
    | dsimp only [id]

theorem tideTick_frame  (sub : ∀ p ∈ [.now, .tel, .tide], p ∈ ps) (fr : Framed ps s0 s) :
    Framed ps s0 (tideTick s) := by
  refine fr.trans (Framed.mono sub ?_)
  clear sub fr
  unfold tideTick
  repeat' first
    | with_reducible exact Framed.refl _ _
    | decide
    | with_reducible refine count_frame ?_ ?_
    | with_reducible refine Framed.ite (fun _ => ?_) (fun _ => ?_)
    | dsimp only [id]
    | split
  all_goals try (with_reducible apply Framed.upd rfl <;> first | exact Or.inl (by decide) | with_reducible exact Or.inr rfl | with_reducible exact Or.inr ⟨rfl, rfl⟩ | with_reducible exact Or.inl ⟨by decide, fun h => h⟩ | with_reducible exact Or.inl ⟨by decide, Nat.le_refl _⟩ | exact Or.inl ⟨by decide, fun h => bwrite_wf _ _ _ h⟩ | exact Or.inl ⟨by decide, fun h => bzero_wf _ _ _ h⟩ | exact Or.inl ⟨by decide, fun _ => rfl⟩ | exact Or.inl ⟨by decide, Err.bounded_q rfl (fun h => by rw [lmod_length]; exact h)⟩ | exact Or.inl ⟨by decide, Err.bounded_q rfl (fun h => h)⟩ | exact Or.inl ⟨by decide, Err.bounded_q rfl (fun h => by rw [List.length_map]; exact h)⟩ | exact Or.inl ⟨by decide, Nat.le_succ _⟩ | exact Or.inl ⟨by decide, Err.bounded_put rfl (fun h => Err.bounded_unit h _) (fun h => h)⟩ | skip)
  repeat' first
    | with_reducible exact Framed.refl _ _
    | decide
    | with_reducible refine count_frame ?_ ?_
    | with_reducible refine Framed.ite (fun _ => ?_) (fun _ => ?_)
    | dsimp only [id]
    | split
  all_goals try (with_reducible apply Framed.upd rfl <;> first | exact Or.inl (by decide) | with_reducible exact Or.inr rfl | with_reducible exact Or.inr ⟨rfl, rfl⟩ | with_reducible exact Or.inl ⟨by decide, fun h => h⟩ | with_reducible exact Or.inl ⟨by decide, Nat.le_refl _⟩ | exact Or.inl ⟨by decide, fun h => bwrite_wf _ _ _ h⟩ | exact Or.inl ⟨by decide, fun h => bzero_wf _ _ _ h⟩ | exact Or.inl ⟨by decide, fun _ => rfl⟩ | exact Or.inl ⟨by decide, Err.bounded_q rfl (fun h => by rw [lmod_length]; exact h)⟩ | exact Or.inl ⟨by decide, Err.bounded_q rfl (fun h => h)⟩ | exact Or.inl ⟨by decide, Err.bounded_q rfl (fun h => by rw [List.length_map]; exact h)⟩ | exact Or.inl ⟨by decide, Nat.le_succ _⟩ | exact Or.inl ⟨by decide, Err.bounded_put rfl (fun h => Err.bounded_unit h _) (fun h => h)⟩ | skip)
  repeat' first
    | with_reducible exact Framed.refl _ _
    | decide
    | with_reducible refine count_frame ?_ ?_
    | with_reducible refine Framed.ite (fun _ => ?_) (fun _ => ?_)
    | dsimp only [id]
    | split
  all_goals try (with_reducible apply Framed.upd rfl <;> first | exact Or.inl (by decide) | with_reducible exact Or.inr rfl | with_reducible exact Or.inr ⟨rfl, rfl⟩ | with_reducible exact Or.inl ⟨by decide, fun h => h⟩ | with_reducible exact Or.inl ⟨by decide, Nat.le_refl _⟩ | exact Or.inl ⟨by decide, fun h => bwrite_wf _ _ _ h⟩ | exact Or.inl ⟨by decide, fun h => bzero_wf _ _ _ h⟩ | exact Or.inl ⟨by decide, fun _ => rfl⟩ | exact Or.inl ⟨by decide, Err.bounded_q rfl (fun h => by rw [lmod_length]; exact h)⟩ | exact Or.inl ⟨by decide, Err.bounded_q rfl (fun h => h)⟩ | exact Or.inl ⟨by decide, Err.bounded_q rfl (fun h => by rw [List.length_map]; exact h)⟩ | exact Or.inl ⟨by decide, Nat.le_succ _⟩ | exact Or.inl ⟨by decide, Err.bounded_put rfl (fun h => Err.bounded_unit h _) (fun h => h)⟩ | skip)
  repeat' first
    | with_reducible exact Framed.refl _ _
    | decide
    | with_reducible refine count_frame ?_ ?_
    | with_reducible refine Framed.ite (fun _ => ?_) (fun _ => ?_)
    | dsimp only [id]
    | split

theorem unitGate_frame {cls : MemCls} {rs : List (Nat × Nat)} {f : State → State} (sub : ∀ p ∈ [.out, .tel, .mem], p ∈ ps) (hf : ∀ t, Framed ps t (f t)) (fr : Framed ps s0 s) : Framed ps s0 (unitGate cls rs f s) := by
  unfold unitGate
  repeat' first
    | with_reducible exact Framed.refl _ _
    | decide
    | with_reducible refine snoopAsk_frame ?_ ?_
    | with_reducible refine Framed.trans ?_ (hf _)
    | exact fr
    | (intro p hp; exact sub p (by revert p; decide))
    | with_reducible refine Framed.ite (fun _ => ?_) (fun _ => ?_)
    | dsimp only [id]
    | split

end Sys2Proof.Machine
end

