-- ==== Sys2Proof/Laws/FrameTrain.lean ====
section
/-! SUPPORT. What the shared operations leave as it was: Eddy and Estuary. Each lemma carries a frame over one operation. -/
namespace Sys2Proof.Machine

variable {ps : List Part} {s0 s : State}

theorem askGran_frame {e : Nat} {r : ShardRec} {g : Nat}  (sub : ∀ p ∈ [.rsv], p ∈ ps) (fr : Framed ps s0 s) :
    Framed ps s0 (askGran e r g s) := by
  refine fr.trans (Framed.mono sub ?_)
  clear sub fr
  unfold askGran
  repeat' first
    | with_reducible exact Framed.refl _ _
    | decide
    | with_reducible refine rsvAsk_frame ?_ ?_
    | with_reducible refine Framed.foldl _ (fun _ _ => ?_) _ _ _ ?_
    | with_reducible refine Framed.foldl_fst _ (fun _ _ => ?_) _ _ _ ?_
    | with_reducible refine Framed.ite (fun _ => ?_) (fun _ => ?_)
    | dsimp only [id]
    | split

theorem modEdy_frame {e : Nat} {f : EdyEng → EdyEng}  (sub : ∀ p ∈ [.edy], p ∈ ps) (fr : Framed ps s0 s) :
    Framed ps s0 (modEdy e f s) := by
  refine fr.trans ⟨fun p hp => ?_, Keeps.same rfl rfl rfl⟩
  cases p <;> first | rfl | exact ⟨rfl, rfl⟩ | exact absurd (sub _ (by decide)) hp

theorem modSweep_frame {e c : Nat} {f : Sweep → Sweep}  (sub : ∀ p ∈ [.edy], p ∈ ps) (fr : Framed ps s0 s) :
    Framed ps s0 (modSweep e c f s) := by
  refine fr.trans (Framed.mono sub ?_)
  clear sub fr
  unfold modSweep
  repeat' first
    | with_reducible exact Framed.refl _ _
    | decide
    | with_reducible refine modEdy_frame ?_ ?_
    | with_reducible refine Framed.ite (fun _ => ?_) (fun _ => ?_)
    | dsimp only [id]
    | split

theorem askAhead_frame {e c : Nat}  (sub : ∀ p ∈ [.rsv, .edy], p ∈ ps) (fr : Framed ps s0 s) :
    Framed ps s0 (askAhead e c s) := by
  refine fr.trans (Framed.mono sub ?_)
  clear sub fr
  unfold askAhead
  repeat' first
    | with_reducible exact Framed.refl _ _
    | decide
    | with_reducible refine askGran_frame ?_ ?_
    | with_reducible refine modSweep_frame ?_ ?_
    | with_reducible refine Framed.foldl _ (fun _ _ => ?_) _ _ _ ?_
    | with_reducible refine Framed.foldl_fst _ (fun _ _ => ?_) _ _ _ ?_
    | with_reducible refine Framed.ite (fun _ => ?_) (fun _ => ?_)
    | dsimp only [id]
    | split

theorem estCount_frame {num e : Nat} {c : Option Nat}  (sub : ∀ p ∈ [.tel], p ∈ ps) (fr : Framed ps s0 s) :
    Framed ps s0 (estCount num e c s) := by
  refine fr.trans (Framed.mono sub ?_)
  clear sub fr
  unfold estCount
  repeat' first
    | with_reducible exact Framed.refl _ _
    | decide
    | with_reducible refine countCtx_frame ?_ ?_
    | dsimp only [id]

theorem modEst_frame {e : Nat} {f : EstEng → EstEng}  (sub : ∀ p ∈ [.est], p ∈ ps) (fr : Framed ps s0 s) :
    Framed ps s0 (modEst e f s) := by
  refine fr.trans ⟨fun p hp => ?_, Keeps.same rfl rfl rfl⟩
  cases p <;> first | rfl | exact ⟨rfl, rfl⟩ | exact absurd (sub _ (by decide)) hp

theorem dropWin_frame {e c step : Nat}  (sub : ∀ p ∈ [.est], p ∈ ps) (fr : Framed ps s0 s) :
    Framed ps s0 (dropWin e c step s) := by
  refine fr.trans (Framed.mono sub ?_)
  clear sub fr
  unfold dropWin
  repeat' first
    | with_reducible exact Framed.refl _ _
    | decide
    | with_reducible refine modEst_frame ?_ ?_
    | dsimp only [id]

theorem remember_frame {e c step : Nat}  (sub : ∀ p ∈ [.est], p ∈ ps) (fr : Framed ps s0 s) :
    Framed ps s0 (remember e c step s) := by
  refine fr.trans (Framed.mono sub ?_)
  clear sub fr
  unfold remember
  repeat' first
    | with_reducible exact Framed.refl _ _
    | decide
    | with_reducible refine modEst_frame ?_ ?_
    | dsimp only [id]

theorem winFailAll_frame {c step : Nat}  (sub : ∀ p ∈ [.est], p ∈ ps) (fr : Framed ps s0 s) :
    Framed ps s0 (winFailAll c step s) := by
  refine fr.trans (Framed.mono sub ?_)
  clear sub fr
  unfold winFailAll
  repeat' first
    | with_reducible exact Framed.refl _ _
    | decide
    | with_reducible refine dropWin_frame ?_ ?_
    | with_reducible refine remember_frame ?_ ?_
    | with_reducible refine Framed.foldl _ (fun _ _ => ?_) _ _ _ ?_
    | with_reducible refine Framed.foldl_fst _ (fun _ _ => ?_) _ _ _ ?_
    | with_reducible refine Framed.ite (fun _ => ?_) (fun _ => ?_)
    | dsimp only [id]
    | split

theorem attemptRepeat_frame {c step : Nat}  (sub : ∀ p ∈ [.tel, .ctxs, .slc, .est], p ∈ ps) (fr : Framed ps s0 s) :
    Framed ps s0 (attemptRepeat c step s) := by
  refine fr.trans (Framed.mono sub ?_)
  clear sub fr
  unfold attemptRepeat
  repeat' first
    | with_reducible exact Framed.refl _ _
    | decide
    | with_reducible refine estCount_frame ?_ ?_
    | with_reducible refine holdDue_frame ?_ ?_
    | with_reducible refine modCtx_frame ?_ ?_
    | with_reducible refine stepFail_frame ?_ ?_
    | with_reducible refine winFailAll_frame ?_ ?_
    | with_reducible refine Framed.ite (fun _ => ?_) (fun _ => ?_)
    | dsimp only [id]
    | split
  all_goals try (with_reducible apply Framed.upd rfl <;> first | exact Or.inl (by decide) | with_reducible exact Or.inr rfl | with_reducible exact Or.inr ⟨rfl, rfl⟩ | with_reducible exact Or.inl ⟨by decide, fun h => h⟩ | with_reducible exact Or.inl ⟨by decide, Nat.le_refl _⟩ | exact Or.inl ⟨by decide, fun h => bwrite_wf _ _ _ h⟩ | exact Or.inl ⟨by decide, fun h => bzero_wf _ _ _ h⟩ | exact Or.inl ⟨by decide, fun _ => rfl⟩ | exact Or.inl ⟨by decide, Err.bounded_q rfl (fun h => by rw [lmod_length]; exact h)⟩ | exact Or.inl ⟨by decide, Err.bounded_q rfl (fun h => h)⟩ | exact Or.inl ⟨by decide, Err.bounded_q rfl (fun h => by rw [List.length_map]; exact h)⟩ | exact Or.inl ⟨by decide, Nat.le_succ _⟩ | exact Or.inl ⟨by decide, Err.bounded_put rfl (fun h => Err.bounded_unit h _) (fun h => h)⟩ | skip)
  repeat' first
    | with_reducible exact Framed.refl _ _
    | decide
    | with_reducible refine estCount_frame ?_ ?_
    | with_reducible refine holdDue_frame ?_ ?_
    | with_reducible refine modCtx_frame ?_ ?_
    | with_reducible refine stepFail_frame ?_ ?_
    | with_reducible refine winFailAll_frame ?_ ?_
    | with_reducible refine Framed.ite (fun _ => ?_) (fun _ => ?_)
    | dsimp only [id]
    | split

theorem auditReplica_frame {e : Nat} {x : Shard} {k : Nat}  (sub : ∀ p ∈ [.edy], p ∈ ps) (fr : Framed ps s0 s) :
    Framed ps s0 (auditReplica e x k s) := by
  refine fr.trans (Framed.mono sub ?_)
  clear sub fr
  unfold auditReplica
  repeat' first
    | with_reducible exact Framed.refl _ _
    | decide
    | with_reducible refine Framed.ite (fun _ => ?_) (fun _ => ?_)
    | dsimp only [id]
    | split
  all_goals try (with_reducible apply Framed.upd rfl <;> first | exact Or.inl (by decide) | with_reducible exact Or.inr rfl | with_reducible exact Or.inr ⟨rfl, rfl⟩ | with_reducible exact Or.inl ⟨by decide, fun h => h⟩ | with_reducible exact Or.inl ⟨by decide, Nat.le_refl _⟩ | exact Or.inl ⟨by decide, fun h => bwrite_wf _ _ _ h⟩ | exact Or.inl ⟨by decide, fun h => bzero_wf _ _ _ h⟩ | exact Or.inl ⟨by decide, fun _ => rfl⟩ | exact Or.inl ⟨by decide, Err.bounded_q rfl (fun h => by rw [lmod_length]; exact h)⟩ | exact Or.inl ⟨by decide, Err.bounded_q rfl (fun h => h)⟩ | exact Or.inl ⟨by decide, Err.bounded_q rfl (fun h => by rw [List.length_map]; exact h)⟩ | exact Or.inl ⟨by decide, Nat.le_succ _⟩ | exact Or.inl ⟨by decide, Err.bounded_put rfl (fun h => Err.bounded_unit h _) (fun h => h)⟩ | skip)
  repeat' first
    | with_reducible exact Framed.refl _ _
    | decide
    | with_reducible refine Framed.ite (fun _ => ?_) (fun _ => ?_)
    | dsimp only [id]
    | split

theorem copyFailed_frame {c w n : Nat}  (sub : ∀ p ∈ [.est], p ∈ ps) (fr : Framed ps s0 s) :
    Framed ps s0 (copyFailed c w n s) := by
  refine fr.trans (Framed.mono sub ?_)
  clear sub fr
  unfold copyFailed
  repeat' first
    | with_reducible exact Framed.refl _ _
    | decide
    | with_reducible refine Framed.ite (fun _ => ?_) (fun _ => ?_)
    | dsimp only [id]
    | split
  all_goals try (with_reducible apply Framed.upd rfl <;> first | exact Or.inl (by decide) | with_reducible exact Or.inr rfl | with_reducible exact Or.inr ⟨rfl, rfl⟩ | with_reducible exact Or.inl ⟨by decide, fun h => h⟩ | with_reducible exact Or.inl ⟨by decide, Nat.le_refl _⟩ | exact Or.inl ⟨by decide, fun h => bwrite_wf _ _ _ h⟩ | exact Or.inl ⟨by decide, fun h => bzero_wf _ _ _ h⟩ | exact Or.inl ⟨by decide, fun _ => rfl⟩ | exact Or.inl ⟨by decide, Err.bounded_q rfl (fun h => by rw [lmod_length]; exact h)⟩ | exact Or.inl ⟨by decide, Err.bounded_q rfl (fun h => h)⟩ | exact Or.inl ⟨by decide, Err.bounded_q rfl (fun h => by rw [List.length_map]; exact h)⟩ | exact Or.inl ⟨by decide, Nat.le_succ _⟩ | exact Or.inl ⟨by decide, Err.bounded_put rfl (fun h => Err.bounded_unit h _) (fun h => h)⟩ | skip)
  repeat' first
    | with_reducible exact Framed.refl _ _
    | decide
    | with_reducible refine Framed.ite (fun _ => ?_) (fun _ => ?_)
    | dsimp only [id]
    | split

theorem edyCount_frame {num e c n : Nat}  (sub : ∀ p ∈ [.tel], p ∈ ps) (fr : Framed ps s0 s) :
    Framed ps s0 (edyCount num e c n s) := by
  refine fr.trans (Framed.mono sub ?_)
  clear sub fr
  unfold edyCount
  repeat' first
    | with_reducible exact Framed.refl _ _
    | decide
    | with_reducible refine countN_frame ?_ ?_
    | dsimp only [id]

theorem fetchAsk_frame {r : ShardRec} {f : Fetch}  (sub : ∀ p ∈ [.rsv], p ∈ ps) (fr : Framed ps s0 s) :
    Framed ps s0 (fetchAsk r f s) := by
  refine fr.trans (Framed.mono sub ?_)
  clear sub fr
  unfold fetchAsk
  repeat' first
    | with_reducible exact Framed.refl _ _
    | decide
    | with_reducible refine rsvAsk_frame ?_ ?_
    | with_reducible refine Framed.ite (fun _ => ?_) (fun _ => ?_)
    | dsimp only [id]
    | split

theorem modShard_frame {c id : Nat} {f : Shard → Shard}  (sub : ∀ p ∈ [.edy], p ∈ ps) (fr : Framed ps s0 s) :
    Framed ps s0 (modShard c id f s) := by
  refine fr.trans (Framed.mono sub ?_)
  clear sub fr
  unfold modShard
  repeat' first
    | with_reducible exact Framed.refl _ _
    | decide
    | with_reducible refine Framed.ite (fun _ => ?_) (fun _ => ?_)
    | dsimp only [id]
    | split
  all_goals try (with_reducible apply Framed.upd rfl <;> first | exact Or.inl (by decide) | with_reducible exact Or.inr rfl | with_reducible exact Or.inr ⟨rfl, rfl⟩ | with_reducible exact Or.inl ⟨by decide, fun h => h⟩ | with_reducible exact Or.inl ⟨by decide, Nat.le_refl _⟩ | exact Or.inl ⟨by decide, fun h => bwrite_wf _ _ _ h⟩ | exact Or.inl ⟨by decide, fun h => bzero_wf _ _ _ h⟩ | exact Or.inl ⟨by decide, fun _ => rfl⟩ | exact Or.inl ⟨by decide, Err.bounded_q rfl (fun h => by rw [lmod_length]; exact h)⟩ | exact Or.inl ⟨by decide, Err.bounded_q rfl (fun h => h)⟩ | exact Or.inl ⟨by decide, Err.bounded_q rfl (fun h => by rw [List.length_map]; exact h)⟩ | exact Or.inl ⟨by decide, Nat.le_succ _⟩ | exact Or.inl ⟨by decide, Err.bounded_put rfl (fun h => Err.bounded_unit h _) (fun h => h)⟩ | skip)
  repeat' first
    | with_reducible exact Framed.refl _ _
    | decide
    | with_reducible refine Framed.ite (fun _ => ?_) (fun _ => ?_)
    | dsimp only [id]
    | split

theorem damage_frame {e : Nat} {r : ShardRec} {q i step : Nat}  (sub : ∀ p ∈ [.out, .err, .tel, .ctxs, .slc, .edy], p ∈ ps) (fr : Framed ps s0 s) :
    Framed ps s0 (damage e r q i step s) := by
  refine fr.trans (Framed.mono sub ?_)
  clear sub fr
  unfold damage
  repeat' first
    | with_reducible exact Framed.refl _ _
    | decide
    | with_reducible refine modShard_frame ?_ ?_
    | with_reducible refine raise_frame ?_ ?_
    | with_reducible refine stepFail_frame ?_ ?_
    | dsimp only [id]

theorem putTile_frame {e : Nat} {r : ShardRec} {q i : Nat} {payload trailer : Bytes}  (sub : ∀ p ∈ [.out, .tel, .frs, .mem, .rsv, .hst], p ∈ ps) (fr : Framed ps s0 s) :
    Framed ps s0 (putTile e r q i payload trailer s) := by
  refine fr.trans (Framed.mono sub ?_)
  clear sub fr
  unfold putTile
  repeat' first
    | with_reducible exact Framed.refl _ _
    | decide
    | with_reducible refine memPutTile_frame ?_ ?_
    | with_reducible refine rsvAsk_frame ?_ ?_
    | with_reducible refine Framed.ite (fun _ => ?_) (fun _ => ?_)
    | dsimp only [id]
    | split

theorem repairTile_frame {e : Nat} {x : Shard} {q i step : Nat} {fix : List TileFix}  (sub : ∀ p ∈ [.out, .err, .tel, .ctxs, .slc, .frs, .mem, .rsv, .edy, .hst], p ∈ ps) (fr : Framed ps s0 s) :
    Framed ps s0 ((repairTile e x q i step fix s).1) := by
  refine fr.trans (Framed.mono sub ?_)
  clear sub fr
  unfold repairTile
  repeat' first
    | with_reducible exact Framed.refl _ _
    | decide
    | with_reducible refine damage_frame ?_ ?_
    | with_reducible refine edyCount_frame ?_ ?_
    | with_reducible refine putTile_frame ?_ ?_
    | with_reducible refine raise_frame ?_ ?_
    | dsimp only [id]
    | split

theorem repairTile_of {e : Nat} {x : Shard} {q i step : Nat} {fix : List TileFix}  {u : State} {o : Option (Bytes × Bytes)} (eq : repairTile e x q i step fix s = (u, o)) (sub : ∀ p ∈ [.out, .err, .tel, .ctxs, .slc, .frs, .mem, .rsv, .edy, .hst], p ∈ ps) (fr : Framed ps s0 s) : Framed ps s0 u := by
  have g := @repairTile_frame ps s0 s e x q i step fix sub fr
  rw [eq] at g
  exact g

theorem modReplica_frame {c id k : Nat} {f : Replica → Replica}  (sub : ∀ p ∈ [.edy], p ∈ ps) (fr : Framed ps s0 s) :
    Framed ps s0 (modReplica c id k f s) := by
  refine fr.trans (Framed.mono sub ?_)
  clear sub fr
  unfold modReplica
  repeat' first
    | with_reducible exact Framed.refl _ _
    | decide
    | with_reducible refine modShard_frame ?_ ?_
    | dsimp only [id]

theorem setCopy_frame {c id : Nat} {k : Option Nat} {ready : Bool} {digest : Option Bytes} {f : Option Fetch}  (sub : ∀ p ∈ [.edy], p ∈ ps) (fr : Framed ps s0 s) :
    Framed ps s0 (setCopy c id k ready digest f s) := by
  refine fr.trans (Framed.mono sub ?_)
  clear sub fr
  unfold setCopy
  repeat' first
    | with_reducible exact Framed.refl _ _
    | decide
    | with_reducible refine modReplica_frame ?_ ?_
    | with_reducible refine modShard_frame ?_ ?_
    | dsimp only [id]
    | split

theorem auditShard_frame {e : Nat} {x : Shard} {fix : List TileFix}  (sub : ∀ p ∈ [.out, .err, .tel, .ctxs, .slc, .frs, .mem, .rsv, .est, .edy, .hst], p ∈ ps) (fr : Framed ps s0 s) :
    Framed ps s0 (auditShard e x fix s) := by
  refine fr.trans (Framed.mono sub ?_)
  clear sub fr
  unfold auditShard
  repeat' first
    | with_reducible exact Framed.refl _ _
    | decide
    | with_reducible refine copyFailed_frame ?_ ?_
    | with_reducible refine edyCount_frame ?_ ?_
    | with_reducible refine fetchAsk_frame ?_ ?_
    | with_reducible refine repairTile_frame ?_ ?_
    | with_reducible refine repairTile_of (by assumption) ?_ ?_
    | with_reducible refine setCopy_frame ?_ ?_
    | with_reducible refine Framed.foldl _ (fun _ _ => ?_) _ _ _ ?_
    | with_reducible refine Framed.foldl_fst _ (fun _ _ => ?_) _ _ _ ?_
    | with_reducible refine Framed.ite (fun _ => ?_) (fun _ => ?_)
    | dsimp only [id]
    | split

theorem tabAsk_frame {blk inst c b0 n : Nat}  (sub : ∀ p ∈ [.cells, .rsv], p ∈ ps) (fr : Framed ps s0 s) :
    Framed ps s0 (tabAsk blk inst c b0 n s) := by
  refine fr.trans (Framed.mono sub ?_)
  clear sub fr
  unfold tabAsk
  repeat' first
    | with_reducible exact Framed.refl _ _
    | decide
    | with_reducible refine slowAsk_frame ?_ ?_
    | dsimp only [id]
    | split

theorem convAsk_frame {e : Nat} {i : EstIn}  (sub : ∀ p ∈ [.cells, .rsv], p ∈ ps) (fr : Framed ps s0 s) :
    Framed ps s0 (convAsk e i s) := by
  refine fr.trans (Framed.mono sub ?_)
  clear sub fr
  unfold convAsk
  repeat' first
    | with_reducible exact Framed.refl _ _
    | decide
    | with_reducible refine tabAsk_frame ?_ ?_
    | with_reducible refine Framed.ite (fun _ => ?_) (fun _ => ?_)
    | dsimp only [id]
    | split

theorem copyNotice_frame {c id : Nat} {k : Option Nat} {f : Fetch}  (sub : ∀ p ∈ [.rsv, .edy], p ∈ ps) (fr : Framed ps s0 s) :
    Framed ps s0 (copyNotice c id k f s) := by
  refine fr.trans (Framed.mono sub ?_)
  clear sub fr
  unfold copyNotice
  repeat' first
    | with_reducible exact Framed.refl _ _
    | decide
    | with_reducible refine fetchAsk_frame ?_ ?_
    | with_reducible refine setCopy_frame ?_ ?_
    | with_reducible refine Framed.ite (fun _ => ?_) (fun _ => ?_)
    | dsimp only [id]
    | split

theorem modStrm_frame {c : Nat} {f : Strm → Strm}  (sub : ∀ p ∈ [.edy], p ∈ ps) (fr : Framed ps s0 s) :
    Framed ps s0 (modStrm c f s) := by
  refine fr.trans ⟨fun p hp => ?_, Keeps.same rfl rfl rfl⟩
  cases p <;> first | rfl | exact ⟨rfl, rfl⟩ | exact absurd (sub _ (by decide)) hp

theorem strmPut_frame {c : Nat} {x : SRec}  (sub : ∀ p ∈ [.tel, .edy], p ∈ ps) (fr : Framed ps s0 s) :
    Framed ps s0 ((strmPut c x s).1) := by
  refine fr.trans (Framed.mono sub ?_)
  clear sub fr
  unfold strmPut
  repeat' first
    | with_reducible exact Framed.refl _ _
    | decide
    | with_reducible refine countN_frame ?_ ?_
    | with_reducible refine modStrm_frame ?_ ?_
    | with_reducible refine unitCount_frame ?_ ?_
    | with_reducible refine Framed.foldl _ (fun _ _ => ?_) _ _ _ ?_
    | with_reducible refine Framed.foldl_fst _ (fun _ _ => ?_) _ _ _ ?_
    | with_reducible refine Framed.ite (fun _ => ?_) (fun _ => ?_)
    | dsimp only [id]
    | split

theorem strmPut_of {c : Nat} {x : SRec}  {u : State} {o : Bool} (eq : strmPut c x s = (u, o)) (sub : ∀ p ∈ [.tel, .edy], p ∈ ps) (fr : Framed ps s0 s) : Framed ps s0 u := by
  have g := @strmPut_frame ps s0 s c x sub fr
  rw [eq] at g
  exact g

theorem strmEmit_frame {e c : Nat} {x : SRec}  (sub : ∀ p ∈ [.tel, .edy], p ∈ ps) (fr : Framed ps s0 s) :
    Framed ps s0 (strmEmit e c x s) := by
  refine fr.trans (Framed.mono sub ?_)
  clear sub fr
  unfold strmEmit
  repeat' first
    | with_reducible exact Framed.refl _ _
    | decide
    | with_reducible refine modSweep_frame ?_ ?_
    | with_reducible refine strmPut_frame ?_ ?_
    | with_reducible refine strmPut_of (by assumption) ?_ ?_
    | with_reducible refine Framed.ite (fun _ => ?_) (fun _ => ?_)
    | dsimp only [id]
    | split

theorem flushAcked_frame {e c : Nat}  (sub : ∀ p ∈ [.out, .err, .tel, .cells, .ctxs, .slc, .rsv, .edy], p ∈ ps) (fr : Framed ps s0 s) :
    Framed ps s0 (flushAcked e c s) := by
  refine fr.trans (Framed.mono sub ?_)
  clear sub fr
  unfold flushAcked
  repeat' first
    | with_reducible exact Framed.refl _ _
    | decide
    | with_reducible refine damage_frame ?_ ?_
    | with_reducible refine done_frame ?_ ?_
    | with_reducible refine modSweep_frame ?_ ?_
    | with_reducible refine strmEmit_frame ?_ ?_
    | with_reducible refine Framed.foldl _ (fun _ _ => ?_) _ _ _ ?_
    | with_reducible refine Framed.foldl_fst _ (fun _ _ => ?_) _ _ _ ?_
    | with_reducible refine Framed.ite (fun _ => ?_) (fun _ => ?_)
    | dsimp only [id]
    | split
  all_goals try (with_reducible apply Framed.upd rfl <;> first | exact Or.inl (by decide) | with_reducible exact Or.inr rfl | with_reducible exact Or.inr ⟨rfl, rfl⟩ | with_reducible exact Or.inl ⟨by decide, fun h => h⟩ | with_reducible exact Or.inl ⟨by decide, Nat.le_refl _⟩ | exact Or.inl ⟨by decide, fun h => bwrite_wf _ _ _ h⟩ | exact Or.inl ⟨by decide, fun h => bzero_wf _ _ _ h⟩ | exact Or.inl ⟨by decide, fun _ => rfl⟩ | exact Or.inl ⟨by decide, Err.bounded_q rfl (fun h => by rw [lmod_length]; exact h)⟩ | exact Or.inl ⟨by decide, Err.bounded_q rfl (fun h => h)⟩ | exact Or.inl ⟨by decide, Err.bounded_q rfl (fun h => by rw [List.length_map]; exact h)⟩ | exact Or.inl ⟨by decide, Nat.le_succ _⟩ | exact Or.inl ⟨by decide, Err.bounded_put rfl (fun h => Err.bounded_unit h _) (fun h => h)⟩ | skip)
  repeat' first
    | with_reducible exact Framed.refl _ _
    | decide
    | with_reducible refine damage_frame ?_ ?_
    | with_reducible refine done_frame ?_ ?_
    | with_reducible refine modSweep_frame ?_ ?_
    | with_reducible refine strmEmit_frame ?_ ?_
    | with_reducible refine Framed.foldl _ (fun _ _ => ?_) _ _ _ ?_
    | with_reducible refine Framed.foldl_fst _ (fun _ _ => ?_) _ _ _ ?_
    | with_reducible refine Framed.ite (fun _ => ?_) (fun _ => ?_)
    | dsimp only [id]
    | split

theorem publishTo_frame {r : ShardRec} {note : Bytes} {a : Nat}  (sub : ∀ p ∈ [.out, .tel, .net, .fly, .csn], p ∈ ps) (fr : Framed ps s0 s) :
    Framed ps s0 (publishTo r note a s) := by
  refine fr.trans (Framed.mono sub ?_)
  clear sub fr
  unfold publishTo
  repeat' first
    | with_reducible exact Framed.refl _ _
    | decide
    | with_reducible refine csnSend_frame ?_ ?_
    | with_reducible refine rillSend_frame ?_ ?_
    | with_reducible refine Framed.ite (fun _ => ?_) (fun _ => ?_)
    | dsimp only [id]
    | split

theorem shardEnd_frame {e c : Nat} {w : Sweep} {x : Shard}  (sub : ∀ p ∈ [.out, .tel, .net, .fly, .frs, .mem, .csn, .edy, .hst], p ∈ ps) (fr : Framed ps s0 s) :
    Framed ps s0 (shardEnd e c w x s) := by
  refine fr.trans (Framed.mono sub ?_)
  clear sub fr
  unfold shardEnd
  repeat' first
    | with_reducible exact Framed.refl _ _
    | decide
    | with_reducible refine memWrite_frame ?_ ?_
    | with_reducible refine modShard_frame ?_ ?_
    | with_reducible refine modStrm_frame ?_ ?_
    | with_reducible refine modSweep_frame ?_ ?_
    | with_reducible refine publishTo_frame ?_ ?_
    | with_reducible refine strmEmit_frame ?_ ?_
    | dsimp only [id]
    | split

theorem edyAdvance_frame {e c : Nat}  (sub : ∀ p ∈ [.out, .err, .tel, .net, .fly, .cells, .ctxs, .slc, .frs, .mem, .rsv, .csn, .edy, .hst], p ∈ ps) (fr : Framed ps s0 s) :
    Framed ps s0 (edyAdvance e c s) := by
  refine fr.trans (Framed.mono sub ?_)
  clear sub fr
  unfold edyAdvance
  repeat' first
    | with_reducible exact Framed.refl _ _
    | decide
    | with_reducible refine askAhead_frame ?_ ?_
    | with_reducible refine flushAcked_frame ?_ ?_
    | with_reducible refine modSweep_frame ?_ ?_
    | with_reducible refine shardEnd_frame ?_ ?_
    | with_reducible refine Framed.ite (fun _ => ?_) (fun _ => ?_)
    | dsimp only [id]
    | split

theorem entriesGo_frame {e : Nat} {w : Sweep} {r : ShardRec} {g nblk : Nat} {stg : List (Option Staged)}  (sub : ∀ p ∈ [.out, .err, .tel, .frs, .mem, .rsv, .edy, .hst], p ∈ ps) (fr : Framed ps s0 s) :
    Framed ps s0 (entriesGo e w r g nblk stg s) := by
  refine fr.trans (Framed.mono sub ?_)
  clear sub fr
  unfold entriesGo
  repeat' first
    | with_reducible exact Framed.refl _ _
    | decide
    | with_reducible refine modSweep_frame ?_ ?_
    | with_reducible refine raise_frame ?_ ?_
    | with_reducible refine recPut_frame ?_ ?_
    | with_reducible refine Framed.foldl _ (fun _ _ => ?_) _ _ _ ?_
    | with_reducible refine Framed.foldl_fst _ (fun _ _ => ?_) _ _ _ ?_
    | with_reducible refine Framed.ite (fun _ => ?_) (fun _ => ?_)
    | dsimp only [id]
    | split

theorem modMod_frame {c step : Nat} {f : WinMod → WinMod}  (sub : ∀ p ∈ [.est], p ∈ ps) (fr : Framed ps s0 s) :
    Framed ps s0 (modMod c step f s) := by
  refine fr.trans (Framed.mono sub ?_)
  clear sub fr
  unfold modMod
  repeat' first
    | with_reducible exact Framed.refl _ _
    | decide
    | with_reducible refine Framed.ite (fun _ => ?_) (fun _ => ?_)
    | dsimp only [id]
    | split
  all_goals try (with_reducible apply Framed.upd rfl <;> first | exact Or.inl (by decide) | with_reducible exact Or.inr rfl | with_reducible exact Or.inr ⟨rfl, rfl⟩ | with_reducible exact Or.inl ⟨by decide, fun h => h⟩ | with_reducible exact Or.inl ⟨by decide, Nat.le_refl _⟩ | exact Or.inl ⟨by decide, fun h => bwrite_wf _ _ _ h⟩ | exact Or.inl ⟨by decide, fun h => bzero_wf _ _ _ h⟩ | exact Or.inl ⟨by decide, fun _ => rfl⟩ | exact Or.inl ⟨by decide, Err.bounded_q rfl (fun h => by rw [lmod_length]; exact h)⟩ | exact Or.inl ⟨by decide, Err.bounded_q rfl (fun h => h)⟩ | exact Or.inl ⟨by decide, Err.bounded_q rfl (fun h => by rw [List.length_map]; exact h)⟩ | exact Or.inl ⟨by decide, Nat.le_succ _⟩ | exact Or.inl ⟨by decide, Err.bounded_put rfl (fun h => Err.bounded_unit h _) (fun h => h)⟩ | skip)
  repeat' first
    | with_reducible exact Framed.refl _ _
    | decide
    | with_reducible refine Framed.ite (fun _ => ?_) (fun _ => ?_)
    | dsimp only [id]
    | split

theorem modWin_frame {e c step : Nat} {f : EstWin → EstWin}  (sub : ∀ p ∈ [.est], p ∈ ps) (fr : Framed ps s0 s) :
    Framed ps s0 (modWin e c step f s) := by
  refine fr.trans (Framed.mono sub ?_)
  clear sub fr
  unfold modWin
  repeat' first
    | with_reducible exact Framed.refl _ _
    | decide
    | with_reducible refine modEst_frame ?_ ?_
    | with_reducible refine Framed.ite (fun _ => ?_) (fun _ => ?_)
    | dsimp only [id]
    | split

theorem estBoundary_frame  (sub : ∀ p ∈ [.est], p ∈ ps) (fr : Framed ps s0 s) :
    Framed ps s0 (estBoundary s) := by
  refine fr.trans (Framed.mono sub ?_)
  clear sub fr
  unfold estBoundary
  repeat' first
    | with_reducible exact Framed.refl _ _
    | decide
    | with_reducible refine modMod_frame ?_ ?_
    | with_reducible refine modWin_frame ?_ ?_
    | with_reducible refine Framed.foldl _ (fun _ _ => ?_) _ _ _ ?_
    | with_reducible refine Framed.foldl_fst _ (fun _ _ => ?_) _ _ _ ?_
    | with_reducible refine Framed.ite (fun _ => ?_) (fun _ => ?_)
    | dsimp only [id]
    | split

theorem estReport_frame {e c step : Nat}  (sub : ∀ p ∈ [.out, .net, .fly, .est], p ∈ ps) (fr : Framed ps s0 s) :
    Framed ps s0 (estReport e c step s) := by
  refine fr.trans (Framed.mono sub ?_)
  clear sub fr
  unfold estReport
  repeat' first
    | with_reducible exact Framed.refl _ _
    | decide
    | with_reducible refine modMod_frame ?_ ?_
    | with_reducible refine modWin_frame ?_ ?_
    | with_reducible refine rillSend_frame ?_ ?_
    | with_reducible refine Framed.ite (fun _ => ?_) (fun _ => ?_)
    | dsimp only [id]
    | split

theorem forwardTile_frame {e : Nat} {w : EstWin} {x : EstEntry} {t : EstTile} {sum : List Int}  (sub : ∀ p ∈ [.out, .tel, .csn, .est], p ∈ ps) (fr : Framed ps s0 s) :
    Framed ps s0 (forwardTile e w x t sum s) := by
  refine fr.trans (Framed.mono sub ?_)
  clear sub fr
  unfold forwardTile
  repeat' first
    | with_reducible exact Framed.refl _ _
    | decide
    | with_reducible refine csnSend_frame ?_ ?_
    | with_reducible refine modEst_frame ?_ ?_
    | with_reducible refine Framed.ite (fun _ => ?_) (fun _ => ?_)
    | dsimp only [id]
    | split

theorem fanOut_frame {e : Nat} {w : EstWin} {m : Option HealthMsg}  (sub : ∀ p ∈ [.out, .tel, .csn, .est], p ∈ ps) (fr : Framed ps s0 s) :
    Framed ps s0 (fanOut e w m s) := by
  refine fr.trans (Framed.mono sub ?_)
  clear sub fr
  unfold fanOut
  repeat' first
    | with_reducible exact Framed.refl _ _
    | decide
    | with_reducible refine csnSend_frame ?_ ?_
    | with_reducible refine estCount_frame ?_ ?_
    | with_reducible refine modEst_frame ?_ ?_
    | with_reducible refine modMod_frame ?_ ?_
    | with_reducible refine Framed.foldl _ (fun _ _ => ?_) _ _ _ ?_
    | with_reducible refine Framed.foldl_fst _ (fun _ _ => ?_) _ _ _ ?_
    | with_reducible refine Framed.ite (fun _ => ?_) (fun _ => ?_)
    | dsimp only [id]
    | split

theorem leadDone_frame {e : Nat} {w : EstWin} {t : EstTile} {sum : List Int}  (sub : ∀ p ∈ [.out, .tel, .csn, .est], p ∈ ps) (fr : Framed ps s0 s) :
    Framed ps s0 (leadDone e w t sum s) := by
  refine fr.trans (Framed.mono sub ?_)
  clear sub fr
  unfold leadDone
  repeat' first
    | with_reducible exact Framed.refl _ _
    | decide
    | with_reducible refine fanOut_frame ?_ ?_
    | with_reducible refine modMod_frame ?_ ?_
    | with_reducible refine Framed.ite (fun _ => ?_) (fun _ => ?_)
    | dsimp only [id]
    | split

theorem leadFail_frame {e : Nat} {w : EstWin}  (sub : ∀ p ∈ [.out, .tel, .csn, .est], p ∈ ps) (fr : Framed ps s0 s) :
    Framed ps s0 (leadFail e w s) := by
  refine fr.trans (Framed.mono sub ?_)
  clear sub fr
  unfold leadFail
  repeat' first
    | with_reducible exact Framed.refl _ _
    | decide
    | with_reducible refine fanOut_frame ?_ ?_
    | with_reducible refine modMod_frame ?_ ?_
    | with_reducible refine Framed.ite (fun _ => ?_) (fun _ => ?_)
    | dsimp only [id]
    | split

theorem stageTile_frame {e : Nat} {w : EstWin} {x : EstEntry} {t : EstTile} {sum : List Int} {short corrupt : Bool}  (sub : ∀ p ∈ [.out, .err, .tel, .frs, .mem, .hst], p ∈ ps) (fr : Framed ps s0 s) :
    Framed ps s0 (stageTile e w x t sum short corrupt s) := by
  refine fr.trans (Framed.mono sub ?_)
  clear sub fr
  unfold stageTile
  repeat' first
    | with_reducible exact Framed.refl _ _
    | decide
    | with_reducible refine estCount_frame ?_ ?_
    | with_reducible refine memWrite_frame ?_ ?_
    | with_reducible refine raise_frame ?_ ?_
    | with_reducible refine Framed.ite (fun _ => ?_) (fun _ => ?_)
    | dsimp only [id]
    | split

theorem sumRecord_frame {e c step ident : Nat}  (sub : ∀ p ∈ [.out, .err, .tel], p ∈ ps) (fr : Framed ps s0 s) :
    Framed ps s0 (sumRecord e c step ident s) := by
  refine fr.trans (Framed.mono sub ?_)
  clear sub fr
  unfold sumRecord
  repeat' first
    | with_reducible exact Framed.refl _ _
    | decide
    | with_reducible refine raise_frame ?_ ?_
    | dsimp only [id]

theorem tileDone_frame {e c step j : Nat}  (sub : ∀ p ∈ [.out, .err, .tel, .net, .fly, .cells, .frs, .mem, .csn, .est, .hst], p ∈ ps) (fr : Framed ps s0 s) :
    Framed ps s0 (tileDone e c step j s) := by
  refine fr.trans (Framed.mono sub ?_)
  clear sub fr
  unfold tileDone
  repeat' first
    | with_reducible exact Framed.refl _ _
    | decide
    | with_reducible refine done_frame ?_ ?_
    | with_reducible refine estCount_frame ?_ ?_
    | with_reducible refine estReport_frame ?_ ?_
    | with_reducible refine forwardTile_frame ?_ ?_
    | with_reducible refine leadDone_frame ?_ ?_
    | with_reducible refine leadFail_frame ?_ ?_
    | with_reducible refine modWin_frame ?_ ?_
    | with_reducible refine stageTile_frame ?_ ?_
    | with_reducible refine sumRecord_frame ?_ ?_
    | with_reducible refine Framed.ite (fun _ => ?_) (fun _ => ?_)
    | dsimp only [id]
    | split

theorem tileReady_frame {e c step j : Nat}  (sub : ∀ p ∈ [.out, .err, .tel, .net, .fly, .cells, .frs, .mem, .csn, .est, .hst], p ∈ ps) (fr : Framed ps s0 s) :
    Framed ps s0 (tileReady e c step j s) := by
  refine fr.trans (Framed.mono sub ?_)
  clear sub fr
  unfold tileReady
  repeat' first
    | with_reducible exact Framed.refl _ _
    | decide
    | with_reducible refine modEst_frame ?_ ?_
    | with_reducible refine tileDone_frame ?_ ?_
    | with_reducible refine Framed.ite (fun _ => ?_) (fun _ => ?_)
    | dsimp only [id]
    | split

theorem estSlices_frame  (sub : ∀ p ∈ [.out, .err, .tel, .net, .fly, .cells, .frs, .mem, .csn, .est, .hst], p ∈ ps) (fr : Framed ps s0 s) :
    Framed ps s0 (estSlices s) := by
  refine fr.trans (Framed.mono sub ?_)
  clear sub fr
  unfold estSlices
  repeat' first
    | with_reducible exact Framed.refl _ _
    | decide
    | with_reducible refine tileReady_frame ?_ ?_
    | with_reducible refine Framed.foldl _ (fun _ _ => ?_) _ _ _ ?_
    | with_reducible refine Framed.foldl_fst _ (fun _ _ => ?_) _ _ _ ?_
    | dsimp only [id]
    | split

theorem stepRecord_frame {c step code : Nat}  (sub : ∀ p ∈ [.out, .err, .tel], p ∈ ps) (fr : Framed ps s0 s) :
    Framed ps s0 (stepRecord c step code s) := by
  refine fr.trans (Framed.mono sub ?_)
  clear sub fr
  unfold stepRecord
  repeat' first
    | with_reducible exact Framed.refl _ _
    | decide
    | with_reducible refine raise_frame ?_ ?_
    | dsimp only [id]

theorem failDecision_frame {c step : Nat}  (sub : ∀ p ∈ [.out, .err, .tel, .ctxs], p ∈ ps) (fr : Framed ps s0 s) :
    Framed ps s0 (failDecision c step s) := by
  refine fr.trans (Framed.mono sub ?_)
  clear sub fr
  unfold failDecision
  repeat' first
    | with_reducible exact Framed.refl _ _
    | decide
    | with_reducible refine modCtx_frame ?_ ?_
    | with_reducible refine stepRecord_frame ?_ ?_
    | dsimp only [id]

theorem fetchTake_frame {r : ShardRec} {f : Fetch}  (sub : ∀ p ∈ [.cells, .rsv], p ∈ ps) (fr : Framed ps s0 s) :
    Framed ps s0 (fetchTake r f s) := by
  refine fr.trans (Framed.mono sub ?_)
  clear sub fr
  unfold fetchTake
  repeat' first
    | with_reducible exact Framed.refl _ _
    | decide
    | with_reducible refine rsvTake_frame ?_ ?_
    | dsimp only [id]

theorem modTile_frame {e c step j : Nat} {f : EstTile → EstTile}  (sub : ∀ p ∈ [.est], p ∈ ps) (fr : Framed ps s0 s) :
    Framed ps s0 (modTile e c step j f s) := by
  refine fr.trans (Framed.mono sub ?_)
  clear sub fr
  unfold modTile
  repeat' first
    | with_reducible exact Framed.refl _ _
    | decide
    | with_reducible refine modWin_frame ?_ ?_
    | dsimp only [id]

theorem fillSlot_frame {e : Nat} {w : EstWin} {j : Nat} {i : EstIn} {hit : AccHit}  (sub : ∀ p ∈ [.out, .free, .err, .tel, .net, .fly, .cells, .frs, .mem, .csn, .est, .hst], p ∈ ps) (fr : Framed ps s0 s) :
    Framed ps s0 (fillSlot e w j i hit s) := by
  refine fr.trans (Framed.mono sub ?_)
  clear sub fr
  unfold fillSlot
  repeat' first
    | with_reducible exact Framed.refl _ _
    | decide
    | with_reducible refine count_frame ?_ ?_
    | with_reducible refine countCtxN_frame ?_ ?_
    | with_reducible refine estCount_frame ?_ ?_
    | with_reducible refine memWrite_frame ?_ ?_
    | with_reducible refine modTile_frame ?_ ?_
    | with_reducible refine modWin_frame ?_ ?_
    | with_reducible refine raise_frame ?_ ?_
    | with_reducible refine tileReady_frame ?_ ?_
    | with_reducible refine Framed.ite (fun _ => ?_) (fun _ => ?_)
    | dsimp only [id]
    | split
  all_goals try (with_reducible apply Framed.upd rfl <;> first | exact Or.inl (by decide) | with_reducible exact Or.inr rfl | with_reducible exact Or.inr ⟨rfl, rfl⟩ | with_reducible exact Or.inl ⟨by decide, fun h => h⟩ | with_reducible exact Or.inl ⟨by decide, Nat.le_refl _⟩ | exact Or.inl ⟨by decide, fun h => bwrite_wf _ _ _ h⟩ | exact Or.inl ⟨by decide, fun h => bzero_wf _ _ _ h⟩ | exact Or.inl ⟨by decide, fun _ => rfl⟩ | exact Or.inl ⟨by decide, Err.bounded_q rfl (fun h => by rw [lmod_length]; exact h)⟩ | exact Or.inl ⟨by decide, Err.bounded_q rfl (fun h => h)⟩ | exact Or.inl ⟨by decide, Err.bounded_q rfl (fun h => by rw [List.length_map]; exact h)⟩ | exact Or.inl ⟨by decide, Nat.le_succ _⟩ | exact Or.inl ⟨by decide, Err.bounded_put rfl (fun h => Err.bounded_unit h _) (fun h => h)⟩ | skip)
  repeat' first
    | with_reducible exact Framed.refl _ _
    | decide
    | with_reducible refine count_frame ?_ ?_
    | with_reducible refine countCtxN_frame ?_ ?_
    | with_reducible refine estCount_frame ?_ ?_
    | with_reducible refine memWrite_frame ?_ ?_
    | with_reducible refine modTile_frame ?_ ?_
    | with_reducible refine modWin_frame ?_ ?_
    | with_reducible refine raise_frame ?_ ?_
    | with_reducible refine tileReady_frame ?_ ?_
    | with_reducible refine Framed.ite (fun _ => ?_) (fun _ => ?_)
    | dsimp only [id]
    | split

theorem granDone_frame {e c g : Nat}  (sub : ∀ p ∈ [.edy], p ∈ ps) (fr : Framed ps s0 s) :
    Framed ps s0 (granDone e c g s) := by
  refine fr.trans (Framed.mono sub ?_)
  clear sub fr
  unfold granDone
  repeat' first
    | with_reducible exact Framed.refl _ _
    | decide
    | with_reducible refine modSweep_frame ?_ ?_
    | with_reducible refine Framed.ite (fun _ => ?_) (fun _ => ?_)
    | dsimp only [id]
    | split

theorem normsGo_frame {e : Nat} {r : ShardRec} {n : Nat} {wOld wNew : List (Bytes × Bytes)} {stg : List (Option Staged)} {ents : List ScaleEntry} {outs : List BlockOut}  (sub : ∀ p ∈ [.edy], p ∈ ps) (fr : Framed ps s0 s) :
    Framed ps s0 (normsGo e r n wOld wNew stg ents outs s) := by
  refine fr.trans (Framed.mono sub ?_)
  clear sub fr
  unfold normsGo
  repeat' first
    | with_reducible exact Framed.refl _ _
    | decide
    | with_reducible refine modSweep_frame ?_ ?_
    | with_reducible refine Framed.foldl _ (fun _ _ => ?_) _ _ _ ?_
    | with_reducible refine Framed.foldl_fst _ (fun _ _ => ?_) _ _ _ ?_
    | with_reducible refine Framed.ite (fun _ => ?_) (fun _ => ?_)
    | dsimp only [id]
    | split

theorem sweepTile_frame {e : Nat} {x : Shard} {q i step : Nat} {fix : List TileFix}  (sub : ∀ p ∈ [.out, .err, .tel, .ctxs, .slc, .frs, .mem, .rsv, .edy, .hst], p ∈ ps) (fr : Framed ps s0 s) :
    Framed ps s0 ((sweepTile e x q i step fix s).1) := by
  refine fr.trans (Framed.mono sub ?_)
  clear sub fr
  unfold sweepTile
  repeat' first
    | with_reducible exact Framed.refl _ _
    | decide
    | with_reducible refine chkEng_frame ?_ ?_
    | with_reducible refine memDiscard_frame ?_ ?_
    | with_reducible refine repairTile_frame ?_ ?_
    | with_reducible refine repairTile_of (by assumption) ?_ ?_
    | with_reducible refine Framed.ite (fun _ => ?_) (fun _ => ?_)
    | dsimp only [id]
    | split

theorem sweepTile_of {e : Nat} {x : Shard} {q i step : Nat} {fix : List TileFix}  {u : State} {o : Option (Bytes × Bytes)} (eq : sweepTile e x q i step fix s = (u, o)) (sub : ∀ p ∈ [.out, .err, .tel, .ctxs, .slc, .frs, .mem, .rsv, .edy, .hst], p ∈ ps) (fr : Framed ps s0 s) : Framed ps s0 u := by
  have g := @sweepTile_frame ps s0 s e x q i step fix sub fr
  rw [eq] at g
  exact g

theorem writeTile_frame {e : Nat} {w : Sweep} {r : ShardRec} {u : Bytes} {g q i : Nat} {old : Bytes × Bytes} {outs : List BlockOut}  (sub : ∀ p ∈ [.out, .tel, .frs, .mem, .rsv, .edy, .hst], p ∈ ps) (fr : Framed ps s0 s) :
    Framed ps s0 (writeTile e w r u g q i old outs s) := by
  refine fr.trans (Framed.mono sub ?_)
  clear sub fr
  unfold writeTile
  repeat' first
    | with_reducible exact Framed.refl _ _
    | decide
    | with_reducible refine edyCount_frame ?_ ?_
    | with_reducible refine memWrite_frame ?_ ?_
    | with_reducible refine modShard_frame ?_ ?_
    | with_reducible refine modStrm_frame ?_ ?_
    | with_reducible refine modSweep_frame ?_ ?_
    | with_reducible refine putTile_frame ?_ ?_
    | with_reducible refine strmEmit_frame ?_ ?_
    | with_reducible refine Framed.ite (fun _ => ?_) (fun _ => ?_)
    | dsimp only [id]
    | split

theorem granuleGo_frame {e : Nat} {w : Sweep} {x : Shard} {g : Nat} {flaky : List Nat} {fix : List TileFix}  (sub : ∀ p ∈ [.out, .err, .tel, .cells, .ctxs, .slc, .frs, .mem, .rsv, .edy, .hst], p ∈ ps) (fr : Framed ps s0 s) :
    Framed ps s0 (granuleGo e w x g flaky fix s) := by
  refine fr.trans (Framed.mono sub ?_)
  clear sub fr
  unfold granuleGo
  repeat' first
    | with_reducible exact Framed.refl _ _
    | decide
    | with_reducible refine count_frame ?_ ?_
    | with_reducible refine edyCount_frame ?_ ?_
    | with_reducible refine entriesGo_frame ?_ ?_
    | with_reducible refine estCount_frame ?_ ?_
    | with_reducible refine holdDue_frame ?_ ?_
    | with_reducible refine modSweep_frame ?_ ?_
    | with_reducible refine normsGo_frame ?_ ?_
    | with_reducible refine raise_frame ?_ ?_
    | with_reducible refine rsvTake_frame ?_ ?_
    | with_reducible refine sweepTile_frame ?_ ?_
    | with_reducible refine sweepTile_of (by assumption) ?_ ?_
    | with_reducible refine writeTile_frame ?_ ?_
    | with_reducible refine Framed.foldl _ (fun _ _ => ?_) _ _ _ ?_
    | with_reducible refine Framed.foldl_fst _ (fun _ _ => ?_) _ _ _ ?_
    | with_reducible refine Framed.ite (fun _ => ?_) (fun _ => ?_)
    | dsimp only [id]
    | with_reducible refine Framed.foldl_fst _ (fun _ _ => ?_) _ _ _ ?_
    | split

theorem healthAsk_frame {eng : Nat} {side : Bytes}  (sub : ∀ p ∈ [.cells, .rsv], p ∈ ps) (fr : Framed ps s0 s) :
    Framed ps s0 (healthAsk eng side s) := by
  refine fr.trans (Framed.mono sub ?_)
  clear sub fr
  unfold healthAsk
  repeat' first
    | with_reducible exact Framed.refl _ _
    | decide
    | with_reducible refine tabAsk_frame ?_ ?_
    | dsimp only [id]

theorem takeDecision_frame {c step : Nat} {payload : Bytes} {ovf hot nf : Bool}  (sub : ∀ p ∈ [.out, .err, .tel, .ctxs], p ∈ ps) (fr : Framed ps s0 s) :
    Framed ps s0 (takeDecision c step payload ovf hot nf s) := by
  refine fr.trans (Framed.mono sub ?_)
  clear sub fr
  unfold takeDecision
  repeat' first
    | with_reducible exact Framed.refl _ _
    | decide
    | with_reducible refine holdDue_frame ?_ ?_
    | with_reducible refine modCtx_frame ?_ ?_
    | with_reducible refine stepRecord_frame ?_ ?_
    | with_reducible refine Framed.ite (fun _ => ?_) (fun _ => ?_)
    | dsimp only [id]
    | split

theorem windowFailed_frame {c step : Nat} {rep : Bool}  (sub : ∀ p ∈ [.out, .err, .tel, .ctxs, .slc, .est], p ∈ ps) (fr : Framed ps s0 s) :
    Framed ps s0 (windowFailed c step rep s) := by
  refine fr.trans (Framed.mono sub ?_)
  clear sub fr
  unfold windowFailed
  repeat' first
    | with_reducible exact Framed.refl _ _
    | decide
    | with_reducible refine attemptRepeat_frame ?_ ?_
    | with_reducible refine failDecision_frame ?_ ?_
    | with_reducible refine modMod_frame ?_ ?_
    | with_reducible refine Framed.ite (fun _ => ?_) (fun _ => ?_)
    | dsimp only [id]
    | split

theorem healthGo_frame {eng : Nat} {m : HealthMsg}  (sub : ∀ p ∈ [.out, .err, .tel, .ctxs, .slc, .est], p ∈ ps) (fr : Framed ps s0 s) :
    Framed ps s0 (healthGo eng m s) := by
  refine fr.trans (Framed.mono sub ?_)
  clear sub fr
  unfold healthGo
  repeat' first
    | with_reducible exact Framed.refl _ _
    | decide
    | with_reducible refine estCount_frame ?_ ?_
    | with_reducible refine modMod_frame ?_ ?_
    | with_reducible refine raise_frame ?_ ?_
    | with_reducible refine takeDecision_frame ?_ ?_
    | with_reducible refine windowFailed_frame ?_ ?_
    | with_reducible refine Framed.ite (fun _ => ?_) (fun _ => ?_)
    | dsimp only [id]
    | split

theorem strmStepEnd_frame {c step decision lam : Nat}  (sub : ∀ p ∈ [.tel, .edy], p ∈ ps) (fr : Framed ps s0 s) :
    Framed ps s0 (strmStepEnd c step decision lam s) := by
  refine fr.trans (Framed.mono sub ?_)
  clear sub fr
  unfold strmStepEnd
  repeat' first
    | with_reducible exact Framed.refl _ _
    | decide
    | with_reducible refine modStrm_frame ?_ ?_
    | with_reducible refine strmPut_frame ?_ ?_
    | with_reducible refine strmPut_of (by assumption) ?_ ?_
    | with_reducible refine Framed.ite (fun _ => ?_) (fun _ => ?_)
    | dsimp only [id]
    | split

theorem windowsEnd_frame {c : Nat}  (sub : ∀ p ∈ [.out, .tel, .frs, .mem, .est, .hst], p ∈ ps) (fr : Framed ps s0 s) :
    Framed ps s0 (windowsEnd c s) := by
  refine fr.trans (Framed.mono sub ?_)
  clear sub fr
  unfold windowsEnd
  repeat' first
    | with_reducible exact Framed.refl _ _
    | decide
    | with_reducible refine memZero_frame ?_ ?_
    | with_reducible refine Framed.foldl _ (fun _ _ => ?_) _ _ _ ?_
    | with_reducible refine Framed.foldl_fst _ (fun _ _ => ?_) _ _ _ ?_
    | with_reducible refine Framed.ite (fun _ => ?_) (fun _ => ?_)
    | dsimp only [id]
    | split
  all_goals try (with_reducible apply Framed.upd rfl <;> first | exact Or.inl (by decide) | with_reducible exact Or.inr rfl | with_reducible exact Or.inr ⟨rfl, rfl⟩ | with_reducible exact Or.inl ⟨by decide, fun h => h⟩ | with_reducible exact Or.inl ⟨by decide, Nat.le_refl _⟩ | exact Or.inl ⟨by decide, fun h => bwrite_wf _ _ _ h⟩ | exact Or.inl ⟨by decide, fun h => bzero_wf _ _ _ h⟩ | exact Or.inl ⟨by decide, fun _ => rfl⟩ | exact Or.inl ⟨by decide, Err.bounded_q rfl (fun h => by rw [lmod_length]; exact h)⟩ | exact Or.inl ⟨by decide, Err.bounded_q rfl (fun h => h)⟩ | exact Or.inl ⟨by decide, Err.bounded_q rfl (fun h => by rw [List.length_map]; exact h)⟩ | exact Or.inl ⟨by decide, Nat.le_succ _⟩ | exact Or.inl ⟨by decide, Err.bounded_put rfl (fun h => Err.bounded_unit h _) (fun h => h)⟩ | skip)
  repeat' first
    | with_reducible exact Framed.refl _ _
    | decide
    | with_reducible refine memZero_frame ?_ ?_
    | with_reducible refine Framed.foldl _ (fun _ _ => ?_) _ _ _ ?_
    | with_reducible refine Framed.foldl_fst _ (fun _ _ => ?_) _ _ _ ?_
    | with_reducible refine Framed.ite (fun _ => ?_) (fun _ => ?_)
    | dsimp only [id]
    | split

theorem layerRecord_frame {c step layer : Nat} {sws : List Sweep}  (sub : ∀ p ∈ [.out, .err, .tel, .ctxs, .frs, .mem, .rsv, .hst], p ∈ ps) (fr : Framed ps s0 s) :
    Framed ps s0 (layerRecord c step layer sws s) := by
  refine fr.trans (Framed.mono sub ?_)
  clear sub fr
  unfold layerRecord
  repeat' first
    | with_reducible exact Framed.refl _ _
    | decide
    | with_reducible refine holdDue_frame ?_ ?_
    | with_reducible refine memWrite_frame ?_ ?_
    | with_reducible refine modCtx_frame ?_ ?_
    | with_reducible refine raise_frame ?_ ?_
    | with_reducible refine recPut_frame ?_ ?_
    | with_reducible refine Framed.ite (fun _ => ?_) (fun _ => ?_)
    | dsimp only [id]
    | split

theorem rillDigest_frame {dst : Nat} {note : Bytes}  (sub : ∀ p ∈ [.rsv, .edy], p ∈ ps) (fr : Framed ps s0 s) :
    Framed ps s0 (rillDigest dst note s) := by
  refine fr.trans (Framed.mono sub ?_)
  clear sub fr
  unfold rillDigest
  repeat' first
    | with_reducible exact Framed.refl _ _
    | decide
    | with_reducible refine copyNotice_frame ?_ ?_
    | with_reducible refine Framed.ite (fun _ => ?_) (fun _ => ?_)
    | dsimp only [id]
    | split

theorem sinkPut_frame {c a : Nat} {d : Bytes}  (sub : ∀ p ∈ [.mem, .rsv], p ∈ ps) (fr : Framed ps s0 s) :
    Framed ps s0 (sinkPut c a d s) := by
  refine fr.trans (Framed.mono sub ?_)
  clear sub fr
  unfold sinkPut
  repeat' first
    | with_reducible exact Framed.refl _ _
    | decide
    | with_reducible refine rsvAsk_frame ?_ ?_
    | with_reducible refine winKeep_frame ?_ ?_
    | dsimp only [id]

theorem staleAsk_frame {e c : Nat} {x : Shard} {l : List (Nat × Nat)}  (sub : ∀ p ∈ [.tel, .cells, .rsv, .edy], p ∈ ps) (fr : Framed ps s0 s) :
    Framed ps s0 (staleAsk e c x l s) := by
  refine fr.trans (Framed.mono sub ?_)
  clear sub fr
  unfold staleAsk
  repeat' first
    | with_reducible exact Framed.refl _ _
    | decide
    | with_reducible refine chkEng_frame ?_ ?_
    | with_reducible refine modSweep_frame ?_ ?_
    | with_reducible refine rsvAsk_frame ?_ ?_
    | with_reducible refine rsvTake_frame ?_ ?_
    | with_reducible refine Framed.foldl _ (fun _ _ => ?_) _ _ _ ?_
    | with_reducible refine Framed.foldl_fst _ (fun _ _ => ?_) _ _ _ ?_
    | dsimp only [id]

theorem strmRefill_frame {e c n : Nat}  (sub : ∀ p ∈ [.tel, .edy], p ∈ ps) (fr : Framed ps s0 s) :
    Framed ps s0 (strmRefill e c n s) := by
  refine fr.trans (Framed.mono sub ?_)
  clear sub fr
  induction n generalizing s with
  | zero => exact Framed.refl _ _
  | succ n ih =>
  unfold strmRefill
  repeat' first
    | with_reducible exact Framed.refl _ _
    | decide
    | with_reducible refine modSweep_frame ?_ ?_
    | with_reducible refine strmPut_frame ?_ ?_
    | with_reducible refine strmPut_of (by assumption) ?_ ?_
    | with_reducible refine Framed.trans ?_ ih
    | dsimp only [id]
    | split

theorem strmWaited_frame {e c : Nat}  (sub : ∀ p ∈ [.tel, .edy], p ∈ ps) (fr : Framed ps s0 s) :
    Framed ps s0 (strmWaited e c s) := by
  refine fr.trans (Framed.mono sub ?_)
  clear sub fr
  unfold strmWaited
  repeat' first
    | with_reducible exact Framed.refl _ _
    | decide
    | with_reducible refine edyCount_frame ?_ ?_
    | with_reducible refine modSweep_frame ?_ ?_
    | with_reducible refine Framed.ite (fun _ => ?_) (fun _ => ?_)
    | dsimp only [id]
    | split

theorem sweepEnd_frame {c : Nat}  (sub : ∀ p ∈ [.out, .err, .tel, .ctxs, .frs, .mem, .rsv, .edy, .hst], p ∈ ps) (fr : Framed ps s0 s) :
    Framed ps s0 (sweepEnd c s) := by
  refine fr.trans (Framed.mono sub ?_)
  clear sub fr
  unfold sweepEnd
  repeat' first
    | with_reducible exact Framed.refl _ _
    | decide
    | with_reducible refine layerRecord_frame ?_ ?_
    | with_reducible refine modCtx_frame ?_ ?_
    | with_reducible refine strmStepEnd_frame ?_ ?_
    | with_reducible refine Framed.foldl _ (fun _ _ => ?_) _ _ _ ?_
    | with_reducible refine Framed.foldl_fst _ (fun _ _ => ?_) _ _ _ ?_
    | with_reducible refine Framed.ite (fun _ => ?_) (fun _ => ?_)
    | dsimp only [id]
    | split
  all_goals try (with_reducible apply Framed.upd rfl <;> first | exact Or.inl (by decide) | with_reducible exact Or.inr rfl | with_reducible exact Or.inr ⟨rfl, rfl⟩ | with_reducible exact Or.inl ⟨by decide, fun h => h⟩ | with_reducible exact Or.inl ⟨by decide, Nat.le_refl _⟩ | exact Or.inl ⟨by decide, fun h => bwrite_wf _ _ _ h⟩ | exact Or.inl ⟨by decide, fun h => bzero_wf _ _ _ h⟩ | exact Or.inl ⟨by decide, fun _ => rfl⟩ | exact Or.inl ⟨by decide, Err.bounded_q rfl (fun h => by rw [lmod_length]; exact h)⟩ | exact Or.inl ⟨by decide, Err.bounded_q rfl (fun h => h)⟩ | exact Or.inl ⟨by decide, Err.bounded_q rfl (fun h => by rw [List.length_map]; exact h)⟩ | exact Or.inl ⟨by decide, Nat.le_succ _⟩ | exact Or.inl ⟨by decide, Err.bounded_put rfl (fun h => Err.bounded_unit h _) (fun h => h)⟩ | skip)
  repeat' first
    | with_reducible exact Framed.refl _ _
    | decide
    | with_reducible refine layerRecord_frame ?_ ?_
    | with_reducible refine modCtx_frame ?_ ?_
    | with_reducible refine strmStepEnd_frame ?_ ?_
    | with_reducible refine Framed.foldl _ (fun _ _ => ?_) _ _ _ ?_
    | with_reducible refine Framed.foldl_fst _ (fun _ _ => ?_) _ _ _ ?_
    | with_reducible refine Framed.ite (fun _ => ?_) (fun _ => ?_)
    | dsimp only [id]
    | split

theorem tabTake_frame {blk inst c b0 n : Nat}  (sub : ∀ p ∈ [.cells, .rsv], p ∈ ps) (fr : Framed ps s0 s) :
    Framed ps s0 (tabTake blk inst c b0 n s) := by
  refine fr.trans (Framed.mono sub ?_)
  clear sub fr
  unfold tabTake
  repeat' first
    | with_reducible exact Framed.refl _ _
    | decide
    | with_reducible refine slowTake_frame ?_ ?_
    | with_reducible refine Framed.ite (fun _ => ?_) (fun _ => ?_)
    | dsimp only [id]
    | split

end Sys2Proof.Machine
end

