-- ==== Sys2Proof/Laws/FrameSlc.lean ====
section
/-! SUPPORT. What the shared operations leave as it was: Sluice, Watershed, ownership, the host port. Each lemma carries a frame over one operation. -/
namespace Sys2Proof.Machine

variable {ps : List Part} {s0 s : State}

theorem cellLeave_frame {l c : Nat}  (sub : ∀ p ∈ [.tel, .cells, .frs], p ∈ ps) (fr : Framed ps s0 s) :
    Framed ps s0 (cellLeave l c s) := by
  refine fr.trans (Framed.mono sub ?_)
  clear sub fr
  unfold cellLeave
  repeat' first
    | with_reducible exact Framed.refl _ _
    | decide
    | with_reducible refine scrubSlots_frame ?_ ?_
    | dsimp only [id]

theorem admitRefuse_frame {c status detail : Nat}  (sub : ∀ p ∈ [.tel, .cells, .ctxs, .slc, .frs, .edy], p ∈ ps) (fr : Framed ps s0 s) :
    Framed ps s0 (admitRefuse c status detail s) := by
  refine fr.trans (Framed.mono sub ?_)
  clear sub fr
  unfold admitRefuse
  repeat' first
    | with_reducible exact Framed.refl _ _
    | decide
    | with_reducible refine cellLeave_frame ?_ ?_
    | with_reducible refine countCtx_frame ?_ ?_
    | with_reducible refine modCtx_frame ?_ ?_
    | with_reducible refine postDesc_frame ?_ ?_
    | with_reducible refine Framed.foldl _ (fun _ _ => ?_) _ _ _ ?_
    | with_reducible refine Framed.foldl_fst _ (fun _ _ => ?_) _ _ _ ?_
    | dsimp only [id]
  all_goals try (with_reducible apply Framed.upd rfl <;> first | exact Or.inl (by decide) | with_reducible exact Or.inr rfl | with_reducible exact Or.inr ⟨rfl, rfl⟩ | with_reducible exact Or.inl ⟨by decide, fun h => h⟩ | with_reducible exact Or.inl ⟨by decide, Nat.le_refl _⟩ | exact Or.inl ⟨by decide, fun h => bwrite_wf _ _ _ h⟩ | exact Or.inl ⟨by decide, fun h => bzero_wf _ _ _ h⟩ | exact Or.inl ⟨by decide, fun _ => rfl⟩ | exact Or.inl ⟨by decide, Err.bounded_q rfl (fun h => by rw [lmod_length]; exact h)⟩ | exact Or.inl ⟨by decide, Err.bounded_q rfl (fun h => h)⟩ | exact Or.inl ⟨by decide, Err.bounded_q rfl (fun h => by rw [List.length_map]; exact h)⟩ | exact Or.inl ⟨by decide, Nat.le_succ _⟩ | exact Or.inl ⟨by decide, Err.bounded_put rfl (fun h => Err.bounded_unit h _) (fun h => h)⟩ | skip)
  repeat' first
    | with_reducible exact Framed.refl _ _
    | decide
    | with_reducible refine cellLeave_frame ?_ ?_
    | with_reducible refine countCtx_frame ?_ ?_
    | with_reducible refine modCtx_frame ?_ ?_
    | with_reducible refine postDesc_frame ?_ ?_
    | with_reducible refine Framed.foldl _ (fun _ _ => ?_) _ _ _ ?_
    | with_reducible refine Framed.foldl_fst _ (fun _ _ => ?_) _ _ _ ?_
    | dsimp only [id]

theorem applyHold_frame {c : Nat}  (sub : ∀ p ∈ [.out, .err, .tel, .ctxs], p ∈ ps) (fr : Framed ps s0 s) :
    Framed ps s0 (applyHold c s) := by
  refine fr.trans (Framed.mono sub ?_)
  clear sub fr
  unfold applyHold
  repeat' first
    | with_reducible exact Framed.refl _ _
    | decide
    | with_reducible refine countCtx_frame ?_ ?_
    | with_reducible refine holdDue_frame ?_ ?_
    | with_reducible refine modCtx_frame ?_ ?_
    | with_reducible refine raise_frame ?_ ?_
    | with_reducible refine Framed.ite (fun _ => ?_) (fun _ => ?_)
    | dsimp only [id]
    | split

theorem modHst_frame {f : Hst → Hst}  (sub : ∀ p ∈ [.hst], p ∈ ps) (fr : Framed ps s0 s) :
    Framed ps s0 (modHst f s) := by
  refine fr.trans ⟨fun p hp => ?_, Keeps.same rfl rfl rfl⟩
  cases p <;> first | rfl | exact ⟨rfl, rfl⟩ | exact absurd (sub _ (by decide)) hp

theorem bar2Load_frame {off : Nat}  (sub : ∀ p ∈ [.out], p ∈ ps) (fr : Framed ps s0 s) :
    Framed ps s0 (bar2Load off s) := by
  refine fr.trans (Framed.mono sub ?_)
  clear sub fr
  unfold bar2Load
  repeat' first
    | with_reducible exact Framed.refl _ _
    | decide
    | with_reducible refine emit_frame ?_ ?_
    | with_reducible refine Framed.ite (fun _ => ?_) (fun _ => ?_)
    | dsimp only [id]
    | split

theorem bar2Store_frame {off val : Nat}  (sub : ∀ p ∈ [.hst], p ∈ ps) (fr : Framed ps s0 s) :
    Framed ps s0 (bar2Store off val s) := by
  refine fr.trans (Framed.mono sub ?_)
  clear sub fr
  unfold bar2Store
  repeat' first
    | with_reducible exact Framed.refl _ _
    | decide
    | with_reducible refine modHst_frame ?_ ?_
    | with_reducible refine Framed.ite (fun _ => ?_) (fun _ => ?_)
    | dsimp only [id]
    | split

theorem bisnpDone_frame {line : Nat}  (sub : ∀ p ∈ [.mem, .hst], p ∈ ps) (fr : Framed ps s0 s) :
    Framed ps s0 (bisnpDone line s) := by
  refine fr.trans (Framed.mono sub ?_)
  clear sub fr
  unfold bisnpDone
  repeat' first
    | with_reducible exact Framed.refl _ _
    | decide
    | with_reducible refine modHst_frame ?_ ?_
    | with_reducible refine Framed.ite (fun _ => ?_) (fun _ => ?_)
    | dsimp only [id]
    | split
  all_goals try (with_reducible apply Framed.upd rfl <;> first | exact Or.inl (by decide) | with_reducible exact Or.inr rfl | with_reducible exact Or.inr ⟨rfl, rfl⟩ | with_reducible exact Or.inl ⟨by decide, fun h => h⟩ | with_reducible exact Or.inl ⟨by decide, Nat.le_refl _⟩ | exact Or.inl ⟨by decide, fun h => bwrite_wf _ _ _ h⟩ | exact Or.inl ⟨by decide, fun h => bzero_wf _ _ _ h⟩ | exact Or.inl ⟨by decide, fun _ => rfl⟩ | exact Or.inl ⟨by decide, Err.bounded_q rfl (fun h => by rw [lmod_length]; exact h)⟩ | exact Or.inl ⟨by decide, Err.bounded_q rfl (fun h => h)⟩ | exact Or.inl ⟨by decide, Err.bounded_q rfl (fun h => by rw [List.length_map]; exact h)⟩ | exact Or.inl ⟨by decide, Nat.le_succ _⟩ | exact Or.inl ⟨by decide, Err.bounded_put rfl (fun h => Err.bounded_unit h _) (fun h => h)⟩ | skip)
  repeat' first
    | with_reducible exact Framed.refl _ _
    | decide
    | with_reducible refine modHst_frame ?_ ?_
    | with_reducible refine Framed.ite (fun _ => ?_) (fun _ => ?_)
    | dsimp only [id]
    | split

theorem ctxLost_frame {c bits : Nat}  (sub : ∀ p ∈ [.ctxs], p ∈ ps) (fr : Framed ps s0 s) :
    Framed ps s0 (ctxLost c bits s) := by
  refine fr.trans (Framed.mono sub ?_)
  clear sub fr
  unfold ctxLost
  repeat' first
    | with_reducible exact Framed.refl _ _
    | decide
    | with_reducible refine modCtx_frame ?_ ?_
    | with_reducible refine rollNoHold_frame ?_ ?_
    | with_reducible refine Framed.ite (fun _ => ?_) (fun _ => ?_)
    | dsimp only [id]
    | split

theorem modWsh_frame {f : Wsh → Wsh}  (sub : ∀ p ∈ [.wsh], p ∈ ps) (fr : Framed ps s0 s) :
    Framed ps s0 (modWsh f s) := by
  refine fr.trans ⟨fun p hp => ?_, Keeps.same rfl rfl rfl⟩
  cases p <;> first | rfl | exact ⟨rfl, rfl⟩ | exact absurd (sub _ (by decide)) hp

theorem cacheAdd_frame {ls : List Nat}  (sub : ∀ p ∈ [.hst], p ∈ ps) (fr : Framed ps s0 s) :
    Framed ps s0 (cacheAdd ls s) := by
  refine fr.trans (Framed.mono sub ?_)
  clear sub fr
  unfold cacheAdd
  repeat' first
    | with_reducible exact Framed.refl _ _
    | decide
    | with_reducible refine modHst_frame ?_ ?_
    | with_reducible refine Framed.foldl _ (fun _ _ => ?_) _ _ _ ?_
    | with_reducible refine Framed.foldl_fst _ (fun _ _ => ?_) _ _ _ ?_
    | dsimp only [id]

theorem cacheDel_frame {ls : List Nat}  (sub : ∀ p ∈ [.hst], p ∈ ps) (fr : Framed ps s0 s) :
    Framed ps s0 (cacheDel ls s) := by
  refine fr.trans (Framed.mono sub ?_)
  clear sub fr
  unfold cacheDel
  repeat' first
    | with_reducible exact Framed.refl _ _
    | decide
    | with_reducible refine modHst_frame ?_ ?_
    | dsimp only [id]

theorem cellScrub_frame {l c : Nat}  (sub : ∀ p ∈ [.tel, .cells, .frs], p ∈ ps) (fr : Framed ps s0 s) :
    Framed ps s0 (cellScrub l c s) := by
  refine fr.trans (Framed.mono sub ?_)
  clear sub fr
  unfold cellScrub
  repeat' first
    | with_reducible exact Framed.refl _ _
    | decide
    | with_reducible refine modCell_frame ?_ ?_
    | with_reducible refine scrubSlots_frame ?_ ?_
    | dsimp only [id]

theorem cfgLoad_frame {item : CfgItem}  (sub : ∀ p ∈ [.out], p ∈ ps) (fr : Framed ps s0 s) :
    Framed ps s0 (cfgLoad item s) := by
  refine fr.trans (Framed.mono sub ?_)
  clear sub fr
  unfold cfgLoad
  repeat' first
    | with_reducible exact Framed.refl _ _
    | decide
    | with_reducible refine emit_frame ?_ ?_
    | with_reducible refine Framed.ite (fun _ => ?_) (fun _ => ?_)
    | dsimp only [id]
    | split

theorem cfgStore_frame {item : CfgItem} {val : Nat}  (sub : ∀ p ∈ [.hst], p ∈ ps) (fr : Framed ps s0 s) :
    Framed ps s0 (cfgStore item val s) := by
  refine fr.trans (Framed.mono sub ?_)
  clear sub fr
  unfold cfgStore
  repeat' first
    | with_reducible exact Framed.refl _ _
    | decide
    | with_reducible refine modHst_frame ?_ ?_
    | with_reducible refine Framed.ite (fun _ => ?_) (fun _ => ?_)
    | dsimp only [id]
    | split

theorem copyRun_frame {k : Copy} {data : Bytes}  (sub : ∀ p ∈ [.out, .err, .tel, .frs, .mem, .hst], p ∈ ps) (fr : Framed ps s0 s) :
    Framed ps s0 (copyRun k data s) := by
  refine fr.trans (Framed.mono sub ?_)
  clear sub fr
  unfold copyRun
  repeat' first
    | with_reducible exact Framed.refl _ _
    | decide
    | with_reducible refine emit_frame ?_ ?_
    | with_reducible refine memDiscard_frame ?_ ?_
    | with_reducible refine memPutTile_frame ?_ ?_
    | with_reducible refine memWrite_frame ?_ ?_
    | with_reducible refine Framed.foldl _ (fun _ _ => ?_) _ _ _ ?_
    | with_reducible refine Framed.foldl_fst _ (fun _ _ => ?_) _ _ _ ?_
    | with_reducible refine Framed.ite (fun _ => ?_) (fun _ => ?_)
    | dsimp only [id]
    | split

theorem dRefuse_frame {q : Nat} {d : Bytes} {head status detail : Nat}  (sub : ∀ p ∈ [.out, .err, .tel, .slc], p ∈ ps) (fr : Framed ps s0 s) :
    Framed ps s0 (dRefuse q d head status detail s) := by
  refine fr.trans (Framed.mono sub ?_)
  clear sub fr
  unfold dRefuse
  repeat' first
    | with_reducible exact Framed.refl _ _
    | decide
    | with_reducible refine countCtx_frame ?_ ?_
    | with_reducible refine postDesc_frame ?_ ?_
    | with_reducible refine raise_frame ?_ ?_
    | with_reducible refine Framed.ite (fun _ => ?_) (fun _ => ?_)
    | dsimp only [id]
    | split

theorem dropBadOps_frame {q n : Nat}  (sub : ∀ p ∈ [.out, .err, .tel, .slc], p ∈ ps) (fr : Framed ps s0 s) :
    Framed ps s0 (dropBadOps q n s) := by
  refine fr.trans (Framed.mono sub ?_)
  clear sub fr
  induction n generalizing s with
  | zero => exact Framed.refl _ _
  | succ n ih =>
  unfold dropBadOps
  repeat' first
    | with_reducible exact Framed.refl _ _
    | decide
    | with_reducible refine dRefuse_frame ?_ ?_
    | with_reducible refine modPair_frame ?_ ?_
    | with_reducible refine Framed.trans ?_ ih
    | with_reducible refine Framed.ite (fun _ => ?_) (fun _ => ?_)
    | dsimp only [id]
    | split

theorem fetchStart_frame {q : Nat}  (sub : ∀ p ∈ [.out, .slc], p ∈ ps) (fr : Framed ps s0 s) :
    Framed ps s0 (fetchStart q s) := by
  refine fr.trans (Framed.mono sub ?_)
  clear sub fr
  unfold fetchStart
  repeat' first
    | with_reducible exact Framed.refl _ _
    | decide
    | with_reducible refine emit_frame ?_ ?_
    | with_reducible refine modPair_frame ?_ ?_
    | with_reducible refine Framed.ite (fun _ => ?_) (fun _ => ?_)
    | dsimp only [id]
    | split

theorem dTake_frame {q : Nat}  (sub : ∀ p ∈ [.out, .err, .tel, .slc, .hst], p ∈ ps) (fr : Framed ps s0 s) :
    Framed ps s0 (dTake q s) := by
  refine fr.trans (Framed.mono sub ?_)
  clear sub fr
  unfold dTake
  repeat' first
    | with_reducible exact Framed.refl _ _
    | decide
    | with_reducible refine cacheDel_frame ?_ ?_
    | with_reducible refine dropBadOps_frame ?_ ?_
    | with_reducible refine fetchStart_frame ?_ ?_
    | with_reducible refine modPair_frame ?_ ?_
    | dsimp only [id]
    | split

theorem dieLeave_frame {site : Nat} {why : OutWhy}  (sub : ∀ p ∈ [.net], p ∈ ps) (fr : Framed ps s0 s) :
    Framed ps s0 (dieLeave site why s) := by
  refine fr.trans (Framed.mono sub ?_)
  clear sub fr
  unfold dieLeave
  repeat' first
    | with_reducible exact Framed.refl _ _
    | decide
    | with_reducible refine modNet_frame ?_ ?_
    | dsimp only [id]

theorem dieClear_frame  (sub : ∀ p ∈ [.out, .net, .fly, .wsh], p ∈ ps) (fr : Framed ps s0 s) :
    Framed ps s0 (dieClear s) := by
  refine fr.trans (Framed.mono sub ?_)
  clear sub fr
  unfold dieClear
  repeat' first
    | with_reducible exact Framed.refl _ _
    | decide
    | with_reducible refine dieLeave_frame ?_ ?_
    | with_reducible refine modWsh_frame ?_ ?_
    | with_reducible refine rillSend_frame ?_ ?_
    | with_reducible refine Framed.foldl _ (fun _ _ => ?_) _ _ _ ?_
    | with_reducible refine Framed.foldl_fst _ (fun _ _ => ?_) _ _ _ ?_
    | with_reducible refine Framed.ite (fun _ => ?_) (fun _ => ?_)
    | dsimp only [id]
    | split

theorem dispatch_frame {q op : Nat} {bad : Bytes → List (Bool × Nat)} {named : State → Bytes → Option (Nat × Nat)} {act : Bytes → Nat → State → State} (sub : ∀ p ∈ [.out, .err, .tel, .slc, .hst], p ∈ ps) (hf : ∀ d h t, Framed ps t (act d h t)) (fr : Framed ps s0 s) : Framed ps s0 (dispatch q op bad named act s) := by
  unfold dispatch
  repeat' first
    | with_reducible exact Framed.refl _ _
    | decide
    | with_reducible refine countCtx_frame ?_ ?_
    | with_reducible refine dRefuse_frame ?_ ?_
    | with_reducible refine dTake_frame ?_ ?_
    | with_reducible refine Framed.trans ?_ (hf _ _ _)
    | exact fr
    | (intro p hp; exact sub p (by revert p; decide))
    | with_reducible refine Framed.ite (fun _ => ?_) (fun _ => ?_)
    | dsimp only [id]
    | split

theorem doeError_frame  (sub : ∀ p ∈ [.out], p ∈ ps) (fr : Framed ps s0 s) :
    Framed ps s0 (doeError s) := by
  refine fr.trans (Framed.mono sub ?_)
  clear sub fr
  unfold doeError
  repeat' first
    | with_reducible exact Framed.refl _ _
    | decide
    | with_reducible refine emit_frame ?_ ?_
    | dsimp only [id]

theorem pairStop_frame {q : Nat}  (sub : ∀ p ∈ [.slc], p ∈ ps) (fr : Framed ps s0 s) :
    Framed ps s0 (pairStop q s) := by
  refine fr.trans (Framed.mono sub ?_)
  clear sub fr
  unfold pairStop
  repeat' first
    | with_reducible exact Framed.refl _ _
    | decide
    | with_reducible refine modPair_frame ?_ ?_
    | dsimp only [id]

theorem doorbell_frame {poll : Bool} {q : Nat} {e : Bytes}  (sub : ∀ p ∈ [.out, .err, .tel, .slc], p ∈ ps) (fr : Framed ps s0 s) :
    Framed ps s0 (doorbell poll q e s) := by
  refine fr.trans (Framed.mono sub ?_)
  clear sub fr
  unfold doorbell
  repeat' first
    | with_reducible exact Framed.refl _ _
    | decide
    | with_reducible refine count_frame ?_ ?_
    | with_reducible refine fetchStart_frame ?_ ?_
    | with_reducible refine modPair_frame ?_ ?_
    | with_reducible refine pairStop_frame ?_ ?_
    | with_reducible refine raise_frame ?_ ?_
    | with_reducible refine Framed.ite (fun _ => ?_) (fun _ => ?_)
    | dsimp only [id]
    | split

theorem doorbellLine_frame {poll : Bool} {j : Nat} {b : Bytes}  (sub : ∀ p ∈ [.out, .err, .tel, .slc, .hst], p ∈ ps) (fr : Framed ps s0 s) :
    Framed ps s0 (doorbellLine poll j b s) := by
  refine fr.trans (Framed.mono sub ?_)
  clear sub fr
  unfold doorbellLine
  repeat' first
    | with_reducible exact Framed.refl _ _
    | decide
    | with_reducible refine cacheAdd_frame ?_ ?_
    | with_reducible refine doorbell_frame ?_ ?_
    | with_reducible refine Framed.foldl _ (fun _ _ => ?_) _ _ _ ?_
    | with_reducible refine Framed.foldl_fst _ (fun _ _ => ?_) _ _ _ ?_
    | with_reducible refine Framed.ite (fun _ => ?_) (fun _ => ?_)
    | dsimp only [id]
    | split

theorem patchCell_frame {c i : Nat} {p : Plan} {ord l : Nat}  (sub : ∀ p ∈ [.cells], p ∈ ps) (fr : Framed ps s0 s) :
    Framed ps s0 (patchCell c i p ord l s) := by
  refine fr.trans (Framed.mono sub ?_)
  clear sub fr
  unfold patchCell
  repeat' first
    | with_reducible exact Framed.refl _ _
    | decide
    | with_reducible refine modCell_frame ?_ ?_
    | with_reducible refine Framed.foldl _ (fun _ _ => ?_) _ _ _ ?_
    | with_reducible refine Framed.foldl_fst _ (fun _ _ => ?_) _ _ _ ?_
    | dsimp only [id]

theorem patchAll_frame {c : Nat} {p : Plan}  (sub : ∀ p ∈ [.cells], p ∈ ps) (fr : Framed ps s0 s) :
    Framed ps s0 (patchAll c p s) := by
  refine fr.trans (Framed.mono sub ?_)
  clear sub fr
  unfold patchAll
  repeat' first
    | with_reducible exact Framed.refl _ _
    | decide
    | with_reducible refine patchCell_frame ?_ ?_
    | with_reducible refine Framed.foldl _ (fun _ _ => ?_) _ _ _ ?_
    | with_reducible refine Framed.foldl_fst _ (fun _ _ => ?_) _ _ _ ?_
    | with_reducible refine Framed.ite (fun _ => ?_) (fun _ => ?_)
    | dsimp only [id]
    | split

theorem remapAll_frame {m : List (Nat × Nat)} {old new : List Rect}  (sub : ∀ p ∈ [.fly, .frs], p ∈ ps) (fr : Framed ps s0 s) :
    Framed ps s0 (remapAll m old new s) := by
  refine fr.trans (Framed.mono sub ?_)
  clear sub fr
  unfold remapAll
  repeat' first
    | with_reducible exact Framed.refl _ _
    | decide
    | dsimp only [id]
    | split
  all_goals try (with_reducible apply Framed.upd rfl <;> first | exact Or.inl (by decide) | with_reducible exact Or.inr rfl | with_reducible exact Or.inr ⟨rfl, rfl⟩ | with_reducible exact Or.inl ⟨by decide, fun h => h⟩ | with_reducible exact Or.inl ⟨by decide, Nat.le_refl _⟩ | exact Or.inl ⟨by decide, fun h => bwrite_wf _ _ _ h⟩ | exact Or.inl ⟨by decide, fun h => bzero_wf _ _ _ h⟩ | exact Or.inl ⟨by decide, fun _ => rfl⟩ | exact Or.inl ⟨by decide, Err.bounded_q rfl (fun h => by rw [lmod_length]; exact h)⟩ | exact Or.inl ⟨by decide, Err.bounded_q rfl (fun h => h)⟩ | exact Or.inl ⟨by decide, Err.bounded_q rfl (fun h => by rw [List.length_map]; exact h)⟩ | exact Or.inl ⟨by decide, Nat.le_succ _⟩ | exact Or.inl ⟨by decide, Err.bounded_put rfl (fun h => Err.bounded_unit h _) (fun h => h)⟩ | skip)
  repeat' first
    | with_reducible exact Framed.refl _ _
    | decide
    | dsimp only [id]
    | split

theorem writeReport_frame {c : Nat} {p : Plan} {step cause : Nat}  (sub : ∀ p ∈ [.out, .err, .tel, .ctxs, .frs, .mem, .rsv, .hst], p ∈ ps) (fr : Framed ps s0 s) :
    Framed ps s0 (writeReport c p step cause s) := by
  refine fr.trans (Framed.mono sub ?_)
  clear sub fr
  unfold writeReport
  repeat' first
    | with_reducible exact Framed.refl _ _
    | decide
    | with_reducible refine modCtx_frame ?_ ?_
    | with_reducible refine recPut_frame ?_ ?_
    | dsimp only [id]

theorem drainCtx_frame {site : Nat} {plans : List (Fin 1024 × Plan)} {c : Nat}  (sub : ∀ p ∈ [.out, .err, .tel, .fly, .cells, .ctxs, .frs, .mem, .rsv, .hst], p ∈ ps) (fr : Framed ps s0 s) :
    Framed ps s0 (drainCtx site plans c s) := by
  refine fr.trans (Framed.mono sub ?_)
  clear sub fr
  unfold drainCtx
  repeat' first
    | with_reducible exact Framed.refl _ _
    | decide
    | with_reducible refine countCtx_frame ?_ ?_
    | with_reducible refine memWrite_frame ?_ ?_
    | with_reducible refine modCell_frame ?_ ?_
    | with_reducible refine modCtx_frame ?_ ?_
    | with_reducible refine patchAll_frame ?_ ?_
    | with_reducible refine remapAll_frame ?_ ?_
    | with_reducible refine rollNoHold_frame ?_ ?_
    | with_reducible refine writeReport_frame ?_ ?_
    | with_reducible refine Framed.foldl _ (fun _ _ => ?_) _ _ _ ?_
    | with_reducible refine Framed.foldl_fst _ (fun _ _ => ?_) _ _ _ ?_
    | with_reducible refine Framed.ite (fun _ => ?_) (fun _ => ?_)
    | dsimp only [id]
    | split

theorem dropQueued_frame {c : Nat}  (sub : ∀ p ∈ [.tel, .ctxs, .slc], p ∈ ps) (fr : Framed ps s0 s) :
    Framed ps s0 (dropQueued c s) := by
  refine fr.trans (Framed.mono sub ?_)
  clear sub fr
  unfold dropQueued
  repeat' first
    | with_reducible exact Framed.refl _ _
    | decide
    | with_reducible refine modCtx_frame ?_ ?_
    | with_reducible refine postStep_frame ?_ ?_
    | with_reducible refine Framed.foldl _ (fun _ _ => ?_) _ _ _ ?_
    | with_reducible refine Framed.foldl_fst _ (fun _ _ => ?_) _ _ _ ?_
    | dsimp only [id]

theorem dropStep_frame {c n : Nat}  (sub : ∀ p ∈ [.ctxs], p ∈ ps) (fr : Framed ps s0 s) :
    Framed ps s0 (dropStep c n s) := by
  refine fr.trans (Framed.mono sub ?_)
  clear sub fr
  unfold dropStep
  repeat' first
    | with_reducible exact Framed.refl _ _
    | decide
    | with_reducible refine modCtx_frame ?_ ?_
    | dsimp only [id]

theorem modOwn_frame {f : Own → Own}  (sub : ∀ p ∈ [.own], p ∈ ps) (fr : Framed ps s0 s) :
    Framed ps s0 (modOwn f s) := by
  refine fr.trans ⟨fun p hp => ?_, Keeps.same rfl rfl rfl⟩
  cases p <;> first | rfl | exact ⟨rfl, rfl⟩ | exact absurd (sub _ (by decide)) hp

theorem leaseStart_frame  (sub : ∀ p ∈ [.own], p ∈ ps) (fr : Framed ps s0 s) :
    Framed ps s0 (leaseStart s) := by
  refine fr.trans (Framed.mono sub ?_)
  clear sub fr
  unfold leaseStart
  repeat' first
    | with_reducible exact Framed.refl _ _
    | decide
    | with_reducible refine modOwn_frame ?_ ?_
    | dsimp only [id]

theorem ownAnnounce_frame {event : Nat}  (sub : ∀ p ∈ [.out, .err, .tel, .csn, .own], p ∈ ps) (fr : Framed ps s0 s) :
    Framed ps s0 (ownAnnounce event s) := by
  refine fr.trans (Framed.mono sub ?_)
  clear sub fr
  unfold ownAnnounce
  repeat' first
    | with_reducible exact Framed.refl _ _
    | decide
    | with_reducible refine csnFleet_frame ?_ ?_
    | with_reducible refine emit_frame ?_ ?_
    | with_reducible refine modOwn_frame ?_ ?_
    | with_reducible refine raise_frame ?_ ?_
    | dsimp only [id]

theorem ownAnswer_frame {m : Master} {path : Option (Nat × Nat × Nat × Nat)} {status : Nat}  (sub : ∀ p ∈ [.out, .tel, .csn, .own], p ∈ ps) (fr : Framed ps s0 s) :
    Framed ps s0 (ownAnswer m path status s) := by
  refine fr.trans (Framed.mono sub ?_)
  clear sub fr
  unfold ownAnswer
  repeat' first
    | with_reducible exact Framed.refl _ _
    | decide
    | with_reducible refine count_frame ?_ ?_
    | with_reducible refine csnCtl_frame ?_ ?_
    | with_reducible refine emit_frame ?_ ?_
    | with_reducible refine modOwn_frame ?_ ?_
    | with_reducible refine Framed.ite (fun _ => ?_) (fun _ => ?_)
    | dsimp only [id]
    | split

theorem electionEnd_frame  (sub : ∀ p ∈ [.out, .err, .tel, .csn, .own], p ∈ ps) (fr : Framed ps s0 s) :
    Framed ps s0 (electionEnd s) := by
  refine fr.trans (Framed.mono sub ?_)
  clear sub fr
  unfold electionEnd
  repeat' first
    | with_reducible exact Framed.refl _ _
    | decide
    | with_reducible refine leaseStart_frame ?_ ?_
    | with_reducible refine modOwn_frame ?_ ?_
    | with_reducible refine ownAnnounce_frame ?_ ?_
    | with_reducible refine ownAnswer_frame ?_ ?_
    | with_reducible refine Framed.foldl _ (fun _ _ => ?_) _ _ _ ?_
    | with_reducible refine Framed.foldl_fst _ (fun _ _ => ?_) _ _ _ ?_
    | with_reducible refine Framed.ite (fun _ => ?_) (fun _ => ?_)
    | dsimp only [id]
    | split

theorem freezeStart_frame {site : Nat}  (sub : ∀ p ∈ [.tel, .net, .cells, .ctxs, .frs, .wsh], p ∈ ps) (fr : Framed ps s0 s) :
    Framed ps s0 (freezeStart site s) := by
  refine fr.trans (Framed.mono sub ?_)
  clear sub fr
  unfold freezeStart
  repeat' first
    | with_reducible exact Framed.refl _ _
    | decide
    | with_reducible refine cellLeave_frame ?_ ?_
    | with_reducible refine countCtx_frame ?_ ?_
    | with_reducible refine dieLeave_frame ?_ ?_
    | with_reducible refine modCtx_frame ?_ ?_
    | with_reducible refine modWsh_frame ?_ ?_
    | with_reducible refine rollNoHold_frame ?_ ?_
    | with_reducible refine Framed.foldl _ (fun _ _ => ?_) _ _ _ ?_
    | with_reducible refine Framed.foldl_fst _ (fun _ _ => ?_) _ _ _ ?_
    | with_reducible refine Framed.ite (fun _ => ?_) (fun _ => ?_)
    | dsimp only [id]
    | split

theorem frsDropCtx_frame {c : Nat}  (sub : ∀ p ∈ [.frs], p ∈ ps) (fr : Framed ps s0 s) :
    Framed ps s0 (frsDropCtx c s) := by
  refine fr.trans (Framed.mono sub ?_)
  clear sub fr
  unfold frsDropCtx
  repeat' first
    | with_reducible exact Framed.refl _ _
    | decide
    | with_reducible refine Framed.foldl _ (fun _ _ => ?_) _ _ _ ?_
    | with_reducible refine Framed.foldl_fst _ (fun _ _ => ?_) _ _ _ ?_
    | with_reducible refine Framed.ite (fun _ => ?_) (fun _ => ?_)
    | dsimp only [id]
    | split
  all_goals try (with_reducible apply Framed.upd rfl <;> first | exact Or.inl (by decide) | with_reducible exact Or.inr rfl | with_reducible exact Or.inr ⟨rfl, rfl⟩ | with_reducible exact Or.inl ⟨by decide, fun h => h⟩ | with_reducible exact Or.inl ⟨by decide, Nat.le_refl _⟩ | exact Or.inl ⟨by decide, fun h => bwrite_wf _ _ _ h⟩ | exact Or.inl ⟨by decide, fun h => bzero_wf _ _ _ h⟩ | exact Or.inl ⟨by decide, fun _ => rfl⟩ | exact Or.inl ⟨by decide, Err.bounded_q rfl (fun h => by rw [lmod_length]; exact h)⟩ | exact Or.inl ⟨by decide, Err.bounded_q rfl (fun h => h)⟩ | exact Or.inl ⟨by decide, Err.bounded_q rfl (fun h => by rw [List.length_map]; exact h)⟩ | exact Or.inl ⟨by decide, Nat.le_succ _⟩ | exact Or.inl ⟨by decide, Err.bounded_put rfl (fun h => Err.bounded_unit h _) (fun h => h)⟩ | skip)
  repeat' first
    | with_reducible exact Framed.refl _ _
    | decide
    | with_reducible refine Framed.foldl _ (fun _ _ => ?_) _ _ _ ?_
    | with_reducible refine Framed.foldl_fst _ (fun _ _ => ?_) _ _ _ ?_
    | with_reducible refine Framed.ite (fun _ => ?_) (fun _ => ?_)
    | dsimp only [id]
    | split

theorem frsHold_frame {c : Nat}  (sub : ∀ p ∈ [.frs], p ∈ ps) (fr : Framed ps s0 s) :
    Framed ps s0 (frsHold c s) := by
  refine fr.trans (Framed.mono sub ?_)
  clear sub fr
  unfold frsHold
  repeat' first
    | with_reducible exact Framed.refl _ _
    | decide
    | with_reducible refine Framed.ite (fun _ => ?_) (fun _ => ?_)
    | dsimp only [id]
    | split
  all_goals try (with_reducible apply Framed.upd rfl <;> first | exact Or.inl (by decide) | with_reducible exact Or.inr rfl | with_reducible exact Or.inr ⟨rfl, rfl⟩ | with_reducible exact Or.inl ⟨by decide, fun h => h⟩ | with_reducible exact Or.inl ⟨by decide, Nat.le_refl _⟩ | exact Or.inl ⟨by decide, fun h => bwrite_wf _ _ _ h⟩ | exact Or.inl ⟨by decide, fun h => bzero_wf _ _ _ h⟩ | exact Or.inl ⟨by decide, fun _ => rfl⟩ | exact Or.inl ⟨by decide, Err.bounded_q rfl (fun h => by rw [lmod_length]; exact h)⟩ | exact Or.inl ⟨by decide, Err.bounded_q rfl (fun h => h)⟩ | exact Or.inl ⟨by decide, Err.bounded_q rfl (fun h => by rw [List.length_map]; exact h)⟩ | exact Or.inl ⟨by decide, Nat.le_succ _⟩ | exact Or.inl ⟨by decide, Err.bounded_put rfl (fun h => Err.bounded_unit h _) (fun h => h)⟩ | skip)
  repeat' first
    | with_reducible exact Framed.refl _ _
    | decide
    | with_reducible refine Framed.ite (fun _ => ?_) (fun _ => ?_)
    | dsimp only [id]
    | split

theorem ownExpire_frame  (sub : ∀ p ∈ [.out, .err, .tel, .csn, .own], p ∈ ps) (fr : Framed ps s0 s) :
    Framed ps s0 (ownExpire s) := by
  refine fr.trans (Framed.mono sub ?_)
  clear sub fr
  unfold ownExpire
  repeat' first
    | with_reducible exact Framed.refl _ _
    | decide
    | with_reducible refine modOwn_frame ?_ ?_
    | with_reducible refine ownAnnounce_frame ?_ ?_
    | with_reducible refine Framed.ite (fun _ => ?_) (fun _ => ?_)
    | dsimp only [id]
    | split

theorem ownClock_frame  (sub : ∀ p ∈ [.out, .err, .tel, .csn, .own], p ∈ ps) (fr : Framed ps s0 s) :
    Framed ps s0 (ownClock s) := by
  refine fr.trans (Framed.mono sub ?_)
  clear sub fr
  unfold ownClock
  repeat' first
    | with_reducible exact Framed.refl _ _
    | decide
    | with_reducible refine electionEnd_frame ?_ ?_
    | with_reducible refine ownExpire_frame ?_ ?_
    | with_reducible refine Framed.ite (fun _ => ?_) (fun _ => ?_)
    | dsimp only [id]
    | split

theorem hostMiss_frame {h : Nat}  (sub : ∀ p ∈ [.out, .err, .tel], p ∈ ps) (fr : Framed ps s0 s) :
    Framed ps s0 (hostMiss h s) := by
  refine fr.trans (Framed.mono sub ?_)
  clear sub fr
  unfold hostMiss
  repeat' first
    | with_reducible exact Framed.refl _ _
    | decide
    | with_reducible refine raise_frame ?_ ?_
    | dsimp only [id]

theorem ownMalformed_frame {m : Master} {path : Option (Nat × Nat × Nat × Nat)} {body : Bytes}  (sub : ∀ p ∈ [.out, .err, .tel, .csn, .own], p ∈ ps) (fr : Framed ps s0 s) :
    Framed ps s0 (ownMalformed m path body s) := by
  refine fr.trans (Framed.mono sub ?_)
  clear sub fr
  unfold ownMalformed
  repeat' first
    | with_reducible exact Framed.refl _ _
    | decide
    | with_reducible refine ownAnswer_frame ?_ ?_
    | with_reducible refine raise_frame ?_ ?_
    | dsimp only [id]

theorem ownAct_frame {m : Master} {path : Option (Nat × Nat × Nat × Nat)} {body : Bytes}  (sub : ∀ p ∈ [.out, .err, .tel, .csn, .own], p ∈ ps) (fr : Framed ps s0 s) :
    Framed ps s0 (ownAct m path body s) := by
  refine fr.trans (Framed.mono sub ?_)
  clear sub fr
  unfold ownAct
  repeat' first
    | with_reducible exact Framed.refl _ _
    | decide
    | with_reducible refine leaseStart_frame ?_ ?_
    | with_reducible refine modOwn_frame ?_ ?_
    | with_reducible refine ownAnnounce_frame ?_ ?_
    | with_reducible refine ownAnswer_frame ?_ ?_
    | with_reducible refine ownMalformed_frame ?_ ?_
    | with_reducible refine Framed.ite (fun _ => ?_) (fun _ => ?_)
    | dsimp only [id]
    | split

theorem rateHit_frame {k : Nat}  (sub : ∀ p ∈ [.own], p ∈ ps) (fr : Framed ps s0 s) :
    Framed ps s0 ((rateHit k s).1) := by
  refine fr.trans (Framed.mono sub ?_)
  clear sub fr
  unfold rateHit
  repeat' first
    | with_reducible exact Framed.refl _ _
    | decide
    | with_reducible refine modOwn_frame ?_ ?_
    | dsimp only [id]

theorem rateHit_of {k : Nat}  {u : State} {o : Bool} (eq : rateHit k s = (u, o)) (sub : ∀ p ∈ [.own], p ∈ ps) (fr : Framed ps s0 s) : Framed ps s0 u := by
  have g := @rateHit_frame ps s0 s k sub fr
  rw [eq] at g
  exact g

theorem ownRequest_frame {m : Master} {path : Option (Nat × Nat × Nat × Nat)} {body : Bytes}  (sub : ∀ p ∈ [.out, .err, .tel, .csn, .own], p ∈ ps) (fr : Framed ps s0 s) :
    Framed ps s0 (ownRequest m path body s) := by
  refine fr.trans (Framed.mono sub ?_)
  clear sub fr
  unfold ownRequest
  repeat' first
    | with_reducible exact Framed.refl _ _
    | decide
    | with_reducible refine ownAct_frame ?_ ?_
    | with_reducible refine ownAnswer_frame ?_ ?_
    | with_reducible refine ownClock_frame ?_ ?_
    | with_reducible refine ownMalformed_frame ?_ ?_
    | with_reducible refine rateHit_frame ?_ ?_
    | with_reducible refine rateHit_of (by assumption) ?_ ?_
    | with_reducible refine Framed.ite (fun _ => ?_) (fun _ => ?_)
    | dsimp only [id]
    | split

theorem zeroArea_frame {c : Nat} {a n : Nat}  (sub : ∀ p ∈ [.out, .tel, .frs, .mem, .rsv, .hst], p ∈ ps) (fr : Framed ps s0 s) :
    Framed ps s0 (zeroArea c a n s) := by
  refine fr.trans (Framed.mono sub ?_)
  clear sub fr
  unfold zeroArea
  repeat' first
    | with_reducible exact Framed.refl _ _
    | decide
    | with_reducible refine memZero_frame ?_ ?_
    | with_reducible refine rsvAsk_frame ?_ ?_
    | with_reducible refine Framed.foldl _ (fun _ _ => ?_) _ _ _ ?_
    | with_reducible refine Framed.foldl_fst _ (fun _ _ => ?_) _ _ _ ?_
    | with_reducible refine Framed.ite (fun _ => ?_) (fun _ => ?_)
    | dsimp only [id]
    | split

theorem killRest_frame {c : Nat} {k : Kill}  (sub : ∀ p ∈ [.out, .tel, .cells, .chk, .ctxs, .slc, .frs, .mem, .rsv, .csn, .est, .edy, .wsh, .hst], p ∈ ps) (fr : Framed ps s0 s) :
    Framed ps s0 (killRest c k s) := by
  refine fr.trans (Framed.mono sub ?_)
  clear sub fr
  unfold killRest
  repeat' first
    | with_reducible exact Framed.refl _ _
    | decide
    | with_reducible refine frsDropCtx_frame ?_ ?_
    | with_reducible refine frsHold_frame ?_ ?_
    | with_reducible refine holdDue_frame ?_ ?_
    | with_reducible refine memDropCtx_frame ?_ ?_
    | with_reducible refine memZero_frame ?_ ?_
    | with_reducible refine modChk_frame ?_ ?_
    | with_reducible refine modCtx_frame ?_ ?_
    | with_reducible refine postDesc_frame ?_ ?_
    | with_reducible refine postStep_frame ?_ ?_
    | with_reducible refine rsvAbortMsg_frame ?_ ?_
    | with_reducible refine strmStepEnd_frame ?_ ?_
    | with_reducible refine windowsEnd_frame ?_ ?_
    | with_reducible refine zeroArea_frame ?_ ?_
    | with_reducible refine Framed.foldl _ (fun _ _ => ?_) _ _ _ ?_
    | with_reducible refine Framed.foldl_fst _ (fun _ _ => ?_) _ _ _ ?_
    | with_reducible refine Framed.ite (fun _ => ?_) (fun _ => ?_)
    | dsimp only [id]
    | split
  all_goals try (with_reducible apply Framed.upd rfl <;> first | exact Or.inl (by decide) | with_reducible exact Or.inr rfl | with_reducible exact Or.inr ⟨rfl, rfl⟩ | with_reducible exact Or.inl ⟨by decide, fun h => h⟩ | with_reducible exact Or.inl ⟨by decide, Nat.le_refl _⟩ | exact Or.inl ⟨by decide, fun h => bwrite_wf _ _ _ h⟩ | exact Or.inl ⟨by decide, fun h => bzero_wf _ _ _ h⟩ | exact Or.inl ⟨by decide, fun _ => rfl⟩ | exact Or.inl ⟨by decide, Err.bounded_q rfl (fun h => by rw [lmod_length]; exact h)⟩ | exact Or.inl ⟨by decide, Err.bounded_q rfl (fun h => h)⟩ | exact Or.inl ⟨by decide, Err.bounded_q rfl (fun h => by rw [List.length_map]; exact h)⟩ | exact Or.inl ⟨by decide, Nat.le_succ _⟩ | exact Or.inl ⟨by decide, Err.bounded_put rfl (fun h => Err.bounded_unit h _) (fun h => h)⟩ | skip)
  repeat' first
    | with_reducible exact Framed.refl _ _
    | decide
    | with_reducible refine frsDropCtx_frame ?_ ?_
    | with_reducible refine frsHold_frame ?_ ?_
    | with_reducible refine holdDue_frame ?_ ?_
    | with_reducible refine memDropCtx_frame ?_ ?_
    | with_reducible refine memZero_frame ?_ ?_
    | with_reducible refine modChk_frame ?_ ?_
    | with_reducible refine modCtx_frame ?_ ?_
    | with_reducible refine postDesc_frame ?_ ?_
    | with_reducible refine postStep_frame ?_ ?_
    | with_reducible refine rsvAbortMsg_frame ?_ ?_
    | with_reducible refine strmStepEnd_frame ?_ ?_
    | with_reducible refine windowsEnd_frame ?_ ?_
    | with_reducible refine zeroArea_frame ?_ ?_
    | with_reducible refine Framed.foldl _ (fun _ _ => ?_) _ _ _ ?_
    | with_reducible refine Framed.foldl_fst _ (fun _ _ => ?_) _ _ _ ?_
    | with_reducible refine Framed.ite (fun _ => ?_) (fun _ => ?_)
    | dsimp only [id]
    | split
  all_goals try (with_reducible apply Framed.upd rfl <;> first | exact Or.inl (by decide) | with_reducible exact Or.inr rfl | with_reducible exact Or.inr ⟨rfl, rfl⟩ | with_reducible exact Or.inl ⟨by decide, fun h => h⟩ | with_reducible exact Or.inl ⟨by decide, Nat.le_refl _⟩ | exact Or.inl ⟨by decide, fun h => bwrite_wf _ _ _ h⟩ | exact Or.inl ⟨by decide, fun h => bzero_wf _ _ _ h⟩ | exact Or.inl ⟨by decide, fun _ => rfl⟩ | exact Or.inl ⟨by decide, Err.bounded_q rfl (fun h => by rw [lmod_length]; exact h)⟩ | exact Or.inl ⟨by decide, Err.bounded_q rfl (fun h => h)⟩ | exact Or.inl ⟨by decide, Err.bounded_q rfl (fun h => by rw [List.length_map]; exact h)⟩ | exact Or.inl ⟨by decide, Nat.le_succ _⟩ | exact Or.inl ⟨by decide, Err.bounded_put rfl (fun h => Err.bounded_unit h _) (fun h => h)⟩ | skip)
  repeat' first
    | with_reducible exact Framed.refl _ _
    | decide
    | with_reducible refine frsDropCtx_frame ?_ ?_
    | with_reducible refine frsHold_frame ?_ ?_
    | with_reducible refine holdDue_frame ?_ ?_
    | with_reducible refine memDropCtx_frame ?_ ?_
    | with_reducible refine memZero_frame ?_ ?_
    | with_reducible refine modChk_frame ?_ ?_
    | with_reducible refine modCtx_frame ?_ ?_
    | with_reducible refine postDesc_frame ?_ ?_
    | with_reducible refine postStep_frame ?_ ?_
    | with_reducible refine rsvAbortMsg_frame ?_ ?_
    | with_reducible refine strmStepEnd_frame ?_ ?_
    | with_reducible refine windowsEnd_frame ?_ ?_
    | with_reducible refine zeroArea_frame ?_ ?_
    | with_reducible refine Framed.foldl _ (fun _ _ => ?_) _ _ _ ?_
    | with_reducible refine Framed.foldl_fst _ (fun _ _ => ?_) _ _ _ ?_
    | with_reducible refine Framed.ite (fun _ => ?_) (fun _ => ?_)
    | dsimp only [id]
    | split

theorem killStart_frame {c : Nat} {k : Kill}  (sub : ∀ p ∈ [.out, .tel, .net, .fly, .ctxs, .csn], p ∈ ps) (fr : Framed ps s0 s) :
    Framed ps s0 (killStart c k s) := by
  refine fr.trans (Framed.mono sub ?_)
  clear sub fr
  unfold killStart
  repeat' first
    | with_reducible exact Framed.refl _ _
    | decide
    | with_reducible refine countCtx_frame ?_ ?_
    | with_reducible refine csnKill_frame ?_ ?_
    | with_reducible refine modCtx_frame ?_ ?_
    | with_reducible refine rillSend_frame ?_ ?_
    | with_reducible refine Framed.ite (fun _ => ?_) (fun _ => ?_)
    | dsimp only [id]
    | split

theorem linkTrain_frame  (sub : ∀ p ∈ [.hst], p ∈ ps) (fr : Framed ps s0 s) :
    Framed ps s0 (linkTrain s) := by
  refine fr.trans (Framed.mono sub ?_)
  clear sub fr
  unfold linkTrain
  repeat' first
    | with_reducible exact Framed.refl _ _
    | decide
    | with_reducible refine modHst_frame ?_ ?_
    | with_reducible refine Framed.ite (fun _ => ?_) (fun _ => ?_)
    | dsimp only [id]
    | split

theorem loadGroup_frame {c i : Nat} {p : Plan} {only : Option (List Nat)}  (sub : ∀ p ∈ [.tel, .cells, .frs], p ∈ ps) (fr : Framed ps s0 s) :
    Framed ps s0 (loadGroup c i p only s) := by
  refine fr.trans (Framed.mono sub ?_)
  clear sub fr
  unfold loadGroup
  repeat' first
    | with_reducible exact Framed.refl _ _
    | decide
    | with_reducible refine cellScrub_frame ?_ ?_
    | with_reducible refine modCell_frame ?_ ?_
    | with_reducible refine Framed.foldl _ (fun _ _ => ?_) _ _ _ ?_
    | with_reducible refine Framed.foldl_fst _ (fun _ _ => ?_) _ _ _ ?_
    | with_reducible refine Framed.ite (fun _ => ?_) (fun _ => ?_)
    | dsimp only [id]
    | split

theorem loadAll_frame {c : Nat} {p : Plan}  (sub : ∀ p ∈ [.tel, .cells, .frs], p ∈ ps) (fr : Framed ps s0 s) :
    Framed ps s0 (loadAll c p s) := by
  refine fr.trans (Framed.mono sub ?_)
  clear sub fr
  unfold loadAll
  repeat' first
    | with_reducible exact Framed.refl _ _
    | decide
    | with_reducible refine loadGroup_frame ?_ ?_
    | with_reducible refine Framed.foldl _ (fun _ _ => ?_) _ _ _ ?_
    | with_reducible refine Framed.foldl_fst _ (fun _ _ => ?_) _ _ _ ?_
    | dsimp only [id]

theorem settle_frame {c : Nat}  (sub : ∀ p ∈ [.out, .err, .tel, .ctxs], p ∈ ps) (fr : Framed ps s0 s) :
    Framed ps s0 (settle c s) := by
  refine fr.trans (Framed.mono sub ?_)
  clear sub fr
  unfold settle
  repeat' first
    | with_reducible exact Framed.refl _ _
    | decide
    | with_reducible refine applyHold_frame ?_ ?_
    | with_reducible refine modCtx_frame ?_ ?_
    | with_reducible refine Framed.ite (fun _ => ?_) (fun _ => ?_)
    | dsimp only [id]
    | split

theorem ownCommand_frame {op : Nat} {any : Bool} {x : OwnIn}  (sub : ∀ p ∈ [.out, .err, .tel, .csn, .own], p ∈ ps) (fr : Framed ps s0 s) :
    Framed ps s0 (ownCommand op any x s) := by
  refine fr.trans (Framed.mono sub ?_)
  clear sub fr
  unfold ownCommand
  repeat' first
    | with_reducible exact Framed.refl _ _
    | decide
    | with_reducible refine csnCtl_frame ?_ ?_
    | with_reducible refine csnTake_frame ?_ ?_
    | with_reducible refine ownRequest_frame ?_ ?_
    | with_reducible refine Framed.ite (fun _ => ?_) (fun _ => ?_)
    | dsimp only [id]
    | split

theorem pairIrq_frame {q : Nat}  (sub : ∀ p ∈ [.out, .slc], p ∈ ps) (fr : Framed ps s0 s) :
    Framed ps s0 (pairIrq q s) := by
  refine fr.trans (Framed.mono sub ?_)
  clear sub fr
  unfold pairIrq
  repeat' first
    | with_reducible exact Framed.refl _ _
    | decide
    | with_reducible refine emit_frame ?_ ?_
    | with_reducible refine modPair_frame ?_ ?_
    | dsimp only [id]

theorem placeRefuse_frame {c code detail : Nat}  (sub : ∀ p ∈ [.out, .err, .tel, .cells, .ctxs, .slc, .frs, .mem, .rsv, .edy, .wsh, .hst], p ∈ ps) (fr : Framed ps s0 s) :
    Framed ps s0 (placeRefuse c code detail s) := by
  refine fr.trans (Framed.mono sub ?_)
  clear sub fr
  unfold placeRefuse
  repeat' first
    | with_reducible exact Framed.refl _ _
    | decide
    | with_reducible refine admitRefuse_frame ?_ ?_
    | with_reducible refine recPut_frame ?_ ?_
    | dsimp only [id]
  all_goals try (with_reducible apply Framed.upd rfl <;> first | exact Or.inl (by decide) | with_reducible exact Or.inr rfl | with_reducible exact Or.inr ⟨rfl, rfl⟩ | with_reducible exact Or.inl ⟨by decide, fun h => h⟩ | with_reducible exact Or.inl ⟨by decide, Nat.le_refl _⟩ | exact Or.inl ⟨by decide, fun h => bwrite_wf _ _ _ h⟩ | exact Or.inl ⟨by decide, fun h => bzero_wf _ _ _ h⟩ | exact Or.inl ⟨by decide, fun _ => rfl⟩ | exact Or.inl ⟨by decide, Err.bounded_q rfl (fun h => by rw [lmod_length]; exact h)⟩ | exact Or.inl ⟨by decide, Err.bounded_q rfl (fun h => h)⟩ | exact Or.inl ⟨by decide, Err.bounded_q rfl (fun h => by rw [List.length_map]; exact h)⟩ | exact Or.inl ⟨by decide, Nat.le_succ _⟩ | exact Or.inl ⟨by decide, Err.bounded_put rfl (fun h => Err.bounded_unit h _) (fun h => h)⟩ | skip)
  repeat' first
    | with_reducible exact Framed.refl _ _
    | decide
    | with_reducible refine admitRefuse_frame ?_ ?_
    | with_reducible refine recPut_frame ?_ ?_
    | dsimp only [id]

theorem portReturn_frame  (sub : ∀ p ∈ [.out, .err, .tel, .regs, .fly, .cells, .chk, .slc, .mem, .rsv, .hst], p ∈ ps) (fr : Framed ps s0 s) :
    Framed ps s0 (portReturn s) := by
  refine fr.trans (Framed.mono sub ?_)
  clear sub fr
  unfold portReturn
  repeat' first
    | with_reducible exact Framed.refl _ _
    | decide
    | with_reducible refine modHst_frame ?_ ?_
    | with_reducible refine pairStop_frame ?_ ?_
    | with_reducible refine rsvFail_frame ?_ ?_
    | with_reducible refine Framed.foldl _ (fun _ _ => ?_) _ _ _ ?_
    | with_reducible refine Framed.foldl_fst _ (fun _ _ => ?_) _ _ _ ?_
    | with_reducible refine Framed.ite (fun _ => ?_) (fun _ => ?_)
    | dsimp only [id]
    | split
  all_goals try (with_reducible apply Framed.upd rfl <;> first | exact Or.inl (by decide) | with_reducible exact Or.inr rfl | with_reducible exact Or.inr ⟨rfl, rfl⟩ | with_reducible exact Or.inl ⟨by decide, fun h => h⟩ | with_reducible exact Or.inl ⟨by decide, Nat.le_refl _⟩ | exact Or.inl ⟨by decide, fun h => bwrite_wf _ _ _ h⟩ | exact Or.inl ⟨by decide, fun h => bzero_wf _ _ _ h⟩ | exact Or.inl ⟨by decide, fun _ => rfl⟩ | exact Or.inl ⟨by decide, Err.bounded_q rfl (fun h => by rw [lmod_length]; exact h)⟩ | exact Or.inl ⟨by decide, Err.bounded_q rfl (fun h => h)⟩ | exact Or.inl ⟨by decide, Err.bounded_q rfl (fun h => by rw [List.length_map]; exact h)⟩ | exact Or.inl ⟨by decide, Nat.le_succ _⟩ | exact Or.inl ⟨by decide, Err.bounded_put rfl (fun h => Err.bounded_unit h _) (fun h => h)⟩ | skip)
  repeat' first
    | with_reducible exact Framed.refl _ _
    | decide
    | with_reducible refine modHst_frame ?_ ?_
    | with_reducible refine pairStop_frame ?_ ?_
    | with_reducible refine rsvFail_frame ?_ ?_
    | with_reducible refine Framed.foldl _ (fun _ _ => ?_) _ _ _ ?_
    | with_reducible refine Framed.foldl_fst _ (fun _ _ => ?_) _ _ _ ?_
    | with_reducible refine Framed.ite (fun _ => ?_) (fun _ => ?_)
    | dsimp only [id]
    | split

theorem quitCells_frame {c : Nat}  (sub : ∀ p ∈ [.cells], p ∈ ps) (fr : Framed ps s0 s) :
    Framed ps s0 (quitCells c s) := by
  refine fr.trans (Framed.mono sub ?_)
  clear sub fr
  unfold quitCells
  repeat' first
    | with_reducible exact Framed.refl _ _
    | decide
    | with_reducible refine abandon_frame ?_ ?_
    | with_reducible refine modCell_frame ?_ ?_
    | with_reducible refine Framed.foldl _ (fun _ _ => ?_) _ _ _ ?_
    | with_reducible refine Framed.foldl_fst _ (fun _ _ => ?_) _ _ _ ?_
    | with_reducible refine Framed.ite (fun _ => ?_) (fun _ => ?_)
    | dsimp only [id]
    | split

theorem readyMark_frame  (sub : ∀ p ∈ [.ctxs], p ∈ ps) (fr : Framed ps s0 s) :
    Framed ps s0 (readyMark s) := by
  refine fr.trans (Framed.mono sub ?_)
  clear sub fr
  unfold readyMark
  repeat' first
    | with_reducible exact Framed.refl _ _
    | decide
    | with_reducible refine Framed.ite (fun _ => ?_) (fun _ => ?_)
    | dsimp only [id]
    | split
  all_goals try (with_reducible apply Framed.upd rfl <;> first | exact Or.inl (by decide) | with_reducible exact Or.inr rfl | with_reducible exact Or.inr ⟨rfl, rfl⟩ | with_reducible exact Or.inl ⟨by decide, fun h => h⟩ | with_reducible exact Or.inl ⟨by decide, Nat.le_refl _⟩ | exact Or.inl ⟨by decide, fun h => bwrite_wf _ _ _ h⟩ | exact Or.inl ⟨by decide, fun h => bzero_wf _ _ _ h⟩ | exact Or.inl ⟨by decide, fun _ => rfl⟩ | exact Or.inl ⟨by decide, Err.bounded_q rfl (fun h => by rw [lmod_length]; exact h)⟩ | exact Or.inl ⟨by decide, Err.bounded_q rfl (fun h => h)⟩ | exact Or.inl ⟨by decide, Err.bounded_q rfl (fun h => by rw [List.length_map]; exact h)⟩ | exact Or.inl ⟨by decide, Nat.le_succ _⟩ | exact Or.inl ⟨by decide, Err.bounded_put rfl (fun h => Err.bounded_unit h _) (fun h => h)⟩ | skip)
  repeat' first
    | with_reducible exact Framed.refl _ _
    | decide
    | with_reducible refine Framed.ite (fun _ => ?_) (fun _ => ?_)
    | dsimp only [id]
    | split

theorem recAsk_frame {c : Nat} {l : List (Nat × Nat)}  (sub : ∀ p ∈ [.cells, .rsv], p ∈ ps) (fr : Framed ps s0 s) :
    Framed ps s0 (recAsk c l s) := by
  refine fr.trans (Framed.mono sub ?_)
  clear sub fr
  unfold recAsk
  repeat' first
    | with_reducible exact Framed.refl _ _
    | decide
    | with_reducible refine slowAsk_frame ?_ ?_
    | dsimp only [id]
    | split

theorem recTake_frame {c : Nat} {l : List (Nat × Nat)}  (sub : ∀ p ∈ [.cells, .rsv], p ∈ ps) (fr : Framed ps s0 s) :
    Framed ps s0 (recTake c l s) := by
  refine fr.trans (Framed.mono sub ?_)
  clear sub fr
  unfold recTake
  repeat' first
    | with_reducible exact Framed.refl _ _
    | decide
    | with_reducible refine slowTake_frame ?_ ?_
    | with_reducible refine Framed.foldl _ (fun _ _ => ?_) _ _ _ ?_
    | with_reducible refine Framed.foldl_fst _ (fun _ _ => ?_) _ _ _ ?_
    | dsimp only [id]

theorem refuseStep_frame {c : Nat} {t : Step} {detail : Nat}  (sub : ∀ p ∈ [.tel, .ctxs, .slc], p ∈ ps) (fr : Framed ps s0 s) :
    Framed ps s0 (refuseStep c t detail s) := by
  refine fr.trans (Framed.mono sub ?_)
  clear sub fr
  unfold refuseStep
  repeat' first
    | with_reducible exact Framed.refl _ _
    | decide
    | with_reducible refine countCtx_frame ?_ ?_
    | with_reducible refine dropStep_frame ?_ ?_
    | with_reducible refine modCtx_frame ?_ ?_
    | with_reducible refine postStep_frame ?_ ?_
    | with_reducible refine Framed.ite (fun _ => ?_) (fun _ => ?_)
    | dsimp only [id]
    | split

theorem rollback_frame {c : Nat} {hold : Bool}  (sub : ∀ p ∈ [.out, .tel, .cells, .ctxs, .frs, .mem, .est, .edy, .hst], p ∈ ps) (fr : Framed ps s0 s) :
    Framed ps s0 (rollback c hold s) := by
  refine fr.trans (Framed.mono sub ?_)
  clear sub fr
  unfold rollback
  repeat' first
    | with_reducible exact Framed.refl _ _
    | decide
    | with_reducible refine cellLeave_frame ?_ ?_
    | with_reducible refine countCtx_frame ?_ ?_
    | with_reducible refine frsDropCtx_frame ?_ ?_
    | with_reducible refine loadAll_frame ?_ ?_
    | with_reducible refine modCtx_frame ?_ ?_
    | with_reducible refine quitCells_frame ?_ ?_
    | with_reducible refine windowsEnd_frame ?_ ?_
    | with_reducible refine Framed.foldl _ (fun _ _ => ?_) _ _ _ ?_
    | with_reducible refine Framed.foldl_fst _ (fun _ _ => ?_) _ _ _ ?_
    | with_reducible refine Framed.ite (fun _ => ?_) (fun _ => ?_)
    | dsimp only [id]
    | split
  all_goals try (with_reducible apply Framed.upd rfl <;> first | exact Or.inl (by decide) | with_reducible exact Or.inr rfl | with_reducible exact Or.inr ⟨rfl, rfl⟩ | with_reducible exact Or.inl ⟨by decide, fun h => h⟩ | with_reducible exact Or.inl ⟨by decide, Nat.le_refl _⟩ | exact Or.inl ⟨by decide, fun h => bwrite_wf _ _ _ h⟩ | exact Or.inl ⟨by decide, fun h => bzero_wf _ _ _ h⟩ | exact Or.inl ⟨by decide, fun _ => rfl⟩ | exact Or.inl ⟨by decide, Err.bounded_q rfl (fun h => by rw [lmod_length]; exact h)⟩ | exact Or.inl ⟨by decide, Err.bounded_q rfl (fun h => h)⟩ | exact Or.inl ⟨by decide, Err.bounded_q rfl (fun h => by rw [List.length_map]; exact h)⟩ | exact Or.inl ⟨by decide, Nat.le_succ _⟩ | exact Or.inl ⟨by decide, Err.bounded_put rfl (fun h => Err.bounded_unit h _) (fun h => h)⟩ | skip)
  repeat' first
    | with_reducible exact Framed.refl _ _
    | decide
    | with_reducible refine cellLeave_frame ?_ ?_
    | with_reducible refine countCtx_frame ?_ ?_
    | with_reducible refine frsDropCtx_frame ?_ ?_
    | with_reducible refine loadAll_frame ?_ ?_
    | with_reducible refine modCtx_frame ?_ ?_
    | with_reducible refine quitCells_frame ?_ ?_
    | with_reducible refine windowsEnd_frame ?_ ?_
    | with_reducible refine Framed.foldl _ (fun _ _ => ?_) _ _ _ ?_
    | with_reducible refine Framed.foldl_fst _ (fun _ _ => ?_) _ _ _ ?_
    | with_reducible refine Framed.ite (fun _ => ?_) (fun _ => ?_)
    | dsimp only [id]
    | split
  all_goals try (with_reducible apply Framed.upd rfl <;> first | exact Or.inl (by decide) | with_reducible exact Or.inr rfl | with_reducible exact Or.inr ⟨rfl, rfl⟩ | with_reducible exact Or.inl ⟨by decide, fun h => h⟩ | with_reducible exact Or.inl ⟨by decide, Nat.le_refl _⟩ | exact Or.inl ⟨by decide, fun h => bwrite_wf _ _ _ h⟩ | exact Or.inl ⟨by decide, fun h => bzero_wf _ _ _ h⟩ | exact Or.inl ⟨by decide, fun _ => rfl⟩ | exact Or.inl ⟨by decide, Err.bounded_q rfl (fun h => by rw [lmod_length]; exact h)⟩ | exact Or.inl ⟨by decide, Err.bounded_q rfl (fun h => h)⟩ | exact Or.inl ⟨by decide, Err.bounded_q rfl (fun h => by rw [List.length_map]; exact h)⟩ | exact Or.inl ⟨by decide, Nat.le_succ _⟩ | exact Or.inl ⟨by decide, Err.bounded_put rfl (fun h => Err.bounded_unit h _) (fun h => h)⟩ | skip)
  repeat' first
    | with_reducible exact Framed.refl _ _
    | decide
    | with_reducible refine cellLeave_frame ?_ ?_
    | with_reducible refine countCtx_frame ?_ ?_
    | with_reducible refine frsDropCtx_frame ?_ ?_
    | with_reducible refine loadAll_frame ?_ ?_
    | with_reducible refine modCtx_frame ?_ ?_
    | with_reducible refine quitCells_frame ?_ ?_
    | with_reducible refine windowsEnd_frame ?_ ?_
    | with_reducible refine Framed.foldl _ (fun _ _ => ?_) _ _ _ ?_
    | with_reducible refine Framed.foldl_fst _ (fun _ _ => ?_) _ _ _ ?_
    | with_reducible refine Framed.ite (fun _ => ?_) (fun _ => ?_)
    | dsimp only [id]
    | split
  all_goals try (with_reducible apply Framed.upd rfl <;> first | exact Or.inl (by decide) | with_reducible exact Or.inr rfl | with_reducible exact Or.inr ⟨rfl, rfl⟩ | with_reducible exact Or.inl ⟨by decide, fun h => h⟩ | with_reducible exact Or.inl ⟨by decide, Nat.le_refl _⟩ | exact Or.inl ⟨by decide, fun h => bwrite_wf _ _ _ h⟩ | exact Or.inl ⟨by decide, fun h => bzero_wf _ _ _ h⟩ | exact Or.inl ⟨by decide, fun _ => rfl⟩ | exact Or.inl ⟨by decide, Err.bounded_q rfl (fun h => by rw [lmod_length]; exact h)⟩ | exact Or.inl ⟨by decide, Err.bounded_q rfl (fun h => h)⟩ | exact Or.inl ⟨by decide, Err.bounded_q rfl (fun h => by rw [List.length_map]; exact h)⟩ | exact Or.inl ⟨by decide, Nat.le_succ _⟩ | exact Or.inl ⟨by decide, Err.bounded_put rfl (fun h => Err.bounded_unit h _) (fun h => h)⟩ | skip)
  repeat' first
    | with_reducible exact Framed.refl _ _
    | decide
    | with_reducible refine cellLeave_frame ?_ ?_
    | with_reducible refine countCtx_frame ?_ ?_
    | with_reducible refine frsDropCtx_frame ?_ ?_
    | with_reducible refine loadAll_frame ?_ ?_
    | with_reducible refine modCtx_frame ?_ ?_
    | with_reducible refine quitCells_frame ?_ ?_
    | with_reducible refine windowsEnd_frame ?_ ?_
    | with_reducible refine Framed.foldl _ (fun _ _ => ?_) _ _ _ ?_
    | with_reducible refine Framed.foldl_fst _ (fun _ _ => ?_) _ _ _ ?_
    | with_reducible refine Framed.ite (fun _ => ?_) (fun _ => ?_)
    | dsimp only [id]
    | split

theorem setStrm_frame {c : Nat} {u : Bytes} {fresh resync : Bool}  (sub : ∀ p ∈ [.cells, .chk, .edy], p ∈ ps) (fr : Framed ps s0 s) :
    Framed ps s0 (setStrm c u fresh resync s) := by
  refine fr.trans (Framed.mono sub ?_)
  clear sub fr
  unfold setStrm
  repeat' first
    | with_reducible exact Framed.refl _ _
    | decide
    | with_reducible refine done_frame ?_ ?_
    | with_reducible refine modStrm_frame ?_ ?_
    | with_reducible refine unitBind_frame ?_ ?_
    | with_reducible refine unitFree_frame ?_ ?_
    | with_reducible refine Framed.ite (fun _ => ?_) (fun _ => ?_)
    | dsimp only [id]
    | split
  all_goals try (with_reducible apply Framed.upd rfl <;> first | exact Or.inl (by decide) | with_reducible exact Or.inr rfl | with_reducible exact Or.inr ⟨rfl, rfl⟩ | with_reducible exact Or.inl ⟨by decide, fun h => h⟩ | with_reducible exact Or.inl ⟨by decide, Nat.le_refl _⟩ | exact Or.inl ⟨by decide, fun h => bwrite_wf _ _ _ h⟩ | exact Or.inl ⟨by decide, fun h => bzero_wf _ _ _ h⟩ | exact Or.inl ⟨by decide, fun _ => rfl⟩ | exact Or.inl ⟨by decide, Err.bounded_q rfl (fun h => by rw [lmod_length]; exact h)⟩ | exact Or.inl ⟨by decide, Err.bounded_q rfl (fun h => h)⟩ | exact Or.inl ⟨by decide, Err.bounded_q rfl (fun h => by rw [List.length_map]; exact h)⟩ | exact Or.inl ⟨by decide, Nat.le_succ _⟩ | exact Or.inl ⟨by decide, Err.bounded_put rfl (fun h => Err.bounded_unit h _) (fun h => h)⟩ | skip)
  repeat' first
    | with_reducible exact Framed.refl _ _
    | decide
    | with_reducible refine done_frame ?_ ?_
    | with_reducible refine modStrm_frame ?_ ?_
    | with_reducible refine unitBind_frame ?_ ?_
    | with_reducible refine unitFree_frame ?_ ?_
    | with_reducible refine Framed.ite (fun _ => ?_) (fun _ => ?_)
    | dsimp only [id]
    | split
  all_goals try (with_reducible apply Framed.upd rfl <;> first | exact Or.inl (by decide) | with_reducible exact Or.inr rfl | with_reducible exact Or.inr ⟨rfl, rfl⟩ | with_reducible exact Or.inl ⟨by decide, fun h => h⟩ | with_reducible exact Or.inl ⟨by decide, Nat.le_refl _⟩ | exact Or.inl ⟨by decide, fun h => bwrite_wf _ _ _ h⟩ | exact Or.inl ⟨by decide, fun h => bzero_wf _ _ _ h⟩ | exact Or.inl ⟨by decide, fun _ => rfl⟩ | exact Or.inl ⟨by decide, Err.bounded_q rfl (fun h => by rw [lmod_length]; exact h)⟩ | exact Or.inl ⟨by decide, Err.bounded_q rfl (fun h => h)⟩ | exact Or.inl ⟨by decide, Err.bounded_q rfl (fun h => by rw [List.length_map]; exact h)⟩ | exact Or.inl ⟨by decide, Nat.le_succ _⟩ | exact Or.inl ⟨by decide, Err.bounded_put rfl (fun h => Err.bounded_unit h _) (fun h => h)⟩ | skip)
  repeat' first
    | with_reducible exact Framed.refl _ _
    | decide
    | with_reducible refine done_frame ?_ ?_
    | with_reducible refine modStrm_frame ?_ ?_
    | with_reducible refine unitBind_frame ?_ ?_
    | with_reducible refine unitFree_frame ?_ ?_
    | with_reducible refine Framed.ite (fun _ => ?_) (fun _ => ?_)
    | dsimp only [id]
    | split

theorem startStep_frame {c : Nat}  (sub : ∀ p ∈ [.tel, .cells, .chk, .ctxs, .slc, .rsv, .edy], p ∈ ps) (fr : Framed ps s0 s) :
    Framed ps s0 (startStep c s) := by
  refine fr.trans (Framed.mono sub ?_)
  clear sub fr
  unfold startStep
  repeat' first
    | with_reducible exact Framed.refl _ _
    | decide
    | with_reducible refine modCtx_frame ?_ ?_
    | with_reducible refine modStrm_frame ?_ ?_
    | with_reducible refine refuseStep_frame ?_ ?_
    | with_reducible refine setStrm_frame ?_ ?_
    | with_reducible refine slowAsk_frame ?_ ?_
    | with_reducible refine slowTake_frame ?_ ?_
    | with_reducible refine Framed.ite (fun _ => ?_) (fun _ => ?_)
    | dsimp only [id]
    | split

end Sys2Proof.Machine
end

