-- ==== Sys2Proof/Laws/FrameSys.lean ====
section
/-! SUPPORT. What the shared operations leave as it was: Levee, Headwater, bring-up, self-test, registers. Each lemma carries a frame over one operation. -/
namespace Sys2Proof.Machine

variable {ps : List Part} {s0 s : State}

theorem holeHit_frame {new : Nat → Bool}  (sub : ∀ p ∈ [.ctxs], p ∈ ps) (fr : Framed ps s0 s) :
    Framed ps s0 (holeHit new s) := by
  refine fr.trans (Framed.mono sub ?_)
  clear sub fr
  unfold holeHit
  repeat' first
    | with_reducible exact Framed.refl _ _
    | decide
    | with_reducible refine modCtx_frame ?_ ?_
    | with_reducible refine rollNoHold_frame ?_ ?_
    | with_reducible refine Framed.foldl _ (fun _ _ => ?_) _ _ _ ?_
    | with_reducible refine Framed.foldl_fst _ (fun _ _ => ?_) _ _ _ ?_
    | with_reducible refine Framed.ite (fun _ => ?_) (fun _ => ?_)
    | dsimp only [id]
    | split

theorem modBst_frame {f : Bst → Bst}  (sub : ∀ p ∈ [.bst], p ∈ ps) (fr : Framed ps s0 s) :
    Framed ps s0 (modBst f s) := by
  refine fr.trans ⟨fun p hp => ?_, Keeps.same rfl rfl rfl⟩
  cases p <;> first | rfl | exact ⟨rfl, rfl⟩ | exact absurd (sub _ (by decide)) hp

theorem addDie_frame {cause sev : Nat} {lev : Bool} {site : Nat}  (sub : ∀ p ∈ [.out, .err, .tel, .net, .ctxs, .bst], p ∈ ps) (fr : Framed ps s0 s) :
    Framed ps s0 (addDie cause sev lev site s) := by
  refine fr.trans (Framed.mono sub ?_)
  clear sub fr
  unfold addDie
  repeat' first
    | with_reducible exact Framed.refl _ _
    | decide
    | with_reducible refine countN_frame ?_ ?_
    | with_reducible refine holeHit_frame ?_ ?_
    | with_reducible refine modBst_frame ?_ ?_
    | with_reducible refine modNet_frame ?_ ?_
    | with_reducible refine raise_frame ?_ ?_
    | with_reducible refine Framed.ite (fun _ => ?_) (fun _ => ?_)
    | dsimp only [id]
    | split

theorem gangsBreak_frame {new : Nat → Bool}  (sub : ∀ p ∈ [.out, .err, .tel, .cells, .ctxs, .slc], p ∈ ps) (fr : Framed ps s0 s) :
    Framed ps s0 (gangsBreak new s) := by
  refine fr.trans (Framed.mono sub ?_)
  clear sub fr
  unfold gangsBreak
  repeat' first
    | with_reducible exact Framed.refl _ _
    | decide
    | with_reducible refine gangBreak_frame ?_ ?_
    | with_reducible refine Framed.foldl _ (fun _ _ => ?_) _ _ _ ?_
    | with_reducible refine Framed.foldl_fst _ (fun _ _ => ?_) _ _ _ ?_
    | dsimp only [id]

theorem addHoles_frame {cause sev : Nat} {phys : List Nat}  (sub : ∀ p ∈ [.out, .err, .tel, .net, .cells, .ctxs, .slc, .bst], p ∈ ps) (fr : Framed ps s0 s) :
    Framed ps s0 (addHoles cause sev phys s) := by
  refine fr.trans (Framed.mono sub ?_)
  clear sub fr
  unfold addHoles
  repeat' first
    | with_reducible exact Framed.refl _ _
    | decide
    | with_reducible refine countN_frame ?_ ?_
    | with_reducible refine gangsBreak_frame ?_ ?_
    | with_reducible refine holeHit_frame ?_ ?_
    | with_reducible refine modBst_frame ?_ ?_
    | with_reducible refine modNet_frame ?_ ?_
    | with_reducible refine raise_frame ?_ ?_
    | dsimp only [id]
    | split

theorem modHdw_frame {f : Hdw → Hdw}  (sub : ∀ p ∈ [.hdw], p ∈ ps) (fr : Framed ps s0 s) :
    Framed ps s0 (modHdw f s) := by
  refine fr.trans ⟨fun p hp => ?_, Keeps.same rfl rfl rfl⟩
  cases p <;> first | rfl | exact ⟨rfl, rfl⟩ | exact absurd (sub _ (by decide)) hp

theorem attAnswer_frame {b : Bytes}  (sub : ∀ p ∈ [.out, .hst, .hdw], p ∈ ps) (fr : Framed ps s0 s) :
    Framed ps s0 (attAnswer b s) := by
  refine fr.trans (Framed.mono sub ?_)
  clear sub fr
  unfold attAnswer
  repeat' first
    | with_reducible exact Framed.refl _ _
    | decide
    | with_reducible refine emit_frame ?_ ?_
    | with_reducible refine modHdw_frame ?_ ?_
    | with_reducible refine modHst_frame ?_ ?_
    | dsimp only [id]

theorem attest_frame {op : Nat} {any : Bool} {f : Bytes → State → State} (sub : ∀ p ∈ [.out, .hst, .hdw], p ∈ ps) (hf : ∀ b t, Framed ps t (f b t)) (fr : Framed ps s0 s) : Framed ps s0 (attest op any f s) := by
  unfold attest
  repeat' first
    | with_reducible exact Framed.refl _ _
    | decide
    | with_reducible refine attAnswer_frame ?_ ?_
    | with_reducible refine Framed.trans ?_ (hf _ _)
    | exact fr
    | (intro p hp; exact sub p (by revert p; decide))
    | with_reducible refine Framed.ite (fun _ => ?_) (fun _ => ?_)
    | dsimp only [id]
    | split

theorem modLev_frame {f : Lev → Lev}  (sub : ∀ p ∈ [.lev], p ∈ ps) (fr : Framed ps s0 s) :
    Framed ps s0 (modLev f s) := by
  refine fr.trans ⟨fun p hp => ?_, Keeps.same rfl rfl rfl⟩
  cases p <;> first | rfl | exact ⟨rfl, rfl⟩ | exact absurd (sub _ (by decide)) hp

theorem refuseWrite_frame {m : Master} {off val detail : Nat}  (sub : ∀ p ∈ [.out, .err, .tel], p ∈ ps) (fr : Framed ps s0 s) :
    Framed ps s0 (refuseWrite m off val detail s) := by
  refine fr.trans (Framed.mono sub ?_)
  clear sub fr
  unfold refuseWrite
  repeat' first
    | with_reducible exact Framed.refl _ _
    | decide
    | with_reducible refine count_frame ?_ ?_
    | with_reducible refine raise_frame ?_ ?_
    | dsimp only [id]

theorem reqRefused_frame {off val : Nat} {m : Master}  (sub : ∀ p ∈ [.out, .err, .tel], p ∈ ps) (fr : Framed ps s0 s) :
    Framed ps s0 (reqRefused off val m s) := by
  refine fr.trans (Framed.mono sub ?_)
  clear sub fr
  unfold reqRefused
  repeat' first
    | with_reducible exact Framed.refl _ _
    | decide
    | with_reducible refine refuseWrite_frame ?_ ?_
    | dsimp only [id]

theorem recoverStart_frame {m : Option Master} {r ldie : Nat}  (sub : ∀ p ∈ [.out, .err, .tel, .bst, .lev], p ∈ ps) (fr : Framed ps s0 s) :
    Framed ps s0 (recoverStart m r ldie s) := by
  refine fr.trans (Framed.mono sub ?_)
  clear sub fr
  unfold recoverStart
  repeat' first
    | with_reducible exact Framed.refl _ _
    | decide
    | with_reducible refine modBst_frame ?_ ?_
    | with_reducible refine modLev_frame ?_ ?_
    | with_reducible refine reqRefused_frame ?_ ?_
    | with_reducible refine Framed.ite (fun _ => ?_) (fun _ => ?_)
    | dsimp only [id]
    | split

theorem autoRecover_frame {site : Nat}  (sub : ∀ p ∈ [.out, .err, .tel, .bst, .lev], p ∈ ps) (fr : Framed ps s0 s) :
    Framed ps s0 (autoRecover site s) := by
  refine fr.trans (Framed.mono sub ?_)
  clear sub fr
  unfold autoRecover
  repeat' first
    | with_reducible exact Framed.refl _ _
    | decide
    | with_reducible refine recoverStart_frame ?_ ?_
    | with_reducible refine Framed.ite (fun _ => ?_) (fun _ => ?_)
    | dsimp only [id]
    | split

theorem bootCommit_frame  (sub : ∀ p ∈ [.bst], p ∈ ps) (fr : Framed ps s0 s) :
    Framed ps s0 (bootCommit s) := by
  refine fr.trans (Framed.mono sub ?_)
  clear sub fr
  unfold bootCommit
  repeat' first
    | with_reducible exact Framed.refl _ _
    | decide
    | with_reducible refine modBst_frame ?_ ?_
    | dsimp only [id]

theorem measure_frame {i : Nat} {d : Bytes}  (sub : ∀ p ∈ [.hdw], p ∈ ps) (fr : Framed ps s0 s) :
    Framed ps s0 (measure i d s) := by
  refine fr.trans (Framed.mono sub ?_)
  clear sub fr
  unfold measure
  repeat' first
    | with_reducible exact Framed.refl _ _
    | decide
    | with_reducible refine modHdw_frame ?_ ?_
    | dsimp only [id]

theorem bootConfig_frame  (sub : ∀ p ∈ [.regs, .tide, .hdw], p ∈ ps) (fr : Framed ps s0 s) :
    Framed ps s0 (bootConfig s) := by
  refine fr.trans (Framed.mono sub ?_)
  clear sub fr
  unfold bootConfig
  repeat' first
    | with_reducible exact Framed.refl _ _
    | decide
    | with_reducible refine measure_frame ?_ ?_
    | with_reducible refine regSet_frame ?_ ?_
    | with_reducible refine Framed.ite (fun _ => ?_) (fun _ => ?_)
    | dsimp only [id]
    | split
  all_goals try (with_reducible apply Framed.upd rfl <;> first | exact Or.inl (by decide) | with_reducible exact Or.inr rfl | with_reducible exact Or.inr ⟨rfl, rfl⟩ | with_reducible exact Or.inl ⟨by decide, fun h => h⟩ | with_reducible exact Or.inl ⟨by decide, Nat.le_refl _⟩ | exact Or.inl ⟨by decide, fun h => bwrite_wf _ _ _ h⟩ | exact Or.inl ⟨by decide, fun h => bzero_wf _ _ _ h⟩ | exact Or.inl ⟨by decide, fun _ => rfl⟩ | exact Or.inl ⟨by decide, Err.bounded_q rfl (fun h => by rw [lmod_length]; exact h)⟩ | exact Or.inl ⟨by decide, Err.bounded_q rfl (fun h => h)⟩ | exact Or.inl ⟨by decide, Err.bounded_q rfl (fun h => by rw [List.length_map]; exact h)⟩ | exact Or.inl ⟨by decide, Nat.le_succ _⟩ | exact Or.inl ⟨by decide, Err.bounded_put rfl (fun h => Err.bounded_unit h _) (fun h => h)⟩ | skip)
  repeat' first
    | with_reducible exact Framed.refl _ _
    | decide
    | with_reducible refine measure_frame ?_ ?_
    | with_reducible refine regSet_frame ?_ ?_
    | with_reducible refine Framed.ite (fun _ => ?_) (fun _ => ?_)
    | dsimp only [id]
    | split

theorem burnSvn_frame {d svn : Nat}  (sub : ∀ p ∈ [.hdw], p ∈ ps) (fr : Framed ps s0 s) :
    Framed ps s0 (burnSvn d svn s) := by
  refine fr.trans (Framed.mono sub ?_)
  clear sub fr
  unfold burnSvn
  repeat' first
    | with_reducible exact Framed.refl _ _
    | decide
    | with_reducible refine modHdw_frame ?_ ?_
    | dsimp only [id]

theorem bootLicence_frame  (sub : ∀ p ∈ [.out, .full, .err, .tel, .hdw], p ∈ ps) (fr : Framed ps s0 s) :
    Framed ps s0 (bootLicence s) := by
  refine fr.trans (Framed.mono sub ?_)
  clear sub fr
  unfold bootLicence
  repeat' first
    | with_reducible exact Framed.refl _ _
    | decide
    | with_reducible refine burnSvn_frame ?_ ?_
    | with_reducible refine measure_frame ?_ ?_
    | with_reducible refine modHdw_frame ?_ ?_
    | with_reducible refine raise_frame ?_ ?_
    | with_reducible refine Framed.ite (fun _ => ?_) (fun _ => ?_)
    | dsimp only [id]
    | split
  all_goals try (with_reducible apply Framed.upd rfl <;> first | exact Or.inl (by decide) | with_reducible exact Or.inr rfl | with_reducible exact Or.inr ⟨rfl, rfl⟩ | with_reducible exact Or.inl ⟨by decide, fun h => h⟩ | with_reducible exact Or.inl ⟨by decide, Nat.le_refl _⟩ | exact Or.inl ⟨by decide, fun h => bwrite_wf _ _ _ h⟩ | exact Or.inl ⟨by decide, fun h => bzero_wf _ _ _ h⟩ | exact Or.inl ⟨by decide, fun _ => rfl⟩ | exact Or.inl ⟨by decide, Err.bounded_q rfl (fun h => by rw [lmod_length]; exact h)⟩ | exact Or.inl ⟨by decide, Err.bounded_q rfl (fun h => h)⟩ | exact Or.inl ⟨by decide, Err.bounded_q rfl (fun h => by rw [List.length_map]; exact h)⟩ | exact Or.inl ⟨by decide, Nat.le_succ _⟩ | exact Or.inl ⟨by decide, Err.bounded_put rfl (fun h => Err.bounded_unit h _) (fun h => h)⟩ | skip)
  repeat' first
    | with_reducible exact Framed.refl _ _
    | decide
    | with_reducible refine burnSvn_frame ?_ ?_
    | with_reducible refine measure_frame ?_ ?_
    | with_reducible refine modHdw_frame ?_ ?_
    | with_reducible refine raise_frame ?_ ?_
    | with_reducible refine Framed.ite (fun _ => ?_) (fun _ => ?_)
    | dsimp only [id]
    | split

theorem bootDone_frame  (sub : ∀ p ∈ [.out, .full, .err, .tel, .regs, .tide, .hdw], p ∈ ps) (fr : Framed ps s0 s) :
    Framed ps s0 (bootDone s) := by
  refine fr.trans (Framed.mono sub ?_)
  clear sub fr
  unfold bootDone
  repeat' first
    | with_reducible exact Framed.refl _ _
    | decide
    | with_reducible refine bootConfig_frame ?_ ?_
    | with_reducible refine bootLicence_frame ?_ ?_
    | with_reducible refine Framed.ite (fun _ => ?_) (fun _ => ?_)
    | dsimp only [id]
    | split

theorem moduleFailed_frame {cause : Nat}  (sub : ∀ p ∈ [.out, .err, .tel, .bst], p ∈ ps) (fr : Framed ps s0 s) :
    Framed ps s0 (moduleFailed cause s) := by
  refine fr.trans (Framed.mono sub ?_)
  clear sub fr
  unfold moduleFailed
  repeat' first
    | with_reducible exact Framed.refl _ _
    | decide
    | with_reducible refine modBst_frame ?_ ?_
    | with_reducible refine raise_frame ?_ ?_
    | dsimp only [id]

theorem readyDeclare_frame  (sub : ∀ p ∈ [.out, .err, .tel, .regs, .frs, .mem, .hst, .bst, .hdw], p ∈ ps) (fr : Framed ps s0 s) :
    Framed ps s0 (readyDeclare s) := by
  refine fr.trans (Framed.mono sub ?_)
  clear sub fr
  unfold readyDeclare
  repeat' first
    | with_reducible exact Framed.refl _ _
    | decide
    | with_reducible refine exportRewrite_frame ?_ ?_
    | with_reducible refine measure_frame ?_ ?_
    | with_reducible refine modBst_frame ?_ ?_
    | with_reducible refine modHst_frame ?_ ?_
    | with_reducible refine raise_frame ?_ ?_
    | with_reducible refine Framed.ite (fun _ => ?_) (fun _ => ?_)
    | dsimp only [id]
    | split

theorem bringUpJudge_frame  (sub : ∀ p ∈ [.out, .err, .tel, .regs, .frs, .mem, .hst, .bst, .hdw], p ∈ ps) (fr : Framed ps s0 s) :
    Framed ps s0 (bringUpJudge s) := by
  refine fr.trans (Framed.mono sub ?_)
  clear sub fr
  unfold bringUpJudge
  repeat' first
    | with_reducible exact Framed.refl _ _
    | decide
    | with_reducible refine moduleFailed_frame ?_ ?_
    | with_reducible refine readyDeclare_frame ?_ ?_
    | with_reducible refine Framed.ite (fun _ => ?_) (fun _ => ?_)
    | dsimp only [id]
    | split

theorem bringUpRecord_frame {unit cls loc0 loc1 : Nat}  (sub : ∀ p ∈ [.out, .err, .tel], p ∈ ps) (fr : Framed ps s0 s) :
    Framed ps s0 (bringUpRecord unit cls loc0 loc1 s) := by
  refine fr.trans (Framed.mono sub ?_)
  clear sub fr
  unfold bringUpRecord
  repeat' first
    | with_reducible exact Framed.refl _ _
    | decide
    | with_reducible refine raise_frame ?_ ?_
    | dsimp only [id]

theorem lowRecord_frame  (sub : ∀ p ∈ [.out, .err, .tel], p ∈ ps) (fr : Framed ps s0 s) :
    Framed ps s0 (lowRecord s) := by
  refine fr.trans (Framed.mono sub ?_)
  clear sub fr
  unfold lowRecord
  repeat' first
    | with_reducible exact Framed.refl _ _
    | decide
    | with_reducible refine raise_frame ?_ ?_
    | with_reducible refine Framed.ite (fun _ => ?_) (fun _ => ?_)
    | dsimp only [id]
    | split

theorem keyStart_frame  (sub : ∀ p ∈ [.out, .free, .err, .tel, .csn, .hdw], p ∈ ps) (fr : Framed ps s0 s) :
    Framed ps s0 (keyStart s) := by
  refine fr.trans (Framed.mono sub ?_)
  clear sub fr
  unfold keyStart
  repeat' first
    | with_reducible exact Framed.refl _ _
    | decide
    | with_reducible refine lowRecord_frame ?_ ?_
    | with_reducible refine modHdw_frame ?_ ?_
    | dsimp only [id]
  all_goals try (with_reducible apply Framed.upd rfl <;> first | exact Or.inl (by decide) | with_reducible exact Or.inr rfl | with_reducible exact Or.inr ⟨rfl, rfl⟩ | with_reducible exact Or.inl ⟨by decide, fun h => h⟩ | with_reducible exact Or.inl ⟨by decide, Nat.le_refl _⟩ | exact Or.inl ⟨by decide, fun h => bwrite_wf _ _ _ h⟩ | exact Or.inl ⟨by decide, fun h => bzero_wf _ _ _ h⟩ | exact Or.inl ⟨by decide, fun _ => rfl⟩ | exact Or.inl ⟨by decide, Err.bounded_q rfl (fun h => by rw [lmod_length]; exact h)⟩ | exact Or.inl ⟨by decide, Err.bounded_q rfl (fun h => h)⟩ | exact Or.inl ⟨by decide, Err.bounded_q rfl (fun h => by rw [List.length_map]; exact h)⟩ | exact Or.inl ⟨by decide, Nat.le_succ _⟩ | exact Or.inl ⟨by decide, Err.bounded_put rfl (fun h => Err.bounded_unit h _) (fun h => h)⟩ | skip)
  repeat' first
    | with_reducible exact Framed.refl _ _
    | decide
    | with_reducible refine lowRecord_frame ?_ ?_
    | with_reducible refine modHdw_frame ?_ ?_
    | dsimp only [id]

theorem powerOff_frame  (sub : ∀ p ∈ [.err, .tel, .regs, .net, .tide, .fly, .cells, .chk, .ctxs, .slc, .frs, .mem, .rsv, .csn, .est, .edy, .wsh, .hst, .own, .bst, .hdw, .lev], p ∈ ps) (fr : Framed ps s0 s) :
    Framed ps s0 (powerOff s) := by
  refine fr.trans (Framed.mono sub ?_)
  clear sub fr
  refine ⟨fun p hp => ?_, ⟨Nat.le_refl _, fun _ => rfl, fun _ => Err.bounded_empty⟩⟩
  cases p <;> first | rfl | exact absurd (by decide) hp

theorem bringUpStart_frame {pins : Nat}  (sub : ∀ p ∈ [.out, .free, .err, .tel, .regs, .net, .tide, .fly, .cells, .chk, .ctxs, .slc, .frs, .mem, .rsv, .csn, .est, .edy, .wsh, .hst, .own, .bst, .hdw, .lev], p ∈ ps) (fr : Framed ps s0 s) :
    Framed ps s0 (bringUpStart pins s) := by
  refine fr.trans (Framed.mono sub ?_)
  clear sub fr
  unfold bringUpStart
  repeat' first
    | with_reducible exact Framed.refl _ _
    | decide
    | with_reducible refine keyStart_frame ?_ ?_
    | with_reducible refine powerOff_frame ?_ ?_
    | dsimp only [id]
  all_goals try (with_reducible apply Framed.upd rfl <;> first | exact Or.inl (by decide) | with_reducible exact Or.inr rfl | with_reducible exact Or.inr ⟨rfl, rfl⟩ | with_reducible exact Or.inl ⟨by decide, fun h => h⟩ | with_reducible exact Or.inl ⟨by decide, Nat.le_refl _⟩ | exact Or.inl ⟨by decide, fun h => bwrite_wf _ _ _ h⟩ | exact Or.inl ⟨by decide, fun h => bzero_wf _ _ _ h⟩ | exact Or.inl ⟨by decide, fun _ => rfl⟩ | exact Or.inl ⟨by decide, Err.bounded_q rfl (fun h => by rw [lmod_length]; exact h)⟩ | exact Or.inl ⟨by decide, Err.bounded_q rfl (fun h => h)⟩ | exact Or.inl ⟨by decide, Err.bounded_q rfl (fun h => by rw [List.length_map]; exact h)⟩ | exact Or.inl ⟨by decide, Nat.le_succ _⟩ | exact Or.inl ⟨by decide, Err.bounded_put rfl (fun h => Err.bounded_unit h _) (fun h => h)⟩ | skip)
  repeat' first
    | with_reducible exact Framed.refl _ _
    | decide
    | with_reducible refine keyStart_frame ?_ ?_
    | with_reducible refine powerOff_frame ?_ ?_
    | dsimp only [id]

theorem edgeFail_frame {ports : Bool} {e : Nat × Nat × List Nat}  (sub : ∀ p ∈ [.out, .err, .tel, .net, .ctxs, .bst], p ∈ ps) (fr : Framed ps s0 s) :
    Framed ps s0 (edgeFail ports e s) := by
  refine fr.trans (Framed.mono sub ?_)
  clear sub fr
  unfold edgeFail
  repeat' first
    | with_reducible exact Framed.refl _ _
    | decide
    | with_reducible refine addDie_frame ?_ ?_
    | with_reducible refine bringUpRecord_frame ?_ ?_
    | with_reducible refine modBst_frame ?_ ?_
    | with_reducible refine modNet_frame ?_ ?_
    | with_reducible refine Framed.foldl _ (fun _ _ => ?_) _ _ _ ?_
    | with_reducible refine Framed.foldl_fst _ (fun _ _ => ?_) _ _ _ ?_
    | with_reducible refine Framed.ite (fun _ => ?_) (fun _ => ?_)
    | dsimp only [id]
    | split

theorem halfFail_frame {ports : Bool} {h : Nat × Bool}  (sub : ∀ p ∈ [.out, .err, .tel, .net, .ctxs, .bst], p ∈ ps) (fr : Framed ps s0 s) :
    Framed ps s0 (halfFail ports h s) := by
  refine fr.trans (Framed.mono sub ?_)
  clear sub fr
  unfold halfFail
  repeat' first
    | with_reducible exact Framed.refl _ _
    | decide
    | with_reducible refine addDie_frame ?_ ?_
    | with_reducible refine bringUpRecord_frame ?_ ?_
    | with_reducible refine modNet_frame ?_ ?_
    | with_reducible refine Framed.ite (fun _ => ?_) (fun _ => ?_)
    | dsimp only [id]
    | split

theorem holeReset_frame  (sub : ∀ p ∈ [.net, .bst, .hdw], p ∈ ps) (fr : Framed ps s0 s) :
    Framed ps s0 (holeReset s) := by
  refine fr.trans (Framed.mono sub ?_)
  clear sub fr
  unfold holeReset
  repeat' first
    | with_reducible exact Framed.refl _ _
    | decide
    | with_reducible refine burnSvn_frame ?_ ?_
    | with_reducible refine measure_frame ?_ ?_
    | with_reducible refine modBst_frame ?_ ?_
    | with_reducible refine modHdw_frame ?_ ?_
    | with_reducible refine modNet_frame ?_ ?_
    | with_reducible refine Framed.foldl _ (fun _ _ => ?_) _ _ _ ?_
    | with_reducible refine Framed.foldl_fst _ (fun _ _ => ?_) _ _ _ ?_
    | with_reducible refine Framed.ite (fun _ => ?_) (fun _ => ?_)
    | dsimp only [id]
    | split

theorem imageMissing_frame {k : Nat}  (sub : ∀ p ∈ [.out, .err, .tel, .net, .hdw], p ∈ ps) (fr : Framed ps s0 s) :
    Framed ps s0 (imageMissing k s) := by
  refine fr.trans (Framed.mono sub ?_)
  clear sub fr
  unfold imageMissing
  repeat' first
    | with_reducible exact Framed.refl _ _
    | decide
    | with_reducible refine modHdw_frame ?_ ?_
    | with_reducible refine modNet_frame ?_ ?_
    | with_reducible refine raise_frame ?_ ?_
    | with_reducible refine Framed.ite (fun _ => ?_) (fun _ => ?_)
    | dsimp only [id]
    | split

theorem imagesFail_frame {l : List Nat}  (sub : ∀ p ∈ [.out, .err, .tel, .net, .hdw], p ∈ ps) (fr : Framed ps s0 s) :
    Framed ps s0 (imagesFail l s) := by
  refine fr.trans (Framed.mono sub ?_)
  clear sub fr
  unfold imagesFail
  repeat' first
    | with_reducible exact Framed.refl _ _
    | decide
    | with_reducible refine imageMissing_frame ?_ ?_
    | with_reducible refine Framed.foldl _ (fun _ _ => ?_) _ _ _ ?_
    | with_reducible refine Framed.foldl_fst _ (fun _ _ => ?_) _ _ _ ?_
    | dsimp only [id]

theorem memoryUp_frame {bad : List Nat}  (sub : ∀ p ∈ [.out, .free, .err, .tel, .net, .fly, .mem, .hst], p ∈ ps) (fr : Framed ps s0 s) :
    Framed ps s0 (memoryUp bad s) := by
  refine fr.trans (Framed.mono sub ?_)
  clear sub fr
  unfold memoryUp
  repeat' first
    | with_reducible exact Framed.refl _ _
    | decide
    | with_reducible refine bringUpRecord_frame ?_ ?_
    | with_reducible refine modStk_frame ?_ ?_
    | with_reducible refine stackLost_frame ?_ ?_
    | with_reducible refine Framed.foldl _ (fun _ _ => ?_) _ _ _ ?_
    | with_reducible refine Framed.foldl_fst _ (fun _ _ => ?_) _ _ _ ?_
    | dsimp only [id]
  all_goals try (with_reducible apply Framed.upd rfl <;> first | exact Or.inl (by decide) | with_reducible exact Or.inr rfl | with_reducible exact Or.inr ⟨rfl, rfl⟩ | with_reducible exact Or.inl ⟨by decide, fun h => h⟩ | with_reducible exact Or.inl ⟨by decide, Nat.le_refl _⟩ | exact Or.inl ⟨by decide, fun h => bwrite_wf _ _ _ h⟩ | exact Or.inl ⟨by decide, fun h => bzero_wf _ _ _ h⟩ | exact Or.inl ⟨by decide, fun _ => rfl⟩ | exact Or.inl ⟨by decide, Err.bounded_q rfl (fun h => by rw [lmod_length]; exact h)⟩ | exact Or.inl ⟨by decide, Err.bounded_q rfl (fun h => h)⟩ | exact Or.inl ⟨by decide, Err.bounded_q rfl (fun h => by rw [List.length_map]; exact h)⟩ | exact Or.inl ⟨by decide, Nat.le_succ _⟩ | exact Or.inl ⟨by decide, Err.bounded_put rfl (fun h => Err.bounded_unit h _) (fun h => h)⟩ | skip)
  repeat' first
    | with_reducible exact Framed.refl _ _
    | decide
    | with_reducible refine bringUpRecord_frame ?_ ?_
    | with_reducible refine modStk_frame ?_ ?_
    | with_reducible refine stackLost_frame ?_ ?_
    | with_reducible refine Framed.foldl _ (fun _ _ => ?_) _ _ _ ?_
    | with_reducible refine Framed.foldl_fst _ (fun _ _ => ?_) _ _ _ ?_
    | dsimp only [id]
  all_goals try (with_reducible apply Framed.upd rfl <;> first | exact Or.inl (by decide) | with_reducible exact Or.inr rfl | with_reducible exact Or.inr ⟨rfl, rfl⟩ | with_reducible exact Or.inl ⟨by decide, fun h => h⟩ | with_reducible exact Or.inl ⟨by decide, Nat.le_refl _⟩ | exact Or.inl ⟨by decide, fun h => bwrite_wf _ _ _ h⟩ | exact Or.inl ⟨by decide, fun h => bzero_wf _ _ _ h⟩ | exact Or.inl ⟨by decide, fun _ => rfl⟩ | exact Or.inl ⟨by decide, Err.bounded_q rfl (fun h => by rw [lmod_length]; exact h)⟩ | exact Or.inl ⟨by decide, Err.bounded_q rfl (fun h => h)⟩ | exact Or.inl ⟨by decide, Err.bounded_q rfl (fun h => by rw [List.length_map]; exact h)⟩ | exact Or.inl ⟨by decide, Nat.le_succ _⟩ | exact Or.inl ⟨by decide, Err.bounded_put rfl (fun h => Err.bounded_unit h _) (fun h => h)⟩ | skip)
  repeat' first
    | with_reducible exact Framed.refl _ _
    | decide
    | with_reducible refine bringUpRecord_frame ?_ ?_
    | with_reducible refine modStk_frame ?_ ?_
    | with_reducible refine stackLost_frame ?_ ?_
    | with_reducible refine Framed.foldl _ (fun _ _ => ?_) _ _ _ ?_
    | with_reducible refine Framed.foldl_fst _ (fun _ _ => ?_) _ _ _ ?_
    | dsimp only [id]

theorem pllFail_frame {t : Nat}  (sub : ∀ p ∈ [.out, .err, .tel, .net], p ∈ ps) (fr : Framed ps s0 s) :
    Framed ps s0 (pllFail t s) := by
  refine fr.trans (Framed.mono sub ?_)
  clear sub fr
  unfold pllFail
  repeat' first
    | with_reducible exact Framed.refl _ _
    | decide
    | with_reducible refine bringUpRecord_frame ?_ ?_
    | with_reducible refine siteOut_frame ?_ ?_
    | dsimp only [id]

theorem qualifyFail_frame {u : BringUp}  (sub : ∀ p ∈ [.out, .err, .tel, .net, .fly, .ctxs, .mem, .hst, .bst], p ∈ ps) (fr : Framed ps s0 s) :
    Framed ps s0 (qualifyFail u s) := by
  refine fr.trans (Framed.mono sub ?_)
  clear sub fr
  unfold qualifyFail
  repeat' first
    | with_reducible exact Framed.refl _ _
    | decide
    | with_reducible refine bringUpRecord_frame ?_ ?_
    | with_reducible refine edgeFail_frame ?_ ?_
    | with_reducible refine halfFail_frame ?_ ?_
    | with_reducible refine stackLost_frame ?_ ?_
    | with_reducible refine Framed.foldl _ (fun _ _ => ?_) _ _ _ ?_
    | with_reducible refine Framed.foldl_fst _ (fun _ _ => ?_) _ _ _ ?_
    | dsimp only [id]

theorem chipLost_frame {n : Nat}  (sub : ∀ p ∈ [.out, .err, .tel, .net, .fly, .cells, .chk, .ctxs, .frs, .mem, .rsv, .csn, .est, .edy, .hst], p ∈ ps) (fr : Framed ps s0 s) :
    Framed ps s0 (chipLost n s) := by
  refine fr.trans (Framed.mono sub ?_)
  clear sub fr
  unfold chipLost
  repeat' first
    | with_reducible exact Framed.refl _ _
    | decide
    | with_reducible refine ctxLost_frame ?_ ?_
    | with_reducible refine linkFail_frame ?_ ?_
    | with_reducible refine modCtx_frame ?_ ?_
    | with_reducible refine modEng_frame ?_ ?_
    | with_reducible refine modNet_frame ?_ ?_
    | with_reducible refine raise_frame ?_ ?_
    | with_reducible refine routesChanged_frame ?_ ?_
    | with_reducible refine rsvFail_frame ?_ ?_
    | with_reducible refine stackLost_frame ?_ ?_
    | with_reducible refine Framed.foldl _ (fun _ _ => ?_) _ _ _ ?_
    | with_reducible refine Framed.foldl_fst _ (fun _ _ => ?_) _ _ _ ?_
    | with_reducible refine Framed.ite (fun _ => ?_) (fun _ => ?_)
    | dsimp only [id]
    | split
  all_goals try (with_reducible apply Framed.upd rfl <;> first | exact Or.inl (by decide) | with_reducible exact Or.inr rfl | with_reducible exact Or.inr ⟨rfl, rfl⟩ | with_reducible exact Or.inl ⟨by decide, fun h => h⟩ | with_reducible exact Or.inl ⟨by decide, Nat.le_refl _⟩ | exact Or.inl ⟨by decide, fun h => bwrite_wf _ _ _ h⟩ | exact Or.inl ⟨by decide, fun h => bzero_wf _ _ _ h⟩ | exact Or.inl ⟨by decide, fun _ => rfl⟩ | exact Or.inl ⟨by decide, Err.bounded_q rfl (fun h => by rw [lmod_length]; exact h)⟩ | exact Or.inl ⟨by decide, Err.bounded_q rfl (fun h => h)⟩ | exact Or.inl ⟨by decide, Err.bounded_q rfl (fun h => by rw [List.length_map]; exact h)⟩ | exact Or.inl ⟨by decide, Nat.le_succ _⟩ | exact Or.inl ⟨by decide, Err.bounded_put rfl (fun h => Err.bounded_unit h _) (fun h => h)⟩ | skip)
  repeat' first
    | with_reducible exact Framed.refl _ _
    | decide
    | with_reducible refine ctxLost_frame ?_ ?_
    | with_reducible refine linkFail_frame ?_ ?_
    | with_reducible refine modCtx_frame ?_ ?_
    | with_reducible refine modEng_frame ?_ ?_
    | with_reducible refine modNet_frame ?_ ?_
    | with_reducible refine raise_frame ?_ ?_
    | with_reducible refine routesChanged_frame ?_ ?_
    | with_reducible refine rsvFail_frame ?_ ?_
    | with_reducible refine stackLost_frame ?_ ?_
    | with_reducible refine Framed.foldl _ (fun _ _ => ?_) _ _ _ ?_
    | with_reducible refine Framed.foldl_fst _ (fun _ _ => ?_) _ _ _ ?_
    | with_reducible refine Framed.ite (fun _ => ?_) (fun _ => ?_)
    | dsimp only [id]
    | split
  all_goals try (with_reducible apply Framed.upd rfl <;> first | exact Or.inl (by decide) | with_reducible exact Or.inr rfl | with_reducible exact Or.inr ⟨rfl, rfl⟩ | with_reducible exact Or.inl ⟨by decide, fun h => h⟩ | with_reducible exact Or.inl ⟨by decide, Nat.le_refl _⟩ | exact Or.inl ⟨by decide, fun h => bwrite_wf _ _ _ h⟩ | exact Or.inl ⟨by decide, fun h => bzero_wf _ _ _ h⟩ | exact Or.inl ⟨by decide, fun _ => rfl⟩ | exact Or.inl ⟨by decide, Err.bounded_q rfl (fun h => by rw [lmod_length]; exact h)⟩ | exact Or.inl ⟨by decide, Err.bounded_q rfl (fun h => h)⟩ | exact Or.inl ⟨by decide, Err.bounded_q rfl (fun h => by rw [List.length_map]; exact h)⟩ | exact Or.inl ⟨by decide, Nat.le_succ _⟩ | exact Or.inl ⟨by decide, Err.bounded_put rfl (fun h => Err.bounded_unit h _) (fun h => h)⟩ | skip)
  repeat' first
    | with_reducible exact Framed.refl _ _
    | decide
    | with_reducible refine ctxLost_frame ?_ ?_
    | with_reducible refine linkFail_frame ?_ ?_
    | with_reducible refine modCtx_frame ?_ ?_
    | with_reducible refine modEng_frame ?_ ?_
    | with_reducible refine modNet_frame ?_ ?_
    | with_reducible refine raise_frame ?_ ?_
    | with_reducible refine routesChanged_frame ?_ ?_
    | with_reducible refine rsvFail_frame ?_ ?_
    | with_reducible refine stackLost_frame ?_ ?_
    | with_reducible refine Framed.foldl _ (fun _ _ => ?_) _ _ _ ?_
    | with_reducible refine Framed.foldl_fst _ (fun _ _ => ?_) _ _ _ ?_
    | with_reducible refine Framed.ite (fun _ => ?_) (fun _ => ?_)
    | dsimp only [id]
    | split

theorem cellsGone_frame {gone : Nat → Bool}  (sub : ∀ p ∈ [.tel, .fly, .cells, .frs], p ∈ ps) (fr : Framed ps s0 s) :
    Framed ps s0 (cellsGone gone s) := by
  refine fr.trans (Framed.mono sub ?_)
  clear sub fr
  unfold cellsGone
  repeat' first
    | with_reducible exact Framed.refl _ _
    | decide
    | with_reducible refine countN_frame ?_ ?_
    | with_reducible refine Framed.foldl _ (fun _ _ => ?_) _ _ _ ?_
    | with_reducible refine Framed.foldl_fst _ (fun _ _ => ?_) _ _ _ ?_
    | with_reducible refine Framed.ite (fun _ => ?_) (fun _ => ?_)
    | dsimp only [id]
    | split
  all_goals try (with_reducible apply Framed.upd rfl <;> first | exact Or.inl (by decide) | with_reducible exact Or.inr rfl | with_reducible exact Or.inr ⟨rfl, rfl⟩ | with_reducible exact Or.inl ⟨by decide, fun h => h⟩ | with_reducible exact Or.inl ⟨by decide, Nat.le_refl _⟩ | exact Or.inl ⟨by decide, fun h => bwrite_wf _ _ _ h⟩ | exact Or.inl ⟨by decide, fun h => bzero_wf _ _ _ h⟩ | exact Or.inl ⟨by decide, fun _ => rfl⟩ | exact Or.inl ⟨by decide, Err.bounded_q rfl (fun h => by rw [lmod_length]; exact h)⟩ | exact Or.inl ⟨by decide, Err.bounded_q rfl (fun h => h)⟩ | exact Or.inl ⟨by decide, Err.bounded_q rfl (fun h => by rw [List.length_map]; exact h)⟩ | exact Or.inl ⟨by decide, Nat.le_succ _⟩ | exact Or.inl ⟨by decide, Err.bounded_put rfl (fun h => Err.bounded_unit h _) (fun h => h)⟩ | skip)
  repeat' first
    | with_reducible exact Framed.refl _ _
    | decide
    | with_reducible refine countN_frame ?_ ?_
    | with_reducible refine Framed.foldl _ (fun _ _ => ?_) _ _ _ ?_
    | with_reducible refine Framed.foldl_fst _ (fun _ _ => ?_) _ _ _ ?_
    | with_reducible refine Framed.ite (fun _ => ?_) (fun _ => ?_)
    | dsimp only [id]
    | split

theorem cutNow_frame  (sub : ∀ p ∈ [.net, .ctxs], p ∈ ps) (fr : Framed ps s0 s) :
    Framed ps s0 (cutNow s) := by
  refine fr.trans (Framed.mono sub ?_)
  clear sub fr
  unfold cutNow
  repeat' first
    | with_reducible exact Framed.refl _ _
    | decide
    | with_reducible refine ctxLost_frame ?_ ?_
    | with_reducible refine cutJudge_frame ?_ ?_
    | with_reducible refine Framed.foldl _ (fun _ _ => ?_) _ _ _ ?_
    | with_reducible refine Framed.foldl_fst _ (fun _ _ => ?_) _ _ _ ?_
    | with_reducible refine Framed.ite (fun _ => ?_) (fun _ => ?_)
    | dsimp only [id]
    | split

theorem reachDown_frame {r : Nat}  (sub : ∀ p ∈ [.out, .err, .tel, .net, .fly, .cells, .chk, .ctxs, .frs, .mem, .rsv, .csn, .est, .edy, .wsh, .hst, .bst], p ∈ ps) (fr : Framed ps s0 s) :
    Framed ps s0 (reachDown r s) := by
  refine fr.trans (Framed.mono sub ?_)
  clear sub fr
  unfold reachDown
  repeat' first
    | with_reducible exact Framed.refl _ _
    | decide
    | with_reducible refine cellsGone_frame ?_ ?_
    | with_reducible refine chipLost_frame ?_ ?_
    | with_reducible refine ctxLost_frame ?_ ?_
    | with_reducible refine cutNow_frame ?_ ?_
    | with_reducible refine modBst_frame ?_ ?_
    | with_reducible refine modNet_frame ?_ ?_
    | with_reducible refine modWsh_frame ?_ ?_
    | with_reducible refine routesChanged_frame ?_ ?_
    | with_reducible refine Framed.foldl _ (fun _ _ => ?_) _ _ _ ?_
    | with_reducible refine Framed.foldl_fst _ (fun _ _ => ?_) _ _ _ ?_
    | dsimp only [id]

theorem reachLost_frame {r : Nat}  (sub : ∀ p ∈ [.out, .err, .tel, .net, .fly, .cells, .chk, .ctxs, .frs, .mem, .rsv, .csn, .est, .edy, .wsh, .hst, .bst], p ∈ ps) (fr : Framed ps s0 s) :
    Framed ps s0 (reachLost r s) := by
  refine fr.trans (Framed.mono sub ?_)
  clear sub fr
  unfold reachLost
  repeat' first
    | with_reducible exact Framed.refl _ _
    | decide
    | with_reducible refine modNet_frame ?_ ?_
    | with_reducible refine reachDown_frame ?_ ?_
    | with_reducible refine Framed.foldl _ (fun _ _ => ?_) _ _ _ ?_
    | with_reducible refine Framed.foldl_fst _ (fun _ _ => ?_) _ _ _ ?_
    | dsimp only [id]

theorem rampFail_frame {r : Nat}  (sub : ∀ p ∈ [.out, .err, .tel, .net, .fly, .cells, .chk, .ctxs, .frs, .mem, .rsv, .csn, .est, .edy, .wsh, .hst, .bst, .lev], p ∈ ps) (fr : Framed ps s0 s) :
    Framed ps s0 (rampFail r s) := by
  refine fr.trans (Framed.mono sub ?_)
  clear sub fr
  unfold rampFail
  repeat' first
    | with_reducible exact Framed.refl _ _
    | decide
    | with_reducible refine bringUpRecord_frame ?_ ?_
    | with_reducible refine chipLost_frame ?_ ?_
    | with_reducible refine modBst_frame ?_ ?_
    | with_reducible refine modLev_frame ?_ ?_
    | with_reducible refine reachLost_frame ?_ ?_
    | with_reducible refine siteOut_frame ?_ ?_
    | with_reducible refine Framed.ite (fun _ => ?_) (fun _ => ?_)
    | dsimp only [id]
    | split

theorem stepEnd_frame  (sub : ∀ p ∈ [.tel, .bst], p ∈ ps) (fr : Framed ps s0 s) :
    Framed ps s0 (stepEnd s) := by
  refine fr.trans (Framed.mono sub ?_)
  clear sub fr
  unfold stepEnd
  repeat' first
    | with_reducible exact Framed.refl _ _
    | decide
    | with_reducible refine countN_frame ?_ ?_
    | with_reducible refine modBst_frame ?_ ?_
    | dsimp only [id]

theorem substitute_frame {r t : Nat}  (sub : ∀ p ∈ [.net], p ∈ ps) (fr : Framed ps s0 s) :
    Framed ps s0 (substitute r t s) := by
  refine fr.trans (Framed.mono sub ?_)
  clear sub fr
  unfold substitute
  repeat' first
    | with_reducible exact Framed.refl _ _
    | decide
    | with_reducible refine modNet_frame ?_ ?_
    | with_reducible refine siteOut_frame ?_ ?_
    | with_reducible refine Framed.foldl _ (fun _ _ => ?_) _ _ _ ?_
    | with_reducible refine Framed.foldl_fst _ (fun _ _ => ?_) _ _ _ ?_
    | dsimp only [id]

theorem substituteAll_frame  (sub : ∀ p ∈ [.net], p ∈ ps) (fr : Framed ps s0 s) :
    Framed ps s0 (substituteAll s) := by
  refine fr.trans (Framed.mono sub ?_)
  clear sub fr
  unfold substituteAll
  repeat' first
    | with_reducible exact Framed.refl _ _
    | decide
    | with_reducible refine substitute_frame ?_ ?_
    | with_reducible refine Framed.foldl _ (fun _ _ => ?_) _ _ _ ?_
    | with_reducible refine Framed.foldl_fst _ (fun _ _ => ?_) _ _ _ ?_
    | dsimp only [id]
    | split

theorem testFail_frame {u : BringUp}  (sub : ∀ p ∈ [.out, .err, .tel, .net, .fly, .cells, .chk, .ctxs, .slc, .frs, .mem, .rsv, .csn, .est, .edy, .hst, .bst], p ∈ ps) (fr : Framed ps s0 s) :
    Framed ps s0 (testFail u s) := by
  refine fr.trans (Framed.mono sub ?_)
  clear sub fr
  unfold testFail
  repeat' first
    | with_reducible exact Framed.refl _ _
    | decide
    | with_reducible refine addDie_frame ?_ ?_
    | with_reducible refine addHoles_frame ?_ ?_
    | with_reducible refine bringUpRecord_frame ?_ ?_
    | with_reducible refine chipLost_frame ?_ ?_
    | with_reducible refine modBst_frame ?_ ?_
    | with_reducible refine Framed.foldl _ (fun _ _ => ?_) _ _ _ ?_
    | with_reducible refine Framed.foldl_fst _ (fun _ _ => ?_) _ _ _ ?_
    | dsimp only [id]

theorem bringUpStep_frame {k : Nat} {u : BringUp}  (sub : ∀ p ∈ [.out, .free, .full, .err, .tel, .regs, .net, .tide, .fly, .cells, .chk, .ctxs, .slc, .frs, .mem, .rsv, .csn, .est, .edy, .wsh, .hst, .bst, .hdw, .lev], p ∈ ps) (fr : Framed ps s0 s) :
    Framed ps s0 (bringUpStep k u s) := by
  refine fr.trans (Framed.mono sub ?_)
  clear sub fr
  unfold bringUpStep
  repeat' first
    | with_reducible exact Framed.refl _ _
    | decide
    | with_reducible refine bootDone_frame ?_ ?_
    | with_reducible refine bringUpJudge_frame ?_ ?_
    | with_reducible refine cutJudge_frame ?_ ?_
    | with_reducible refine edgeFail_frame ?_ ?_
    | with_reducible refine halfFail_frame ?_ ?_
    | with_reducible refine holeReset_frame ?_ ?_
    | with_reducible refine imagesFail_frame ?_ ?_
    | with_reducible refine memoryUp_frame ?_ ?_
    | with_reducible refine moduleFailed_frame ?_ ?_
    | with_reducible refine pllFail_frame ?_ ?_
    | with_reducible refine qualifyFail_frame ?_ ?_
    | with_reducible refine rampFail_frame ?_ ?_
    | with_reducible refine regSet_frame ?_ ?_
    | with_reducible refine routesChanged_frame ?_ ?_
    | with_reducible refine stepEnd_frame ?_ ?_
    | with_reducible refine substituteAll_frame ?_ ?_
    | with_reducible refine testFail_frame ?_ ?_
    | dsimp only [bringUpStep.tideStart]
    | dsimp only [bringUpStep.exportSet]
    | with_reducible refine Framed.foldl _ (fun _ _ => ?_) _ _ _ ?_
    | with_reducible refine Framed.foldl_fst _ (fun _ _ => ?_) _ _ _ ?_
    | with_reducible refine Framed.ite (fun _ => ?_) (fun _ => ?_)
    | dsimp only [id]
    | split
  all_goals try (with_reducible apply Framed.upd rfl <;> first | exact Or.inl (by decide) | with_reducible exact Or.inr rfl | with_reducible exact Or.inr ⟨rfl, rfl⟩ | with_reducible exact Or.inl ⟨by decide, fun h => h⟩ | with_reducible exact Or.inl ⟨by decide, Nat.le_refl _⟩ | exact Or.inl ⟨by decide, fun h => bwrite_wf _ _ _ h⟩ | exact Or.inl ⟨by decide, fun h => bzero_wf _ _ _ h⟩ | exact Or.inl ⟨by decide, fun _ => rfl⟩ | exact Or.inl ⟨by decide, Err.bounded_q rfl (fun h => by rw [lmod_length]; exact h)⟩ | exact Or.inl ⟨by decide, Err.bounded_q rfl (fun h => h)⟩ | exact Or.inl ⟨by decide, Err.bounded_q rfl (fun h => by rw [List.length_map]; exact h)⟩ | exact Or.inl ⟨by decide, Nat.le_succ _⟩ | exact Or.inl ⟨by decide, Err.bounded_put rfl (fun h => Err.bounded_unit h _) (fun h => h)⟩ | skip)
  repeat' first
    | with_reducible exact Framed.refl _ _
    | decide
    | with_reducible refine bootDone_frame ?_ ?_
    | with_reducible refine bringUpJudge_frame ?_ ?_
    | with_reducible refine cutJudge_frame ?_ ?_
    | with_reducible refine edgeFail_frame ?_ ?_
    | with_reducible refine halfFail_frame ?_ ?_
    | with_reducible refine holeReset_frame ?_ ?_
    | with_reducible refine imagesFail_frame ?_ ?_
    | with_reducible refine memoryUp_frame ?_ ?_
    | with_reducible refine moduleFailed_frame ?_ ?_
    | with_reducible refine pllFail_frame ?_ ?_
    | with_reducible refine qualifyFail_frame ?_ ?_
    | with_reducible refine rampFail_frame ?_ ?_
    | with_reducible refine regSet_frame ?_ ?_
    | with_reducible refine routesChanged_frame ?_ ?_
    | with_reducible refine stepEnd_frame ?_ ?_
    | with_reducible refine substituteAll_frame ?_ ?_
    | with_reducible refine testFail_frame ?_ ?_
    | dsimp only [bringUpStep.tideStart]
    | dsimp only [bringUpStep.exportSet]
    | with_reducible refine Framed.foldl _ (fun _ _ => ?_) _ _ _ ?_
    | with_reducible refine Framed.foldl_fst _ (fun _ _ => ?_) _ _ _ ?_
    | with_reducible refine Framed.ite (fun _ => ?_) (fun _ => ?_)
    | dsimp only [id]
    | split

theorem heatConds_frame {region : Nat}  (sub : ∀ p ∈ [.lev], p ∈ ps) (fr : Framed ps s0 s) :
    Framed ps s0 (heatConds region s) := by
  refine fr.trans (Framed.mono sub ?_)
  clear sub fr
  unfold heatConds
  repeat' first
    | with_reducible exact Framed.refl _ _
    | decide
    | with_reducible refine modLev_frame ?_ ?_
    | with_reducible refine Framed.foldl _ (fun _ _ => ?_) _ _ _ ?_
    | with_reducible refine Framed.foldl_fst _ (fun _ _ => ?_) _ _ _ ?_
    | with_reducible refine Framed.ite (fun _ => ?_) (fun _ => ?_)
    | dsimp only [id]
    | split

theorem conds_frame {k : Sensor}  (sub : ∀ p ∈ [.lev], p ∈ ps) (fr : Framed ps s0 s) :
    Framed ps s0 (conds k s) := by
  refine fr.trans (Framed.mono sub ?_)
  clear sub fr
  unfold conds
  repeat' first
    | with_reducible exact Framed.refl _ _
    | decide
    | with_reducible refine heatConds_frame ?_ ?_
    | with_reducible refine modLev_frame ?_ ?_
    | with_reducible refine Framed.foldl _ (fun _ _ => ?_) _ _ _ ?_
    | with_reducible refine Framed.foldl_fst _ (fun _ _ => ?_) _ _ _ ?_
    | with_reducible refine Framed.ite (fun _ => ?_) (fun _ => ?_)
    | dsimp only [id]
    | split

theorem exportClose_frame  (sub : ∀ p ∈ [.rsv], p ∈ ps) (fr : Framed ps s0 s) :
    Framed ps s0 (exportClose s) := by
  refine fr.trans (Framed.mono sub ?_)
  clear sub fr
  unfold exportClose
  repeat' first
    | with_reducible exact Framed.refl _ _
    | decide
    | dsimp only [id]
    | split
  all_goals try (with_reducible apply Framed.upd rfl <;> first | exact Or.inl (by decide) | with_reducible exact Or.inr rfl | with_reducible exact Or.inr ⟨rfl, rfl⟩ | with_reducible exact Or.inl ⟨by decide, fun h => h⟩ | with_reducible exact Or.inl ⟨by decide, Nat.le_refl _⟩ | exact Or.inl ⟨by decide, fun h => bwrite_wf _ _ _ h⟩ | exact Or.inl ⟨by decide, fun h => bzero_wf _ _ _ h⟩ | exact Or.inl ⟨by decide, fun _ => rfl⟩ | exact Or.inl ⟨by decide, Err.bounded_q rfl (fun h => by rw [lmod_length]; exact h)⟩ | exact Or.inl ⟨by decide, Err.bounded_q rfl (fun h => h)⟩ | exact Or.inl ⟨by decide, Err.bounded_q rfl (fun h => by rw [List.length_map]; exact h)⟩ | exact Or.inl ⟨by decide, Nat.le_succ _⟩ | exact Or.inl ⟨by decide, Err.bounded_put rfl (fun h => Err.bounded_unit h _) (fun h => h)⟩ | skip)
  repeat' first
    | with_reducible exact Framed.refl _ _
    | decide
    | dsimp only [id]
    | split

theorem noticeSend_frame {site : Nat} {why : OutWhy}  (sub : ∀ p ∈ [.wsh], p ∈ ps) (fr : Framed ps s0 s) :
    Framed ps s0 (noticeSend site why s) := by
  refine fr.trans (Framed.mono sub ?_)
  clear sub fr
  unfold noticeSend
  repeat' first
    | with_reducible exact Framed.refl _ _
    | decide
    | with_reducible refine modWsh_frame ?_ ?_
    | dsimp only [id]

theorem heatNotice_frame {site : Nat}  (sub : ∀ p ∈ [.ctxs, .wsh, .lev], p ∈ ps) (fr : Framed ps s0 s) :
    Framed ps s0 (heatNotice site s) := by
  refine fr.trans (Framed.mono sub ?_)
  clear sub fr
  unfold heatNotice
  repeat' first
    | with_reducible exact Framed.refl _ _
    | decide
    | with_reducible refine modCtx_frame ?_ ?_
    | with_reducible refine modLev_frame ?_ ?_
    | with_reducible refine noticeSend_frame ?_ ?_
    | with_reducible refine Framed.foldl _ (fun _ _ => ?_) _ _ _ ?_
    | with_reducible refine Framed.foldl_fst _ (fun _ _ => ?_) _ _ _ ?_
    | with_reducible refine Framed.ite (fun _ => ?_) (fun _ => ?_)
    | dsimp only [id]
    | split

theorem regLatch_frame {m : Master} {off : Nat}  (sub : ∀ p ∈ [.regs], p ∈ ps) (fr : Framed ps s0 s) :
    Framed ps s0 (regLatch m off s) := by
  refine fr.trans (Framed.mono sub ?_)
  clear sub fr
  unfold regLatch
  repeat' first
    | with_reducible exact Framed.refl _ _
    | decide
    | with_reducible refine Framed.ite (fun _ => ?_) (fun _ => ?_)
    | dsimp only [id]
    | split
  all_goals try (with_reducible apply Framed.upd rfl <;> first | exact Or.inl (by decide) | with_reducible exact Or.inr rfl | with_reducible exact Or.inr ⟨rfl, rfl⟩ | with_reducible exact Or.inl ⟨by decide, fun h => h⟩ | with_reducible exact Or.inl ⟨by decide, Nat.le_refl _⟩ | exact Or.inl ⟨by decide, fun h => bwrite_wf _ _ _ h⟩ | exact Or.inl ⟨by decide, fun h => bzero_wf _ _ _ h⟩ | exact Or.inl ⟨by decide, fun _ => rfl⟩ | exact Or.inl ⟨by decide, Err.bounded_q rfl (fun h => by rw [lmod_length]; exact h)⟩ | exact Or.inl ⟨by decide, Err.bounded_q rfl (fun h => h)⟩ | exact Or.inl ⟨by decide, Err.bounded_q rfl (fun h => by rw [List.length_map]; exact h)⟩ | exact Or.inl ⟨by decide, Nat.le_succ _⟩ | exact Or.inl ⟨by decide, Err.bounded_put rfl (fun h => Err.bounded_unit h _) (fun h => h)⟩ | skip)
  repeat' first
    | with_reducible exact Framed.refl _ _
    | decide
    | with_reducible refine Framed.ite (fun _ => ?_) (fun _ => ?_)
    | dsimp only [id]
    | split

theorem regRun_frame {m : Master} {n off : Nat}  (sub : ∀ p ∈ [.regs], p ∈ ps) (fr : Framed ps s0 s) :
    Framed ps s0 ((regRun m n off s).2) := by
  refine fr.trans (Framed.mono sub ?_)
  clear sub fr
  induction n generalizing off s with
  | zero => exact Framed.refl _ _
  | succ n ih => exact (regLatch_frame (by decide) (Framed.refl _ _)).trans ih

theorem regRun_of {m : Master} {n off : Nat}  {u : State} {o : List Nat} (eq : regRun m n off s = (o, u)) (sub : ∀ p ∈ [.regs], p ∈ ps) (fr : Framed ps s0 s) : Framed ps s0 u := by
  have g := @regRun_frame ps s0 s m n off sub fr
  rw [eq] at g
  exact g

theorem hostLoad_frame {off size : Nat}  (sub : ∀ p ∈ [.out, .err, .tel, .regs, .csn, .own], p ∈ ps) (fr : Framed ps s0 s) :
    Framed ps s0 (hostLoad off size s) := by
  refine fr.trans (Framed.mono sub ?_)
  clear sub fr
  unfold hostLoad
  repeat' first
    | with_reducible exact Framed.refl _ _
    | decide
    | with_reducible refine emit_frame ?_ ?_
    | with_reducible refine ownClock_frame ?_ ?_
    | with_reducible refine regRun_frame ?_ ?_
    | with_reducible refine regRun_of (by assumption) ?_ ?_
    | with_reducible refine Framed.ite (fun _ => ?_) (fun _ => ?_)
    | dsimp only [id]
    | split

theorem objStart_frame {act : Bool}  (sub : ∀ p ∈ [.out, .err, .tel, .hdw], p ∈ ps) (fr : Framed ps s0 s) :
    Framed ps s0 (objStart act s) := by
  refine fr.trans (Framed.mono sub ?_)
  clear sub fr
  unfold objStart
  repeat' first
    | with_reducible exact Framed.refl _ _
    | decide
    | with_reducible refine modHdw_frame ?_ ?_
    | with_reducible refine raise_frame ?_ ?_
    | with_reducible refine Framed.ite (fun _ => ?_) (fun _ => ?_)
    | dsimp only [id]
    | split

theorem pairDisable_frame {q : Nat}  (sub : ∀ p ∈ [.slc], p ∈ ps) (fr : Framed ps s0 s) :
    Framed ps s0 (pairDisable q s) := by
  refine fr.trans (Framed.mono sub ?_)
  clear sub fr
  unfold pairDisable
  repeat' first
    | with_reducible exact Framed.refl _ _
    | decide
    | with_reducible refine modPair_frame ?_ ?_
    | dsimp only [id]

theorem pairEnable_frame {q : Nat}  (sub : ∀ p ∈ [.out, .slc], p ∈ ps) (fr : Framed ps s0 s) :
    Framed ps s0 (pairEnable q s) := by
  refine fr.trans (Framed.mono sub ?_)
  clear sub fr
  unfold pairEnable
  repeat' first
    | with_reducible exact Framed.refl _ _
    | decide
    | with_reducible refine emit_frame ?_ ?_
    | with_reducible refine modPair_frame ?_ ?_
    | with_reducible refine Framed.ite (fun _ => ?_) (fun _ => ?_)
    | dsimp only [id]
    | split
  all_goals try (with_reducible apply Framed.upd rfl <;> first | exact Or.inl (by decide) | with_reducible exact Or.inr rfl | with_reducible exact Or.inr ⟨rfl, rfl⟩ | with_reducible exact Or.inl ⟨by decide, fun h => h⟩ | with_reducible exact Or.inl ⟨by decide, Nat.le_refl _⟩ | exact Or.inl ⟨by decide, fun h => bwrite_wf _ _ _ h⟩ | exact Or.inl ⟨by decide, fun h => bzero_wf _ _ _ h⟩ | exact Or.inl ⟨by decide, fun _ => rfl⟩ | exact Or.inl ⟨by decide, Err.bounded_q rfl (fun h => by rw [lmod_length]; exact h)⟩ | exact Or.inl ⟨by decide, Err.bounded_q rfl (fun h => h)⟩ | exact Or.inl ⟨by decide, Err.bounded_q rfl (fun h => by rw [List.length_map]; exact h)⟩ | exact Or.inl ⟨by decide, Nat.le_succ _⟩ | exact Or.inl ⟨by decide, Err.bounded_put rfl (fun h => Err.bounded_unit h _) (fun h => h)⟩ | skip)
  repeat' first
    | with_reducible exact Framed.refl _ _
    | decide
    | with_reducible refine emit_frame ?_ ?_
    | with_reducible refine modPair_frame ?_ ?_
    | with_reducible refine Framed.ite (fun _ => ?_) (fun _ => ?_)
    | dsimp only [id]
    | split

theorem rekeyStart_frame {m : Master}  (sub : ∀ p ∈ [.out, .err, .tel, .hdw], p ∈ ps) (fr : Framed ps s0 s) :
    Framed ps s0 (rekeyStart m s) := by
  refine fr.trans (Framed.mono sub ?_)
  clear sub fr
  unfold rekeyStart
  repeat' first
    | with_reducible exact Framed.refl _ _
    | decide
    | with_reducible refine modHdw_frame ?_ ?_
    | with_reducible refine reqRefused_frame ?_ ?_
    | with_reducible refine Framed.ite (fun _ => ?_) (fun _ => ?_)
    | dsimp only [id]
    | split

theorem ringEnable_frame  (sub : ∀ p ∈ [.out, .err], p ∈ ps) (fr : Framed ps s0 s) :
    Framed ps s0 (ringEnable s) := by
  refine fr.trans (Framed.mono sub ?_)
  clear sub fr
  unfold ringEnable
  repeat' first
    | with_reducible exact Framed.refl _ _
    | decide
    | with_reducible refine emit_frame ?_ ?_
    | with_reducible refine Framed.foldl _ (fun _ _ => ?_) _ _ _ ?_
    | with_reducible refine Framed.foldl_fst _ (fun _ _ => ?_) _ _ _ ?_
    | with_reducible refine Framed.ite (fun _ => ?_) (fun _ => ?_)
    | dsimp only [id]
    | split
  all_goals try (with_reducible apply Framed.upd rfl <;> first | exact Or.inl (by decide) | with_reducible exact Or.inr rfl | with_reducible exact Or.inr ⟨rfl, rfl⟩ | with_reducible exact Or.inl ⟨by decide, fun h => h⟩ | with_reducible exact Or.inl ⟨by decide, Nat.le_refl _⟩ | exact Or.inl ⟨by decide, fun h => bwrite_wf _ _ _ h⟩ | exact Or.inl ⟨by decide, fun h => bzero_wf _ _ _ h⟩ | exact Or.inl ⟨by decide, fun _ => rfl⟩ | exact Or.inl ⟨by decide, Err.bounded_q rfl (fun h => by rw [lmod_length]; exact h)⟩ | exact Or.inl ⟨by decide, Err.bounded_q rfl (fun h => h)⟩ | exact Or.inl ⟨by decide, Err.bounded_q rfl (fun h => by rw [List.length_map]; exact h)⟩ | exact Or.inl ⟨by decide, Nat.le_succ _⟩ | exact Or.inl ⟨by decide, Err.bounded_put rfl (fun h => Err.bounded_unit h _) (fun h => h)⟩ | skip)
  repeat' first
    | with_reducible exact Framed.refl _ _
    | decide
    | with_reducible refine emit_frame ?_ ?_
    | with_reducible refine Framed.foldl _ (fun _ _ => ?_) _ _ _ ?_
    | with_reducible refine Framed.foldl_fst _ (fun _ _ => ?_) _ _ _ ?_
    | with_reducible refine Framed.ite (fun _ => ?_) (fun _ => ?_)
    | dsimp only [id]
    | split
  all_goals try (with_reducible apply Framed.upd rfl <;> first | exact Or.inl (by decide) | with_reducible exact Or.inr rfl | with_reducible exact Or.inr ⟨rfl, rfl⟩ | with_reducible exact Or.inl ⟨by decide, fun h => h⟩ | with_reducible exact Or.inl ⟨by decide, Nat.le_refl _⟩ | exact Or.inl ⟨by decide, fun h => bwrite_wf _ _ _ h⟩ | exact Or.inl ⟨by decide, fun h => bzero_wf _ _ _ h⟩ | exact Or.inl ⟨by decide, fun _ => rfl⟩ | exact Or.inl ⟨by decide, Err.bounded_q rfl (fun h => by rw [lmod_length]; exact h)⟩ | exact Or.inl ⟨by decide, Err.bounded_q rfl (fun h => h)⟩ | exact Or.inl ⟨by decide, Err.bounded_q rfl (fun h => by rw [List.length_map]; exact h)⟩ | exact Or.inl ⟨by decide, Nat.le_succ _⟩ | exact Or.inl ⟨by decide, Err.bounded_put rfl (fun h => Err.bounded_unit h _) (fun h => h)⟩ | skip)
  repeat' first
    | with_reducible exact Framed.refl _ _
    | decide
    | with_reducible refine emit_frame ?_ ?_
    | with_reducible refine Framed.foldl _ (fun _ _ => ?_) _ _ _ ?_
    | with_reducible refine Framed.foldl_fst _ (fun _ _ => ?_) _ _ _ ?_
    | with_reducible refine Framed.ite (fun _ => ?_) (fun _ => ?_)
    | dsimp only [id]
    | split
  all_goals try (with_reducible apply Framed.upd rfl <;> first | exact Or.inl (by decide) | with_reducible exact Or.inr rfl | with_reducible exact Or.inr ⟨rfl, rfl⟩ | with_reducible exact Or.inl ⟨by decide, fun h => h⟩ | with_reducible exact Or.inl ⟨by decide, Nat.le_refl _⟩ | exact Or.inl ⟨by decide, fun h => bwrite_wf _ _ _ h⟩ | exact Or.inl ⟨by decide, fun h => bzero_wf _ _ _ h⟩ | exact Or.inl ⟨by decide, fun _ => rfl⟩ | exact Or.inl ⟨by decide, Err.bounded_q rfl (fun h => by rw [lmod_length]; exact h)⟩ | exact Or.inl ⟨by decide, Err.bounded_q rfl (fun h => h)⟩ | exact Or.inl ⟨by decide, Err.bounded_q rfl (fun h => by rw [List.length_map]; exact h)⟩ | exact Or.inl ⟨by decide, Nat.le_succ _⟩ | exact Or.inl ⟨by decide, Err.bounded_put rfl (fun h => Err.bounded_unit h _) (fun h => h)⟩ | skip)
  repeat' first
    | with_reducible exact Framed.refl _ _
    | decide
    | with_reducible refine emit_frame ?_ ?_
    | with_reducible refine Framed.foldl _ (fun _ _ => ?_) _ _ _ ?_
    | with_reducible refine Framed.foldl_fst _ (fun _ _ => ?_) _ _ _ ?_
    | with_reducible refine Framed.ite (fun _ => ?_) (fun _ => ?_)
    | dsimp only [id]
    | split

theorem shutdownStart_frame  (sub : ∀ p ∈ [.lev], p ∈ ps) (fr : Framed ps s0 s) :
    Framed ps s0 (shutdownStart s) := by
  refine fr.trans (Framed.mono sub ?_)
  clear sub fr
  unfold shutdownStart
  repeat' first
    | with_reducible exact Framed.refl _ _
    | decide
    | with_reducible refine modLev_frame ?_ ?_
    | dsimp only [id]
    | split

theorem switchOff_frame {m : Master} {region : Nat}  (sub : ∀ p ∈ [.out, .err, .tel, .wsh], p ∈ ps) (fr : Framed ps s0 s) :
    Framed ps s0 (switchOff m region s) := by
  refine fr.trans (Framed.mono sub ?_)
  clear sub fr
  unfold switchOff
  repeat' first
    | with_reducible exact Framed.refl _ _
    | decide
    | with_reducible refine noticeSend_frame ?_ ?_
    | with_reducible refine reqRefused_frame ?_ ?_
    | with_reducible refine Framed.ite (fun _ => ?_) (fun _ => ?_)
    | dsimp only [id]
    | split

theorem regionOn_frame {site slot : Nat}  (sub : ∀ p ∈ [.out, .net, .fly], p ∈ ps) (fr : Framed ps s0 s) :
    Framed ps s0 (regionOn site slot s) := by
  refine fr.trans (Framed.mono sub ?_)
  clear sub fr
  unfold regionOn
  repeat' first
    | with_reducible exact Framed.refl _ _
    | decide
    | with_reducible refine emit_frame ?_ ?_
    | with_reducible refine modNet_frame ?_ ?_
    | with_reducible refine rillSend_frame ?_ ?_
    | dsimp only [id]

theorem switchOn_frame {m : Master} {region : Nat}  (sub : ∀ p ∈ [.out, .err, .tel, .net, .fly], p ∈ ps) (fr : Framed ps s0 s) :
    Framed ps s0 (switchOn m region s) := by
  refine fr.trans (Framed.mono sub ?_)
  clear sub fr
  unfold switchOn
  repeat' first
    | with_reducible exact Framed.refl _ _
    | decide
    | with_reducible refine regionOn_frame ?_ ?_
    | with_reducible refine reqRefused_frame ?_ ?_
    | with_reducible refine Framed.ite (fun _ => ?_) (fun _ => ?_)
    | dsimp only [id]
    | split

theorem telGo_frame {m : Master}  (sub : ∀ p ∈ [.out, .err, .tel], p ∈ ps) (fr : Framed ps s0 s) :
    Framed ps s0 (telGo m s) := by
  refine fr.trans (Framed.mono sub ?_)
  clear sub fr
  unfold telGo
  repeat' first
    | with_reducible exact Framed.refl _ _
    | decide
    | with_reducible refine refuseWrite_frame ?_ ?_
    | with_reducible refine Framed.ite (fun _ => ?_) (fun _ => ?_)
    | dsimp only [id]
    | split
  all_goals try (with_reducible apply Framed.upd rfl <;> first | exact Or.inl (by decide) | with_reducible exact Or.inr rfl | with_reducible exact Or.inr ⟨rfl, rfl⟩ | with_reducible exact Or.inl ⟨by decide, fun h => h⟩ | with_reducible exact Or.inl ⟨by decide, Nat.le_refl _⟩ | exact Or.inl ⟨by decide, fun h => bwrite_wf _ _ _ h⟩ | exact Or.inl ⟨by decide, fun h => bzero_wf _ _ _ h⟩ | exact Or.inl ⟨by decide, fun _ => rfl⟩ | exact Or.inl ⟨by decide, Err.bounded_q rfl (fun h => by rw [lmod_length]; exact h)⟩ | exact Or.inl ⟨by decide, Err.bounded_q rfl (fun h => h)⟩ | exact Or.inl ⟨by decide, Err.bounded_q rfl (fun h => by rw [List.length_map]; exact h)⟩ | exact Or.inl ⟨by decide, Nat.le_succ _⟩ | exact Or.inl ⟨by decide, Err.bounded_put rfl (fun h => Err.bounded_unit h _) (fun h => h)⟩ | skip)
  repeat' first
    | with_reducible exact Framed.refl _ _
    | decide
    | with_reducible refine refuseWrite_frame ?_ ?_
    | with_reducible refine Framed.ite (fun _ => ?_) (fun _ => ?_)
    | dsimp only [id]
    | split

theorem testAsk_frame {site : Nat}  (sub : ∀ p ∈ [.bst], p ∈ ps) (fr : Framed ps s0 s) :
    Framed ps s0 (testAsk site s) := by
  refine fr.trans (Framed.mono sub ?_)
  clear sub fr
  unfold testAsk
  repeat' first
    | with_reducible exact Framed.refl _ _
    | decide
    | with_reducible refine modBst_frame ?_ ?_
    | with_reducible refine Framed.ite (fun _ => ?_) (fun _ => ?_)
    | dsimp only [id]
    | split

theorem regBit_frame {off i b : Nat} {v : Bool}  (sub : ∀ p ∈ [.regs], p ∈ ps) (fr : Framed ps s0 s) :
    Framed ps s0 (regBit off i b v s) := by
  refine fr.trans (Framed.mono sub ?_)
  clear sub fr
  unfold regBit
  repeat' first
    | with_reducible exact Framed.refl _ _
    | decide
    | with_reducible refine regSet_frame ?_ ?_
    | dsimp only [id]

theorem validRefused_frame {m : Master} {off i b val : Nat}  (sub : ∀ p ∈ [.out, .err, .tel, .regs], p ∈ ps) (fr : Framed ps s0 s) :
    Framed ps s0 (validRefused m off i b val s) := by
  refine fr.trans (Framed.mono sub ?_)
  clear sub fr
  unfold validRefused
  repeat' first
    | with_reducible exact Framed.refl _ _
    | decide
    | with_reducible refine refuseWrite_frame ?_ ?_
    | with_reducible refine regBit_frame ?_ ?_
    | dsimp only [id]

theorem regAct_frame {m : Master} {off i sel mask old : Nat}  (sub : ∀ p ∈ [.out, .err, .tel, .regs, .net, .tide, .fly, .chk, .slc, .mem, .rsv, .csn, .wsh, .hst, .own, .bst, .hdw, .lev], p ∈ ps) (fr : Framed ps s0 s) :
    Framed ps s0 (regAct m off i sel mask old s) := by
  refine fr.trans (Framed.mono sub ?_)
  clear sub fr
  unfold regAct
  repeat' first
    | with_reducible exact Framed.refl _ _
    | decide
    | with_reducible refine bootCommit_frame ?_ ?_
    | with_reducible refine count_frame ?_ ?_
    | with_reducible refine engJudge_frame ?_ ?_
    | with_reducible refine errAck_frame ?_ ?_
    | with_reducible refine expSet_frame ?_ ?_
    | with_reducible refine laneHold_frame ?_ ?_
    | with_reducible refine mismatch_frame ?_ ?_
    | with_reducible refine modBst_frame ?_ ?_
    | with_reducible refine modHst_frame ?_ ?_
    | with_reducible refine modOwn_frame ?_ ?_
    | with_reducible refine modPair_frame ?_ ?_
    | with_reducible refine modStk_frame ?_ ?_
    | with_reducible refine modTide_frame ?_ ?_
    | with_reducible refine objStart_frame ?_ ?_
    | with_reducible refine ownRequest_frame ?_ ?_
    | with_reducible refine pairDisable_frame ?_ ?_
    | with_reducible refine pairEnable_frame ?_ ?_
    | with_reducible refine recalAsk_frame ?_ ?_
    | with_reducible refine recoverStart_frame ?_ ?_
    | with_reducible refine refuseWrite_frame ?_ ?_
    | with_reducible refine rekeyStart_frame ?_ ?_
    | with_reducible refine ringEnable_frame ?_ ?_
    | with_reducible refine shutdownStart_frame ?_ ?_
    | with_reducible refine switchOff_frame ?_ ?_
    | with_reducible refine switchOn_frame ?_ ?_
    | with_reducible refine telGo_frame ?_ ?_
    | with_reducible refine testAsk_frame ?_ ?_
    | with_reducible refine validRefused_frame ?_ ?_
    | with_reducible refine winSet_frame ?_ ?_
    | with_reducible refine Framed.ite (fun _ => ?_) (fun _ => ?_)
    | dsimp only [id]
    | split
  all_goals try (with_reducible apply Framed.upd rfl <;> first | exact Or.inl (by decide) | with_reducible exact Or.inr rfl | with_reducible exact Or.inr ⟨rfl, rfl⟩ | with_reducible exact Or.inl ⟨by decide, fun h => h⟩ | with_reducible exact Or.inl ⟨by decide, Nat.le_refl _⟩ | exact Or.inl ⟨by decide, fun h => bwrite_wf _ _ _ h⟩ | exact Or.inl ⟨by decide, fun h => bzero_wf _ _ _ h⟩ | exact Or.inl ⟨by decide, fun _ => rfl⟩ | exact Or.inl ⟨by decide, Err.bounded_q rfl (fun h => by rw [lmod_length]; exact h)⟩ | exact Or.inl ⟨by decide, Err.bounded_q rfl (fun h => h)⟩ | exact Or.inl ⟨by decide, Err.bounded_q rfl (fun h => by rw [List.length_map]; exact h)⟩ | exact Or.inl ⟨by decide, Nat.le_succ _⟩ | exact Or.inl ⟨by decide, Err.bounded_put rfl (fun h => Err.bounded_unit h _) (fun h => h)⟩ | skip)
  repeat' first
    | with_reducible exact Framed.refl _ _
    | decide
    | with_reducible refine bootCommit_frame ?_ ?_
    | with_reducible refine count_frame ?_ ?_
    | with_reducible refine engJudge_frame ?_ ?_
    | with_reducible refine errAck_frame ?_ ?_
    | with_reducible refine expSet_frame ?_ ?_
    | with_reducible refine laneHold_frame ?_ ?_
    | with_reducible refine mismatch_frame ?_ ?_
    | with_reducible refine modBst_frame ?_ ?_
    | with_reducible refine modHst_frame ?_ ?_
    | with_reducible refine modOwn_frame ?_ ?_
    | with_reducible refine modPair_frame ?_ ?_
    | with_reducible refine modStk_frame ?_ ?_
    | with_reducible refine modTide_frame ?_ ?_
    | with_reducible refine objStart_frame ?_ ?_
    | with_reducible refine ownRequest_frame ?_ ?_
    | with_reducible refine pairDisable_frame ?_ ?_
    | with_reducible refine pairEnable_frame ?_ ?_
    | with_reducible refine recalAsk_frame ?_ ?_
    | with_reducible refine recoverStart_frame ?_ ?_
    | with_reducible refine refuseWrite_frame ?_ ?_
    | with_reducible refine rekeyStart_frame ?_ ?_
    | with_reducible refine ringEnable_frame ?_ ?_
    | with_reducible refine shutdownStart_frame ?_ ?_
    | with_reducible refine switchOff_frame ?_ ?_
    | with_reducible refine switchOn_frame ?_ ?_
    | with_reducible refine telGo_frame ?_ ?_
    | with_reducible refine testAsk_frame ?_ ?_
    | with_reducible refine validRefused_frame ?_ ?_
    | with_reducible refine winSet_frame ?_ ?_
    | with_reducible refine Framed.ite (fun _ => ?_) (fun _ => ?_)
    | dsimp only [id]
    | split
  all_goals try (with_reducible apply Framed.upd rfl <;> first | exact Or.inl (by decide) | with_reducible exact Or.inr rfl | with_reducible exact Or.inr ⟨rfl, rfl⟩ | with_reducible exact Or.inl ⟨by decide, fun h => h⟩ | with_reducible exact Or.inl ⟨by decide, Nat.le_refl _⟩ | exact Or.inl ⟨by decide, fun h => bwrite_wf _ _ _ h⟩ | exact Or.inl ⟨by decide, fun h => bzero_wf _ _ _ h⟩ | exact Or.inl ⟨by decide, fun _ => rfl⟩ | exact Or.inl ⟨by decide, Err.bounded_q rfl (fun h => by rw [lmod_length]; exact h)⟩ | exact Or.inl ⟨by decide, Err.bounded_q rfl (fun h => h)⟩ | exact Or.inl ⟨by decide, Err.bounded_q rfl (fun h => by rw [List.length_map]; exact h)⟩ | exact Or.inl ⟨by decide, Nat.le_succ _⟩ | exact Or.inl ⟨by decide, Err.bounded_put rfl (fun h => Err.bounded_unit h _) (fun h => h)⟩ | skip)
  repeat' first
    | with_reducible exact Framed.refl _ _
    | decide
    | with_reducible refine bootCommit_frame ?_ ?_
    | with_reducible refine count_frame ?_ ?_
    | with_reducible refine engJudge_frame ?_ ?_
    | with_reducible refine errAck_frame ?_ ?_
    | with_reducible refine expSet_frame ?_ ?_
    | with_reducible refine laneHold_frame ?_ ?_
    | with_reducible refine mismatch_frame ?_ ?_
    | with_reducible refine modBst_frame ?_ ?_
    | with_reducible refine modHst_frame ?_ ?_
    | with_reducible refine modOwn_frame ?_ ?_
    | with_reducible refine modPair_frame ?_ ?_
    | with_reducible refine modStk_frame ?_ ?_
    | with_reducible refine modTide_frame ?_ ?_
    | with_reducible refine objStart_frame ?_ ?_
    | with_reducible refine ownRequest_frame ?_ ?_
    | with_reducible refine pairDisable_frame ?_ ?_
    | with_reducible refine pairEnable_frame ?_ ?_
    | with_reducible refine recalAsk_frame ?_ ?_
    | with_reducible refine recoverStart_frame ?_ ?_
    | with_reducible refine refuseWrite_frame ?_ ?_
    | with_reducible refine rekeyStart_frame ?_ ?_
    | with_reducible refine ringEnable_frame ?_ ?_
    | with_reducible refine shutdownStart_frame ?_ ?_
    | with_reducible refine switchOff_frame ?_ ?_
    | with_reducible refine switchOn_frame ?_ ?_
    | with_reducible refine telGo_frame ?_ ?_
    | with_reducible refine testAsk_frame ?_ ?_
    | with_reducible refine validRefused_frame ?_ ?_
    | with_reducible refine winSet_frame ?_ ?_
    | with_reducible refine Framed.ite (fun _ => ?_) (fun _ => ?_)
    | dsimp only [id]
    | split
  all_goals try (with_reducible apply Framed.upd rfl <;> first | exact Or.inl (by decide) | with_reducible exact Or.inr rfl | with_reducible exact Or.inr ⟨rfl, rfl⟩ | with_reducible exact Or.inl ⟨by decide, fun h => h⟩ | with_reducible exact Or.inl ⟨by decide, Nat.le_refl _⟩ | exact Or.inl ⟨by decide, fun h => bwrite_wf _ _ _ h⟩ | exact Or.inl ⟨by decide, fun h => bzero_wf _ _ _ h⟩ | exact Or.inl ⟨by decide, fun _ => rfl⟩ | exact Or.inl ⟨by decide, Err.bounded_q rfl (fun h => by rw [lmod_length]; exact h)⟩ | exact Or.inl ⟨by decide, Err.bounded_q rfl (fun h => h)⟩ | exact Or.inl ⟨by decide, Err.bounded_q rfl (fun h => by rw [List.length_map]; exact h)⟩ | exact Or.inl ⟨by decide, Nat.le_succ _⟩ | exact Or.inl ⟨by decide, Err.bounded_put rfl (fun h => Err.bounded_unit h _) (fun h => h)⟩ | skip)
  repeat' first
    | with_reducible exact Framed.refl _ _
    | decide
    | with_reducible refine bootCommit_frame ?_ ?_
    | with_reducible refine count_frame ?_ ?_
    | with_reducible refine engJudge_frame ?_ ?_
    | with_reducible refine errAck_frame ?_ ?_
    | with_reducible refine expSet_frame ?_ ?_
    | with_reducible refine laneHold_frame ?_ ?_
    | with_reducible refine mismatch_frame ?_ ?_
    | with_reducible refine modBst_frame ?_ ?_
    | with_reducible refine modHst_frame ?_ ?_
    | with_reducible refine modOwn_frame ?_ ?_
    | with_reducible refine modPair_frame ?_ ?_
    | with_reducible refine modStk_frame ?_ ?_
    | with_reducible refine modTide_frame ?_ ?_
    | with_reducible refine objStart_frame ?_ ?_
    | with_reducible refine ownRequest_frame ?_ ?_
    | with_reducible refine pairDisable_frame ?_ ?_
    | with_reducible refine pairEnable_frame ?_ ?_
    | with_reducible refine recalAsk_frame ?_ ?_
    | with_reducible refine recoverStart_frame ?_ ?_
    | with_reducible refine refuseWrite_frame ?_ ?_
    | with_reducible refine rekeyStart_frame ?_ ?_
    | with_reducible refine ringEnable_frame ?_ ?_
    | with_reducible refine shutdownStart_frame ?_ ?_
    | with_reducible refine switchOff_frame ?_ ?_
    | with_reducible refine switchOn_frame ?_ ?_
    | with_reducible refine telGo_frame ?_ ?_
    | with_reducible refine testAsk_frame ?_ ?_
    | with_reducible refine validRefused_frame ?_ ?_
    | with_reducible refine winSet_frame ?_ ?_
    | with_reducible refine Framed.ite (fun _ => ?_) (fun _ => ?_)
    | dsimp only [id]
    | split

theorem regTake_frame {m : Master} {r : RegDesc} {i val mask : Nat}  (sub : ∀ p ∈ [.out, .err, .tel, .regs, .net, .tide, .fly, .chk, .slc, .mem, .rsv, .csn, .wsh, .hst, .own, .bst, .hdw, .lev], p ∈ ps) (fr : Framed ps s0 s) :
    Framed ps s0 (regTake m r i val mask s) := by
  refine fr.trans (Framed.mono sub ?_)
  clear sub fr
  unfold regTake
  repeat' first
    | with_reducible exact Framed.refl _ _
    | decide
    | with_reducible refine refuseWrite_frame ?_ ?_
    | with_reducible refine regAct_frame ?_ ?_
    | with_reducible refine Framed.ite (fun _ => ?_) (fun _ => ?_)
    | dsimp only [id]
    | split
  all_goals try (with_reducible apply Framed.upd rfl <;> first | exact Or.inl (by decide) | with_reducible exact Or.inr rfl | with_reducible exact Or.inr ⟨rfl, rfl⟩ | with_reducible exact Or.inl ⟨by decide, fun h => h⟩ | with_reducible exact Or.inl ⟨by decide, Nat.le_refl _⟩ | exact Or.inl ⟨by decide, fun h => bwrite_wf _ _ _ h⟩ | exact Or.inl ⟨by decide, fun h => bzero_wf _ _ _ h⟩ | exact Or.inl ⟨by decide, fun _ => rfl⟩ | exact Or.inl ⟨by decide, Err.bounded_q rfl (fun h => by rw [lmod_length]; exact h)⟩ | exact Or.inl ⟨by decide, Err.bounded_q rfl (fun h => h)⟩ | exact Or.inl ⟨by decide, Err.bounded_q rfl (fun h => by rw [List.length_map]; exact h)⟩ | exact Or.inl ⟨by decide, Nat.le_succ _⟩ | exact Or.inl ⟨by decide, Err.bounded_put rfl (fun h => Err.bounded_unit h _) (fun h => h)⟩ | skip)
  repeat' first
    | with_reducible exact Framed.refl _ _
    | decide
    | with_reducible refine refuseWrite_frame ?_ ?_
    | with_reducible refine regAct_frame ?_ ?_
    | with_reducible refine Framed.ite (fun _ => ?_) (fun _ => ?_)
    | dsimp only [id]
    | split

theorem regStore_frame {m : Master} {off val mask : Nat}  (sub : ∀ p ∈ [.out, .err, .tel, .regs, .net, .tide, .fly, .chk, .slc, .mem, .rsv, .csn, .wsh, .hst, .own, .bst, .hdw, .lev], p ∈ ps) (fr : Framed ps s0 s) :
    Framed ps s0 ((regStore m off val mask s).2) := by
  refine fr.trans (Framed.mono sub ?_)
  clear sub fr
  unfold regStore
  repeat' first
    | with_reducible exact Framed.refl _ _
    | decide
    | with_reducible refine ownClock_frame ?_ ?_
    | with_reducible refine refuseWrite_frame ?_ ?_
    | with_reducible refine regTake_frame ?_ ?_
    | with_reducible refine Framed.ite (fun _ => ?_) (fun _ => ?_)
    | dsimp only [id]
    | split
  all_goals try (with_reducible apply Framed.upd rfl <;> first | exact Or.inl (by decide) | with_reducible exact Or.inr rfl | with_reducible exact Or.inr ⟨rfl, rfl⟩ | with_reducible exact Or.inl ⟨by decide, fun h => h⟩ | with_reducible exact Or.inl ⟨by decide, Nat.le_refl _⟩ | exact Or.inl ⟨by decide, fun h => bwrite_wf _ _ _ h⟩ | exact Or.inl ⟨by decide, fun h => bzero_wf _ _ _ h⟩ | exact Or.inl ⟨by decide, fun _ => rfl⟩ | exact Or.inl ⟨by decide, Err.bounded_q rfl (fun h => by rw [lmod_length]; exact h)⟩ | exact Or.inl ⟨by decide, Err.bounded_q rfl (fun h => h)⟩ | exact Or.inl ⟨by decide, Err.bounded_q rfl (fun h => by rw [List.length_map]; exact h)⟩ | exact Or.inl ⟨by decide, Nat.le_succ _⟩ | exact Or.inl ⟨by decide, Err.bounded_put rfl (fun h => Err.bounded_unit h _) (fun h => h)⟩ | skip)
  repeat' first
    | with_reducible exact Framed.refl _ _
    | decide
    | with_reducible refine ownClock_frame ?_ ?_
    | with_reducible refine refuseWrite_frame ?_ ?_
    | with_reducible refine regTake_frame ?_ ?_
    | with_reducible refine Framed.ite (fun _ => ?_) (fun _ => ?_)
    | dsimp only [id]
    | split

theorem regStore_of {m : Master} {off val mask : Nat}  {u : State} {o : Nat} (eq : regStore m off val mask s = (o, u)) (sub : ∀ p ∈ [.out, .err, .tel, .regs, .net, .tide, .fly, .chk, .slc, .mem, .rsv, .csn, .wsh, .hst, .own, .bst, .hdw, .lev], p ∈ ps) (fr : Framed ps s0 s) : Framed ps s0 u := by
  have g := @regStore_frame ps s0 s m off val mask sub fr
  rw [eq] at g
  exact g

theorem hostStore_frame {off size val : Nat}  (sub : ∀ p ∈ [.out, .err, .tel, .regs, .net, .tide, .fly, .chk, .slc, .mem, .rsv, .csn, .wsh, .hst, .own, .bst, .hdw, .lev], p ∈ ps) (fr : Framed ps s0 s) :
    Framed ps s0 (hostStore off size val s) := by
  refine fr.trans (Framed.mono sub ?_)
  clear sub fr
  unfold hostStore
  repeat' first
    | with_reducible exact Framed.refl _ _
    | decide
    | with_reducible refine ownClock_frame ?_ ?_
    | with_reducible refine refuseWrite_frame ?_ ?_
    | with_reducible refine regStore_frame ?_ ?_
    | with_reducible refine regStore_of (by assumption) ?_ ?_
    | with_reducible refine Framed.ite (fun _ => ?_) (fun _ => ?_)
    | dsimp only [id]
    | split

theorem hotSwapOpen_frame {unit cls loc0 val : Nat}  (sub : ∀ p ∈ [.out, .err, .tel, .regs, .net, .tide, .fly, .cells, .chk, .ctxs, .slc, .frs, .mem, .rsv, .csn, .est, .edy, .wsh, .hst, .own, .bst, .hdw, .lev], p ∈ ps) (fr : Framed ps s0 s) :
    Framed ps s0 (hotSwapOpen unit cls loc0 val s) := by
  refine fr.trans (Framed.mono sub ?_)
  clear sub fr
  unfold hotSwapOpen
  repeat' first
    | with_reducible exact Framed.refl _ _
    | decide
    | with_reducible refine csnFleet_frame ?_ ?_
    | with_reducible refine emit_frame ?_ ?_
    | with_reducible refine powerOff_frame ?_ ?_
    | with_reducible refine raise_frame ?_ ?_
    | with_reducible refine Framed.ite (fun _ => ?_) (fun _ => ?_)
    | dsimp only [id]
    | split

theorem imageStart_frame {k bank : Nat}  (sub : ∀ p ∈ [.hdw], p ∈ ps) (fr : Framed ps s0 s) :
    Framed ps s0 (imageStart k bank s) := by
  refine fr.trans (Framed.mono sub ?_)
  clear sub fr
  unfold imageStart
  repeat' first
    | with_reducible exact Framed.refl _ _
    | decide
    | with_reducible refine burnSvn_frame ?_ ?_
    | with_reducible refine measure_frame ?_ ?_
    | with_reducible refine modHdw_frame ?_ ?_
    | dsimp only [id]

theorem indexBurn_frame {bad : Nat}  (sub : ∀ p ∈ [.out, .err, .tel, .hdw], p ∈ ps) (fr : Framed ps s0 s) :
    Framed ps s0 (indexBurn bad s) := by
  refine fr.trans (Framed.mono sub ?_)
  clear sub fr
  unfold indexBurn
  repeat' first
    | with_reducible exact Framed.refl _ _
    | decide
    | with_reducible refine modHdw_frame ?_ ?_
    | with_reducible refine raise_frame ?_ ?_
    | with_reducible refine Framed.foldl _ (fun _ _ => ?_) _ _ _ ?_
    | with_reducible refine Framed.foldl_fst _ (fun _ _ => ?_) _ _ _ ?_
    | with_reducible refine Framed.ite (fun _ => ?_) (fun _ => ?_)
    | dsimp only [id]
    | split

theorem indexTake_frame {last : Bool} {bad : Nat}  (sub : ∀ p ∈ [.out, .err, .tel, .hdw], p ∈ ps) (fr : Framed ps s0 s) :
    Framed ps s0 ((indexTake last bad s).1) := by
  refine fr.trans (Framed.mono sub ?_)
  clear sub fr
  unfold indexTake
  repeat' first
    | with_reducible exact Framed.refl _ _
    | decide
    | with_reducible refine indexBurn_frame ?_ ?_
    | with_reducible refine lowRecord_frame ?_ ?_
    | with_reducible refine modHdw_frame ?_ ?_
    | with_reducible refine Framed.ite (fun _ => ?_) (fun _ => ?_)
    | dsimp only [id]
    | split

theorem indexTake_of {last : Bool} {bad : Nat}  {u : State} {o : Option Nat} (eq : indexTake last bad s = (u, o)) (sub : ∀ p ∈ [.out, .err, .tel, .hdw], p ∈ ps) (fr : Framed ps s0 s) : Framed ps s0 u := by
  have g := @indexTake_frame ps s0 s last bad sub fr
  rw [eq] at g
  exact g

theorem keyRevoke_frame {slot : Nat}  (sub : ∀ p ∈ [.hdw], p ∈ ps) (fr : Framed ps s0 s) :
    Framed ps s0 (keyRevoke slot s) := by
  refine fr.trans (Framed.mono sub ?_)
  clear sub fr
  unfold keyRevoke
  repeat' first
    | with_reducible exact Framed.refl _ _
    | decide
    | with_reducible refine modHdw_frame ?_ ?_
    | dsimp only [id]

theorem latchCatch_frame  (sub : ∀ p ∈ [.regs], p ∈ ps) (fr : Framed ps s0 s) :
    Framed ps s0 (latchCatch s) := by
  refine fr.trans (Framed.mono sub ?_)
  clear sub fr
  unfold latchCatch
  repeat' first
    | with_reducible exact Framed.refl _ _
    | decide
    | with_reducible refine Framed.foldl _ (fun _ _ => ?_) _ _ _ ?_
    | with_reducible refine Framed.foldl_fst _ (fun _ _ => ?_) _ _ _ ?_
    | dsimp only [id]
  all_goals try (with_reducible apply Framed.upd rfl <;> first | exact Or.inl (by decide) | with_reducible exact Or.inr rfl | with_reducible exact Or.inr ⟨rfl, rfl⟩ | with_reducible exact Or.inl ⟨by decide, fun h => h⟩ | with_reducible exact Or.inl ⟨by decide, Nat.le_refl _⟩ | exact Or.inl ⟨by decide, fun h => bwrite_wf _ _ _ h⟩ | exact Or.inl ⟨by decide, fun h => bzero_wf _ _ _ h⟩ | exact Or.inl ⟨by decide, fun _ => rfl⟩ | exact Or.inl ⟨by decide, Err.bounded_q rfl (fun h => by rw [lmod_length]; exact h)⟩ | exact Or.inl ⟨by decide, Err.bounded_q rfl (fun h => h)⟩ | exact Or.inl ⟨by decide, Err.bounded_q rfl (fun h => by rw [List.length_map]; exact h)⟩ | exact Or.inl ⟨by decide, Nat.le_succ _⟩ | exact Or.inl ⟨by decide, Err.bounded_put rfl (fun h => Err.bounded_unit h _) (fun h => h)⟩ | skip)
  repeat' first
    | with_reducible exact Framed.refl _ _
    | decide
    | with_reducible refine Framed.foldl _ (fun _ _ => ?_) _ _ _ ?_
    | with_reducible refine Framed.foldl_fst _ (fun _ _ => ?_) _ _ _ ?_
    | dsimp only [id]

theorem latchOne_frame {e : Nat × Nat}  (sub : ∀ p ∈ [.out, .err, .tel, .regs, .csn], p ∈ ps) (fr : Framed ps s0 s) :
    Framed ps s0 (latchOne e s) := by
  refine fr.trans (Framed.mono sub ?_)
  clear sub fr
  unfold latchOne
  repeat' first
    | with_reducible exact Framed.refl _ _
    | decide
    | with_reducible refine linkJudge_frame ?_ ?_
    | with_reducible refine Framed.ite (fun _ => ?_) (fun _ => ?_)
    | dsimp only [id]
    | split
  all_goals try (with_reducible apply Framed.upd rfl <;> first | exact Or.inl (by decide) | with_reducible exact Or.inr rfl | with_reducible exact Or.inr ⟨rfl, rfl⟩ | with_reducible exact Or.inl ⟨by decide, fun h => h⟩ | with_reducible exact Or.inl ⟨by decide, Nat.le_refl _⟩ | exact Or.inl ⟨by decide, fun h => bwrite_wf _ _ _ h⟩ | exact Or.inl ⟨by decide, fun h => bzero_wf _ _ _ h⟩ | exact Or.inl ⟨by decide, fun _ => rfl⟩ | exact Or.inl ⟨by decide, Err.bounded_q rfl (fun h => by rw [lmod_length]; exact h)⟩ | exact Or.inl ⟨by decide, Err.bounded_q rfl (fun h => h)⟩ | exact Or.inl ⟨by decide, Err.bounded_q rfl (fun h => by rw [List.length_map]; exact h)⟩ | exact Or.inl ⟨by decide, Nat.le_succ _⟩ | exact Or.inl ⟨by decide, Err.bounded_put rfl (fun h => Err.bounded_unit h _) (fun h => h)⟩ | skip)
  repeat' first
    | with_reducible exact Framed.refl _ _
    | decide
    | with_reducible refine linkJudge_frame ?_ ?_
    | with_reducible refine Framed.ite (fun _ => ?_) (fun _ => ?_)
    | dsimp only [id]
    | split

theorem levBoundary_frame  (sub : ∀ p ∈ [.tel, .lev], p ∈ ps) (fr : Framed ps s0 s) :
    Framed ps s0 (levBoundary s) := by
  refine fr.trans (Framed.mono sub ?_)
  clear sub fr
  unfold levBoundary
  repeat' first
    | with_reducible exact Framed.refl _ _
    | decide
    | with_reducible refine count_frame ?_ ?_
    | with_reducible refine modLev_frame ?_ ?_
    | with_reducible refine Framed.ite (fun _ => ?_) (fun _ => ?_)
    | dsimp only [id]
    | split

theorem lowered_frame  (sub : ∀ p ∈ [.out, .err, .tel, .fly, .cells, .chk, .ctxs, .mem, .rsv, .csn], p ∈ ps) (fr : Framed ps s0 s) :
    Framed ps s0 (lowered s) := by
  refine fr.trans (Framed.mono sub ?_)
  clear sub fr
  unfold lowered
  repeat' first
    | with_reducible exact Framed.refl _ _
    | decide
    | with_reducible refine holdDue_frame ?_ ?_
    | with_reducible refine linkFail_frame ?_ ?_
    | with_reducible refine modEng_frame ?_ ?_
    | with_reducible refine rsvFail_frame ?_ ?_
    | with_reducible refine settle_frame ?_ ?_
    | with_reducible refine Framed.foldl _ (fun _ _ => ?_) _ _ _ ?_
    | with_reducible refine Framed.foldl_fst _ (fun _ _ => ?_) _ _ _ ?_
    | with_reducible refine Framed.ite (fun _ => ?_) (fun _ => ?_)
    | dsimp only [id]
    | split
  all_goals try (with_reducible apply Framed.upd rfl <;> first | exact Or.inl (by decide) | with_reducible exact Or.inr rfl | with_reducible exact Or.inr ⟨rfl, rfl⟩ | with_reducible exact Or.inl ⟨by decide, fun h => h⟩ | with_reducible exact Or.inl ⟨by decide, Nat.le_refl _⟩ | exact Or.inl ⟨by decide, fun h => bwrite_wf _ _ _ h⟩ | exact Or.inl ⟨by decide, fun h => bzero_wf _ _ _ h⟩ | exact Or.inl ⟨by decide, fun _ => rfl⟩ | exact Or.inl ⟨by decide, Err.bounded_q rfl (fun h => by rw [lmod_length]; exact h)⟩ | exact Or.inl ⟨by decide, Err.bounded_q rfl (fun h => h)⟩ | exact Or.inl ⟨by decide, Err.bounded_q rfl (fun h => by rw [List.length_map]; exact h)⟩ | exact Or.inl ⟨by decide, Nat.le_succ _⟩ | exact Or.inl ⟨by decide, Err.bounded_put rfl (fun h => Err.bounded_unit h _) (fun h => h)⟩ | skip)
  repeat' first
    | with_reducible exact Framed.refl _ _
    | decide
    | with_reducible refine holdDue_frame ?_ ?_
    | with_reducible refine linkFail_frame ?_ ?_
    | with_reducible refine modEng_frame ?_ ?_
    | with_reducible refine rsvFail_frame ?_ ?_
    | with_reducible refine settle_frame ?_ ?_
    | with_reducible refine Framed.foldl _ (fun _ _ => ?_) _ _ _ ?_
    | with_reducible refine Framed.foldl_fst _ (fun _ _ => ?_) _ _ _ ?_
    | with_reducible refine Framed.ite (fun _ => ?_) (fun _ => ?_)
    | dsimp only [id]
    | split

theorem mapDurable_frame  (sub : ∀ p ∈ [.bst], p ∈ ps) (fr : Framed ps s0 s) :
    Framed ps s0 (mapDurable s) := by
  refine fr.trans (Framed.mono sub ?_)
  clear sub fr
  unfold mapDurable
  repeat' first
    | with_reducible exact Framed.refl _ _
    | decide
    | with_reducible refine modBst_frame ?_ ?_
    | dsimp only [id]

theorem regData_frame {m : Master} {path : Option (Nat × Nat × Nat)} {tag status : Nat} {vals : List Nat}  (sub : ∀ p ∈ [.out, .tel, .csn], p ∈ ps) (fr : Framed ps s0 s) :
    Framed ps s0 (regData m path tag status vals s) := by
  refine fr.trans (Framed.mono sub ?_)
  clear sub fr
  unfold regData
  repeat' first
    | with_reducible exact Framed.refl _ _
    | decide
    | with_reducible refine csnCtl_frame ?_ ?_
    | with_reducible refine emit_frame ?_ ?_
    | dsimp only [id]
    | split

theorem mgmtRead_frame {r : RegMsg}  (sub : ∀ p ∈ [.out, .err, .tel, .regs, .csn, .own], p ∈ ps) (fr : Framed ps s0 s) :
    Framed ps s0 (mgmtRead r s) := by
  refine fr.trans (Framed.mono sub ?_)
  clear sub fr
  unfold mgmtRead
  repeat' first
    | with_reducible exact Framed.refl _ _
    | decide
    | with_reducible refine ownClock_frame ?_ ?_
    | with_reducible refine regData_frame ?_ ?_
    | with_reducible refine regRun_frame ?_ ?_
    | with_reducible refine regRun_of (by assumption) ?_ ?_
    | with_reducible refine Framed.ite (fun _ => ?_) (fun _ => ?_)
    | dsimp only [id]
    | split

theorem mgmtWrite_frame {r : RegMsg}  (sub : ∀ p ∈ [.out, .err, .tel, .regs, .net, .tide, .fly, .chk, .slc, .mem, .rsv, .csn, .wsh, .hst, .own, .bst, .hdw, .lev], p ∈ ps) (fr : Framed ps s0 s) :
    Framed ps s0 (mgmtWrite r s) := by
  refine fr.trans (Framed.mono sub ?_)
  clear sub fr
  unfold mgmtWrite
  repeat' first
    | with_reducible exact Framed.refl _ _
    | decide
    | with_reducible refine regData_frame ?_ ?_
    | with_reducible refine regStore_frame ?_ ?_
    | with_reducible refine regStore_of (by assumption) ?_ ?_
    | with_reducible refine Framed.ite (fun _ => ?_) (fun _ => ?_)
    | dsimp only [id]
    | split

theorem modSlice_frame {h : Nat} {f : Slice → Slice}  (sub : ∀ p ∈ [.bst], p ∈ ps) (fr : Framed ps s0 s) :
    Framed ps s0 (modSlice h f s) := by
  refine fr.trans (Framed.mono sub ?_)
  clear sub fr
  unfold modSlice
  repeat' first
    | with_reducible exact Framed.refl _ _
    | decide
    | with_reducible refine modBst_frame ?_ ?_
    | with_reducible refine Framed.ite (fun _ => ?_) (fun _ => ?_)
    | dsimp only [id]
    | split

theorem objTake_frame {o : ObjOp}  (sub : ∀ p ∈ [.hdw], p ∈ ps) (fr : Framed ps s0 s) :
    Framed ps s0 (objTake o s) := by
  refine fr.trans (Framed.mono sub ?_)
  clear sub fr
  unfold objTake
  repeat' first
    | with_reducible exact Framed.refl _ _
    | decide
    | with_reducible refine burnSvn_frame ?_ ?_
    | with_reducible refine keyRevoke_frame ?_ ?_
    | with_reducible refine measure_frame ?_ ?_
    | with_reducible refine modHdw_frame ?_ ?_
    | with_reducible refine Framed.ite (fun _ => ?_) (fun _ => ?_)
    | dsimp only [id]
    | split

theorem overrunCount_frame  (sub : ∀ p ∈ [.tel, .ctxs], p ∈ ps) (fr : Framed ps s0 s) :
    Framed ps s0 (overrunCount s) := by
  refine fr.trans (Framed.mono sub ?_)
  clear sub fr
  unfold overrunCount
  repeat' first
    | with_reducible exact Framed.refl _ _
    | decide
    | with_reducible refine count_frame ?_ ?_
    | with_reducible refine modStep_frame ?_ ?_
    | with_reducible refine Framed.foldl _ (fun _ _ => ?_) _ _ _ ?_
    | with_reducible refine Framed.foldl_fst _ (fun _ _ => ?_) _ _ _ ?_
    | dsimp only [id]
    | split

theorem regMsg_frame {x : RegIn}  (sub : ∀ p ∈ [.out, .tel, .csn, .own], p ∈ ps) (fr : Framed ps s0 s) :
    Framed ps s0 ((regMsg x s).2) := by
  refine fr.trans (Framed.mono sub ?_)
  clear sub fr
  unfold regMsg
  repeat' first
    | with_reducible exact Framed.refl _ _
    | decide
    | with_reducible refine csnTake_frame ?_ ?_
    | with_reducible refine emit_frame ?_ ?_
    | with_reducible refine rateHit_frame ?_ ?_
    | with_reducible refine rateHit_of (by assumption) ?_ ?_
    | with_reducible refine regData_frame ?_ ?_
    | with_reducible refine Framed.ite (fun _ => ?_) (fun _ => ?_)
    | dsimp only [id]
    | split

theorem regMsg_of {x : RegIn}  {u : State} {o : Option RegMsg} (eq : regMsg x s = (o, u)) (sub : ∀ p ∈ [.out, .tel, .csn, .own], p ∈ ps) (fr : Framed ps s0 s) : Framed ps s0 u := by
  have g := @regMsg_frame ps s0 s x sub fr
  rw [eq] at g
  exact g

theorem readCommand_frame {on : Nat → Bool} {any : Bool} {x : RegIn}  (sub : ∀ p ∈ [.out, .err, .tel, .regs, .csn, .own], p ∈ ps) (fr : Framed ps s0 s) :
    Framed ps s0 (readCommand on any x s) := by
  refine fr.trans (Framed.mono sub ?_)
  clear sub fr
  unfold readCommand
  repeat' first
    | with_reducible exact Framed.refl _ _
    | decide
    | with_reducible refine bar2Load_frame ?_ ?_
    | with_reducible refine cfgLoad_frame ?_ ?_
    | with_reducible refine hostLoad_frame ?_ ?_
    | with_reducible refine mgmtRead_frame ?_ ?_
    | with_reducible refine regData_frame ?_ ?_
    | with_reducible refine regMsg_frame ?_ ?_
    | with_reducible refine regMsg_of (by assumption) ?_ ?_
    | with_reducible refine Framed.ite (fun _ => ?_) (fun _ => ?_)
    | dsimp only [id]
    | split

theorem recoverFail_frame {r : Nat}  (sub : ∀ p ∈ [.out, .err, .tel, .net, .bst], p ∈ ps) (fr : Framed ps s0 s) :
    Framed ps s0 (recoverFail r s) := by
  refine fr.trans (Framed.mono sub ?_)
  clear sub fr
  unfold recoverFail
  repeat' first
    | with_reducible exact Framed.refl _ _
    | decide
    | with_reducible refine modBst_frame ?_ ?_
    | with_reducible refine modNet_frame ?_ ?_
    | with_reducible refine raise_frame ?_ ?_
    | with_reducible refine siteOut_frame ?_ ?_
    | dsimp only [id]

theorem segPassed_frame {h : Nat}  (sub : ∀ p ∈ [.tel, .cells, .bst], p ∈ ps) (fr : Framed ps s0 s) :
    Framed ps s0 (segPassed h s) := by
  refine fr.trans (Framed.mono sub ?_)
  clear sub fr
  unfold segPassed
  repeat' first
    | with_reducible exact Framed.refl _ _
    | decide
    | with_reducible refine count_frame ?_ ?_
    | with_reducible refine modBst_frame ?_ ?_
    | with_reducible refine modCell_frame ?_ ?_
    | with_reducible refine Framed.foldl _ (fun _ _ => ?_) _ _ _ ?_
    | with_reducible refine Framed.foldl_fst _ (fun _ _ => ?_) _ _ _ ?_
    | with_reducible refine Framed.ite (fun _ => ?_) (fun _ => ?_)
    | dsimp only [id]
    | split

theorem sensorFail_frame {k : Sensor} {v : Int}  (sub : ∀ p ∈ [.out, .err, .tel], p ∈ ps) (fr : Framed ps s0 s) :
    Framed ps s0 (sensorFail k v s) := by
  refine fr.trans (Framed.mono sub ?_)
  clear sub fr
  unfold sensorFail
  repeat' first
    | with_reducible exact Framed.refl _ _
    | decide
    | with_reducible refine count_frame ?_ ?_
    | with_reducible refine raise_frame ?_ ?_
    | dsimp only [id]

theorem setLevel_frame {region k : Nat}  (sub : ∀ p ∈ [.out, .tel, .net, .fly, .lev], p ∈ ps) (fr : Framed ps s0 s) :
    Framed ps s0 (setLevel region k s) := by
  refine fr.trans (Framed.mono sub ?_)
  clear sub fr
  unfold setLevel
  repeat' first
    | with_reducible exact Framed.refl _ _
    | decide
    | with_reducible refine count_frame ?_ ?_
    | with_reducible refine heatConds_frame ?_ ?_
    | with_reducible refine modLev_frame ?_ ?_
    | with_reducible refine modNet_frame ?_ ?_
    | with_reducible refine rillSend_frame ?_ ?_
    | with_reducible refine Framed.ite (fun _ => ?_) (fun _ => ?_)
    | dsimp only [id]
    | split

theorem setReading_frame {k : Sensor} {r : Reading}  (sub : ∀ p ∈ [.lev], p ∈ ps) (fr : Framed ps s0 s) :
    Framed ps s0 (setReading k r s) := by
  refine fr.trans (Framed.mono sub ?_)
  clear sub fr
  unfold setReading
  repeat' first
    | with_reducible exact Framed.refl _ _
    | decide
    | with_reducible refine modLev_frame ?_ ?_
    | dsimp only [id]

theorem siteLost_frame {site : Nat} {why : OutWhy}  (sub : ∀ p ∈ [.tel, .net, .fly, .cells, .ctxs, .frs, .wsh, .bst, .lev], p ∈ ps) (fr : Framed ps s0 s) :
    Framed ps s0 (siteLost site why s) := by
  refine fr.trans (Framed.mono sub ?_)
  clear sub fr
  unfold siteLost
  repeat' first
    | with_reducible exact Framed.refl _ _
    | decide
    | with_reducible refine cellsGone_frame ?_ ?_
    | with_reducible refine ctxLost_frame ?_ ?_
    | with_reducible refine cutNow_frame ?_ ?_
    | with_reducible refine modBst_frame ?_ ?_
    | with_reducible refine modLev_frame ?_ ?_
    | with_reducible refine modNet_frame ?_ ?_
    | with_reducible refine modWsh_frame ?_ ?_
    | with_reducible refine routesChanged_frame ?_ ?_
    | with_reducible refine siteOut_frame ?_ ?_
    | with_reducible refine Framed.foldl _ (fun _ _ => ?_) _ _ _ ?_
    | with_reducible refine Framed.foldl_fst _ (fun _ _ => ?_) _ _ _ ?_
    | dsimp only [id]

theorem telBoundary_frame  (sub : ∀ p ∈ [.tel], p ∈ ps) (fr : Framed ps s0 s) :
    Framed ps s0 (telBoundary s) := by
  refine fr.trans (Framed.mono sub ?_)
  clear sub fr
  unfold telBoundary
  repeat' first
    | with_reducible exact Framed.refl _ _
    | decide
    | with_reducible refine Framed.ite (fun _ => ?_) (fun _ => ?_)
    | dsimp only [id]
    | split
  all_goals try (with_reducible apply Framed.upd rfl <;> first | exact Or.inl (by decide) | with_reducible exact Or.inr rfl | with_reducible exact Or.inr ⟨rfl, rfl⟩ | with_reducible exact Or.inl ⟨by decide, fun h => h⟩ | with_reducible exact Or.inl ⟨by decide, Nat.le_refl _⟩ | exact Or.inl ⟨by decide, fun h => bwrite_wf _ _ _ h⟩ | exact Or.inl ⟨by decide, fun h => bzero_wf _ _ _ h⟩ | exact Or.inl ⟨by decide, fun _ => rfl⟩ | exact Or.inl ⟨by decide, Err.bounded_q rfl (fun h => by rw [lmod_length]; exact h)⟩ | exact Or.inl ⟨by decide, Err.bounded_q rfl (fun h => h)⟩ | exact Or.inl ⟨by decide, Err.bounded_q rfl (fun h => by rw [List.length_map]; exact h)⟩ | exact Or.inl ⟨by decide, Nat.le_succ _⟩ | exact Or.inl ⟨by decide, Err.bounded_put rfl (fun h => Err.bounded_unit h _) (fun h => h)⟩ | skip)
  repeat' first
    | with_reducible exact Framed.refl _ _
    | decide
    | with_reducible refine Framed.ite (fun _ => ?_) (fun _ => ?_)
    | dsimp only [id]
    | split

theorem telWrite_frame {tide : Nat} {vals : Tab Nat}  (sub : ∀ p ∈ [.out, .tel, .frs, .mem, .hst], p ∈ ps) (fr : Framed ps s0 s) :
    Framed ps s0 (telWrite tide vals s) := by
  refine fr.trans (Framed.mono sub ?_)
  clear sub fr
  unfold telWrite
  repeat' first
    | with_reducible exact Framed.refl _ _
    | decide
    | with_reducible refine memWrite_frame ?_ ?_
    | with_reducible refine memZero_frame ?_ ?_
    | with_reducible refine Framed.foldl _ (fun _ _ => ?_) _ _ _ ?_
    | with_reducible refine Framed.foldl_fst _ (fun _ _ => ?_) _ _ _ ?_
    | dsimp only [id]
    | split
  all_goals try (with_reducible apply Framed.upd rfl <;> first | exact Or.inl (by decide) | with_reducible exact Or.inr rfl | with_reducible exact Or.inr ⟨rfl, rfl⟩ | with_reducible exact Or.inl ⟨by decide, fun h => h⟩ | with_reducible exact Or.inl ⟨by decide, Nat.le_refl _⟩ | exact Or.inl ⟨by decide, fun h => bwrite_wf _ _ _ h⟩ | exact Or.inl ⟨by decide, fun h => bzero_wf _ _ _ h⟩ | exact Or.inl ⟨by decide, fun _ => rfl⟩ | exact Or.inl ⟨by decide, Err.bounded_q rfl (fun h => by rw [lmod_length]; exact h)⟩ | exact Or.inl ⟨by decide, Err.bounded_q rfl (fun h => h)⟩ | exact Or.inl ⟨by decide, Err.bounded_q rfl (fun h => by rw [List.length_map]; exact h)⟩ | exact Or.inl ⟨by decide, Nat.le_succ _⟩ | exact Or.inl ⟨by decide, Err.bounded_put rfl (fun h => Err.bounded_unit h _) (fun h => h)⟩ | skip)
  repeat' first
    | with_reducible exact Framed.refl _ _
    | decide
    | with_reducible refine memWrite_frame ?_ ?_
    | with_reducible refine memZero_frame ?_ ?_
    | with_reducible refine Framed.foldl _ (fun _ _ => ?_) _ _ _ ?_
    | with_reducible refine Framed.foldl_fst _ (fun _ _ => ?_) _ _ _ ?_
    | dsimp only [id]
    | split
  all_goals try (with_reducible apply Framed.upd rfl <;> first | exact Or.inl (by decide) | with_reducible exact Or.inr rfl | with_reducible exact Or.inr ⟨rfl, rfl⟩ | with_reducible exact Or.inl ⟨by decide, fun h => h⟩ | with_reducible exact Or.inl ⟨by decide, Nat.le_refl _⟩ | exact Or.inl ⟨by decide, fun h => bwrite_wf _ _ _ h⟩ | exact Or.inl ⟨by decide, fun h => bzero_wf _ _ _ h⟩ | exact Or.inl ⟨by decide, fun _ => rfl⟩ | exact Or.inl ⟨by decide, Err.bounded_q rfl (fun h => by rw [lmod_length]; exact h)⟩ | exact Or.inl ⟨by decide, Err.bounded_q rfl (fun h => h)⟩ | exact Or.inl ⟨by decide, Err.bounded_q rfl (fun h => by rw [List.length_map]; exact h)⟩ | exact Or.inl ⟨by decide, Nat.le_succ _⟩ | exact Or.inl ⟨by decide, Err.bounded_put rfl (fun h => Err.bounded_unit h _) (fun h => h)⟩ | skip)
  repeat' first
    | with_reducible exact Framed.refl _ _
    | decide
    | with_reducible refine memWrite_frame ?_ ?_
    | with_reducible refine memZero_frame ?_ ?_
    | with_reducible refine Framed.foldl _ (fun _ _ => ?_) _ _ _ ?_
    | with_reducible refine Framed.foldl_fst _ (fun _ _ => ?_) _ _ _ ?_
    | dsimp only [id]
    | split
  all_goals try (with_reducible apply Framed.upd rfl <;> first | exact Or.inl (by decide) | with_reducible exact Or.inr rfl | with_reducible exact Or.inr ⟨rfl, rfl⟩ | with_reducible exact Or.inl ⟨by decide, fun h => h⟩ | with_reducible exact Or.inl ⟨by decide, Nat.le_refl _⟩ | exact Or.inl ⟨by decide, fun h => bwrite_wf _ _ _ h⟩ | exact Or.inl ⟨by decide, fun h => bzero_wf _ _ _ h⟩ | exact Or.inl ⟨by decide, fun _ => rfl⟩ | exact Or.inl ⟨by decide, Err.bounded_q rfl (fun h => by rw [lmod_length]; exact h)⟩ | exact Or.inl ⟨by decide, Err.bounded_q rfl (fun h => h)⟩ | exact Or.inl ⟨by decide, Err.bounded_q rfl (fun h => by rw [List.length_map]; exact h)⟩ | exact Or.inl ⟨by decide, Nat.le_succ _⟩ | exact Or.inl ⟨by decide, Err.bounded_put rfl (fun h => Err.bounded_unit h _) (fun h => h)⟩ | skip)
  repeat' first
    | with_reducible exact Framed.refl _ _
    | decide
    | with_reducible refine memWrite_frame ?_ ?_
    | with_reducible refine memZero_frame ?_ ?_
    | with_reducible refine Framed.foldl _ (fun _ _ => ?_) _ _ _ ?_
    | with_reducible refine Framed.foldl_fst _ (fun _ _ => ?_) _ _ _ ?_
    | dsimp only [id]
    | split

theorem testStart_frame {site : Nat}  (sub : ∀ p ∈ [.net, .wsh, .bst], p ∈ ps) (fr : Framed ps s0 s) :
    Framed ps s0 (testStart site s) := by
  refine fr.trans (Framed.mono sub ?_)
  clear sub fr
  unfold testStart
  repeat' first
    | with_reducible exact Framed.refl _ _
    | decide
    | with_reducible refine modBst_frame ?_ ?_
    | with_reducible refine modWsh_frame ?_ ?_
    | with_reducible refine siteOut_frame ?_ ?_
    | with_reducible refine Framed.ite (fun _ => ?_) (fun _ => ?_)
    | dsimp only [id]
    | split
  all_goals try (with_reducible apply Framed.upd rfl <;> first | exact Or.inl (by decide) | with_reducible exact Or.inr rfl | with_reducible exact Or.inr ⟨rfl, rfl⟩ | with_reducible exact Or.inl ⟨by decide, fun h => h⟩ | with_reducible exact Or.inl ⟨by decide, Nat.le_refl _⟩ | exact Or.inl ⟨by decide, fun h => bwrite_wf _ _ _ h⟩ | exact Or.inl ⟨by decide, fun h => bzero_wf _ _ _ h⟩ | exact Or.inl ⟨by decide, fun _ => rfl⟩ | exact Or.inl ⟨by decide, Err.bounded_q rfl (fun h => by rw [lmod_length]; exact h)⟩ | exact Or.inl ⟨by decide, Err.bounded_q rfl (fun h => h)⟩ | exact Or.inl ⟨by decide, Err.bounded_q rfl (fun h => by rw [List.length_map]; exact h)⟩ | exact Or.inl ⟨by decide, Nat.le_succ _⟩ | exact Or.inl ⟨by decide, Err.bounded_put rfl (fun h => Err.bounded_unit h _) (fun h => h)⟩ | skip)
  repeat' first
    | with_reducible exact Framed.refl _ _
    | decide
    | with_reducible refine modBst_frame ?_ ?_
    | with_reducible refine modWsh_frame ?_ ?_
    | with_reducible refine siteOut_frame ?_ ?_
    | with_reducible refine Framed.ite (fun _ => ?_) (fun _ => ?_)
    | dsimp only [id]
    | split
  all_goals try (with_reducible apply Framed.upd rfl <;> first | exact Or.inl (by decide) | with_reducible exact Or.inr rfl | with_reducible exact Or.inr ⟨rfl, rfl⟩ | with_reducible exact Or.inl ⟨by decide, fun h => h⟩ | with_reducible exact Or.inl ⟨by decide, Nat.le_refl _⟩ | exact Or.inl ⟨by decide, fun h => bwrite_wf _ _ _ h⟩ | exact Or.inl ⟨by decide, fun h => bzero_wf _ _ _ h⟩ | exact Or.inl ⟨by decide, fun _ => rfl⟩ | exact Or.inl ⟨by decide, Err.bounded_q rfl (fun h => by rw [lmod_length]; exact h)⟩ | exact Or.inl ⟨by decide, Err.bounded_q rfl (fun h => h)⟩ | exact Or.inl ⟨by decide, Err.bounded_q rfl (fun h => by rw [List.length_map]; exact h)⟩ | exact Or.inl ⟨by decide, Nat.le_succ _⟩ | exact Or.inl ⟨by decide, Err.bounded_put rfl (fun h => Err.bounded_unit h _) (fun h => h)⟩ | skip)
  repeat' first
    | with_reducible exact Framed.refl _ _
    | decide
    | with_reducible refine modBst_frame ?_ ?_
    | with_reducible refine modWsh_frame ?_ ?_
    | with_reducible refine siteOut_frame ?_ ?_
    | with_reducible refine Framed.ite (fun _ => ?_) (fun _ => ?_)
    | dsimp only [id]
    | split
  all_goals try (with_reducible apply Framed.upd rfl <;> first | exact Or.inl (by decide) | with_reducible exact Or.inr rfl | with_reducible exact Or.inr ⟨rfl, rfl⟩ | with_reducible exact Or.inl ⟨by decide, fun h => h⟩ | with_reducible exact Or.inl ⟨by decide, Nat.le_refl _⟩ | exact Or.inl ⟨by decide, fun h => bwrite_wf _ _ _ h⟩ | exact Or.inl ⟨by decide, fun h => bzero_wf _ _ _ h⟩ | exact Or.inl ⟨by decide, fun _ => rfl⟩ | exact Or.inl ⟨by decide, Err.bounded_q rfl (fun h => by rw [lmod_length]; exact h)⟩ | exact Or.inl ⟨by decide, Err.bounded_q rfl (fun h => h)⟩ | exact Or.inl ⟨by decide, Err.bounded_q rfl (fun h => by rw [List.length_map]; exact h)⟩ | exact Or.inl ⟨by decide, Nat.le_succ _⟩ | exact Or.inl ⟨by decide, Err.bounded_put rfl (fun h => Err.bounded_unit h _) (fun h => h)⟩ | skip)
  repeat' first
    | with_reducible exact Framed.refl _ _
    | decide
    | with_reducible refine modBst_frame ?_ ?_
    | with_reducible refine modWsh_frame ?_ ?_
    | with_reducible refine siteOut_frame ?_ ?_
    | with_reducible refine Framed.ite (fun _ => ?_) (fun _ => ?_)
    | dsimp only [id]
    | split

theorem throttleUp_frame  (sub : ∀ p ∈ [.lev], p ∈ ps) (fr : Framed ps s0 s) :
    Framed ps s0 (throttleUp s) := by
  refine fr.trans (Framed.mono sub ?_)
  clear sub fr
  unfold throttleUp
  repeat' first
    | with_reducible exact Framed.refl _ _
    | decide
    | with_reducible refine modLev_frame ?_ ?_
    | dsimp only [id]
  all_goals try (with_reducible apply Framed.upd rfl <;> first | exact Or.inl (by decide) | with_reducible exact Or.inr rfl | with_reducible exact Or.inr ⟨rfl, rfl⟩ | with_reducible exact Or.inl ⟨by decide, fun h => h⟩ | with_reducible exact Or.inl ⟨by decide, Nat.le_refl _⟩ | exact Or.inl ⟨by decide, fun h => bwrite_wf _ _ _ h⟩ | exact Or.inl ⟨by decide, fun h => bzero_wf _ _ _ h⟩ | exact Or.inl ⟨by decide, fun _ => rfl⟩ | exact Or.inl ⟨by decide, Err.bounded_q rfl (fun h => by rw [lmod_length]; exact h)⟩ | exact Or.inl ⟨by decide, Err.bounded_q rfl (fun h => h)⟩ | exact Or.inl ⟨by decide, Err.bounded_q rfl (fun h => by rw [List.length_map]; exact h)⟩ | exact Or.inl ⟨by decide, Nat.le_succ _⟩ | exact Or.inl ⟨by decide, Err.bounded_put rfl (fun h => Err.bounded_unit h _) (fun h => h)⟩ | skip)
  repeat' first
    | with_reducible exact Framed.refl _ _
    | decide
    | with_reducible refine modLev_frame ?_ ?_
    | dsimp only [id]
  all_goals try (with_reducible apply Framed.upd rfl <;> first | exact Or.inl (by decide) | with_reducible exact Or.inr rfl | with_reducible exact Or.inr ⟨rfl, rfl⟩ | with_reducible exact Or.inl ⟨by decide, fun h => h⟩ | with_reducible exact Or.inl ⟨by decide, Nat.le_refl _⟩ | exact Or.inl ⟨by decide, fun h => bwrite_wf _ _ _ h⟩ | exact Or.inl ⟨by decide, fun h => bzero_wf _ _ _ h⟩ | exact Or.inl ⟨by decide, fun _ => rfl⟩ | exact Or.inl ⟨by decide, Err.bounded_q rfl (fun h => by rw [lmod_length]; exact h)⟩ | exact Or.inl ⟨by decide, Err.bounded_q rfl (fun h => h)⟩ | exact Or.inl ⟨by decide, Err.bounded_q rfl (fun h => by rw [List.length_map]; exact h)⟩ | exact Or.inl ⟨by decide, Nat.le_succ _⟩ | exact Or.inl ⟨by decide, Err.bounded_put rfl (fun h => Err.bounded_unit h _) (fun h => h)⟩ | skip)
  repeat' first
    | with_reducible exact Framed.refl _ _
    | decide
    | with_reducible refine modLev_frame ?_ ?_
    | dsimp only [id]
  all_goals try (with_reducible apply Framed.upd rfl <;> first | exact Or.inl (by decide) | with_reducible exact Or.inr rfl | with_reducible exact Or.inr ⟨rfl, rfl⟩ | with_reducible exact Or.inl ⟨by decide, fun h => h⟩ | with_reducible exact Or.inl ⟨by decide, Nat.le_refl _⟩ | exact Or.inl ⟨by decide, fun h => bwrite_wf _ _ _ h⟩ | exact Or.inl ⟨by decide, fun h => bzero_wf _ _ _ h⟩ | exact Or.inl ⟨by decide, fun _ => rfl⟩ | exact Or.inl ⟨by decide, Err.bounded_q rfl (fun h => by rw [lmod_length]; exact h)⟩ | exact Or.inl ⟨by decide, Err.bounded_q rfl (fun h => h)⟩ | exact Or.inl ⟨by decide, Err.bounded_q rfl (fun h => by rw [List.length_map]; exact h)⟩ | exact Or.inl ⟨by decide, Nat.le_succ _⟩ | exact Or.inl ⟨by decide, Err.bounded_put rfl (fun h => Err.bounded_unit h _) (fun h => h)⟩ | skip)
  repeat' first
    | with_reducible exact Framed.refl _ _
    | decide
    | with_reducible refine modLev_frame ?_ ?_
    | dsimp only [id]

theorem verifyImages_frame  (sub : ∀ p ∈ [.out, .err, .tel, .net, .hdw], p ∈ ps) (fr : Framed ps s0 s) :
    Framed ps s0 (verifyImages s) := by
  refine fr.trans (Framed.mono sub ?_)
  clear sub fr
  unfold verifyImages
  repeat' first
    | with_reducible exact Framed.refl _ _
    | decide
    | with_reducible refine imageMissing_frame ?_ ?_
    | with_reducible refine imageStart_frame ?_ ?_
    | with_reducible refine measure_frame ?_ ?_
    | with_reducible refine modHdw_frame ?_ ?_
    | with_reducible refine Framed.foldl _ (fun _ _ => ?_) _ _ _ ?_
    | with_reducible refine Framed.foldl_fst _ (fun _ _ => ?_) _ _ _ ?_
    | dsimp only [id]
    | split
  all_goals try (with_reducible apply Framed.upd rfl <;> first | exact Or.inl (by decide) | with_reducible exact Or.inr rfl | with_reducible exact Or.inr ⟨rfl, rfl⟩ | with_reducible exact Or.inl ⟨by decide, fun h => h⟩ | with_reducible exact Or.inl ⟨by decide, Nat.le_refl _⟩ | exact Or.inl ⟨by decide, fun h => bwrite_wf _ _ _ h⟩ | exact Or.inl ⟨by decide, fun h => bzero_wf _ _ _ h⟩ | exact Or.inl ⟨by decide, fun _ => rfl⟩ | exact Or.inl ⟨by decide, Err.bounded_q rfl (fun h => by rw [lmod_length]; exact h)⟩ | exact Or.inl ⟨by decide, Err.bounded_q rfl (fun h => h)⟩ | exact Or.inl ⟨by decide, Err.bounded_q rfl (fun h => by rw [List.length_map]; exact h)⟩ | exact Or.inl ⟨by decide, Nat.le_succ _⟩ | exact Or.inl ⟨by decide, Err.bounded_put rfl (fun h => Err.bounded_unit h _) (fun h => h)⟩ | skip)
  repeat' first
    | with_reducible exact Framed.refl _ _
    | decide
    | with_reducible refine imageMissing_frame ?_ ?_
    | with_reducible refine imageStart_frame ?_ ?_
    | with_reducible refine measure_frame ?_ ?_
    | with_reducible refine modHdw_frame ?_ ?_
    | with_reducible refine Framed.foldl _ (fun _ _ => ?_) _ _ _ ?_
    | with_reducible refine Framed.foldl_fst _ (fun _ _ => ?_) _ _ _ ?_
    | dsimp only [id]
    | split
  all_goals try (with_reducible apply Framed.upd rfl <;> first | exact Or.inl (by decide) | with_reducible exact Or.inr rfl | with_reducible exact Or.inr ⟨rfl, rfl⟩ | with_reducible exact Or.inl ⟨by decide, fun h => h⟩ | with_reducible exact Or.inl ⟨by decide, Nat.le_refl _⟩ | exact Or.inl ⟨by decide, fun h => bwrite_wf _ _ _ h⟩ | exact Or.inl ⟨by decide, fun h => bzero_wf _ _ _ h⟩ | exact Or.inl ⟨by decide, fun _ => rfl⟩ | exact Or.inl ⟨by decide, Err.bounded_q rfl (fun h => by rw [lmod_length]; exact h)⟩ | exact Or.inl ⟨by decide, Err.bounded_q rfl (fun h => h)⟩ | exact Or.inl ⟨by decide, Err.bounded_q rfl (fun h => by rw [List.length_map]; exact h)⟩ | exact Or.inl ⟨by decide, Nat.le_succ _⟩ | exact Or.inl ⟨by decide, Err.bounded_put rfl (fun h => Err.bounded_unit h _) (fun h => h)⟩ | skip)
  repeat' first
    | with_reducible exact Framed.refl _ _
    | decide
    | with_reducible refine imageMissing_frame ?_ ?_
    | with_reducible refine imageStart_frame ?_ ?_
    | with_reducible refine measure_frame ?_ ?_
    | with_reducible refine modHdw_frame ?_ ?_
    | with_reducible refine Framed.foldl _ (fun _ _ => ?_) _ _ _ ?_
    | with_reducible refine Framed.foldl_fst _ (fun _ _ => ?_) _ _ _ ?_
    | dsimp only [id]
    | split
  all_goals try (with_reducible apply Framed.upd rfl <;> first | exact Or.inl (by decide) | with_reducible exact Or.inr rfl | with_reducible exact Or.inr ⟨rfl, rfl⟩ | with_reducible exact Or.inl ⟨by decide, fun h => h⟩ | with_reducible exact Or.inl ⟨by decide, Nat.le_refl _⟩ | exact Or.inl ⟨by decide, fun h => bwrite_wf _ _ _ h⟩ | exact Or.inl ⟨by decide, fun h => bzero_wf _ _ _ h⟩ | exact Or.inl ⟨by decide, fun _ => rfl⟩ | exact Or.inl ⟨by decide, Err.bounded_q rfl (fun h => by rw [lmod_length]; exact h)⟩ | exact Or.inl ⟨by decide, Err.bounded_q rfl (fun h => h)⟩ | exact Or.inl ⟨by decide, Err.bounded_q rfl (fun h => by rw [List.length_map]; exact h)⟩ | exact Or.inl ⟨by decide, Nat.le_succ _⟩ | exact Or.inl ⟨by decide, Err.bounded_put rfl (fun h => Err.bounded_unit h _) (fun h => h)⟩ | skip)
  repeat' first
    | with_reducible exact Framed.refl _ _
    | decide
    | with_reducible refine imageMissing_frame ?_ ?_
    | with_reducible refine imageStart_frame ?_ ?_
    | with_reducible refine measure_frame ?_ ?_
    | with_reducible refine modHdw_frame ?_ ?_
    | with_reducible refine Framed.foldl _ (fun _ _ => ?_) _ _ _ ?_
    | with_reducible refine Framed.foldl_fst _ (fun _ _ => ?_) _ _ _ ?_
    | dsimp only [id]
    | split

theorem writeCommand_frame {on : State → Nat → Nat → Bool} {x : RegIn}  (sub : ∀ p ∈ [.out, .err, .tel, .regs, .net, .tide, .fly, .chk, .slc, .mem, .rsv, .csn, .wsh, .hst, .own, .bst, .hdw, .lev], p ∈ ps) (fr : Framed ps s0 s) :
    Framed ps s0 (writeCommand on x s) := by
  refine fr.trans (Framed.mono sub ?_)
  clear sub fr
  unfold writeCommand
  repeat' first
    | with_reducible exact Framed.refl _ _
    | decide
    | with_reducible refine hostStore_frame ?_ ?_
    | with_reducible refine mgmtWrite_frame ?_ ?_
    | with_reducible refine regMsg_frame ?_ ?_
    | with_reducible refine regMsg_of (by assumption) ?_ ?_
    | with_reducible refine Framed.ite (fun _ => ?_) (fun _ => ?_)
    | dsimp only [id]
    | split
  all_goals try (with_reducible apply Framed.upd rfl <;> first | exact Or.inl (by decide) | with_reducible exact Or.inr rfl | with_reducible exact Or.inr ⟨rfl, rfl⟩ | with_reducible exact Or.inl ⟨by decide, fun h => h⟩ | with_reducible exact Or.inl ⟨by decide, Nat.le_refl _⟩ | exact Or.inl ⟨by decide, fun h => bwrite_wf _ _ _ h⟩ | exact Or.inl ⟨by decide, fun h => bzero_wf _ _ _ h⟩ | exact Or.inl ⟨by decide, fun _ => rfl⟩ | exact Or.inl ⟨by decide, Err.bounded_q rfl (fun h => by rw [lmod_length]; exact h)⟩ | exact Or.inl ⟨by decide, Err.bounded_q rfl (fun h => h)⟩ | exact Or.inl ⟨by decide, Err.bounded_q rfl (fun h => by rw [List.length_map]; exact h)⟩ | exact Or.inl ⟨by decide, Nat.le_succ _⟩ | exact Or.inl ⟨by decide, Err.bounded_put rfl (fun h => Err.bounded_unit h _) (fun h => h)⟩ | skip)
  repeat' first
    | with_reducible exact Framed.refl _ _
    | decide
    | with_reducible refine hostStore_frame ?_ ?_
    | with_reducible refine mgmtWrite_frame ?_ ?_
    | with_reducible refine regMsg_frame ?_ ?_
    | with_reducible refine regMsg_of (by assumption) ?_ ?_
    | with_reducible refine Framed.ite (fun _ => ?_) (fun _ => ?_)
    | dsimp only [id]
    | split
  all_goals try (with_reducible apply Framed.upd rfl <;> first | exact Or.inl (by decide) | with_reducible exact Or.inr rfl | with_reducible exact Or.inr ⟨rfl, rfl⟩ | with_reducible exact Or.inl ⟨by decide, fun h => h⟩ | with_reducible exact Or.inl ⟨by decide, Nat.le_refl _⟩ | exact Or.inl ⟨by decide, fun h => bwrite_wf _ _ _ h⟩ | exact Or.inl ⟨by decide, fun h => bzero_wf _ _ _ h⟩ | exact Or.inl ⟨by decide, fun _ => rfl⟩ | exact Or.inl ⟨by decide, Err.bounded_q rfl (fun h => by rw [lmod_length]; exact h)⟩ | exact Or.inl ⟨by decide, Err.bounded_q rfl (fun h => h)⟩ | exact Or.inl ⟨by decide, Err.bounded_q rfl (fun h => by rw [List.length_map]; exact h)⟩ | exact Or.inl ⟨by decide, Nat.le_succ _⟩ | exact Or.inl ⟨by decide, Err.bounded_put rfl (fun h => Err.bounded_unit h _) (fun h => h)⟩ | skip)
  repeat' first
    | with_reducible exact Framed.refl _ _
    | decide
    | with_reducible refine hostStore_frame ?_ ?_
    | with_reducible refine mgmtWrite_frame ?_ ?_
    | with_reducible refine regMsg_frame ?_ ?_
    | with_reducible refine regMsg_of (by assumption) ?_ ?_
    | with_reducible refine Framed.ite (fun _ => ?_) (fun _ => ?_)
    | dsimp only [id]
    | split
  all_goals try (with_reducible apply Framed.upd rfl <;> first | exact Or.inl (by decide) | with_reducible exact Or.inr rfl | with_reducible exact Or.inr ⟨rfl, rfl⟩ | with_reducible exact Or.inl ⟨by decide, fun h => h⟩ | with_reducible exact Or.inl ⟨by decide, Nat.le_refl _⟩ | exact Or.inl ⟨by decide, fun h => bwrite_wf _ _ _ h⟩ | exact Or.inl ⟨by decide, fun h => bzero_wf _ _ _ h⟩ | exact Or.inl ⟨by decide, fun _ => rfl⟩ | exact Or.inl ⟨by decide, Err.bounded_q rfl (fun h => by rw [lmod_length]; exact h)⟩ | exact Or.inl ⟨by decide, Err.bounded_q rfl (fun h => h)⟩ | exact Or.inl ⟨by decide, Err.bounded_q rfl (fun h => by rw [List.length_map]; exact h)⟩ | exact Or.inl ⟨by decide, Nat.le_succ _⟩ | exact Or.inl ⟨by decide, Err.bounded_put rfl (fun h => Err.bounded_unit h _) (fun h => h)⟩ | skip)
  repeat' first
    | with_reducible exact Framed.refl _ _
    | decide
    | with_reducible refine hostStore_frame ?_ ?_
    | with_reducible refine mgmtWrite_frame ?_ ?_
    | with_reducible refine regMsg_frame ?_ ?_
    | with_reducible refine regMsg_of (by assumption) ?_ ?_
    | with_reducible refine Framed.ite (fun _ => ?_) (fun _ => ?_)
    | dsimp only [id]
    | split

end Sys2Proof.Machine
end

