-- ==== Sys2Proof/Laws/ExecA.lean ====
section
/-! SUPPORT. The frame of each command's meaning, Abort to ErrorDeliver: which parts of the state it may touch, and what it keeps. -/
set_option Elab.async false
namespace Sys2Proof.Machine

theorem execAbort_framed {e : Fin 64} {i : Nat} {s t : State} (h : execAbort e i s = .next t) : Framed [.out, .err, .tel, .rsv, .csn] s t := by
  unfold execAbort at h
  repeat' first
    | (injection h with h; subst h)
    | (injection h; done)
    | split at h
  all_goals repeat' first
    | with_reducible exact Framed.refl _ _
    | decide
    | with_reducible refine csnTake_frame ?_ ?_
    | with_reducible refine peerRequest_frame ?_ (fun _ _ _ _ => ?_) ?_
    | with_reducible refine peerRequest_frame ?_ ?_ ?_
    | with_reducible refine peerSet_frame ?_ ?_
    | with_reducible refine Framed.foldl _ (fun _ _ => ?_) _ _ _ ?_
    | with_reducible refine Framed.foldl_fst _ (fun _ _ => ?_) _ _ _ ?_
    | with_reducible refine Framed.ite (fun _ => ?_) (fun _ => ?_)
    | (with_reducible intro _)
    | dsimp only [id]
    | split

theorem execAccessWake_framed {l : Fin 1024000} {w : Wake} {e : Ecc} {s t : State} (h : execAccessWake l w e s = .next t) : Framed [.out, .err, .tel, .fly, .cells, .ctxs, .slc, .frs, .bst] s t := by
  unfold execAccessWake at h
  repeat' first
    | (injection h with h; subst h)
    | (injection h; done)
    | split at h
  all_goals repeat' first
    | with_reducible exact Framed.refl _ _
    | decide
    | with_reducible refine arrayGo_frame ?_ ?_
    | with_reducible refine doSir_frame ?_ ?_
    | with_reducible refine retryFill_frame ?_ ?_
    | with_reducible refine Framed.foldl _ (fun _ _ => ?_) _ _ _ ?_
    | with_reducible refine Framed.foldl_fst _ (fun _ _ => ?_) _ _ _ ?_
    | with_reducible refine Framed.ite (fun _ => ?_) (fun _ => ?_)
    | (with_reducible intro _)
    | dsimp only [id]
    | split

theorem execAcquireTimeout_framed {s t : State} (h : execAcquireTimeout s = .next t) : Framed [.now, .out, .err, .tel, .tide] s t := by
  unfold execAcquireTimeout at h
  repeat' first
    | (injection h with h; subst h)
    | (injection h; done)
    | split at h
  all_goals repeat' first
    | with_reducible exact Framed.refl _ _
    | decide
    | with_reducible refine enterTide_frame ?_ ?_
    | with_reducible refine modTide_frame ?_ ?_
    | with_reducible refine until__frame ?_ ?_
    | with_reducible refine Framed.foldl _ (fun _ _ => ?_) _ _ _ ?_
    | with_reducible refine Framed.foldl_fst _ (fun _ _ => ?_) _ _ _ ?_
    | with_reducible refine Framed.ite (fun _ => ?_) (fun _ => ?_)
    | (with_reducible intro _)
    | dsimp only [id]
    | split

theorem execAdmit_framed {q : Fin 64} {s t : State} (h : execAdmit q s = .next t) : Framed [.out, .err, .tel, .ctxs, .slc, .hst] s t := by
  unfold execAdmit at h
  repeat' first
    | (injection h with h; subst h)
    | (injection h; done)
    | split at h
  all_goals repeat' first
    | with_reducible exact Framed.refl _ _
    | decide
    | with_reducible refine dispatch_frame ?_ (fun _ _ _ => ?_) ?_
    | with_reducible refine dispatch_frame ?_ ?_ ?_
    | with_reducible refine modCtx_frame ?_ ?_
    | with_reducible refine telRestart_frame ?_ ?_
    | with_reducible refine Framed.foldl _ (fun _ _ => ?_) _ _ _ ?_
    | with_reducible refine Framed.foldl_fst _ (fun _ _ => ?_) _ _ _ ?_
    | with_reducible refine Framed.ite (fun _ => ?_) (fun _ => ?_)
    | (with_reducible intro _)
    | dsimp only [id]
    | split

theorem execAdmitComplete_framed {ctx : Fin 1024} {a : Admission} {s t : State} (h : execAdmitComplete ctx a s = .next t) : Framed [.out, .err, .tel, .cells, .chk, .ctxs, .slc, .frs, .mem, .rsv, .edy, .wsh, .hst] s t := by
  unfold execAdmitComplete at h
  repeat' first
    | (injection h with h; subst h)
    | (injection h; done)
    | split at h
  all_goals repeat' first
    | with_reducible exact Framed.refl _ _
    | decide
    | with_reducible refine admitRefuse_frame ?_ ?_
    | with_reducible refine loadAll_frame ?_ ?_
    | with_reducible refine memWrite_frame ?_ ?_
    | with_reducible refine modCtx_frame ?_ ?_
    | with_reducible refine placeRefuse_frame ?_ ?_
    | with_reducible refine postDesc_frame ?_ ?_
    | with_reducible refine recAsk_frame ?_ ?_
    | with_reducible refine recTake_frame ?_ ?_
    | with_reducible refine setStrm_frame ?_ ?_
    | with_reducible refine writeReport_frame ?_ ?_
    | with_reducible refine Framed.foldl _ (fun _ _ => ?_) _ _ _ ?_
    | with_reducible refine Framed.foldl_fst _ (fun _ _ => ?_) _ _ _ ?_
    | with_reducible refine Framed.ite (fun _ => ?_) (fun _ => ?_)
    | (with_reducible intro _)
    | dsimp only [id]
    | split
  all_goals try (with_reducible apply Framed.upd rfl <;> first | exact Or.inl (by decide) | with_reducible exact Or.inr rfl | with_reducible exact Or.inr ⟨rfl, rfl⟩ | with_reducible exact Or.inl ⟨by decide, fun h => h⟩ | with_reducible exact Or.inl ⟨by decide, Nat.le_refl _⟩ | exact Or.inl ⟨by decide, fun h => bwrite_wf _ _ _ h⟩ | exact Or.inl ⟨by decide, fun h => bzero_wf _ _ _ h⟩ | exact Or.inl ⟨by decide, fun _ => rfl⟩ | exact Or.inl ⟨by decide, Err.bounded_q rfl (fun h => by rw [lmod_length]; exact h)⟩ | exact Or.inl ⟨by decide, Err.bounded_q rfl (fun h => h)⟩ | exact Or.inl ⟨by decide, Err.bounded_q rfl (fun h => by rw [List.length_map]; exact h)⟩ | exact Or.inl ⟨by decide, Nat.le_succ _⟩ | exact Or.inl ⟨by decide, Err.bounded_put rfl (fun h => Err.bounded_unit h _) (fun h => h)⟩ | skip)
  all_goals repeat' first
    | with_reducible exact Framed.refl _ _
    | decide
    | with_reducible refine admitRefuse_frame ?_ ?_
    | with_reducible refine loadAll_frame ?_ ?_
    | with_reducible refine memWrite_frame ?_ ?_
    | with_reducible refine modCtx_frame ?_ ?_
    | with_reducible refine placeRefuse_frame ?_ ?_
    | with_reducible refine postDesc_frame ?_ ?_
    | with_reducible refine recAsk_frame ?_ ?_
    | with_reducible refine recTake_frame ?_ ?_
    | with_reducible refine setStrm_frame ?_ ?_
    | with_reducible refine writeReport_frame ?_ ?_
    | with_reducible refine Framed.foldl _ (fun _ _ => ?_) _ _ _ ?_
    | with_reducible refine Framed.foldl_fst _ (fun _ _ => ?_) _ _ _ ?_
    | with_reducible refine Framed.ite (fun _ => ?_) (fun _ => ?_)
    | (with_reducible intro _)
    | dsimp only [id]
    | split

theorem execAgeCapReached_framed {stk : Fin 64} {id : Nat} {s t : State} (h : execAgeCapReached stk id s = .next t) : Framed [.now, .mem] s t := by
  unfold execAgeCapReached at h
  repeat' first
    | (injection h with h; subst h)
    | (injection h; done)
    | split at h
  all_goals repeat' first
    | with_reducible exact Framed.refl _ _
    | decide
    | with_reducible refine modStk_frame ?_ ?_
    | with_reducible refine until__frame ?_ ?_
    | with_reducible refine Framed.foldl _ (fun _ _ => ?_) _ _ _ ?_
    | with_reducible refine Framed.foldl_fst _ (fun _ _ => ?_) _ _ _ ?_
    | with_reducible refine Framed.ite (fun _ => ?_) (fun _ => ?_)
    | (with_reducible intro _)
    | dsimp only [id]
    | split

theorem execAmm_framed {l : Fin 1024000} {th : Fin 4} {ra rb rk : Fin 32} {fmt : Fin 8} {acc : Bool} {bank : Fin 2} {relA relB : Bool} {e : Ecc} {s t : State} (h : execAmm l th ra rb rk fmt acc bank relA relB e s = .next t) : Framed [.out, .err, .tel, .fly, .cells, .ctxs, .slc, .bst] s t := by
  unfold execAmm at h
  repeat' first
    | (injection h with h; subst h)
    | (injection h; done)
    | split at h
  all_goals repeat' first
    | with_reducible exact Framed.refl _ _
    | decide
    | with_reducible refine issue_frame ?_ ?_
    | with_reducible refine Framed.foldl _ (fun _ _ => ?_) _ _ _ ?_
    | with_reducible refine Framed.foldl_fst _ (fun _ _ => ?_) _ _ _ ?_
    | with_reducible refine Framed.ite (fun _ => ?_) (fun _ => ?_)
    | (with_reducible intro _)
    | dsimp only [id]
    | split

theorem execAmmStreamStart_framed {l : Fin 1024000} {at_ : Option (Fin 1024000 × BitVec 16)} {e : Ecc} {s t : State} (h : execAmmStreamStart l at_ e s = .next t) : Framed [.out, .err, .tel, .fly, .cells, .ctxs, .slc, .bst] s t := by
  unfold execAmmStreamStart at h
  repeat' first
    | (injection h with h; subst h)
    | (injection h; done)
    | split at h
  all_goals repeat' first
    | with_reducible exact Framed.refl _ _
    | decide
    | with_reducible refine arrayGo_frame ?_ ?_
    | with_reducible refine Framed.foldl _ (fun _ _ => ?_) _ _ _ ?_
    | with_reducible refine Framed.foldl_fst _ (fun _ _ => ?_) _ _ _ ?_
    | with_reducible refine Framed.ite (fun _ => ?_) (fun _ => ?_)
    | (with_reducible intro _)
    | dsimp only [id]
    | split

theorem execAout_framed {l : Fin 1024000} {th : Fin 4} {rd rc : Fin 32} {ofmt : Fin 4} {pub : Bool} {bank : Fin 2} {e : Ecc} {s t : State} (h : execAout l th rd rc ofmt pub bank e s = .next t) : Framed [.out, .err, .tel, .fly, .cells, .ctxs, .slc, .bst] s t := by
  unfold execAout at h
  repeat' first
    | (injection h with h; subst h)
    | (injection h; done)
    | split at h
  all_goals repeat' first
    | with_reducible exact Framed.refl _ _
    | decide
    | with_reducible refine issue_frame ?_ ?_
    | with_reducible refine Framed.foldl _ (fun _ _ => ?_) _ _ _ ?_
    | with_reducible refine Framed.foldl_fst _ (fun _ _ => ?_) _ _ _ ?_
    | with_reducible refine Framed.ite (fun _ => ?_) (fun _ => ?_)
    | (with_reducible intro _)
    | dsimp only [id]
    | split

theorem execAoutWrite_framed {l : Fin 1024000} {s t : State} (h : execAoutWrite l s = .next t) : Framed [.out, .err, .tel, .cells, .ctxs, .slc] s t := by
  unfold execAoutWrite at h
  repeat' first
    | (injection h with h; subst h)
    | (injection h; done)
    | split at h
  all_goals repeat' first
    | with_reducible exact Framed.refl _ _
    | decide
    | with_reducible refine aoutGo_frame ?_ ?_
    | with_reducible refine cellStall_frame ?_ ?_
    | with_reducible refine trap_frame ?_ ?_
    | with_reducible refine Framed.foldl _ (fun _ _ => ?_) _ _ _ ?_
    | with_reducible refine Framed.foldl_fst _ (fun _ _ => ?_) _ _ _ ?_
    | with_reducible refine Framed.ite (fun _ => ?_) (fun _ => ?_)
    | (with_reducible intro _)
    | dsimp only [id]
    | split

theorem execAttestSigned_framed {bad : Nat} {s t : State} (h : execAttestSigned bad s = .next t) : Framed [.out, .err, .tel, .hst, .hdw] s t := by
  unfold execAttestSigned at h
  repeat' first
    | (injection h with h; subst h)
    | (injection h; done)
    | split at h
  all_goals repeat' first
    | with_reducible exact Framed.refl _ _
    | decide
    | with_reducible refine attAnswer_frame ?_ ?_
    | with_reducible refine attest_frame ?_ (fun _ _ => ?_) ?_
    | with_reducible refine attest_frame ?_ ?_ ?_
    | with_reducible refine indexTake_frame ?_ ?_
    | with_reducible refine indexTake_of (by assumption) ?_ ?_
    | with_reducible refine modHdw_frame ?_ ?_
    | with_reducible refine Framed.foldl _ (fun _ _ => ?_) _ _ _ ?_
    | with_reducible refine Framed.foldl_fst _ (fun _ _ => ?_) _ _ _ ?_
    | with_reducible refine Framed.ite (fun _ => ?_) (fun _ => ?_)
    | (with_reducible intro _)
    | dsimp only [id]
    | split

theorem execAttestUnsigned_framed {s t : State} (h : execAttestUnsigned s = .next t) : Framed [.out, .hst, .hdw] s t := by
  unfold execAttestUnsigned at h
  repeat' first
    | (injection h with h; subst h)
    | (injection h; done)
    | split at h
  all_goals repeat' first
    | with_reducible exact Framed.refl _ _
    | decide
    | with_reducible refine attAnswer_frame ?_ ?_
    | with_reducible refine attest_frame ?_ (fun _ _ => ?_) ?_
    | with_reducible refine attest_frame ?_ ?_ ?_
    | with_reducible refine Framed.foldl _ (fun _ _ => ?_) _ _ _ ?_
    | with_reducible refine Framed.foldl_fst _ (fun _ _ => ?_) _ _ _ ?_
    | with_reducible refine Framed.ite (fun _ => ?_) (fun _ => ?_)
    | (with_reducible intro _)
    | dsimp only [id]
    | split

theorem execAuditReport_framed {ctx : Fin 1024} {id : Nat} {k : Fin 2} {digest : Bytes} {s t : State} (h : execAuditReport ctx id k digest s = .next t) : Framed [.out, .err, .tel, .net, .fly, .csn, .est, .edy] s t := by
  unfold execAuditReport at h
  repeat' first
    | (injection h with h; subst h)
    | (injection h; done)
    | split at h
  all_goals repeat' first
    | with_reducible exact Framed.refl _ _
    | decide
    | with_reducible refine copyFailed_frame ?_ ?_
    | with_reducible refine edyCount_frame ?_ ?_
    | with_reducible refine modReplica_frame ?_ ?_
    | with_reducible refine publishTo_frame ?_ ?_
    | with_reducible refine raise_frame ?_ ?_
    | with_reducible refine Framed.foldl _ (fun _ _ => ?_) _ _ _ ?_
    | with_reducible refine Framed.foldl_fst _ (fun _ _ => ?_) _ _ _ ?_
    | with_reducible refine Framed.ite (fun _ => ?_) (fun _ => ?_)
    | (with_reducible intro _)
    | dsimp only [id]
    | split
  all_goals try (with_reducible apply Framed.upd rfl <;> first | exact Or.inl (by decide) | with_reducible exact Or.inr rfl | with_reducible exact Or.inr ⟨rfl, rfl⟩ | with_reducible exact Or.inl ⟨by decide, fun h => h⟩ | with_reducible exact Or.inl ⟨by decide, Nat.le_refl _⟩ | exact Or.inl ⟨by decide, fun h => bwrite_wf _ _ _ h⟩ | exact Or.inl ⟨by decide, fun h => bzero_wf _ _ _ h⟩ | exact Or.inl ⟨by decide, fun _ => rfl⟩ | exact Or.inl ⟨by decide, Err.bounded_q rfl (fun h => by rw [lmod_length]; exact h)⟩ | exact Or.inl ⟨by decide, Err.bounded_q rfl (fun h => h)⟩ | exact Or.inl ⟨by decide, Err.bounded_q rfl (fun h => by rw [List.length_map]; exact h)⟩ | exact Or.inl ⟨by decide, Nat.le_succ _⟩ | exact Or.inl ⟨by decide, Err.bounded_put rfl (fun h => Err.bounded_unit h _) (fun h => h)⟩ | skip)
  all_goals repeat' first
    | with_reducible exact Framed.refl _ _
    | decide
    | with_reducible refine copyFailed_frame ?_ ?_
    | with_reducible refine edyCount_frame ?_ ?_
    | with_reducible refine modReplica_frame ?_ ?_
    | with_reducible refine publishTo_frame ?_ ?_
    | with_reducible refine raise_frame ?_ ?_
    | with_reducible refine Framed.foldl _ (fun _ _ => ?_) _ _ _ ?_
    | with_reducible refine Framed.foldl_fst _ (fun _ _ => ?_) _ _ _ ?_
    | with_reducible refine Framed.ite (fun _ => ?_) (fun _ => ?_)
    | (with_reducible intro _)
    | dsimp only [id]
    | split

theorem execAuditStart_framed {e : Fin 64} {fix : List TileFix} {s t : State} (h : execAuditStart e fix s = .next t) : Framed [.now, .out, .err, .tel, .ctxs, .slc, .frs, .mem, .rsv, .est, .edy, .hst] s t := by
  unfold execAuditStart at h
  repeat' first
    | (injection h with h; subst h)
    | (injection h; done)
    | split at h
  all_goals repeat' first
    | with_reducible exact Framed.refl _ _
    | decide
    | with_reducible refine auditReplica_frame ?_ ?_
    | with_reducible refine auditShard_frame ?_ ?_
    | with_reducible refine countN_frame ?_ ?_
    | with_reducible refine modEdy_frame ?_ ?_
    | with_reducible refine until__frame ?_ ?_
    | with_reducible refine Framed.foldl _ (fun _ _ => ?_) _ _ _ ?_
    | with_reducible refine Framed.foldl_fst _ (fun _ _ => ?_) _ _ _ ?_
    | with_reducible refine Framed.ite (fun _ => ?_) (fun _ => ?_)
    | (with_reducible intro _)
    | dsimp only [id]
    | split

theorem execBackwardEnd_framed {ctx : Fin 1024} {s t : State} (h : execBackwardEnd ctx s = .next t) : Framed [.out, .err, .tel, .ctxs, .slc] s t := by
  unfold execBackwardEnd at h
  repeat' first
    | (injection h with h; subst h)
    | (injection h; done)
    | split at h
  all_goals repeat' first
    | with_reducible exact Framed.refl _ _
    | decide
    | with_reducible refine holdDue_frame ?_ ?_
    | with_reducible refine modCtx_frame ?_ ?_
    | with_reducible refine modStep_frame ?_ ?_
    | with_reducible refine postStep_frame ?_ ?_
    | with_reducible refine settle_frame ?_ ?_
    | with_reducible refine Framed.foldl _ (fun _ _ => ?_) _ _ _ ?_
    | with_reducible refine Framed.foldl_fst _ (fun _ _ => ?_) _ _ _ ?_
    | with_reducible refine Framed.ite (fun _ => ?_) (fun _ => ?_)
    | (with_reducible intro _)
    | dsimp only [id]
    | split

theorem execBankReady_framed {l : Fin 1024000} {bank : Fin 2} {s t : State} (h : execBankReady l bank s = .next t) : Framed [.cells] s t := by
  unfold execBankReady at h
  repeat' first
    | (injection h with h; subst h)
    | (injection h; done)
    | split at h
  all_goals repeat' first
    | with_reducible exact Framed.refl _ _
    | decide
    | with_reducible refine modCell_frame ?_ ?_
    | with_reducible refine Framed.foldl _ (fun _ _ => ?_) _ _ _ ?_
    | with_reducible refine Framed.foldl_fst _ (fun _ _ => ?_) _ _ _ ?_
    | with_reducible refine Framed.ite (fun _ => ?_) (fun _ => ?_)
    | (with_reducible intro _)
    | dsimp only [id]
    | split

theorem execBankRefresh_framed {stk : Fin 64} {bank : Fin 4096} {s t : State} (h : execBankRefresh stk bank s = .next t) : Framed [.tel, .mem] s t := by
  unfold execBankRefresh at h
  repeat' first
    | (injection h with h; subst h)
    | (injection h; done)
    | split at h
  all_goals repeat' first
    | with_reducible exact Framed.refl _ _
    | decide
    | with_reducible refine count_frame ?_ ?_
    | with_reducible refine modStk_frame ?_ ?_
    | with_reducible refine Framed.foldl _ (fun _ _ => ?_) _ _ _ ?_
    | with_reducible refine Framed.foldl_fst _ (fun _ _ => ?_) _ _ _ ?_
    | with_reducible refine Framed.ite (fun _ => ?_) (fun _ => ?_)
    | (with_reducible intro _)
    | dsimp only [id]
    | split

theorem execBatchReadDone_framed {ctx : Fin 1024} {step : Word} {data : Bytes} {s t : State} (h : execBatchReadDone ctx step data s = .next t) : Framed [.tel, .ctxs, .slc] s t := by
  unfold execBatchReadDone at h
  repeat' first
    | (injection h with h; subst h)
    | (injection h; done)
    | split at h
  all_goals repeat' first
    | with_reducible exact Framed.refl _ _
    | decide
    | with_reducible refine modStep_frame ?_ ?_
    | with_reducible refine refuseStep_frame ?_ ?_
    | with_reducible refine Framed.foldl _ (fun _ _ => ?_) _ _ _ ?_
    | with_reducible refine Framed.foldl_fst _ (fun _ _ => ?_) _ _ _ ?_
    | with_reducible refine Framed.ite (fun _ => ?_) (fun _ => ?_)
    | (with_reducible intro _)
    | dsimp only [id]
    | split

theorem execBatchReadTimeout_framed {ctx : Fin 1024} {step : Word} {s t : State} (h : execBatchReadTimeout ctx step s = .next t) : Framed [.tel, .ctxs, .slc] s t := by
  unfold execBatchReadTimeout at h
  repeat' first
    | (injection h with h; subst h)
    | (injection h; done)
    | split at h
  all_goals repeat' first
    | with_reducible exact Framed.refl _ _
    | decide
    | with_reducible refine refuseStep_frame ?_ ?_
    | with_reducible refine Framed.foldl _ (fun _ _ => ?_) _ _ _ ?_
    | with_reducible refine Framed.foldl_fst _ (fun _ _ => ?_) _ _ _ ?_
    | with_reducible refine Framed.ite (fun _ => ?_) (fun _ => ?_)
    | (with_reducible intro _)
    | dsimp only [id]
    | split

theorem execBiTimeout_framed {line : Nat} {s t : State} (h : execBiTimeout line s = .next t) : Framed [.now, .out, .err, .tel, .mem, .hst] s t := by
  unfold execBiTimeout at h
  repeat' first
    | (injection h with h; subst h)
    | (injection h; done)
    | split at h
  all_goals repeat' first
    | with_reducible exact Framed.refl _ _
    | decide
    | with_reducible refine count_frame ?_ ?_
    | with_reducible refine modHst_frame ?_ ?_
    | with_reducible refine raise_frame ?_ ?_
    | with_reducible refine until__frame ?_ ?_
    | with_reducible refine Framed.foldl _ (fun _ _ => ?_) _ _ _ ?_
    | with_reducible refine Framed.foldl_fst _ (fun _ _ => ?_) _ _ _ ?_
    | with_reducible refine Framed.ite (fun _ => ?_) (fun _ => ?_)
    | (with_reducible intro _)
    | dsimp only [id]
    | split
  all_goals try (with_reducible apply Framed.upd rfl <;> first | exact Or.inl (by decide) | with_reducible exact Or.inr rfl | with_reducible exact Or.inr ⟨rfl, rfl⟩ | with_reducible exact Or.inl ⟨by decide, fun h => h⟩ | with_reducible exact Or.inl ⟨by decide, Nat.le_refl _⟩ | exact Or.inl ⟨by decide, fun h => bwrite_wf _ _ _ h⟩ | exact Or.inl ⟨by decide, fun h => bzero_wf _ _ _ h⟩ | exact Or.inl ⟨by decide, fun _ => rfl⟩ | exact Or.inl ⟨by decide, Err.bounded_q rfl (fun h => by rw [lmod_length]; exact h)⟩ | exact Or.inl ⟨by decide, Err.bounded_q rfl (fun h => h)⟩ | exact Or.inl ⟨by decide, Err.bounded_q rfl (fun h => by rw [List.length_map]; exact h)⟩ | exact Or.inl ⟨by decide, Nat.le_succ _⟩ | exact Or.inl ⟨by decide, Err.bounded_put rfl (fun h => Err.bounded_unit h _) (fun h => h)⟩ | skip)
  all_goals repeat' first
    | with_reducible exact Framed.refl _ _
    | decide
    | with_reducible refine count_frame ?_ ?_
    | with_reducible refine modHst_frame ?_ ?_
    | with_reducible refine raise_frame ?_ ?_
    | with_reducible refine until__frame ?_ ?_
    | with_reducible refine Framed.foldl _ (fun _ _ => ?_) _ _ _ ?_
    | with_reducible refine Framed.foldl_fst _ (fun _ _ => ?_) _ _ _ ?_
    | with_reducible refine Framed.ite (fun _ => ?_) (fun _ => ?_)
    | (with_reducible intro _)
    | dsimp only [id]
    | split

theorem execBisnpResponse_framed {line : Nat} {dirty : Option Bytes} {s t : State} (h : execBisnpResponse line dirty s = .next t) : Framed [.out, .tel, .frs, .mem, .hst] s t := by
  unfold execBisnpResponse at h
  repeat' first
    | (injection h with h; subst h)
    | (injection h; done)
    | split at h
  all_goals repeat' first
    | with_reducible exact Framed.refl _ _
    | decide
    | with_reducible refine bisnpDone_frame ?_ ?_
    | with_reducible refine memWrite_frame ?_ ?_
    | with_reducible refine Framed.foldl _ (fun _ _ => ?_) _ _ _ ?_
    | with_reducible refine Framed.foldl_fst _ (fun _ _ => ?_) _ _ _ ?_
    | with_reducible refine Framed.ite (fun _ => ?_) (fun _ => ?_)
    | (with_reducible intro _)
    | dsimp only [id]
    | split

theorem execBootcfgCommit_framed {x : RegIn} {s t : State} (h : execBootcfgCommit x s = .next t) : Framed [.out, .err, .tel, .regs, .net, .tide, .fly, .chk, .slc, .mem, .rsv, .csn, .wsh, .hst, .own, .bst, .hdw, .lev] s t := by
  unfold execBootcfgCommit at h
  repeat' first
    | (injection h with h; subst h)
    | (injection h; done)
    | split at h
  all_goals repeat' first
    | with_reducible exact Framed.refl _ _
    | decide
    | with_reducible refine writeCommand_frame ?_ ?_
    | with_reducible refine Framed.foldl _ (fun _ _ => ?_) _ _ _ ?_
    | with_reducible refine Framed.foldl_fst _ (fun _ _ => ?_) _ _ _ ?_
    | with_reducible refine Framed.ite (fun _ => ?_) (fun _ => ?_)
    | (with_reducible intro _)
    | dsimp only [id]
    | split

theorem execBranch_framed {l : Fin 1024000} {th : Fin 4} {taken : Bool} {target : BitVec 16} {e : Ecc} {s t : State} (h : execBranch l th taken target e s = .next t) : Framed [.out, .err, .tel, .fly, .cells, .ctxs, .slc, .bst] s t := by
  unfold execBranch at h
  repeat' first
    | (injection h with h; subst h)
    | (injection h; done)
    | split at h
  all_goals repeat' first
    | with_reducible exact Framed.refl _ _
    | decide
    | with_reducible refine modCell_frame ?_ ?_
    | with_reducible refine plain_frame ?_ (fun _ _ => ?_) ?_
    | with_reducible refine plain_frame ?_ ?_ ?_
    | with_reducible refine Framed.foldl _ (fun _ _ => ?_) _ _ _ ?_
    | with_reducible refine Framed.foldl_fst _ (fun _ _ => ?_) _ _ _ ?_
    | with_reducible refine Framed.ite (fun _ => ?_) (fun _ => ?_)
    | (with_reducible intro _)
    | dsimp only [id]
    | split

theorem execBringupBudgetExpiry_framed {u : BringUp} {s t : State} (h : execBringupBudgetExpiry u s = .next t) : Framed [.now, .out, .free, .full, .err, .tel, .regs, .net, .tide, .fly, .cells, .chk, .ctxs, .slc, .frs, .mem, .rsv, .csn, .est, .edy, .wsh, .hst, .bst, .hdw, .lev] s t := by
  unfold execBringupBudgetExpiry at h
  repeat' first
    | (injection h with h; subst h)
    | (injection h; done)
    | split at h
  all_goals repeat' first
    | with_reducible exact Framed.refl _ _
    | decide
    | with_reducible refine bringUpStep_frame ?_ ?_
    | with_reducible refine enterTide_frame ?_ ?_
    | with_reducible refine modBst_frame ?_ ?_
    | with_reducible refine until__frame ?_ ?_
    | with_reducible refine verifyImages_frame ?_ ?_
    | with_reducible refine Framed.foldl _ (fun _ _ => ?_) _ _ _ ?_
    | with_reducible refine Framed.foldl_fst _ (fun _ _ => ?_) _ _ _ ?_
    | with_reducible refine Framed.ite (fun _ => ?_) (fun _ => ?_)
    | (with_reducible intro _)
    | dsimp only [id]
    | split

theorem execBusbarLoss_framed {s t : State} (h : execBusbarLoss s = .next t) : Framed [.out, .err, .tel, .regs, .net, .tide, .fly, .cells, .chk, .ctxs, .slc, .frs, .mem, .rsv, .csn, .est, .edy, .wsh, .hst, .own, .bst, .hdw, .lev] s t := by
  unfold execBusbarLoss at h
  repeat' first
    | (injection h with h; subst h)
    | (injection h; done)
    | split at h
  all_goals repeat' first
    | with_reducible exact Framed.refl _ _
    | decide
    | with_reducible refine hotSwapOpen_frame ?_ ?_
    | with_reducible refine mapDurable_frame ?_ ?_
    | with_reducible refine Framed.foldl _ (fun _ _ => ?_) _ _ _ ?_
    | with_reducible refine Framed.foldl_fst _ (fun _ _ => ?_) _ _ _ ?_
    | with_reducible refine Framed.ite (fun _ => ?_) (fun _ => ?_)
    | (with_reducible intro _)
    | dsimp only [id]
    | split

theorem execCapsDone_framed {e : Fin 64} {l : Fin 16} {rec_ : Bytes} {s t : State} (h : execCapsDone e l rec_ s = .next t) : Framed [.out, .err, .tel, .tide, .csn] s t := by
  unfold execCapsDone at h
  repeat' first
    | (injection h with h; subst h)
    | (injection h; done)
    | split at h
  all_goals repeat' first
    | with_reducible exact Framed.refl _ _
    | decide
    | with_reducible refine laneOut_frame ?_ ?_
    | with_reducible refine modLane_frame ?_ ?_
    | with_reducible refine Framed.foldl _ (fun _ _ => ?_) _ _ _ ?_
    | with_reducible refine Framed.foldl_fst _ (fun _ _ => ?_) _ _ _ ?_
    | with_reducible refine Framed.ite (fun _ => ?_) (fun _ => ?_)
    | (with_reducible intro _)
    | dsimp only [id]
    | split

theorem execCellKill_framed {l : Fin 1024000} {c : Fin 1024} {s t : State} (h : execCellKill l c s = .next t) : Framed [.tel, .cells, .ctxs, .frs] s t := by
  unfold execCellKill at h
  repeat' first
    | (injection h with h; subst h)
    | (injection h; done)
    | split at h
  all_goals repeat' first
    | with_reducible exact Framed.refl _ _
    | decide
    | with_reducible refine cellKill_frame ?_ ?_
    | with_reducible refine killReport_frame ?_ ?_
    | with_reducible refine Framed.foldl _ (fun _ _ => ?_) _ _ _ ?_
    | with_reducible refine Framed.foldl_fst _ (fun _ _ => ?_) _ _ _ ?_
    | with_reducible refine Framed.ite (fun _ => ?_) (fun _ => ?_)
    | (with_reducible intro _)
    | dsimp only [id]
    | split

theorem execChkRecord_framed {u : Fin 256} {ctx : Fin 1024} {prof : Fin 16} {append last close : Bool} {data : Bytes} {s t : State} (h : execChkRecord u ctx prof append last close data s = .next t) : Framed [.out, .err, .tel, .cells, .chk] s t := by
  unfold execChkRecord at h
  repeat' first
    | (injection h with h; subst h)
    | (injection h; done)
    | split at h
  all_goals repeat' first
    | with_reducible exact Framed.refl _ _
    | decide
    | with_reducible refine chkFail_frame ?_ ?_
    | with_reducible refine count_frame ?_ ?_
    | with_reducible refine done_frame ?_ ?_
    | with_reducible refine emit_frame ?_ ?_
    | with_reducible refine modChk_frame ?_ ?_
    | with_reducible refine Framed.foldl _ (fun _ _ => ?_) _ _ _ ?_
    | with_reducible refine Framed.foldl_fst _ (fun _ _ => ?_) _ _ _ ?_
    | with_reducible refine Framed.ite (fun _ => ?_) (fun _ => ?_)
    | (with_reducible intro _)
    | dsimp only [id]
    | split

theorem execChkSliceRestore_framed {u : Fin 256} {ctx : Fin 1024} {save : Nat} {s t : State} (h : execChkSliceRestore u ctx save s = .next t) : Framed [.cells, .chk] s t := by
  unfold execChkSliceRestore at h
  repeat' first
    | (injection h with h; subst h)
    | (injection h; done)
    | split at h
  all_goals repeat' first
    | with_reducible exact Framed.refl _ _
    | decide
    | with_reducible refine done_frame ?_ ?_
    | with_reducible refine modChk_frame ?_ ?_
    | with_reducible refine Framed.foldl _ (fun _ _ => ?_) _ _ _ ?_
    | with_reducible refine Framed.foldl_fst _ (fun _ _ => ?_) _ _ _ ?_
    | with_reducible refine Framed.ite (fun _ => ?_) (fun _ => ?_)
    | (with_reducible intro _)
    | dsimp only [id]
    | split

theorem execChkSliceSave_framed {u : Fin 256} {save : Nat} {s t : State} (h : execChkSliceSave u save s = .next t) : Framed [.out, .tel, .chk, .frs, .mem, .hst] s t := by
  unfold execChkSliceSave at h
  repeat' first
    | (injection h with h; subst h)
    | (injection h; done)
    | split at h
  all_goals repeat' first
    | with_reducible exact Framed.refl _ _
    | decide
    | with_reducible refine memWrite_frame ?_ ?_
    | with_reducible refine modChk_frame ?_ ?_
    | with_reducible refine Framed.foldl _ (fun _ _ => ?_) _ _ _ ?_
    | with_reducible refine Framed.foldl_fst _ (fun _ _ => ?_) _ _ _ ?_
    | with_reducible refine Framed.ite (fun _ => ?_) (fun _ => ?_)
    | (with_reducible intro _)
    | dsimp only [id]
    | split

theorem execClaim_framed {x : OwnIn} {s t : State} (h : execClaim x s = .next t) : Framed [.out, .err, .tel, .csn, .own] s t := by
  unfold execClaim at h
  repeat' first
    | (injection h with h; subst h)
    | (injection h; done)
    | split at h
  all_goals repeat' first
    | with_reducible exact Framed.refl _ _
    | decide
    | with_reducible refine ownCommand_frame ?_ ?_
    | with_reducible refine Framed.foldl _ (fun _ _ => ?_) _ _ _ ?_
    | with_reducible refine Framed.foldl_fst _ (fun _ _ => ?_) _ _ _ ?_
    | with_reducible refine Framed.ite (fun _ => ?_) (fun _ => ?_)
    | (with_reducible intro _)
    | dsimp only [id]
    | split

theorem execClearDone_framed {s t : State} (h : execClearDone s = .next t) : Framed [.out, .hdw] s t := by
  unfold execClearDone at h
  repeat' first
    | (injection h with h; subst h)
    | (injection h; done)
    | split at h
  all_goals repeat' first
    | with_reducible exact Framed.refl _ _
    | decide
    | with_reducible refine emit_frame ?_ ?_
    | with_reducible refine modHdw_frame ?_ ?_
    | with_reducible refine Framed.foldl _ (fun _ _ => ?_) _ _ _ ?_
    | with_reducible refine Framed.foldl_fst _ (fun _ _ => ?_) _ _ _ ?_
    | with_reducible refine Framed.ite (fun _ => ?_) (fun _ => ?_)
    | (with_reducible intro _)
    | dsimp only [id]
    | split

theorem execClose_framed {e : Fin 64} {i : Nat} {s t : State} (h : execClose e i s = .next t) : Framed [.out, .tel, .csn] s t := by
  unfold execClose at h
  repeat' first
    | (injection h with h; subst h)
    | (injection h; done)
    | split at h
  all_goals repeat' first
    | with_reducible exact Framed.refl _ _
    | decide
    | with_reducible refine csnTake_frame ?_ ?_
    | with_reducible refine modEng_frame ?_ ?_
    | with_reducible refine modTx_frame ?_ ?_
    | with_reducible refine openAsk_frame ?_ ?_
    | with_reducible refine Framed.foldl _ (fun _ _ => ?_) _ _ _ ?_
    | with_reducible refine Framed.foldl_fst _ (fun _ _ => ?_) _ _ _ ?_
    | with_reducible refine Framed.ite (fun _ => ?_) (fun _ => ?_)
    | (with_reducible intro _)
    | dsimp only [id]
    | split

theorem execCommitWithdraw_framed {slot : BitVec 50} {s t : State} (h : execCommitWithdraw slot s = .next t) : Framed [.out, .net, .fly] s t := by
  unfold execCommitWithdraw at h
  repeat' first
    | (injection h with h; subst h)
    | (injection h; done)
    | split at h
  all_goals repeat' first
    | with_reducible exact Framed.refl _ _
    | decide
    | with_reducible refine modNet_frame ?_ ?_
    | with_reducible refine rillSend_frame ?_ ?_
    | with_reducible refine Framed.foldl _ (fun _ _ => ?_) _ _ _ ?_
    | with_reducible refine Framed.foldl_fst _ (fun _ _ => ?_) _ _ _ ?_
    | with_reducible refine Framed.ite (fun _ => ?_) (fun _ => ?_)
    | (with_reducible intro _)
    | dsimp only [id]
    | split

theorem execCompletionWrite_framed {q : Fin 64} {s t : State} (h : execCompletionWrite q s = .next t) : Framed [.out, .tel, .slc] s t := by
  unfold execCompletionWrite at h
  repeat' first
    | (injection h with h; subst h)
    | (injection h; done)
    | split at h
  all_goals repeat' first
    | with_reducible exact Framed.refl _ _
    | decide
    | with_reducible refine countCtx_frame ?_ ?_
    | with_reducible refine emit_frame ?_ ?_
    | with_reducible refine modPair_frame ?_ ?_
    | with_reducible refine pairIrq_frame ?_ ?_
    | with_reducible refine Framed.foldl _ (fun _ _ => ?_) _ _ _ ?_
    | with_reducible refine Framed.foldl_fst _ (fun _ _ => ?_) _ _ _ ?_
    | with_reducible refine Framed.ite (fun _ => ?_) (fun _ => ?_)
    | (with_reducible intro _)
    | dsimp only [id]
    | split

theorem execCompletionWriteTimeout_framed {q : Fin 64} {s t : State} (h : execCompletionWriteTimeout q s = .next t) : Framed [.slc] s t := by
  unfold execCompletionWriteTimeout at h
  repeat' first
    | (injection h with h; subst h)
    | (injection h; done)
    | split at h
  all_goals repeat' first
    | with_reducible exact Framed.refl _ _
    | decide
    | with_reducible refine pairStop_frame ?_ ?_
    | with_reducible refine Framed.foldl _ (fun _ _ => ?_) _ _ _ ?_
    | with_reducible refine Framed.foldl_fst _ (fun _ _ => ?_) _ _ _ ?_
    | with_reducible refine Framed.ite (fun _ => ?_) (fun _ => ?_)
    | (with_reducible intro _)
    | dsimp only [id]
    | split

theorem execConcWindowEnd_framed {stk : Fin 64} {s t : State} (h : execConcWindowEnd stk s = .next t) : Framed [.out, .err, .tel, .mem] s t := by
  unfold execConcWindowEnd at h
  repeat' first
    | (injection h with h; subst h)
    | (injection h; done)
    | split at h
  all_goals repeat' first
    | with_reducible exact Framed.refl _ _
    | decide
    | with_reducible refine count_frame ?_ ?_
    | with_reducible refine modStk_frame ?_ ?_
    | with_reducible refine raise_frame ?_ ?_
    | with_reducible refine Framed.foldl _ (fun _ _ => ?_) _ _ _ ?_
    | with_reducible refine Framed.foldl_fst _ (fun _ _ => ?_) _ _ _ ?_
    | with_reducible refine Framed.ite (fun _ => ?_) (fun _ => ?_)
    | (with_reducible intro _)
    | dsimp only [id]
    | split
  all_goals try (with_reducible apply Framed.upd rfl <;> first | exact Or.inl (by decide) | with_reducible exact Or.inr rfl | with_reducible exact Or.inr ⟨rfl, rfl⟩ | with_reducible exact Or.inl ⟨by decide, fun h => h⟩ | with_reducible exact Or.inl ⟨by decide, Nat.le_refl _⟩ | exact Or.inl ⟨by decide, fun h => bwrite_wf _ _ _ h⟩ | exact Or.inl ⟨by decide, fun h => bzero_wf _ _ _ h⟩ | exact Or.inl ⟨by decide, fun _ => rfl⟩ | exact Or.inl ⟨by decide, Err.bounded_q rfl (fun h => by rw [lmod_length]; exact h)⟩ | exact Or.inl ⟨by decide, Err.bounded_q rfl (fun h => h)⟩ | exact Or.inl ⟨by decide, Err.bounded_q rfl (fun h => by rw [List.length_map]; exact h)⟩ | exact Or.inl ⟨by decide, Nat.le_succ _⟩ | exact Or.inl ⟨by decide, Err.bounded_put rfl (fun h => Err.bounded_unit h _) (fun h => h)⟩ | skip)
  all_goals repeat' first
    | with_reducible exact Framed.refl _ _
    | decide
    | with_reducible refine count_frame ?_ ?_
    | with_reducible refine modStk_frame ?_ ?_
    | with_reducible refine raise_frame ?_ ?_
    | with_reducible refine Framed.foldl _ (fun _ _ => ?_) _ _ _ ?_
    | with_reducible refine Framed.foldl_fst _ (fun _ _ => ?_) _ _ _ ?_
    | with_reducible refine Framed.ite (fun _ => ?_) (fun _ => ?_)
    | (with_reducible intro _)
    | dsimp only [id]
    | split

theorem execContrib_framed {e : Fin 64} {i : Nat} {s t : State} (h : execContrib e i s = .next t) : Framed [.csn, .est] s t := by
  unfold execContrib at h
  repeat' first
    | (injection h with h; subst h)
    | (injection h; done)
    | split at h
  all_goals repeat' first
    | with_reducible exact Framed.refl _ _
    | decide
    | with_reducible refine csnTake_frame ?_ ?_
    | with_reducible refine modEst_frame ?_ ?_
    | with_reducible refine Framed.foldl _ (fun _ _ => ?_) _ _ _ ?_
    | with_reducible refine Framed.foldl_fst _ (fun _ _ => ?_) _ _ _ ?_
    | with_reducible refine Framed.ite (fun _ => ?_) (fun _ => ?_)
    | (with_reducible intro _)
    | dsimp only [id]
    | split

theorem execContribAccept_framed {e : Fin 64} {hit : AccHit} {ecc : List (Nat × MemEcc)} {s t : State} (h : execContribAccept e hit ecc s = .next t) : Framed [.out, .free, .err, .tel, .net, .fly, .cells, .frs, .mem, .rsv, .csn, .est, .hst] s t := by
  unfold execContribAccept at h
  repeat' first
    | (injection h with h; subst h)
    | (injection h; done)
    | split at h
  all_goals repeat' first
    | with_reducible exact Framed.refl _ _
    | decide
    | with_reducible refine chkEng_frame ?_ ?_
    | with_reducible refine convAsk_frame ?_ ?_
    | with_reducible refine estCount_frame ?_ ?_
    | with_reducible refine fillSlot_frame ?_ ?_
    | with_reducible refine modEst_frame ?_ ?_
    | with_reducible refine ownLines_frame ?_ ?_
    | with_reducible refine raise_frame ?_ ?_
    | with_reducible refine tabTake_frame ?_ ?_
    | with_reducible refine unitGate_frame ?_ (fun _ => ?_) ?_
    | with_reducible refine unitGate_frame ?_ ?_ ?_
    | with_reducible refine Framed.foldl _ (fun _ _ => ?_) _ _ _ ?_
    | with_reducible refine Framed.foldl_fst _ (fun _ _ => ?_) _ _ _ ?_
    | with_reducible refine Framed.ite (fun _ => ?_) (fun _ => ?_)
    | (with_reducible intro _)
    | dsimp only [id]
    | split

theorem execContribSendArrival_framed {a : EstArr} {s t : State} (h : execContribSendArrival a s = .next t) : Framed [.out, .err, .tel, .fly, .cells, .ctxs, .slc, .est, .bst] s t := by
  unfold execContribSendArrival at h
  repeat' first
    | (injection h with h; subst h)
    | (injection h; done)
    | split at h
  all_goals repeat' first
    | with_reducible exact Framed.refl _ _
    | decide
    | with_reducible refine flagRead_frame ?_ ?_
    | with_reducible refine modCell_frame ?_ ?_
    | with_reducible refine modEst_frame ?_ ?_
    | with_reducible refine modOp_frame ?_ ?_
    | with_reducible refine readSend_frame ?_ ?_
    | with_reducible refine readSend_of (by assumption) ?_ ?_
    | with_reducible refine Framed.foldl _ (fun _ _ => ?_) _ _ _ ?_
    | with_reducible refine Framed.foldl_fst _ (fun _ _ => ?_) _ _ _ ?_
    | with_reducible refine Framed.ite (fun _ => ?_) (fun _ => ?_)
    | (with_reducible intro _)
    | dsimp only [id]
    | split

theorem execCoolantCondition_framed {row : Fin 6} {s t : State} (h : execCoolantCondition row s = .next t) : Framed [.now, .out, .err, .tel, .lev] s t := by
  unfold execCoolantCondition at h
  repeat' first
    | (injection h with h; subst h)
    | (injection h; done)
    | split at h
  all_goals repeat' first
    | with_reducible exact Framed.refl _ _
    | decide
    | with_reducible refine modLev_frame ?_ ?_
    | with_reducible refine raise_frame ?_ ?_
    | with_reducible refine shutdownStart_frame ?_ ?_
    | with_reducible refine until__frame ?_ ?_
    | with_reducible refine Framed.foldl _ (fun _ _ => ?_) _ _ _ ?_
    | with_reducible refine Framed.foldl_fst _ (fun _ _ => ?_) _ _ _ ?_
    | with_reducible refine Framed.ite (fun _ => ?_) (fun _ => ?_)
    | (with_reducible intro _)
    | dsimp only [id]
    | split

theorem execCoolantWaitTimeout_framed {s t : State} (h : execCoolantWaitTimeout s = .next t) : Framed [.now, .out, .err, .tel, .lev] s t := by
  unfold execCoolantWaitTimeout at h
  repeat' first
    | (injection h with h; subst h)
    | (injection h; done)
    | split at h
  all_goals repeat' first
    | with_reducible exact Framed.refl _ _
    | decide
    | with_reducible refine modLev_frame ?_ ?_
    | with_reducible refine raise_frame ?_ ?_
    | with_reducible refine until__frame ?_ ?_
    | with_reducible refine Framed.foldl _ (fun _ _ => ?_) _ _ _ ?_
    | with_reducible refine Framed.foldl_fst _ (fun _ _ => ?_) _ _ _ ?_
    | with_reducible refine Framed.ite (fun _ => ?_) (fun _ => ?_)
    | (with_reducible intro _)
    | dsimp only [id]
    | split

theorem execCopy_framed {q : Fin 64} {s t : State} (h : execCopy q s = .next t) : Framed [.out, .err, .tel, .ctxs, .slc, .hst] s t := by
  unfold execCopy at h
  repeat' first
    | (injection h with h; subst h)
    | (injection h; done)
    | split at h
  all_goals repeat' first
    | with_reducible exact Framed.refl _ _
    | decide
    | with_reducible refine dispatch_frame ?_ (fun _ _ _ => ?_) ?_
    | with_reducible refine dispatch_frame ?_ ?_ ?_
    | with_reducible refine modCtx_frame ?_ ?_
    | with_reducible refine Framed.foldl _ (fun _ _ => ?_) _ _ _ ?_
    | with_reducible refine Framed.foldl_fst _ (fun _ _ => ?_) _ _ _ ?_
    | with_reducible refine Framed.ite (fun _ => ?_) (fun _ => ?_)
    | (with_reducible intro _)
    | dsimp only [id]
    | split
  all_goals try (with_reducible apply Framed.upd rfl <;> first | exact Or.inl (by decide) | with_reducible exact Or.inr rfl | with_reducible exact Or.inr ⟨rfl, rfl⟩ | with_reducible exact Or.inl ⟨by decide, fun h => h⟩ | with_reducible exact Or.inl ⟨by decide, Nat.le_refl _⟩ | exact Or.inl ⟨by decide, fun h => bwrite_wf _ _ _ h⟩ | exact Or.inl ⟨by decide, fun h => bzero_wf _ _ _ h⟩ | exact Or.inl ⟨by decide, fun _ => rfl⟩ | exact Or.inl ⟨by decide, Err.bounded_q rfl (fun h => by rw [lmod_length]; exact h)⟩ | exact Or.inl ⟨by decide, Err.bounded_q rfl (fun h => h)⟩ | exact Or.inl ⟨by decide, Err.bounded_q rfl (fun h => by rw [List.length_map]; exact h)⟩ | exact Or.inl ⟨by decide, Nat.le_succ _⟩ | exact Or.inl ⟨by decide, Err.bounded_put rfl (fun h => Err.bounded_unit h _) (fun h => h)⟩ | skip)
  all_goals repeat' first
    | with_reducible exact Framed.refl _ _
    | decide
    | with_reducible refine dispatch_frame ?_ (fun _ _ _ => ?_) ?_
    | with_reducible refine dispatch_frame ?_ ?_ ?_
    | with_reducible refine modCtx_frame ?_ ?_
    | with_reducible refine Framed.foldl _ (fun _ _ => ?_) _ _ _ ?_
    | with_reducible refine Framed.foldl_fst _ (fun _ _ => ?_) _ _ _ ?_
    | with_reducible refine Framed.ite (fun _ => ?_) (fun _ => ?_)
    | (with_reducible intro _)
    | dsimp only [id]
    | split

theorem execCopyComplete_framed {ctx : Option (Fin 1024)} {data : Bytes} {s t : State} (h : execCopyComplete ctx data s = .next t) : Framed [.out, .err, .tel, .ctxs, .slc, .frs, .mem, .hst] s t := by
  unfold execCopyComplete at h
  dsimp only at h
  repeat' first
    | (injection h with h; subst h)
    | (injection h; done)
    | split at h
  all_goals repeat' first
    | with_reducible exact Framed.refl _ _
    | decide
    | with_reducible refine copyRun_frame ?_ ?_
    | with_reducible refine modCtx_frame ?_ ?_
    | with_reducible refine postDesc_frame ?_ ?_
    | with_reducible refine Framed.foldl _ (fun _ _ => ?_) _ _ _ ?_
    | with_reducible refine Framed.foldl_fst _ (fun _ _ => ?_) _ _ _ ?_
    | with_reducible refine Framed.ite (fun _ => ?_) (fun _ => ?_)
    | (with_reducible intro _)
    | dsimp only [id]
    | split
  all_goals try (with_reducible apply Framed.upd rfl <;> first | exact Or.inl (by decide) | with_reducible exact Or.inr rfl | with_reducible exact Or.inr ⟨rfl, rfl⟩ | with_reducible exact Or.inl ⟨by decide, fun h => h⟩ | with_reducible exact Or.inl ⟨by decide, Nat.le_refl _⟩ | exact Or.inl ⟨by decide, fun h => bwrite_wf _ _ _ h⟩ | exact Or.inl ⟨by decide, fun h => bzero_wf _ _ _ h⟩ | exact Or.inl ⟨by decide, fun _ => rfl⟩ | exact Or.inl ⟨by decide, Err.bounded_q rfl (fun h => by rw [lmod_length]; exact h)⟩ | exact Or.inl ⟨by decide, Err.bounded_q rfl (fun h => h)⟩ | exact Or.inl ⟨by decide, Err.bounded_q rfl (fun h => by rw [List.length_map]; exact h)⟩ | exact Or.inl ⟨by decide, Nat.le_succ _⟩ | exact Or.inl ⟨by decide, Err.bounded_put rfl (fun h => Err.bounded_unit h _) (fun h => h)⟩ | skip)
  all_goals repeat' first
    | with_reducible exact Framed.refl _ _
    | decide
    | with_reducible refine copyRun_frame ?_ ?_
    | with_reducible refine modCtx_frame ?_ ?_
    | with_reducible refine postDesc_frame ?_ ?_
    | with_reducible refine Framed.foldl _ (fun _ _ => ?_) _ _ _ ?_
    | with_reducible refine Framed.foldl_fst _ (fun _ _ => ?_) _ _ _ ?_
    | with_reducible refine Framed.ite (fun _ => ?_) (fun _ => ?_)
    | (with_reducible intro _)
    | dsimp only [id]
    | split

theorem execCountAdopt_framed {s t : State} (h : execCountAdopt s = .next t) : Framed [.out, .err, .tel, .tide] s t := by
  unfold execCountAdopt at h
  repeat' first
    | (injection h with h; subst h)
    | (injection h; done)
    | split at h
  all_goals repeat' first
    | with_reducible exact Framed.refl _ _
    | decide
    | with_reducible refine enterTide_frame ?_ ?_
    | with_reducible refine modTide_frame ?_ ?_
    | with_reducible refine setCount_frame ?_ ?_
    | with_reducible refine tideRec_frame ?_ ?_
    | with_reducible refine Framed.foldl _ (fun _ _ => ?_) _ _ _ ?_
    | with_reducible refine Framed.foldl_fst _ (fun _ _ => ?_) _ _ _ ?_
    | with_reducible refine Framed.ite (fun _ => ?_) (fun _ => ?_)
    | (with_reducible intro _)
    | dsimp only [id]
    | split

theorem execCountReadLatch_framed {x : RegIn} {s t : State} (h : execCountReadLatch x s = .next t) : Framed [.out, .err, .tel, .regs, .csn, .own] s t := by
  unfold execCountReadLatch at h
  repeat' first
    | (injection h with h; subst h)
    | (injection h; done)
    | split at h
  all_goals repeat' first
    | with_reducible exact Framed.refl _ _
    | decide
    | with_reducible refine readCommand_frame ?_ ?_
    | with_reducible refine Framed.foldl _ (fun _ _ => ?_) _ _ _ ?_
    | with_reducible refine Framed.foldl_fst _ (fun _ _ => ?_) _ _ _ ?_
    | with_reducible refine Framed.ite (fun _ => ?_) (fun _ => ?_)
    | (with_reducible intro _)
    | dsimp only [id]
    | split

theorem execCoverTimeout_framed {s t : State} (h : execCoverTimeout s = .next t) : Framed [.now, .out, .err, .tel, .bst] s t := by
  unfold execCoverTimeout at h
  repeat' first
    | (injection h with h; subst h)
    | (injection h; done)
    | split at h
  all_goals repeat' first
    | with_reducible exact Framed.refl _ _
    | decide
    | with_reducible refine modBst_frame ?_ ?_
    | with_reducible refine raise_frame ?_ ?_
    | with_reducible refine until__frame ?_ ?_
    | with_reducible refine Framed.foldl _ (fun _ _ => ?_) _ _ _ ?_
    | with_reducible refine Framed.foldl_fst _ (fun _ _ => ?_) _ _ _ ?_
    | with_reducible refine Framed.ite (fun _ => ?_) (fun _ => ?_)
    | (with_reducible intro _)
    | dsimp only [id]
    | split

theorem execCredit_framed {e : Fin 64} {i : Nat} {s t : State} (h : execCredit e i s = .next t) : Framed [.out, .err, .tel, .csn] s t := by
  unfold execCredit at h
  repeat' first
    | (injection h with h; subst h)
    | (injection h; done)
    | split at h
  all_goals repeat' first
    | with_reducible exact Framed.refl _ _
    | decide
    | with_reducible refine creditEntry_frame ?_ ?_
    | with_reducible refine csnTake_frame ?_ ?_
    | with_reducible refine Framed.foldl _ (fun _ _ => ?_) _ _ _ ?_
    | with_reducible refine Framed.foldl_fst _ (fun _ _ => ?_) _ _ _ ?_
    | with_reducible refine Framed.ite (fun _ => ?_) (fun _ => ?_)
    | (with_reducible intro _)
    | dsimp only [id]
    | split

theorem execCreditReturnTimer_framed {e : Fin 64} {s t : State} (h : execCreditReturnTimer e s = .next t) : Framed [.out, .tel, .csn] s t := by
  unfold execCreditReturnTimer at h
  repeat' first
    | (injection h with h; subst h)
    | (injection h; done)
    | split at h
  all_goals repeat' first
    | with_reducible exact Framed.refl _ _
    | decide
    | with_reducible refine creditSend_frame ?_ ?_
    | with_reducible refine modEng_frame ?_ ?_
    | with_reducible refine Framed.foldl _ (fun _ _ => ?_) _ _ _ ?_
    | with_reducible refine Framed.foldl_fst _ (fun _ _ => ?_) _ _ _ ?_
    | with_reducible refine Framed.ite (fun _ => ?_) (fun _ => ?_)
    | (with_reducible intro _)
    | dsimp only [id]
    | split

theorem execCxlIoCompletion_framed {agent : Fin 64} {slot : Fin 1024} {ok : Bool} {data : Bytes} {s t : State} (h : execCxlIoCompletion agent slot ok data s = .next t) : Framed [.out, .err, .tel, .fly, .cells, .chk, .mem, .rsv] s t := by
  unfold execCxlIoCompletion at h
  repeat' first
    | (injection h with h; subst h)
    | (injection h; done)
    | split at h
  all_goals repeat' first
    | with_reducible exact Framed.refl _ _
    | decide
    | with_reducible refine rsvFail_frame ?_ ?_
    | with_reducible refine rsvOver_frame ?_ ?_
    | with_reducible refine Framed.foldl _ (fun _ _ => ?_) _ _ _ ?_
    | with_reducible refine Framed.foldl_fst _ (fun _ _ => ?_) _ _ _ ?_
    | with_reducible refine Framed.ite (fun _ => ?_) (fun _ => ?_)
    | (with_reducible intro _)
    | dsimp only [id]
    | split

theorem execCxlIoCompletionTimeout_framed {agent : Fin 64} {slot : Fin 1024} {s t : State} (h : execCxlIoCompletionTimeout agent slot s = .next t) : Framed [.out, .err, .tel, .fly, .cells, .chk, .mem, .rsv] s t := by
  unfold execCxlIoCompletionTimeout at h
  repeat' first
    | (injection h with h; subst h)
    | (injection h; done)
    | split at h
  all_goals repeat' first
    | with_reducible exact Framed.refl _ _
    | decide
    | with_reducible refine rsvFail_frame ?_ ?_
    | with_reducible refine Framed.foldl _ (fun _ _ => ?_) _ _ _ ?_
    | with_reducible refine Framed.foldl_fst _ (fun _ _ => ?_) _ _ _ ?_
    | with_reducible refine Framed.ite (fun _ => ?_) (fun _ => ?_)
    | (with_reducible intro _)
    | dsimp only [id]
    | split

theorem execD0Return_framed {s t : State} (h : execD0Return s = .next t) : Framed [.out, .slc, .hst] s t := by
  unfold execD0Return at h
  repeat' first
    | (injection h with h; subst h)
    | (injection h; done)
    | split at h
  all_goals repeat' first
    | with_reducible exact Framed.refl _ _
    | decide
    | with_reducible refine fetchStart_frame ?_ ?_
    | with_reducible refine modHst_frame ?_ ?_
    | with_reducible refine Framed.foldl _ (fun _ _ => ?_) _ _ _ ?_
    | with_reducible refine Framed.foldl_fst _ (fun _ _ => ?_) _ _ _ ?_
    | with_reducible refine Framed.ite (fun _ => ?_) (fun _ => ?_)
    | (with_reducible intro _)
    | dsimp only [id]
    | split

theorem execD3hotEntry_framed {s t : State} (h : execD3hotEntry s = .next t) : Framed [.hst] s t := by
  unfold execD3hotEntry at h
  repeat' first
    | (injection h with h; subst h)
    | (injection h; done)
    | split at h
  all_goals repeat' first
    | with_reducible exact Framed.refl _ _
    | decide
    | with_reducible refine modHst_frame ?_ ?_
    | with_reducible refine Framed.foldl _ (fun _ _ => ?_) _ _ _ ?_
    | with_reducible refine Framed.foldl_fst _ (fun _ _ => ?_) _ _ _ ?_
    | with_reducible refine Framed.ite (fun _ => ?_) (fun _ => ?_)
    | (with_reducible intro _)
    | dsimp only [id]
    | split

theorem execDebugRead_framed {q : Fin 64} {s t : State} (h : execDebugRead q s = .next t) : Framed [.out, .err, .tel, .slc, .hst] s t := by
  unfold execDebugRead at h
  repeat' first
    | (injection h with h; subst h)
    | (injection h; done)
    | split at h
  all_goals repeat' first
    | with_reducible exact Framed.refl _ _
    | decide
    | with_reducible refine dispatch_frame ?_ (fun _ _ _ => ?_) ?_
    | with_reducible refine dispatch_frame ?_ ?_ ?_
    | with_reducible refine emit_frame ?_ ?_
    | with_reducible refine postDesc_frame ?_ ?_
    | with_reducible refine Framed.foldl _ (fun _ _ => ?_) _ _ _ ?_
    | with_reducible refine Framed.foldl_fst _ (fun _ _ => ?_) _ _ _ ?_
    | with_reducible refine Framed.ite (fun _ => ?_) (fun _ => ?_)
    | (with_reducible intro _)
    | dsimp only [id]
    | split

theorem execDeliveryIssue_framed {e : Fin 64} {pass out : Nat} {k : DelKey} {s t : State} (h : execDeliveryIssue e pass out k s = .next t) : Framed [.tel, .fly, .frs] s t := by
  unfold execDeliveryIssue at h
  repeat' first
    | (injection h with h; subst h)
    | (injection h; done)
    | split at h
  all_goals repeat' first
    | with_reducible exact Framed.refl _ _
    | decide
    | with_reducible refine countGrp_frame ?_ ?_
    | with_reducible refine countN_frame ?_ ?_
    | with_reducible refine modFrs_frame ?_ ?_
    | with_reducible refine putDel_frame ?_ ?_
    | with_reducible refine releaseEntries_frame ?_ ?_
    | with_reducible refine send_frame ?_ ?_
    | with_reducible refine Framed.foldl _ (fun _ _ => ?_) _ _ _ ?_
    | with_reducible refine Framed.foldl_fst _ (fun _ _ => ?_) _ _ _ ?_
    | with_reducible refine Framed.ite (fun _ => ?_) (fun _ => ?_)
    | (with_reducible intro _)
    | dsimp only [id]
    | split

theorem execDescriptorFetchDone_framed {q : Fin 64} {data : Bytes} {s t : State} (h : execDescriptorFetchDone q data s = .next t) : Framed [.out, .err, .tel, .slc, .hst] s t := by
  unfold execDescriptorFetchDone at h
  repeat' first
    | (injection h with h; subst h)
    | (injection h; done)
    | split at h
  all_goals repeat' first
    | with_reducible exact Framed.refl _ _
    | decide
    | with_reducible refine cacheAdd_frame ?_ ?_
    | with_reducible refine dropBadOps_frame ?_ ?_
    | with_reducible refine fetchStart_frame ?_ ?_
    | with_reducible refine modPair_frame ?_ ?_
    | with_reducible refine Framed.foldl _ (fun _ _ => ?_) _ _ _ ?_
    | with_reducible refine Framed.foldl_fst _ (fun _ _ => ?_) _ _ _ ?_
    | with_reducible refine Framed.ite (fun _ => ?_) (fun _ => ?_)
    | (with_reducible intro _)
    | dsimp only [id]
    | split

theorem execDescriptorFetchTimeout_framed {q : Fin 64} {s t : State} (h : execDescriptorFetchTimeout q s = .next t) : Framed [.now, .out, .err, .tel, .slc] s t := by
  unfold execDescriptorFetchTimeout at h
  repeat' first
    | (injection h with h; subst h)
    | (injection h; done)
    | split at h
  all_goals repeat' first
    | with_reducible exact Framed.refl _ _
    | decide
    | with_reducible refine emit_frame ?_ ?_
    | with_reducible refine modPair_frame ?_ ?_
    | with_reducible refine pairStop_frame ?_ ?_
    | with_reducible refine raise_frame ?_ ?_
    | with_reducible refine until__frame ?_ ?_
    | with_reducible refine Framed.foldl _ (fun _ _ => ?_) _ _ _ ?_
    | with_reducible refine Framed.foldl_fst _ (fun _ _ => ?_) _ _ _ ?_
    | with_reducible refine Framed.ite (fun _ => ?_) (fun _ => ?_)
    | (with_reducible intro _)
    | dsimp only [id]
    | split

theorem execDetectDone_framed {e : Fin 64} {l : Fin 16} {rx : BitVec 16} {s t : State} (h : execDetectDone e l rx s = .next t) : Framed [.now, .csn] s t := by
  unfold execDetectDone at h
  repeat' first
    | (injection h with h; subst h)
    | (injection h; done)
    | split at h
  all_goals repeat' first
    | with_reducible exact Framed.refl _ _
    | decide
    | with_reducible refine modLane_frame ?_ ?_
    | with_reducible refine until__frame ?_ ?_
    | with_reducible refine Framed.foldl _ (fun _ _ => ?_) _ _ _ ?_
    | with_reducible refine Framed.foldl_fst _ (fun _ _ => ?_) _ _ _ ?_
    | with_reducible refine Framed.ite (fun _ => ?_) (fun _ => ?_)
    | (with_reducible intro _)
    | dsimp only [id]
    | split

theorem execDieReenable_framed {site : Fin 88} {s t : State} (h : execDieReenable site s = .next t) : Framed [.net] s t := by
  unfold execDieReenable at h
  repeat' first
    | (injection h with h; subst h)
    | (injection h; done)
    | split at h
  all_goals repeat' first
    | with_reducible exact Framed.refl _ _
    | decide
    | with_reducible refine modNet_frame ?_ ?_
    | with_reducible refine Framed.foldl _ (fun _ _ => ?_) _ _ _ ?_
    | with_reducible refine Framed.foldl_fst _ (fun _ _ => ?_) _ _ _ ?_
    | with_reducible refine Framed.ite (fun _ => ?_) (fun _ => ?_)
    | (with_reducible intro _)
    | dsimp only [id]
    | split

theorem execDieRelockDone_framed {site : Fin 88} {s t : State} (h : execDieRelockDone site s = .next t) : Framed [.net] s t := by
  unfold execDieRelockDone at h
  repeat' first
    | (injection h with h; subst h)
    | (injection h; done)
    | split at h
  all_goals repeat' first
    | with_reducible exact Framed.refl _ _
    | decide
    | with_reducible refine modNet_frame ?_ ?_
    | with_reducible refine Framed.foldl _ (fun _ _ => ?_) _ _ _ ?_
    | with_reducible refine Framed.foldl_fst _ (fun _ _ => ?_) _ _ _ ?_
    | with_reducible refine Framed.ite (fun _ => ?_) (fun _ => ?_)
    | (with_reducible intro _)
    | dsimp only [id]
    | split

theorem execDieRelockMiss_framed {site : Fin 88} {s t : State} (h : execDieRelockMiss site s = .next t) : Framed [.out, .err, .tel, .net, .bst] s t := by
  unfold execDieRelockMiss at h
  repeat' first
    | (injection h with h; subst h)
    | (injection h; done)
    | split at h
  all_goals repeat' first
    | with_reducible exact Framed.refl _ _
    | decide
    | with_reducible refine modNet_frame ?_ ?_
    | with_reducible refine raise_frame ?_ ?_
    | with_reducible refine testAsk_frame ?_ ?_
    | with_reducible refine Framed.foldl _ (fun _ _ => ?_) _ _ _ ?_
    | with_reducible refine Framed.foldl_fst _ (fun _ _ => ?_) _ _ _ ?_
    | with_reducible refine Framed.ite (fun _ => ?_) (fun _ => ?_)
    | (with_reducible intro _)
    | dsimp only [id]
    | split

theorem execDieTestDone_framed {site : Fin 88} {u : BringUp} {s t : State} (h : execDieTestDone site u s = .next t) : Framed [.out, .err, .tel, .net, .fly, .cells, .ctxs, .slc, .frs, .wsh, .bst, .lev] s t := by
  unfold execDieTestDone at h
  repeat' first
    | (injection h with h; subst h)
    | (injection h; done)
    | split at h
  all_goals repeat' first
    | with_reducible exact Framed.refl _ _
    | decide
    | with_reducible refine addDie_frame ?_ ?_
    | with_reducible refine addHoles_frame ?_ ?_
    | with_reducible refine autoRecover_frame ?_ ?_
    | with_reducible refine cellsGone_frame ?_ ?_
    | with_reducible refine count_frame ?_ ?_
    | with_reducible refine modBst_frame ?_ ?_
    | with_reducible refine modNet_frame ?_ ?_
    | with_reducible refine modWsh_frame ?_ ?_
    | with_reducible refine Framed.foldl _ (fun _ _ => ?_) _ _ _ ?_
    | with_reducible refine Framed.foldl_fst _ (fun _ _ => ?_) _ _ _ ?_
    | with_reducible refine Framed.ite (fun _ => ?_) (fun _ => ?_)
    | (with_reducible intro _)
    | dsimp only [id]
    | split

theorem execDieTestRequest_framed {x : TestIn} {s t : State} (h : execDieTestRequest x s = .next t) : Framed [.out, .err, .tel, .regs, .net, .tide, .fly, .chk, .slc, .mem, .rsv, .csn, .wsh, .hst, .own, .bst, .hdw, .lev] s t := by
  unfold execDieTestRequest at h
  repeat' first
    | (injection h with h; subst h)
    | (injection h; done)
    | split at h
  all_goals repeat' first
    | with_reducible exact Framed.refl _ _
    | decide
    | with_reducible refine testStart_frame ?_ ?_
    | with_reducible refine writeCommand_frame ?_ ?_
    | with_reducible refine Framed.foldl _ (fun _ _ => ?_) _ _ _ ?_
    | with_reducible refine Framed.foldl_fst _ (fun _ _ => ?_) _ _ _ ?_
    | with_reducible refine Framed.ite (fun _ => ?_) (fun _ => ?_)
    | (with_reducible intro _)
    | dsimp only [id]
    | split

theorem execDivergenceNotice_framed {ctx : Fin 1024} {s t : State} (h : execDivergenceNotice ctx s = .next t) : Framed [.out, .err, .tel, .ctxs, .slc, .csn, .est] s t := by
  unfold execDivergenceNotice at h
  repeat' first
    | (injection h with h; subst h)
    | (injection h; done)
    | split at h
  all_goals repeat' first
    | with_reducible exact Framed.refl _ _
    | decide
    | with_reducible refine estCount_frame ?_ ?_
    | with_reducible refine fanOut_frame ?_ ?_
    | with_reducible refine winFailAll_frame ?_ ?_
    | with_reducible refine windowFailed_frame ?_ ?_
    | with_reducible refine Framed.foldl _ (fun _ _ => ?_) _ _ _ ?_
    | with_reducible refine Framed.foldl_fst _ (fun _ _ => ?_) _ _ _ ?_
    | with_reducible refine Framed.ite (fun _ => ?_) (fun _ => ?_)
    | (with_reducible intro _)
    | dsimp only [id]
    | split
  all_goals try (with_reducible apply Framed.upd rfl <;> first | exact Or.inl (by decide) | with_reducible exact Or.inr rfl | with_reducible exact Or.inr ⟨rfl, rfl⟩ | with_reducible exact Or.inl ⟨by decide, fun h => h⟩ | with_reducible exact Or.inl ⟨by decide, Nat.le_refl _⟩ | exact Or.inl ⟨by decide, fun h => bwrite_wf _ _ _ h⟩ | exact Or.inl ⟨by decide, fun h => bzero_wf _ _ _ h⟩ | exact Or.inl ⟨by decide, fun _ => rfl⟩ | exact Or.inl ⟨by decide, Err.bounded_q rfl (fun h => by rw [lmod_length]; exact h)⟩ | exact Or.inl ⟨by decide, Err.bounded_q rfl (fun h => h)⟩ | exact Or.inl ⟨by decide, Err.bounded_q rfl (fun h => by rw [List.length_map]; exact h)⟩ | exact Or.inl ⟨by decide, Nat.le_succ _⟩ | exact Or.inl ⟨by decide, Err.bounded_put rfl (fun h => Err.bounded_unit h _) (fun h => h)⟩ | skip)
  all_goals repeat' first
    | with_reducible exact Framed.refl _ _
    | decide
    | with_reducible refine estCount_frame ?_ ?_
    | with_reducible refine fanOut_frame ?_ ?_
    | with_reducible refine winFailAll_frame ?_ ?_
    | with_reducible refine windowFailed_frame ?_ ?_
    | with_reducible refine Framed.foldl _ (fun _ _ => ?_) _ _ _ ?_
    | with_reducible refine Framed.foldl_fst _ (fun _ _ => ?_) _ _ _ ?_
    | with_reducible refine Framed.ite (fun _ => ?_) (fun _ => ?_)
    | (with_reducible intro _)
    | dsimp only [id]
    | split

theorem execDoeRequest_framed {vendor : BitVec 16} {typ : BitVec 8} {obj : Bytes} {s t : State} (h : execDoeRequest vendor typ obj s = .next t) : Framed [.out, .hst, .hdw] s t := by
  unfold execDoeRequest at h
  repeat' first
    | (injection h with h; subst h)
    | (injection h; done)
    | split at h
  all_goals repeat' first
    | with_reducible exact Framed.refl _ _
    | decide
    | with_reducible refine attest_frame ?_ (fun _ _ => ?_) ?_
    | with_reducible refine attest_frame ?_ ?_ ?_
    | with_reducible refine doeError_frame ?_ ?_
    | with_reducible refine emit_frame ?_ ?_
    | with_reducible refine modHst_frame ?_ ?_
    | with_reducible refine Framed.foldl _ (fun _ _ => ?_) _ _ _ ?_
    | with_reducible refine Framed.foldl_fst _ (fun _ _ => ?_) _ _ _ ?_
    | with_reducible refine Framed.ite (fun _ => ?_) (fun _ => ?_)
    | (with_reducible intro _)
    | dsimp only [id]
    | split
  all_goals try (with_reducible apply Framed.upd rfl <;> first | exact Or.inl (by decide) | with_reducible exact Or.inr rfl | with_reducible exact Or.inr ⟨rfl, rfl⟩ | with_reducible exact Or.inl ⟨by decide, fun h => h⟩ | with_reducible exact Or.inl ⟨by decide, Nat.le_refl _⟩ | exact Or.inl ⟨by decide, fun h => bwrite_wf _ _ _ h⟩ | exact Or.inl ⟨by decide, fun h => bzero_wf _ _ _ h⟩ | exact Or.inl ⟨by decide, fun _ => rfl⟩ | exact Or.inl ⟨by decide, Err.bounded_q rfl (fun h => by rw [lmod_length]; exact h)⟩ | exact Or.inl ⟨by decide, Err.bounded_q rfl (fun h => h)⟩ | exact Or.inl ⟨by decide, Err.bounded_q rfl (fun h => by rw [List.length_map]; exact h)⟩ | exact Or.inl ⟨by decide, Nat.le_succ _⟩ | exact Or.inl ⟨by decide, Err.bounded_put rfl (fun h => Err.bounded_unit h _) (fun h => h)⟩ | skip)
  all_goals repeat' first
    | with_reducible exact Framed.refl _ _
    | decide
    | with_reducible refine attest_frame ?_ (fun _ _ => ?_) ?_
    | with_reducible refine attest_frame ?_ ?_ ?_
    | with_reducible refine doeError_frame ?_ ?_
    | with_reducible refine emit_frame ?_ ?_
    | with_reducible refine modHst_frame ?_ ?_
    | with_reducible refine Framed.foldl _ (fun _ _ => ?_) _ _ _ ?_
    | with_reducible refine Framed.foldl_fst _ (fun _ _ => ?_) _ _ _ ?_
    | with_reducible refine Framed.ite (fun _ => ?_) (fun _ => ?_)
    | (with_reducible intro _)
    | dsimp only [id]
    | split

theorem execDoeTimeout_framed {s t : State} (h : execDoeTimeout s = .next t) : Framed [.now, .out, .hst, .hdw] s t := by
  unfold execDoeTimeout at h
  repeat' first
    | (injection h with h; subst h)
    | (injection h; done)
    | split at h
  all_goals repeat' first
    | with_reducible exact Framed.refl _ _
    | decide
    | with_reducible refine attest_frame ?_ (fun _ _ => ?_) ?_
    | with_reducible refine attest_frame ?_ ?_ ?_
    | with_reducible refine doeError_frame ?_ ?_
    | with_reducible refine modHst_frame ?_ ?_
    | with_reducible refine until__frame ?_ ?_
    | with_reducible refine Framed.foldl _ (fun _ _ => ?_) _ _ _ ?_
    | with_reducible refine Framed.foldl_fst _ (fun _ _ => ?_) _ _ _ ?_
    | with_reducible refine Framed.ite (fun _ => ?_) (fun _ => ?_)
    | (with_reducible intro _)
    | dsimp only [id]
    | split
  all_goals try (with_reducible apply Framed.upd rfl <;> first | exact Or.inl (by decide) | with_reducible exact Or.inr rfl | with_reducible exact Or.inr ⟨rfl, rfl⟩ | with_reducible exact Or.inl ⟨by decide, fun h => h⟩ | with_reducible exact Or.inl ⟨by decide, Nat.le_refl _⟩ | exact Or.inl ⟨by decide, fun h => bwrite_wf _ _ _ h⟩ | exact Or.inl ⟨by decide, fun h => bzero_wf _ _ _ h⟩ | exact Or.inl ⟨by decide, fun _ => rfl⟩ | exact Or.inl ⟨by decide, Err.bounded_q rfl (fun h => by rw [lmod_length]; exact h)⟩ | exact Or.inl ⟨by decide, Err.bounded_q rfl (fun h => h)⟩ | exact Or.inl ⟨by decide, Err.bounded_q rfl (fun h => by rw [List.length_map]; exact h)⟩ | exact Or.inl ⟨by decide, Nat.le_succ _⟩ | exact Or.inl ⟨by decide, Err.bounded_put rfl (fun h => Err.bounded_unit h _) (fun h => h)⟩ | skip)
  all_goals repeat' first
    | with_reducible exact Framed.refl _ _
    | decide
    | with_reducible refine attest_frame ?_ (fun _ _ => ?_) ?_
    | with_reducible refine attest_frame ?_ ?_ ?_
    | with_reducible refine doeError_frame ?_ ?_
    | with_reducible refine modHst_frame ?_ ?_
    | with_reducible refine until__frame ?_ ?_
    | with_reducible refine Framed.foldl _ (fun _ _ => ?_) _ _ _ ?_
    | with_reducible refine Framed.foldl_fst _ (fun _ _ => ?_) _ _ _ ?_
    | with_reducible refine Framed.ite (fun _ => ?_) (fun _ => ?_)
    | (with_reducible intro _)
    | dsimp only [id]
    | split

theorem execDoorbellPoll_framed {area : Bytes} {s t : State} (h : execDoorbellPoll area s = .next t) : Framed [.out, .err, .tel, .slc, .hst] s t := by
  unfold execDoorbellPoll at h
  repeat' first
    | (injection h with h; subst h)
    | (injection h; done)
    | split at h
  all_goals repeat' first
    | with_reducible exact Framed.refl _ _
    | decide
    | with_reducible refine doorbellLine_frame ?_ ?_
    | with_reducible refine Framed.foldl _ (fun _ _ => ?_) _ _ _ ?_
    | with_reducible refine Framed.foldl_fst _ (fun _ _ => ?_) _ _ _ ?_
    | with_reducible refine Framed.ite (fun _ => ?_) (fun _ => ?_)
    | (with_reducible intro _)
    | dsimp only [id]
    | split
  all_goals try (with_reducible apply Framed.upd rfl <;> first | exact Or.inl (by decide) | with_reducible exact Or.inr rfl | with_reducible exact Or.inr ⟨rfl, rfl⟩ | with_reducible exact Or.inl ⟨by decide, fun h => h⟩ | with_reducible exact Or.inl ⟨by decide, Nat.le_refl _⟩ | exact Or.inl ⟨by decide, fun h => bwrite_wf _ _ _ h⟩ | exact Or.inl ⟨by decide, fun h => bzero_wf _ _ _ h⟩ | exact Or.inl ⟨by decide, fun _ => rfl⟩ | exact Or.inl ⟨by decide, Err.bounded_q rfl (fun h => by rw [lmod_length]; exact h)⟩ | exact Or.inl ⟨by decide, Err.bounded_q rfl (fun h => h)⟩ | exact Or.inl ⟨by decide, Err.bounded_q rfl (fun h => by rw [List.length_map]; exact h)⟩ | exact Or.inl ⟨by decide, Nat.le_succ _⟩ | exact Or.inl ⟨by decide, Err.bounded_put rfl (fun h => Err.bounded_unit h _) (fun h => h)⟩ | skip)
  all_goals repeat' first
    | with_reducible exact Framed.refl _ _
    | decide
    | with_reducible refine doorbellLine_frame ?_ ?_
    | with_reducible refine Framed.foldl _ (fun _ _ => ?_) _ _ _ ?_
    | with_reducible refine Framed.foldl_fst _ (fun _ _ => ?_) _ _ _ ?_
    | with_reducible refine Framed.ite (fun _ => ?_) (fun _ => ?_)
    | (with_reducible intro _)
    | dsimp only [id]
    | split

theorem execDoorbellSnoop_framed {j : Fin 8} {line : Bytes} {s t : State} (h : execDoorbellSnoop j line s = .next t) : Framed [.out, .err, .tel, .slc, .hst] s t := by
  unfold execDoorbellSnoop at h
  repeat' first
    | (injection h with h; subst h)
    | (injection h; done)
    | split at h
  all_goals repeat' first
    | with_reducible exact Framed.refl _ _
    | decide
    | with_reducible refine doorbellLine_frame ?_ ?_
    | with_reducible refine Framed.foldl _ (fun _ _ => ?_) _ _ _ ?_
    | with_reducible refine Framed.foldl_fst _ (fun _ _ => ?_) _ _ _ ?_
    | with_reducible refine Framed.ite (fun _ => ?_) (fun _ => ?_)
    | (with_reducible intro _)
    | dsimp only [id]
    | split

theorem execDrainDone_framed {site : Fin 88} {plans : List (Fin 1024 × Plan)} {s t : State} (h : execDrainDone site plans s = .next t) : Framed [.out, .err, .tel, .net, .fly, .cells, .ctxs, .frs, .mem, .rsv, .wsh, .hst] s t := by
  unfold execDrainDone at h
  repeat' first
    | (injection h with h; subst h)
    | (injection h; done)
    | split at h
  all_goals repeat' first
    | with_reducible exact Framed.refl _ _
    | decide
    | with_reducible refine dieLeave_frame ?_ ?_
    | with_reducible refine drainCtx_frame ?_ ?_
    | with_reducible refine modWsh_frame ?_ ?_
    | with_reducible refine Framed.foldl _ (fun _ _ => ?_) _ _ _ ?_
    | with_reducible refine Framed.foldl_fst _ (fun _ _ => ?_) _ _ _ ?_
    | with_reducible refine Framed.ite (fun _ => ?_) (fun _ => ?_)
    | (with_reducible intro _)
    | dsimp only [id]
    | split

theorem execEccWriteback_framed {l : Fin 1024000} {s t : State} (h : execEccWriteback l s = .next t) : Framed [.cells] s t := by
  unfold execEccWriteback at h
  repeat' first
    | (injection h with h; subst h)
    | (injection h; done)
    | split at h
  all_goals repeat' first
    | with_reducible exact Framed.refl _ _
    | decide
    | with_reducible refine modCell_frame ?_ ?_
    | with_reducible refine Framed.foldl _ (fun _ _ => ?_) _ _ _ ?_
    | with_reducible refine Framed.foldl_fst _ (fun _ _ => ?_) _ _ _ ?_
    | with_reducible refine Framed.ite (fun _ => ?_) (fun _ => ?_)
    | (with_reducible intro _)
    | dsimp only [id]
    | split

theorem execElectionClose_framed {s t : State} (h : execElectionClose s = .next t) : Framed [.now, .out, .err, .tel, .csn, .own] s t := by
  unfold execElectionClose at h
  repeat' first
    | (injection h with h; subst h)
    | (injection h; done)
    | split at h
  all_goals repeat' first
    | with_reducible exact Framed.refl _ _
    | decide
    | with_reducible refine electionEnd_frame ?_ ?_
    | with_reducible refine until__frame ?_ ?_
    | with_reducible refine Framed.foldl _ (fun _ _ => ?_) _ _ _ ?_
    | with_reducible refine Framed.foldl_fst _ (fun _ _ => ?_) _ _ _ ?_
    | with_reducible refine Framed.ite (fun _ => ?_) (fun _ => ?_)
    | (with_reducible intro _)
    | dsimp only [id]
    | split

theorem execEpochProbeAnswer_framed {e : Fin 64} {pass out : Nat} {k : DelKey} {s t : State} (h : execEpochProbeAnswer e pass out k s = .next t) : Framed [.out, .tel, .frs, .mem, .rsv] s t := by
  unfold execEpochProbeAnswer at h
  repeat' first
    | (injection h with h; subst h)
    | (injection h; done)
    | split at h
  all_goals repeat' first
    | with_reducible exact Framed.refl _ _
    | decide
    | with_reducible refine countPass_frame ?_ ?_
    | with_reducible refine epochTouch_frame ?_ ?_
    | with_reducible refine putDel_frame ?_ ?_
    | with_reducible refine readAgain_frame ?_ ?_
    | with_reducible refine unitGate_frame ?_ (fun _ => ?_) ?_
    | with_reducible refine unitGate_frame ?_ ?_ ?_
    | with_reducible refine Framed.foldl _ (fun _ _ => ?_) _ _ _ ?_
    | with_reducible refine Framed.foldl_fst _ (fun _ _ => ?_) _ _ _ ?_
    | with_reducible refine Framed.ite (fun _ => ?_) (fun _ => ?_)
    | (with_reducible intro _)
    | dsimp only [id]
    | split

theorem execEpochWriteReport_framed {e : Fin 64} {page : Nat} {s t : State} (h : execEpochWriteReport e page s = .next t) : Framed [.tel, .frs, .rsv] s t := by
  unfold execEpochWriteReport at h
  repeat' first
    | (injection h with h; subst h)
    | (injection h; done)
    | split at h
  all_goals repeat' first
    | with_reducible exact Framed.refl _ _
    | decide
    | with_reducible refine countPass_frame ?_ ?_
    | with_reducible refine dropEntry_frame ?_ ?_
    | with_reducible refine modFrs_frame ?_ ?_
    | with_reducible refine readAgain_frame ?_ ?_
    | with_reducible refine Framed.foldl _ (fun _ _ => ?_) _ _ _ ?_
    | with_reducible refine Framed.foldl_fst _ (fun _ _ => ?_) _ _ _ ?_
    | with_reducible refine Framed.ite (fun _ => ?_) (fun _ => ?_)
    | (with_reducible intro _)
    | dsimp only [id]
    | split

theorem execErrorAck_framed {x : RegIn} {s t : State} (h : execErrorAck x s = .next t) : Framed [.out, .err, .tel, .regs, .net, .tide, .fly, .chk, .slc, .mem, .rsv, .csn, .wsh, .hst, .own, .bst, .hdw, .lev] s t := by
  unfold execErrorAck at h
  repeat' first
    | (injection h with h; subst h)
    | (injection h; done)
    | split at h
  all_goals repeat' first
    | with_reducible exact Framed.refl _ _
    | decide
    | with_reducible refine writeCommand_frame ?_ ?_
    | with_reducible refine Framed.foldl _ (fun _ _ => ?_) _ _ _ ?_
    | with_reducible refine Framed.foldl_fst _ (fun _ _ => ?_) _ _ _ ?_
    | with_reducible refine Framed.ite (fun _ => ?_) (fun _ => ?_)
    | (with_reducible intro _)
    | dsimp only [id]
    | split

theorem execErrorDeliver_framed {s t : State} (h : execErrorDeliver s = .next t) : Framed [.out, .err, .tel, .csn] s t := by
  unfold execErrorDeliver at h
  repeat' first
    | (injection h with h; subst h)
    | (injection h; done)
    | split at h
  all_goals repeat' first
    | with_reducible exact Framed.refl _ _
    | decide
    | with_reducible refine errDeliver_frame ?_ ?_
    | with_reducible refine Framed.foldl _ (fun _ _ => ?_) _ _ _ ?_
    | with_reducible refine Framed.foldl_fst _ (fun _ _ => ?_) _ _ _ ?_
    | with_reducible refine Framed.ite (fun _ => ?_) (fun _ => ?_)
    | (with_reducible intro _)
    | dsimp only [id]
    | split

end Sys2Proof.Machine
end

