-- ==== Sys2Proof/Laws/ExecB.lean ====
section
/-! SUPPORT. The frame of each command's meaning, ErrorForward to PassEnd: which parts of the state it may touch, and what it keeps. -/
set_option Elab.async false
namespace Sys2Proof.Machine

theorem execErrorForward_framed {unit : Fin 165} {s t : State} (h : execErrorForward unit s = .next t) : Framed [.out, .err] s t := by
  unfold execErrorForward at h
  repeat' first
    | (injection h with h; subst h)
    | (injection h; done)
    | split at h
  all_goals repeat' first
    | with_reducible exact Framed.refl _ _
    | decide
    | with_reducible refine errForward_frame ?_ ?_
    | with_reducible refine Framed.foldl _ (fun _ _ => ?_) _ _ _ ?_
    | with_reducible refine Framed.foldl_fst _ (fun _ _ => ?_) _ _ _ ?_
    | with_reducible refine Framed.ite (fun _ => ?_) (fun _ => ?_)
    | (with_reducible intro _)
    | dsimp only [id]
    | split

theorem execErrorRaise_framed {unit : Fin 165} {block : Fin 19} {cls : Fin 19} {sev : Fin 6} {ctx : Option (Fin 1024)} {transient : Bool} {loc0 loc1 : BitVec 64} {detail : Word} {s t : State} (h : execErrorRaise unit block cls sev ctx transient loc0 loc1 detail s = .next t) : Framed [.out, .err, .tel] s t := by
  unfold execErrorRaise at h
  repeat' first
    | (injection h with h; subst h)
    | (injection h; done)
    | split at h
  all_goals repeat' first
    | with_reducible exact Framed.refl _ _
    | decide
    | with_reducible refine raiseRec_frame ?_ ?_
    | with_reducible refine Framed.foldl _ (fun _ _ => ?_) _ _ _ ?_
    | with_reducible refine Framed.foldl_fst _ (fun _ _ => ?_) _ _ _ ?_
    | with_reducible refine Framed.ite (fun _ => ?_) (fun _ => ?_)
    | (with_reducible intro _)
    | dsimp only [id]
    | split

theorem execErrorRecordQuery_framed {body : Bytes} {s t : State} (h : execErrorRecordQuery body s = .next t) : Framed [.out, .own] s t := by
  unfold execErrorRecordQuery at h
  repeat' first
    | (injection h with h; subst h)
    | (injection h; done)
    | split at h
  all_goals repeat' first
    | with_reducible exact Framed.refl _ _
    | decide
    | with_reducible refine emit_frame ?_ ?_
    | with_reducible refine rateHit_frame ?_ ?_
    | with_reducible refine rateHit_of (by assumption) ?_ ?_
    | with_reducible refine Framed.foldl _ (fun _ _ => ?_) _ _ _ ?_
    | with_reducible refine Framed.foldl_fst _ (fun _ _ => ?_) _ _ _ ?_
    | with_reducible refine Framed.ite (fun _ => ?_) (fun _ => ?_)
    | (with_reducible intro _)
    | dsimp only [id]
    | split

theorem execExportValidate_framed {x : RegIn} {s t : State} (h : execExportValidate x s = .next t) : Framed [.out, .err, .tel, .regs, .net, .tide, .fly, .chk, .slc, .mem, .rsv, .csn, .wsh, .hst, .own, .bst, .hdw, .lev] s t := by
  unfold execExportValidate at h
  repeat' first
    | (injection h with h; subst h)
    | (injection h; done)
    | split at h
  all_goals repeat' first
    | with_reducible exact Framed.refl _ _
    | decide
    | with_reducible refine writeCommand_frame ?_ ?_
    | with_reducible refine Framed.foldl _ (fun _ _ => ?_) _ _ _ ?_
    | with_reducible refine Framed.foldl_fst _ (fun _ _ => ?_) _ _ _ ?_
    | with_reducible refine Framed.ite (fun _ => ?_) (fun _ => ?_)
    | (with_reducible intro _)
    | dsimp only [id]
    | split

theorem execFetch_framed {l : Fin 1024000} {th : Fin 4} {ra rl : Fin 32} {len : Fin 8} {cnt : Fin 16} {e : Ecc} {s t : State} (h : execFetch l th ra rl len cnt e s = .next t) : Framed [.out, .err, .tel, .fly, .cells, .ctxs, .slc, .bst] s t := by
  unfold execFetch at h
  repeat' first
    | (injection h with h; subst h)
    | (injection h; done)
    | split at h
  all_goals repeat' first
    | with_reducible exact Framed.refl _ _
    | decide
    | with_reducible refine issue_frame ?_ ?_
    | with_reducible refine Framed.foldl _ (fun _ _ => ?_) _ _ _ ?_
    | with_reducible refine Framed.foldl_fst _ (fun _ _ => ?_) _ _ _ ?_
    | with_reducible refine Framed.ite (fun _ => ?_) (fun _ => ?_)
    | (with_reducible intro _)
    | dsimp only [id]
    | split

theorem execFillArrival_framed {m : Nat} {l : Fin 1024000} {alter : Option Bytes} {s t : State} (h : execFillArrival m l alter s = .next t) : Framed [.out, .err, .tel, .fly, .cells, .ctxs, .slc, .frs] s t := by
  unfold execFillArrival at h
  repeat' first
    | (injection h with h; subst h)
    | (injection h; done)
    | split at h
  all_goals repeat' first
    | with_reducible exact Framed.refl _ _
    | decide
    | with_reducible refine landFill_frame ?_ ?_
    | with_reducible refine refly_frame ?_ ?_
    | with_reducible refine unfly_frame ?_ ?_
    | with_reducible refine Framed.foldl _ (fun _ _ => ?_) _ _ _ ?_
    | with_reducible refine Framed.foldl_fst _ (fun _ _ => ?_) _ _ _ ?_
    | with_reducible refine Framed.ite (fun _ => ?_) (fun _ => ?_)
    | (with_reducible intro _)
    | dsimp only [id]
    | split

theorem execFlitReceive_framed {e : Fin 64} {l : Fin 16} {f : FlitIn} {s t : State} (h : execFlitReceive e l f s = .next t) : Framed [.out, .err, .tel, .tide, .csn] s t := by
  unfold execFlitReceive at h
  repeat' first
    | (injection h with h; subst h)
    | (injection h; done)
    | split at h
  all_goals repeat' first
    | with_reducible exact Framed.refl _ _
    | decide
    | with_reducible refine flitTake_frame ?_ ?_
    | with_reducible refine modLane_frame ?_ ?_
    | with_reducible refine Framed.foldl _ (fun _ _ => ?_) _ _ _ ?_
    | with_reducible refine Framed.foldl_fst _ (fun _ _ => ?_) _ _ _ ?_
    | with_reducible refine Framed.ite (fun _ => ?_) (fun _ => ?_)
    | (with_reducible intro _)
    | dsimp only [id]
    | split

theorem execFlr_framed {s t : State} (h : execFlr s = .next t) : Framed [.out, .err, .tel, .regs, .net, .fly, .cells, .chk, .ctxs, .slc, .mem, .rsv, .csn, .hst, .own] s t := by
  unfold execFlr at h
  repeat' first
    | (injection h with h; subst h)
    | (injection h; done)
    | split at h
  all_goals repeat' first
    | with_reducible exact Framed.refl _ _
    | decide
    | with_reducible refine killStart_frame ?_ ?_
    | with_reducible refine linkTrain_frame ?_ ?_
    | with_reducible refine modPair_frame ?_ ?_
    | with_reducible refine ownClock_frame ?_ ?_
    | with_reducible refine portReturn_frame ?_ ?_
    | with_reducible refine postDesc_frame ?_ ?_
    | with_reducible refine raise_frame ?_ ?_
    | with_reducible refine regSet_frame ?_ ?_
    | with_reducible refine Framed.foldl _ (fun _ _ => ?_) _ _ _ ?_
    | with_reducible refine Framed.foldl_fst _ (fun _ _ => ?_) _ _ _ ?_
    | with_reducible refine Framed.ite (fun _ => ?_) (fun _ => ?_)
    | (with_reducible intro _)
    | dsimp only [id]
    | split

theorem execFlush_framed {e : Fin 64} {i : Nat} {s t : State} (h : execFlush e i s = .next t) : Framed [.out, .err, .tel, .rsv, .csn] s t := by
  unfold execFlush at h
  repeat' first
    | (injection h with h; subst h)
    | (injection h; done)
    | split at h
  all_goals repeat' first
    | with_reducible exact Framed.refl _ _
    | decide
    | with_reducible refine csnTake_frame ?_ ?_
    | with_reducible refine peerAnswer_frame ?_ ?_
    | with_reducible refine peerDeny_frame ?_ ?_
    | with_reducible refine peerRequest_frame ?_ (fun _ _ _ _ => ?_) ?_
    | with_reducible refine peerRequest_frame ?_ ?_ ?_
    | with_reducible refine Framed.foldl _ (fun _ _ => ?_) _ _ _ ?_
    | with_reducible refine Framed.foldl_fst _ (fun _ _ => ?_) _ _ _ ?_
    | with_reducible refine Framed.ite (fun _ => ?_) (fun _ => ?_)
    | (with_reducible intro _)
    | dsimp only [id]
    | split

theorem execFlushAck_framed {e : Fin 64} {i : Nat} {s t : State} (h : execFlushAck e i s = .next t) : Framed [.out, .err, .tel, .fly, .cells, .chk, .mem, .rsv, .csn] s t := by
  unfold execFlushAck at h
  repeat' first
    | (injection h with h; subst h)
    | (injection h; done)
    | split at h
  all_goals repeat' first
    | with_reducible exact Framed.refl _ _
    | decide
    | with_reducible refine rsvOver_frame ?_ ?_
    | with_reducible refine rsvResponse_frame ?_ (fun _ _ _ _ => ?_) ?_
    | with_reducible refine rsvResponse_frame ?_ ?_ ?_
    | with_reducible refine Framed.foldl _ (fun _ _ => ?_) _ _ _ ?_
    | with_reducible refine Framed.foldl_fst _ (fun _ _ => ?_) _ _ _ ?_
    | with_reducible refine Framed.ite (fun _ => ?_) (fun _ => ?_)
    | (with_reducible intro _)
    | dsimp only [id]
    | split

theorem execFreeze_framed {s t : State} (h : execFreeze s = .next t) : Framed [.tel, .net, .cells, .ctxs, .frs, .wsh, .bst] s t := by
  unfold execFreeze at h
  repeat' first
    | (injection h with h; subst h)
    | (injection h; done)
    | split at h
  all_goals repeat' first
    | with_reducible exact Framed.refl _ _
    | decide
    | with_reducible refine freezeStart_frame ?_ ?_
    | with_reducible refine modWsh_frame ?_ ?_
    | with_reducible refine Framed.foldl _ (fun _ _ => ?_) _ _ _ ?_
    | with_reducible refine Framed.foldl_fst _ (fun _ _ => ?_) _ _ _ ?_
    | with_reducible refine Framed.ite (fun _ => ?_) (fun _ => ?_)
    | (with_reducible intro _)
    | dsimp only [id]
    | split
  all_goals try (with_reducible apply Framed.upd rfl <;> first | exact Or.inl (by decide) | with_reducible exact Or.inr rfl | with_reducible exact Or.inr ⟨rfl, rfl⟩ | with_reducible exact Or.inl ⟨by decide, fun h => h⟩ | with_reducible exact Or.inl ⟨by decide, Nat.le_refl _⟩ | exact Or.inl ⟨by decide, fun h => bwrite_wf _ _ _ h⟩ | exact Or.inl ⟨by decide, fun h => bzero_wf _ _ _ h⟩ | exact Or.inl ⟨by decide, fun _ => rfl⟩ | exact Or.inl ⟨by decide, Err.bounded_q rfl (fun h => by rw [lmod_length]; exact h)⟩ | exact Or.inl ⟨by decide, Err.bounded_q rfl (fun h => h)⟩ | exact Or.inl ⟨by decide, Err.bounded_q rfl (fun h => by rw [List.length_map]; exact h)⟩ | exact Or.inl ⟨by decide, Nat.le_succ _⟩ | exact Or.inl ⟨by decide, Err.bounded_put rfl (fun h => Err.bounded_unit h _) (fun h => h)⟩ | skip)
  all_goals repeat' first
    | with_reducible exact Framed.refl _ _
    | decide
    | with_reducible refine freezeStart_frame ?_ ?_
    | with_reducible refine modWsh_frame ?_ ?_
    | with_reducible refine Framed.foldl _ (fun _ _ => ?_) _ _ _ ?_
    | with_reducible refine Framed.foldl_fst _ (fun _ _ => ?_) _ _ _ ?_
    | with_reducible refine Framed.ite (fun _ => ?_) (fun _ => ?_)
    | (with_reducible intro _)
    | dsimp only [id]
    | split

theorem execFreezeStop_framed {site : Fin 88} {s t : State} (h : execFreezeStop site s = .next t) : Framed [.tel, .cells, .ctxs, .wsh] s t := by
  unfold execFreezeStop at h
  repeat' first
    | (injection h with h; subst h)
    | (injection h; done)
    | split at h
  all_goals repeat' first
    | with_reducible exact Framed.refl _ _
    | decide
    | with_reducible refine countCtx_frame ?_ ?_
    | with_reducible refine modCtx_frame ?_ ?_
    | with_reducible refine modWsh_frame ?_ ?_
    | with_reducible refine quitCells_frame ?_ ?_
    | with_reducible refine rollNoHold_frame ?_ ?_
    | with_reducible refine Framed.foldl _ (fun _ _ => ?_) _ _ _ ?_
    | with_reducible refine Framed.foldl_fst _ (fun _ _ => ?_) _ _ _ ?_
    | with_reducible refine Framed.ite (fun _ => ?_) (fun _ => ?_)
    | (with_reducible intro _)
    | dsimp only [id]
    | split

theorem execFrequencyWindow_framed {tidein : Bool} {ticks : Nat} {s t : State} (h : execFrequencyWindow tidein ticks s = .next t) : Framed [.out, .err, .tel, .tide, .csn] s t := by
  unfold execFrequencyWindow at h
  repeat' first
    | (injection h with h; subst h)
    | (injection h; done)
    | split at h
  all_goals repeat' first
    | with_reducible exact Framed.refl _ _
    | decide
    | with_reducible refine inputFail_frame ?_ ?_
    | with_reducible refine modIn_frame ?_ ?_
    | with_reducible refine Framed.foldl _ (fun _ _ => ?_) _ _ _ ?_
    | with_reducible refine Framed.foldl_fst _ (fun _ _ => ?_) _ _ _ ?_
    | with_reducible refine Framed.ite (fun _ => ?_) (fun _ => ?_)
    | (with_reducible intro _)
    | dsimp only [id]
    | split

theorem execGrant_framed {e : Fin 64} {i : Nat} {s t : State} (h : execGrant e i s = .next t) : Framed [.out, .tel, .csn] s t := by
  unfold execGrant at h
  repeat' first
    | (injection h with h; subst h)
    | (injection h; done)
    | split at h
  all_goals repeat' first
    | with_reducible exact Framed.refl _ _
    | decide
    | with_reducible refine count_frame ?_ ?_
    | with_reducible refine csnCtl_frame ?_ ?_
    | with_reducible refine csnTake_frame ?_ ?_
    | with_reducible refine modTx_frame ?_ ?_
    | with_reducible refine txPump_frame ?_ ?_
    | with_reducible refine Framed.foldl _ (fun _ _ => ?_) _ _ _ ?_
    | with_reducible refine Framed.foldl_fst _ (fun _ _ => ?_) _ _ _ ?_
    | with_reducible refine Framed.ite (fun _ => ?_) (fun _ => ?_)
    | (with_reducible intro _)
    | dsimp only [id]
    | split

theorem execGranuleProcess_framed {e : Fin 64} {ctx : Fin 1024} {g : Nat} {flaky : List Nat} {fix : List TileFix} {ecc : List (Nat × MemEcc)} {s t : State} (h : execGranuleProcess e ctx g flaky fix ecc s = .next t) : Framed [.out, .err, .tel, .net, .fly, .cells, .ctxs, .slc, .frs, .mem, .rsv, .csn, .edy, .hst] s t := by
  unfold execGranuleProcess at h
  repeat' first
    | (injection h with h; subst h)
    | (injection h; done)
    | split at h
  all_goals repeat' first
    | with_reducible exact Framed.refl _ _
    | decide
    | with_reducible refine askAhead_frame ?_ ?_
    | with_reducible refine edyAdvance_frame ?_ ?_
    | with_reducible refine granDone_frame ?_ ?_
    | with_reducible refine granuleGo_frame ?_ ?_
    | with_reducible refine ownLines_frame ?_ ?_
    | with_reducible refine staleAsk_frame ?_ ?_
    | with_reducible refine tabAsk_frame ?_ ?_
    | with_reducible refine tabTake_frame ?_ ?_
    | with_reducible refine unitGate_frame ?_ (fun _ => ?_) ?_
    | with_reducible refine unitGate_frame ?_ ?_ ?_
    | with_reducible refine Framed.foldl _ (fun _ _ => ?_) _ _ _ ?_
    | with_reducible refine Framed.foldl_fst _ (fun _ _ => ?_) _ _ _ ?_
    | with_reducible refine Framed.ite (fun _ => ?_) (fun _ => ?_)
    | (with_reducible intro _)
    | dsimp only [id]
    | split

theorem execHalt_framed {l : Fin 1024000} {th : Fin 4} {e : Ecc} {s t : State} (h : execHalt l th e s = .next t) : Framed [.out, .err, .tel, .fly, .cells, .ctxs, .slc, .bst] s t := by
  unfold execHalt at h
  repeat' first
    | (injection h with h; subst h)
    | (injection h; done)
    | split at h
  all_goals repeat' first
    | with_reducible exact Framed.refl _ _
    | decide
    | with_reducible refine finishProgram_frame ?_ ?_
    | with_reducible refine modCell_frame ?_ ?_
    | with_reducible refine plain_frame ?_ (fun _ _ => ?_) ?_
    | with_reducible refine plain_frame ?_ ?_ ?_
    | with_reducible refine Framed.foldl _ (fun _ _ => ?_) _ _ _ ?_
    | with_reducible refine Framed.foldl_fst _ (fun _ _ => ?_) _ _ _ ?_
    | with_reducible refine Framed.ite (fun _ => ?_) (fun _ => ?_)
    | (with_reducible intro _)
    | dsimp only [id]
    | split

theorem execHandover_framed {x : OwnIn} {s t : State} (h : execHandover x s = .next t) : Framed [.out, .err, .tel, .csn, .own] s t := by
  unfold execHandover at h
  repeat' first
    | (injection h with h; subst h)
    | (injection h; done)
    | split at h
  all_goals repeat' first
    | with_reducible exact Framed.refl _ _
    | decide
    | with_reducible refine ownCommand_frame ?_ ?_
    | with_reducible refine Framed.foldl _ (fun _ _ => ?_) _ _ _ ?_
    | with_reducible refine Framed.foldl_fst _ (fun _ _ => ?_) _ _ _ ?_
    | with_reducible refine Framed.ite (fun _ => ?_) (fun _ => ?_)
    | (with_reducible intro _)
    | dsimp only [id]
    | split

theorem execHdmCommit_framed {commit : Bool} {base size ways : Nat} {s t : State} (h : execHdmCommit commit base size ways s = .next t) : Framed [.mem, .hst] s t := by
  unfold execHdmCommit at h
  repeat' first
    | (injection h with h; subst h)
    | (injection h; done)
    | split at h
  all_goals repeat' first
    | with_reducible exact Framed.refl _ _
    | decide
    | with_reducible refine modHst_frame ?_ ?_
    | with_reducible refine Framed.foldl _ (fun _ _ => ?_) _ _ _ ?_
    | with_reducible refine Framed.foldl_fst _ (fun _ _ => ?_) _ _ _ ?_
    | with_reducible refine Framed.ite (fun _ => ?_) (fun _ => ?_)
    | (with_reducible intro _)
    | dsimp only [id]
    | split
  all_goals try (with_reducible apply Framed.upd rfl <;> first | exact Or.inl (by decide) | with_reducible exact Or.inr rfl | with_reducible exact Or.inr ⟨rfl, rfl⟩ | with_reducible exact Or.inl ⟨by decide, fun h => h⟩ | with_reducible exact Or.inl ⟨by decide, Nat.le_refl _⟩ | exact Or.inl ⟨by decide, fun h => bwrite_wf _ _ _ h⟩ | exact Or.inl ⟨by decide, fun h => bzero_wf _ _ _ h⟩ | exact Or.inl ⟨by decide, fun _ => rfl⟩ | exact Or.inl ⟨by decide, Err.bounded_q rfl (fun h => by rw [lmod_length]; exact h)⟩ | exact Or.inl ⟨by decide, Err.bounded_q rfl (fun h => h)⟩ | exact Or.inl ⟨by decide, Err.bounded_q rfl (fun h => by rw [List.length_map]; exact h)⟩ | exact Or.inl ⟨by decide, Nat.le_succ _⟩ | exact Or.inl ⟨by decide, Err.bounded_put rfl (fun h => Err.bounded_unit h _) (fun h => h)⟩ | skip)
  all_goals repeat' first
    | with_reducible exact Framed.refl _ _
    | decide
    | with_reducible refine modHst_frame ?_ ?_
    | with_reducible refine Framed.foldl _ (fun _ _ => ?_) _ _ _ ?_
    | with_reducible refine Framed.foldl_fst _ (fun _ _ => ?_) _ _ _ ?_
    | with_reducible refine Framed.ite (fun _ => ?_) (fun _ => ?_)
    | (with_reducible intro _)
    | dsimp only [id]
    | split

theorem execHealth_framed {b : HealthBy} {s t : State} (h : execHealth b s = .next t) : Framed [.out, .err, .tel, .cells, .ctxs, .slc, .rsv, .csn, .est] s t := by
  unfold execHealth at h
  repeat' first
    | (injection h with h; subst h)
    | (injection h; done)
    | split at h
  all_goals repeat' first
    | with_reducible exact Framed.refl _ _
    | decide
    | with_reducible refine csnTake_frame ?_ ?_
    | with_reducible refine healthAsk_frame ?_ ?_
    | with_reducible refine healthGo_frame ?_ ?_
    | with_reducible refine modEst_frame ?_ ?_
    | with_reducible refine Framed.foldl _ (fun _ _ => ?_) _ _ _ ?_
    | with_reducible refine Framed.foldl_fst _ (fun _ _ => ?_) _ _ _ ?_
    | with_reducible refine Framed.ite (fun _ => ?_) (fun _ => ?_)
    | (with_reducible intro _)
    | dsimp only [id]
    | split

theorem execHeatLevelFall_framed {region : Fin 152} {s t : State} (h : execHeatLevelFall region s = .next t) : Framed [.now, .out, .tel, .net, .fly, .lev] s t := by
  unfold execHeatLevelFall at h
  repeat' first
    | (injection h with h; subst h)
    | (injection h; done)
    | split at h
  all_goals repeat' first
    | with_reducible exact Framed.refl _ _
    | decide
    | with_reducible refine modLev_frame ?_ ?_
    | with_reducible refine setLevel_frame ?_ ?_
    | with_reducible refine until__frame ?_ ?_
    | with_reducible refine Framed.foldl _ (fun _ _ => ?_) _ _ _ ?_
    | with_reducible refine Framed.foldl_fst _ (fun _ _ => ?_) _ _ _ ?_
    | with_reducible refine Framed.ite (fun _ => ?_) (fun _ => ?_)
    | (with_reducible intro _)
    | dsimp only [id]
    | split

theorem execHeatLevelRise_framed {region : Fin 152} {s t : State} (h : execHeatLevelRise region s = .next t) : Framed [.now, .out, .tel, .net, .fly, .ctxs, .wsh, .lev] s t := by
  unfold execHeatLevelRise at h
  repeat' first
    | (injection h with h; subst h)
    | (injection h; done)
    | split at h
  all_goals repeat' first
    | with_reducible exact Framed.refl _ _
    | decide
    | with_reducible refine heatNotice_frame ?_ ?_
    | with_reducible refine modWsh_frame ?_ ?_
    | with_reducible refine setLevel_frame ?_ ?_
    | with_reducible refine until__frame ?_ ?_
    | with_reducible refine Framed.foldl _ (fun _ _ => ?_) _ _ _ ?_
    | with_reducible refine Framed.foldl_fst _ (fun _ _ => ?_) _ _ _ ?_
    | with_reducible refine Framed.ite (fun _ => ?_) (fun _ => ?_)
    | (with_reducible intro _)
    | dsimp only [id]
    | split

theorem execHeatReenable_framed {site : Fin 88} {slot : BitVec 50} {s t : State} (h : execHeatReenable site slot s = .next t) : Framed [.now, .out, .net, .fly, .bst, .lev] s t := by
  unfold execHeatReenable at h
  repeat' first
    | (injection h with h; subst h)
    | (injection h; done)
    | split at h
  all_goals repeat' first
    | with_reducible exact Framed.refl _ _
    | decide
    | with_reducible refine modLev_frame ?_ ?_
    | with_reducible refine modNet_frame ?_ ?_
    | with_reducible refine regionOn_frame ?_ ?_
    | with_reducible refine testAsk_frame ?_ ?_
    | with_reducible refine until__frame ?_ ?_
    | with_reducible refine Framed.foldl _ (fun _ _ => ?_) _ _ _ ?_
    | with_reducible refine Framed.foldl_fst _ (fun _ _ => ?_) _ _ _ ?_
    | with_reducible refine Framed.ite (fun _ => ?_) (fun _ => ?_)
    | (with_reducible intro _)
    | dsimp only [id]
    | split

theorem execHeatTrip_framed {region : Fin 152} {s t : State} (h : execHeatTrip region s = .next t) : Framed [.now, .out, .err, .tel, .net, .fly, .cells, .chk, .ctxs, .frs, .mem, .rsv, .csn, .est, .edy, .wsh, .hst, .bst, .lev] s t := by
  unfold execHeatTrip at h
  repeat' first
    | (injection h with h; subst h)
    | (injection h; done)
    | split at h
  all_goals repeat' first
    | with_reducible exact Framed.refl _ _
    | decide
    | with_reducible refine chipLost_frame ?_ ?_
    | with_reducible refine count_frame ?_ ?_
    | with_reducible refine emit_frame ?_ ?_
    | with_reducible refine modLev_frame ?_ ?_
    | with_reducible refine setLevel_frame ?_ ?_
    | with_reducible refine siteLost_frame ?_ ?_
    | with_reducible refine until__frame ?_ ?_
    | with_reducible refine Framed.foldl _ (fun _ _ => ?_) _ _ _ ?_
    | with_reducible refine Framed.foldl_fst _ (fun _ _ => ?_) _ _ _ ?_
    | with_reducible refine Framed.ite (fun _ => ?_) (fun _ => ?_)
    | (with_reducible intro _)
    | dsimp only [id]
    | split

theorem execHoleMapDurable_framed {ok : Bool} {s t : State} (h : execHoleMapDurable ok s = .next t) : Framed [.out, .err, .tel, .bst] s t := by
  unfold execHoleMapDurable at h
  repeat' first
    | (injection h with h; subst h)
    | (injection h; done)
    | split at h
  all_goals repeat' first
    | with_reducible exact Framed.refl _ _
    | decide
    | with_reducible refine mapDurable_frame ?_ ?_
    | with_reducible refine modBst_frame ?_ ?_
    | with_reducible refine raise_frame ?_ ?_
    | with_reducible refine Framed.foldl _ (fun _ _ => ?_) _ _ _ ?_
    | with_reducible refine Framed.foldl_fst _ (fun _ _ => ?_) _ _ _ ?_
    | with_reducible refine Framed.ite (fun _ => ?_) (fun _ => ?_)
    | (with_reducible intro _)
    | dsimp only [id]
    | split

theorem execHostMemRead_framed {tag : Nat} {addr : BitVec 52} {grant : Option Bool} {s t : State} (h : execHostMemRead tag addr grant s = .next t) : Framed [.out, .err, .tel, .mem, .hst] s t := by
  unfold execHostMemRead at h
  repeat' first
    | (injection h with h; subst h)
    | (injection h; done)
    | split at h
  all_goals repeat' first
    | with_reducible exact Framed.refl _ _
    | decide
    | with_reducible refine count_frame ?_ ?_
    | with_reducible refine emit_frame ?_ ?_
    | with_reducible refine hostMiss_frame ?_ ?_
    | with_reducible refine memEnqueue_frame ?_ ?_
    | with_reducible refine modHst_frame ?_ ?_
    | with_reducible refine queueHold_frame ?_ ?_
    | with_reducible refine Framed.foldl _ (fun _ _ => ?_) _ _ _ ?_
    | with_reducible refine Framed.foldl_fst _ (fun _ _ => ?_) _ _ _ ?_
    | with_reducible refine Framed.ite (fun _ => ?_) (fun _ => ?_)
    | (with_reducible intro _)
    | dsimp only [id]
    | split

theorem execHostMemWrite_framed {tag : Nat} {addr : BitVec 52} {off : Fin 64} {data : Bytes} {s t : State} (h : execHostMemWrite tag addr off data s = .next t) : Framed [.out, .err, .tel, .mem, .hst] s t := by
  unfold execHostMemWrite at h
  repeat' first
    | (injection h with h; subst h)
    | (injection h; done)
    | split at h
  all_goals repeat' first
    | with_reducible exact Framed.refl _ _
    | decide
    | with_reducible refine count_frame ?_ ?_
    | with_reducible refine emit_frame ?_ ?_
    | with_reducible refine guardRecord_frame ?_ ?_
    | with_reducible refine hostMiss_frame ?_ ?_
    | with_reducible refine memEnqueue_frame ?_ ?_
    | with_reducible refine modHst_frame ?_ ?_
    | with_reducible refine queueHold_frame ?_ ?_
    | with_reducible refine Framed.foldl _ (fun _ _ => ?_) _ _ _ ?_
    | with_reducible refine Framed.foldl_fst _ (fun _ _ => ?_) _ _ _ ?_
    | with_reducible refine Framed.ite (fun _ => ?_) (fun _ => ?_)
    | (with_reducible intro _)
    | dsimp only [id]
    | split

theorem execHostSnoop_framed {kind : Fin 3} {line : Nat} {s t : State} (h : execHostSnoop kind line s = .next t) : Framed [.out, .hst] s t := by
  unfold execHostSnoop at h
  repeat' first
    | (injection h with h; subst h)
    | (injection h; done)
    | split at h
  all_goals repeat' first
    | with_reducible exact Framed.refl _ _
    | decide
    | with_reducible refine cacheDel_frame ?_ ?_
    | with_reducible refine emit_frame ?_ ?_
    | with_reducible refine Framed.foldl _ (fun _ _ => ?_) _ _ _ ?_
    | with_reducible refine Framed.foldl_fst _ (fun _ _ => ?_) _ _ _ ?_
    | with_reducible refine Framed.ite (fun _ => ?_) (fun _ => ?_)
    | (with_reducible intro _)
    | dsimp only [id]
    | split

theorem execImageActivate_framed {sub : Fin 12} {s t : State} (h : execImageActivate sub s = .next t) : Framed [.hdw] s t := by
  unfold execImageActivate at h
  repeat' first
    | (injection h with h; subst h)
    | (injection h; done)
    | split at h
  all_goals repeat' first
    | with_reducible exact Framed.refl _ _
    | decide
    | with_reducible refine modHdw_frame ?_ ?_
    | with_reducible refine Framed.foldl _ (fun _ _ => ?_) _ _ _ ?_
    | with_reducible refine Framed.foldl_fst _ (fun _ _ => ?_) _ _ _ ?_
    | with_reducible refine Framed.ite (fun _ => ?_) (fun _ => ?_)
    | (with_reducible intro _)
    | dsimp only [id]
    | split

theorem execImageRunning_framed {sub : Fin 12} {s t : State} (h : execImageRunning sub s = .next t) : Framed [.net, .hdw] s t := by
  unfold execImageRunning at h
  repeat' first
    | (injection h with h; subst h)
    | (injection h; done)
    | split at h
  all_goals repeat' first
    | with_reducible exact Framed.refl _ _
    | decide
    | with_reducible refine imageStart_frame ?_ ?_
    | with_reducible refine modHdw_frame ?_ ?_
    | with_reducible refine modNet_frame ?_ ?_
    | with_reducible refine Framed.foldl _ (fun _ _ => ?_) _ _ _ ?_
    | with_reducible refine Framed.foldl_fst _ (fun _ _ => ?_) _ _ _ ?_
    | with_reducible refine Framed.ite (fun _ => ?_) (fun _ => ?_)
    | (with_reducible intro _)
    | dsimp only [id]
    | split

theorem execImageStartTimeout_framed {sub : Fin 12} {s t : State} (h : execImageStartTimeout sub s = .next t) : Framed [.now, .out, .err, .tel, .hdw] s t := by
  unfold execImageStartTimeout at h
  repeat' first
    | (injection h with h; subst h)
    | (injection h; done)
    | split at h
  all_goals repeat' first
    | with_reducible exact Framed.refl _ _
    | decide
    | with_reducible refine modHdw_frame ?_ ?_
    | with_reducible refine raise_frame ?_ ?_
    | with_reducible refine until__frame ?_ ?_
    | with_reducible refine Framed.foldl _ (fun _ _ => ?_) _ _ _ ?_
    | with_reducible refine Framed.foldl_fst _ (fun _ _ => ?_) _ _ _ ?_
    | with_reducible refine Framed.ite (fun _ => ?_) (fun _ => ?_)
    | (with_reducible intro _)
    | dsimp only [id]
    | split

theorem execImageVerifyDone_framed {s t : State} (h : execImageVerifyDone s = .next t) : Framed [.out, .free, .full, .err, .tel, .regs, .net, .tide, .fly, .cells, .chk, .ctxs, .slc, .frs, .mem, .rsv, .csn, .est, .edy, .wsh, .hst, .bst, .hdw, .lev] s t := by
  unfold execImageVerifyDone at h
  repeat' first
    | (injection h with h; subst h)
    | (injection h; done)
    | split at h
  all_goals repeat' first
    | with_reducible exact Framed.refl _ _
    | decide
    | with_reducible refine bringUpStep_frame ?_ ?_
    | with_reducible refine verifyImages_frame ?_ ?_
    | with_reducible refine Framed.foldl _ (fun _ _ => ?_) _ _ _ ?_
    | with_reducible refine Framed.foldl_fst _ (fun _ _ => ?_) _ _ _ ?_
    | with_reducible refine Framed.ite (fun _ => ?_) (fun _ => ?_)
    | (with_reducible intro _)
    | dsimp only [id]
    | split

theorem execInputQualified_framed {tidein : Bool} {s t : State} (h : execInputQualified tidein s = .next t) : Framed [.out, .err, .tel, .tide] s t := by
  unfold execInputQualified at h
  repeat' first
    | (injection h with h; subst h)
    | (injection h; done)
    | split at h
  all_goals repeat' first
    | with_reducible exact Framed.refl _ _
    | decide
    | with_reducible refine enterTide_frame ?_ ?_
    | with_reducible refine judge_frame ?_ ?_
    | with_reducible refine mismatch_frame ?_ ?_
    | with_reducible refine modTide_frame ?_ ?_
    | with_reducible refine setCount_frame ?_ ?_
    | with_reducible refine Framed.foldl _ (fun _ _ => ?_) _ _ _ ?_
    | with_reducible refine Framed.foldl_fst _ (fun _ _ => ?_) _ _ _ ?_
    | with_reducible refine Framed.ite (fun _ => ?_) (fun _ => ?_)
    | (with_reducible intro _)
    | dsimp only [id]
    | split

theorem execIntegerOp_framed {l : Fin 1024000} {th : Fin 4} {op : Option (BitVec 8)} {rt ra rb : Fin 32} {imm : Word} {e : Ecc} {s t : State} (h : execIntegerOp l th op rt ra rb imm e s = .next t) : Framed [.out, .err, .tel, .fly, .cells, .ctxs, .slc, .bst] s t := by
  unfold execIntegerOp at h
  repeat' first
    | (injection h with h; subst h)
    | (injection h; done)
    | split at h
  all_goals repeat' first
    | with_reducible exact Framed.refl _ _
    | decide
    | with_reducible refine done_frame ?_ ?_
    | with_reducible refine plain_frame ?_ (fun _ _ => ?_) ?_
    | with_reducible refine plain_frame ?_ ?_ ?_
    | with_reducible refine undefinedOp_frame ?_ ?_
    | with_reducible refine Framed.foldl _ (fun _ _ => ?_) _ _ _ ?_
    | with_reducible refine Framed.foldl_fst _ (fun _ _ => ?_) _ _ _ ?_
    | with_reducible refine Framed.ite (fun _ => ?_) (fun _ => ?_)
    | (with_reducible intro _)
    | dsimp only [id]
    | split

theorem execIrqCoalesceTimer_framed {q : Fin 64} {s t : State} (h : execIrqCoalesceTimer q s = .next t) : Framed [.now, .out, .slc] s t := by
  unfold execIrqCoalesceTimer at h
  repeat' first
    | (injection h with h; subst h)
    | (injection h; done)
    | split at h
  all_goals repeat' first
    | with_reducible exact Framed.refl _ _
    | decide
    | with_reducible refine pairIrq_frame ?_ ?_
    | with_reducible refine until__frame ?_ ?_
    | with_reducible refine Framed.foldl _ (fun _ _ => ?_) _ _ _ ?_
    | with_reducible refine Framed.foldl_fst _ (fun _ _ => ?_) _ _ _ ?_
    | with_reducible refine Framed.ite (fun _ => ?_) (fun _ => ?_)
    | (with_reducible intro _)
    | dsimp only [id]
    | split

theorem execKill_framed {q : Fin 64} {s t : State} (h : execKill q s = .next t) : Framed [.out, .err, .tel, .net, .fly, .ctxs, .slc, .csn, .hst] s t := by
  unfold execKill at h
  repeat' first
    | (injection h with h; subst h)
    | (injection h; done)
    | split at h
  all_goals repeat' first
    | with_reducible exact Framed.refl _ _
    | decide
    | with_reducible refine dispatch_frame ?_ (fun _ _ _ => ?_) ?_
    | with_reducible refine dispatch_frame ?_ ?_ ?_
    | with_reducible refine killStart_frame ?_ ?_
    | with_reducible refine postDesc_frame ?_ ?_
    | with_reducible refine Framed.foldl _ (fun _ _ => ?_) _ _ _ ?_
    | with_reducible refine Framed.foldl_fst _ (fun _ _ => ?_) _ _ _ ?_
    | with_reducible refine Framed.ite (fun _ => ?_) (fun _ => ?_)
    | (with_reducible intro _)
    | dsimp only [id]
    | split

theorem execKillBoundary_framed {ctx : Fin 1024} {s t : State} (h : execKillBoundary ctx s = .next t) : Framed [.out, .tel, .cells, .chk, .ctxs, .slc, .frs, .mem, .rsv, .csn, .est, .edy, .wsh, .hst] s t := by
  unfold execKillBoundary at h
  repeat' first
    | (injection h with h; subst h)
    | (injection h; done)
    | split at h
  all_goals repeat' first
    | with_reducible exact Framed.refl _ _
    | decide
    | with_reducible refine killRest_frame ?_ ?_
    | with_reducible refine modCtx_frame ?_ ?_
    | with_reducible refine Framed.foldl _ (fun _ _ => ?_) _ _ _ ?_
    | with_reducible refine Framed.foldl_fst _ (fun _ _ => ?_) _ _ _ ?_
    | with_reducible refine Framed.ite (fun _ => ?_) (fun _ => ?_)
    | (with_reducible intro _)
    | dsimp only [id]
    | split

theorem execKillComplete_framed {ctx : Fin 1024} {s t : State} (h : execKillComplete ctx s = .next t) : Framed [.out, .tel, .cells, .ctxs, .slc, .rsv, .csn] s t := by
  unfold execKillComplete at h
  repeat' first
    | (injection h with h; subst h)
    | (injection h; done)
    | split at h
  all_goals repeat' first
    | with_reducible exact Framed.refl _ _
    | decide
    | with_reducible refine csnKill_frame ?_ ?_
    | with_reducible refine done_frame ?_ ?_
    | with_reducible refine modCtx_frame ?_ ?_
    | with_reducible refine post_frame ?_ ?_
    | with_reducible refine Framed.foldl _ (fun _ _ => ?_) _ _ _ ?_
    | with_reducible refine Framed.foldl_fst _ (fun _ _ => ?_) _ _ _ ?_
    | with_reducible refine Framed.ite (fun _ => ?_) (fun _ => ?_)
    | (with_reducible intro _)
    | dsimp only [id]
    | split
  all_goals try (with_reducible apply Framed.upd rfl <;> first | exact Or.inl (by decide) | with_reducible exact Or.inr rfl | with_reducible exact Or.inr ⟨rfl, rfl⟩ | with_reducible exact Or.inl ⟨by decide, fun h => h⟩ | with_reducible exact Or.inl ⟨by decide, Nat.le_refl _⟩ | exact Or.inl ⟨by decide, fun h => bwrite_wf _ _ _ h⟩ | exact Or.inl ⟨by decide, fun h => bzero_wf _ _ _ h⟩ | exact Or.inl ⟨by decide, fun _ => rfl⟩ | exact Or.inl ⟨by decide, Err.bounded_q rfl (fun h => by rw [lmod_length]; exact h)⟩ | exact Or.inl ⟨by decide, Err.bounded_q rfl (fun h => h)⟩ | exact Or.inl ⟨by decide, Err.bounded_q rfl (fun h => by rw [List.length_map]; exact h)⟩ | exact Or.inl ⟨by decide, Nat.le_succ _⟩ | exact Or.inl ⟨by decide, Err.bounded_put rfl (fun h => Err.bounded_unit h _) (fun h => h)⟩ | skip)
  all_goals repeat' first
    | with_reducible exact Framed.refl _ _
    | decide
    | with_reducible refine csnKill_frame ?_ ?_
    | with_reducible refine done_frame ?_ ?_
    | with_reducible refine modCtx_frame ?_ ?_
    | with_reducible refine post_frame ?_ ?_
    | with_reducible refine Framed.foldl _ (fun _ _ => ?_) _ _ _ ?_
    | with_reducible refine Framed.foldl_fst _ (fun _ _ => ?_) _ _ _ ?_
    | with_reducible refine Framed.ite (fun _ => ?_) (fun _ => ?_)
    | (with_reducible intro _)
    | dsimp only [id]
    | split

theorem execLandingAck_framed {e : Fin 64} {did : Nat} {s t : State} (h : execLandingAck e did s = .next t) : Framed [.tel, .frs, .rsv] s t := by
  unfold execLandingAck at h
  repeat' first
    | (injection h with h; subst h)
    | (injection h; done)
    | split at h
  all_goals repeat' first
    | with_reducible exact Framed.refl _ _
    | decide
    | with_reducible refine addMargins_frame ?_ ?_
    | with_reducible refine countGrp_frame ?_ ?_
    | with_reducible refine modDel_frame ?_ ?_
    | with_reducible refine modFrs_frame ?_ ?_
    | with_reducible refine modPass_frame ?_ ?_
    | with_reducible refine readAgain_frame ?_ ?_
    | with_reducible refine releaseEntries_frame ?_ ?_
    | with_reducible refine Framed.foldl _ (fun _ _ => ?_) _ _ _ ?_
    | with_reducible refine Framed.foldl_fst _ (fun _ _ => ?_) _ _ _ ?_
    | with_reducible refine Framed.ite (fun _ => ?_) (fun _ => ?_)
    | (with_reducible intro _)
    | dsimp only [id]
    | split

theorem execLaneBudgetExpiry_framed {e : Fin 64} {l : Fin 16} {s t : State} (h : execLaneBudgetExpiry e l s = .next t) : Framed [.now, .out, .err, .tel, .tide, .csn] s t := by
  unfold execLaneBudgetExpiry at h
  repeat' first
    | (injection h with h; subst h)
    | (injection h; done)
    | split at h
  all_goals repeat' first
    | with_reducible exact Framed.refl _ _
    | decide
    | with_reducible refine laneOut_frame ?_ ?_
    | with_reducible refine until__frame ?_ ?_
    | with_reducible refine Framed.foldl _ (fun _ _ => ?_) _ _ _ ?_
    | with_reducible refine Framed.foldl_fst _ (fun _ _ => ?_) _ _ _ ?_
    | with_reducible refine Framed.ite (fun _ => ?_) (fun _ => ?_)
    | (with_reducible intro _)
    | dsimp only [id]
    | split

theorem execLaneClose_framed {e : Fin 64} {l : Fin 16} {last : BitVec 12} {s t : State} (h : execLaneClose e l last s = .next t) : Framed [.out, .err, .tel, .tide, .csn] s t := by
  unfold execLaneClose at h
  repeat' first
    | (injection h with h; subst h)
    | (injection h; done)
    | split at h
  all_goals repeat' first
    | with_reducible exact Framed.refl _ _
    | decide
    | with_reducible refine laneMove_frame ?_ ?_
    | with_reducible refine laneOut_frame ?_ ?_
    | with_reducible refine modLane_frame ?_ ?_
    | with_reducible refine Framed.foldl _ (fun _ _ => ?_) _ _ _ ?_
    | with_reducible refine Framed.foldl_fst _ (fun _ _ => ?_) _ _ _ ?_
    | with_reducible refine Framed.ite (fun _ => ?_) (fun _ => ?_)
    | (with_reducible intro _)
    | dsimp only [id]
    | split

theorem execLaneDownHold_framed {x : RegIn} {s t : State} (h : execLaneDownHold x s = .next t) : Framed [.out, .err, .tel, .regs, .net, .tide, .fly, .chk, .slc, .mem, .rsv, .csn, .wsh, .hst, .own, .bst, .hdw, .lev] s t := by
  unfold execLaneDownHold at h
  repeat' first
    | (injection h with h; subst h)
    | (injection h; done)
    | split at h
  all_goals repeat' first
    | with_reducible exact Framed.refl _ _
    | decide
    | with_reducible refine writeCommand_frame ?_ ?_
    | with_reducible refine Framed.foldl _ (fun _ _ => ?_) _ _ _ ?_
    | with_reducible refine Framed.foldl_fst _ (fun _ _ => ?_) _ _ _ ?_
    | with_reducible refine Framed.ite (fun _ => ?_) (fun _ => ?_)
    | (with_reducible intro _)
    | dsimp only [id]
    | split

theorem execLaneEnable_framed {e : Fin 64} {l : Fin 16} {s t : State} (h : execLaneEnable e l s = .next t) : Framed [.csn] s t := by
  unfold execLaneEnable at h
  repeat' first
    | (injection h with h; subst h)
    | (injection h; done)
    | split at h
  all_goals repeat' first
    | with_reducible exact Framed.refl _ _
    | decide
    | with_reducible refine modLane_frame ?_ ?_
    | with_reducible refine Framed.foldl _ (fun _ _ => ?_) _ _ _ ?_
    | with_reducible refine Framed.foldl_fst _ (fun _ _ => ?_) _ _ _ ?_
    | with_reducible refine Framed.ite (fun _ => ?_) (fun _ => ?_)
    | (with_reducible intro _)
    | dsimp only [id]
    | split

theorem execLaneMonitor_framed {e : Fin 64} {l : Fin 16} {corrected uncorrectable : Nat} {rx tx : BitVec 16} {dark : Bool} {s t : State} (h : execLaneMonitor e l corrected uncorrectable rx tx dark s = .next t) : Framed [.out, .err, .tel, .tide, .cells, .csn] s t := by
  unfold execLaneMonitor at h
  repeat' first
    | (injection h with h; subst h)
    | (injection h; done)
    | split at h
  all_goals repeat' first
    | with_reducible exact Framed.refl _ _
    | decide
    | with_reducible refine corrected_frame ?_ ?_
    | with_reducible refine countN_frame ?_ ?_
    | with_reducible refine laneOut_frame ?_ ?_
    | with_reducible refine modLane_frame ?_ ?_
    | with_reducible refine raise_frame ?_ ?_
    | with_reducible refine recalNext_frame ?_ ?_
    | with_reducible refine Framed.foldl _ (fun _ _ => ?_) _ _ _ ?_
    | with_reducible refine Framed.foldl_fst _ (fun _ _ => ?_) _ _ _ ?_
    | with_reducible refine Framed.ite (fun _ => ?_) (fun _ => ?_)
    | (with_reducible intro _)
    | dsimp only [id]
    | split

theorem execLaneWaitExpiry_framed {e : Fin 64} {l : Fin 16} {s t : State} (h : execLaneWaitExpiry e l s = .next t) : Framed [.now, .csn] s t := by
  unfold execLaneWaitExpiry at h
  repeat' first
    | (injection h with h; subst h)
    | (injection h; done)
    | split at h
  all_goals repeat' first
    | with_reducible exact Framed.refl _ _
    | decide
    | with_reducible refine modLane_frame ?_ ?_
    | with_reducible refine until__frame ?_ ?_
    | with_reducible refine Framed.foldl _ (fun _ _ => ?_) _ _ _ ?_
    | with_reducible refine Framed.foldl_fst _ (fun _ _ => ?_) _ _ _ ?_
    | with_reducible refine Framed.ite (fun _ => ?_) (fun _ => ?_)
    | (with_reducible intro _)
    | dsimp only [id]
    | split

theorem execLdn_framed {l : Fin 1024000} {th : Fin 4} {rt rb : Fin 32} {sz : Fin 4} {sxb : Bool} {off : BitVec 12} {e : Ecc} {s t : State} (h : execLdn l th rt rb sz sxb off e s = .next t) : Framed [.out, .err, .tel, .fly, .cells, .ctxs, .slc, .bst] s t := by
  unfold execLdn at h
  repeat' first
    | (injection h with h; subst h)
    | (injection h; done)
    | split at h
  all_goals repeat' first
    | with_reducible exact Framed.refl _ _
    | decide
    | with_reducible refine issue_frame ?_ ?_
    | with_reducible refine Framed.foldl _ (fun _ _ => ?_) _ _ _ ?_
    | with_reducible refine Framed.foldl_fst _ (fun _ _ => ?_) _ _ _ ?_
    | with_reducible refine Framed.ite (fun _ => ?_) (fun _ => ?_)
    | (with_reducible intro _)
    | dsimp only [id]
    | split

theorem execLdx_framed {l : Fin 1024000} {th : Fin 4} {rt ra : Fin 32} {e : Ecc} {s t : State} (h : execLdx l th rt ra e s = .next t) : Framed [.out, .err, .tel, .fly, .cells, .ctxs, .slc, .bst] s t := by
  unfold execLdx at h
  repeat' first
    | (injection h with h; subst h)
    | (injection h; done)
    | split at h
  all_goals repeat' first
    | with_reducible exact Framed.refl _ _
    | decide
    | with_reducible refine issue_frame ?_ ?_
    | with_reducible refine Framed.foldl _ (fun _ _ => ?_) _ _ _ ?_
    | with_reducible refine Framed.foldl_fst _ (fun _ _ => ?_) _ _ _ ?_
    | with_reducible refine Framed.ite (fun _ => ?_) (fun _ => ?_)
    | (with_reducible intro _)
    | dsimp only [id]
    | split

theorem execLdxReturn_framed {m : Nat} {s t : State} (h : execLdxReturn m s = .next t) : Framed [.out, .err, .tel, .fly, .cells, .ctxs, .slc] s t := by
  unfold execLdxReturn at h
  repeat' first
    | (injection h with h; subst h)
    | (injection h; done)
    | split at h
  all_goals repeat' first
    | with_reducible exact Framed.refl _ _
    | decide
    | with_reducible refine done_frame ?_ ?_
    | with_reducible refine dropOp_frame ?_ ?_
    | with_reducible refine trap_frame ?_ ?_
    | with_reducible refine unfly_frame ?_ ?_
    | with_reducible refine Framed.foldl _ (fun _ _ => ?_) _ _ _ ?_
    | with_reducible refine Framed.foldl_fst _ (fun _ _ => ?_) _ _ _ ?_
    | with_reducible refine Framed.ite (fun _ => ?_) (fun _ => ?_)
    | (with_reducible intro _)
    | dsimp only [id]
    | split

theorem execLeadFanout_framed {ctx : Fin 1024} {step : Nat} {s t : State} (h : execLeadFanout ctx step s = .next t) : Framed [.out, .tel, .csn, .est] s t := by
  unfold execLeadFanout at h
  repeat' first
    | (injection h with h; subst h)
    | (injection h; done)
    | split at h
  all_goals repeat' first
    | with_reducible exact Framed.refl _ _
    | decide
    | with_reducible refine fanOut_frame ?_ ?_
    | with_reducible refine Framed.foldl _ (fun _ _ => ?_) _ _ _ ?_
    | with_reducible refine Framed.foldl_fst _ (fun _ _ => ?_) _ _ _ ?_
    | with_reducible refine Framed.ite (fun _ => ?_) (fun _ => ?_)
    | (with_reducible intro _)
    | dsimp only [id]
    | split

theorem execLeaseExpiry_framed {s t : State} (h : execLeaseExpiry s = .next t) : Framed [.now, .out, .err, .tel, .csn, .own] s t := by
  unfold execLeaseExpiry at h
  repeat' first
    | (injection h with h; subst h)
    | (injection h; done)
    | split at h
  all_goals repeat' first
    | with_reducible exact Framed.refl _ _
    | decide
    | with_reducible refine ownExpire_frame ?_ ?_
    | with_reducible refine until__frame ?_ ?_
    | with_reducible refine Framed.foldl _ (fun _ _ => ?_) _ _ _ ?_
    | with_reducible refine Framed.foldl_fst _ (fun _ _ => ?_) _ _ _ ?_
    | with_reducible refine Framed.ite (fun _ => ?_) (fun _ => ?_)
    | (with_reducible intro _)
    | dsimp only [id]
    | split

theorem execLicenceEffect_framed {s t : State} (h : execLicenceEffect s = .next t) : Framed [.out, .full, .err, .tel, .fly, .cells, .chk, .ctxs, .mem, .rsv, .csn, .hdw] s t := by
  unfold execLicenceEffect at h
  repeat' first
    | (injection h with h; subst h)
    | (injection h; done)
    | split at h
  all_goals repeat' first
    | with_reducible exact Framed.refl _ _
    | decide
    | with_reducible refine burnSvn_frame ?_ ?_
    | with_reducible refine lowered_frame ?_ ?_
    | with_reducible refine measure_frame ?_ ?_
    | with_reducible refine modHdw_frame ?_ ?_
    | with_reducible refine Framed.foldl _ (fun _ _ => ?_) _ _ _ ?_
    | with_reducible refine Framed.foldl_fst _ (fun _ _ => ?_) _ _ _ ?_
    | with_reducible refine Framed.ite (fun _ => ?_) (fun _ => ?_)
    | (with_reducible intro _)
    | dsimp only [id]
    | split
  all_goals try (with_reducible apply Framed.upd rfl <;> first | exact Or.inl (by decide) | with_reducible exact Or.inr rfl | with_reducible exact Or.inr ⟨rfl, rfl⟩ | with_reducible exact Or.inl ⟨by decide, fun h => h⟩ | with_reducible exact Or.inl ⟨by decide, Nat.le_refl _⟩ | exact Or.inl ⟨by decide, fun h => bwrite_wf _ _ _ h⟩ | exact Or.inl ⟨by decide, fun h => bzero_wf _ _ _ h⟩ | exact Or.inl ⟨by decide, fun _ => rfl⟩ | exact Or.inl ⟨by decide, Err.bounded_q rfl (fun h => by rw [lmod_length]; exact h)⟩ | exact Or.inl ⟨by decide, Err.bounded_q rfl (fun h => h)⟩ | exact Or.inl ⟨by decide, Err.bounded_q rfl (fun h => by rw [List.length_map]; exact h)⟩ | exact Or.inl ⟨by decide, Nat.le_succ _⟩ | exact Or.inl ⟨by decide, Err.bounded_put rfl (fun h => Err.bounded_unit h _) (fun h => h)⟩ | skip)
  all_goals repeat' first
    | with_reducible exact Framed.refl _ _
    | decide
    | with_reducible refine burnSvn_frame ?_ ?_
    | with_reducible refine lowered_frame ?_ ?_
    | with_reducible refine measure_frame ?_ ?_
    | with_reducible refine modHdw_frame ?_ ?_
    | with_reducible refine Framed.foldl _ (fun _ _ => ?_) _ _ _ ?_
    | with_reducible refine Framed.foldl_fst _ (fun _ _ => ?_) _ _ _ ?_
    | with_reducible refine Framed.ite (fun _ => ?_) (fun _ => ?_)
    | (with_reducible intro _)
    | dsimp only [id]
    | split

theorem execLinkHoldExpiry_framed {e : Fin 64} {s t : State} (h : execLinkHoldExpiry e s = .next t) : Framed [.now, .out, .err, .tel, .csn] s t := by
  unfold execLinkHoldExpiry at h
  repeat' first
    | (injection h with h; subst h)
    | (injection h; done)
    | split at h
  all_goals repeat' first
    | with_reducible exact Framed.refl _ _
    | decide
    | with_reducible refine linkFail_frame ?_ ?_
    | with_reducible refine until__frame ?_ ?_
    | with_reducible refine Framed.foldl _ (fun _ _ => ?_) _ _ _ ?_
    | with_reducible refine Framed.foldl_fst _ (fun _ _ => ?_) _ _ _ ?_
    | with_reducible refine Framed.ite (fun _ => ?_) (fun _ => ?_)
    | (with_reducible intro _)
    | dsimp only [id]
    | split

theorem execLinkRetrain_framed {x : RegIn} {s t : State} (h : execLinkRetrain x s = .next t) : Framed [.out, .err, .tel, .regs, .net, .tide, .fly, .chk, .slc, .mem, .rsv, .csn, .wsh, .hst, .own, .bst, .hdw, .lev] s t := by
  unfold execLinkRetrain at h
  repeat' first
    | (injection h with h; subst h)
    | (injection h; done)
    | split at h
  all_goals repeat' first
    | with_reducible exact Framed.refl _ _
    | decide
    | with_reducible refine writeCommand_frame ?_ ?_
    | with_reducible refine Framed.foldl _ (fun _ _ => ?_) _ _ _ ?_
    | with_reducible refine Framed.foldl_fst _ (fun _ _ => ?_) _ _ _ ?_
    | with_reducible refine Framed.ite (fun _ => ?_) (fun _ => ?_)
    | (with_reducible intro _)
    | dsimp only [id]
    | split

theorem execLinkTrainingDone_framed {u : BringUp} {s t : State} (h : execLinkTrainingDone u s = .next t) : Framed [.out, .free, .full, .err, .tel, .regs, .net, .tide, .fly, .cells, .chk, .ctxs, .slc, .frs, .mem, .rsv, .csn, .est, .edy, .wsh, .hst, .bst, .hdw, .lev] s t := by
  unfold execLinkTrainingDone at h
  repeat' first
    | (injection h with h; subst h)
    | (injection h; done)
    | split at h
  all_goals repeat' first
    | with_reducible exact Framed.refl _ _
    | decide
    | with_reducible refine bringUpStep_frame ?_ ?_
    | with_reducible refine Framed.foldl _ (fun _ _ => ?_) _ _ _ ?_
    | with_reducible refine Framed.foldl_fst _ (fun _ _ => ?_) _ _ _ ?_
    | with_reducible refine Framed.ite (fun _ => ?_) (fun _ => ?_)
    | (with_reducible intro _)
    | dsimp only [id]
    | split

theorem execLinkUp_framed {rate : Fin 4} {width : Fin 3} {lopt cxl : Bool} {s t : State} (h : execLinkUp rate width lopt cxl s = .next t) : Framed [.out, .err, .tel, .hst] s t := by
  unfold execLinkUp at h
  repeat' first
    | (injection h with h; subst h)
    | (injection h; done)
    | split at h
  all_goals repeat' first
    | with_reducible exact Framed.refl _ _
    | decide
    | with_reducible refine modHst_frame ?_ ?_
    | with_reducible refine raise_frame ?_ ?_
    | with_reducible refine Framed.foldl _ (fun _ _ => ?_) _ _ _ ?_
    | with_reducible refine Framed.foldl_fst _ (fun _ _ => ?_) _ _ _ ?_
    | with_reducible refine Framed.ite (fun _ => ?_) (fun _ => ?_)
    | (with_reducible intro _)
    | dsimp only [id]
    | split

theorem execMctpAssemblyTimeout_framed {s t : State} (h : execMctpAssemblyTimeout s = .next t) : Framed [.now, .hst] s t := by
  unfold execMctpAssemblyTimeout at h
  repeat' first
    | (injection h with h; subst h)
    | (injection h; done)
    | split at h
  all_goals repeat' first
    | with_reducible exact Framed.refl _ _
    | decide
    | with_reducible refine modHst_frame ?_ ?_
    | with_reducible refine until__frame ?_ ?_
    | with_reducible refine Framed.foldl _ (fun _ _ => ?_) _ _ _ ?_
    | with_reducible refine Framed.foldl_fst _ (fun _ _ => ?_) _ _ _ ?_
    | with_reducible refine Framed.ite (fun _ => ?_) (fun _ => ?_)
    | (with_reducible intro _)
    | dsimp only [id]
    | split

theorem execMemAccessServe_framed {stk : Fin 64} {bank : Fin 4096} {es : List MemEcc} {s t : State} (h : execMemAccessServe stk bank es s = .next t) : Framed [.out, .err, .tel, .fly, .mem, .hst] s t := by
  unfold execMemAccessServe at h
  repeat' first
    | (injection h with h; subst h)
    | (injection h; done)
    | split at h
  all_goals repeat' first
    | with_reducible exact Framed.refl _ _
    | decide
    | with_reducible refine countCtx_frame ?_ ?_
    | with_reducible refine linesCheck_frame ?_ ?_
    | with_reducible refine linesCheck_of (by assumption) ?_ ?_
    | with_reducible refine memAnswer_frame ?_ ?_
    | with_reducible refine modStk_frame ?_ ?_
    | with_reducible refine partCheck_frame ?_ ?_
    | with_reducible refine Framed.foldl _ (fun _ _ => ?_) _ _ _ ?_
    | with_reducible refine Framed.foldl_fst _ (fun _ _ => ?_) _ _ _ ?_
    | with_reducible refine Framed.ite (fun _ => ?_) (fun _ => ?_)
    | (with_reducible intro _)
    | dsimp only [id]
    | split

theorem execMemPatrol_framed {stk : Fin 64} {e : MemEcc} {s t : State} (h : execMemPatrol stk e s = .next t) : Framed [.now, .out, .err, .tel, .mem] s t := by
  unfold execMemPatrol at h
  repeat' first
    | (injection h with h; subst h)
    | (injection h; done)
    | split at h
  all_goals repeat' first
    | with_reducible exact Framed.refl _ _
    | decide
    | with_reducible refine lineCheck_frame ?_ ?_
    | with_reducible refine lineCheck_of (by assumption) ?_ ?_
    | with_reducible refine modStk_frame ?_ ?_
    | with_reducible refine until__frame ?_ ?_
    | with_reducible refine Framed.foldl _ (fun _ _ => ?_) _ _ _ ?_
    | with_reducible refine Framed.foldl_fst _ (fun _ _ => ?_) _ _ _ ?_
    | with_reducible refine Framed.ite (fun _ => ?_) (fun _ => ?_)
    | (with_reducible intro _)
    | dsimp only [id]
    | split

theorem execMemRequest_framed {q : MemIn} {s t : State} (h : execMemRequest q s = .next t) : Framed [.out, .err, .tel, .fly, .cells, .ctxs, .slc, .mem, .rsv, .bst] s t := by
  unfold execMemRequest at h
  repeat' first
    | (injection h with h; subst h)
    | (injection h; done)
    | split at h
  all_goals repeat' first
    | with_reducible exact Framed.refl _ _
    | decide
    | with_reducible refine guardRecord_frame ?_ ?_
    | with_reducible refine memDiscard_frame ?_ ?_
    | with_reducible refine memEnqueue_frame ?_ ?_
    | with_reducible refine modOp_frame ?_ ?_
    | with_reducible refine queueHold_frame ?_ ?_
    | with_reducible refine readSend_frame ?_ ?_
    | with_reducible refine readSend_of (by assumption) ?_ ?_
    | with_reducible refine rsvAsk_frame ?_ ?_
    | with_reducible refine send_frame ?_ ?_
    | with_reducible refine Framed.foldl _ (fun _ _ => ?_) _ _ _ ?_
    | with_reducible refine Framed.foldl_fst _ (fun _ _ => ?_) _ _ _ ?_
    | with_reducible refine Framed.ite (fun _ => ?_) (fun _ => ?_)
    | (with_reducible intro _)
    | dsimp only [id]
    | split

theorem execMemSlotGrant_framed {stk : Fin 64} {s t : State} (h : execMemSlotGrant stk s = .next t) : Framed [.out, .err, .tel, .cells, .frs, .mem, .hst] s t := by
  unfold execMemSlotGrant at h
  repeat' first
    | (injection h with h; subst h)
    | (injection h; done)
    | split at h
  all_goals repeat' first
    | with_reducible exact Framed.refl _ _
    | decide
    | with_reducible refine memAccept_frame ?_ ?_
    | with_reducible refine modOp_frame ?_ ?_
    | with_reducible refine snoopAsk_frame ?_ ?_
    | with_reducible refine Framed.foldl _ (fun _ _ => ?_) _ _ _ ?_
    | with_reducible refine Framed.foldl_fst _ (fun _ _ => ?_) _ _ _ ?_
    | with_reducible refine Framed.ite (fun _ => ?_) (fun _ => ?_)
    | (with_reducible intro _)
    | dsimp only [id]
    | split

theorem execMemoryTrainingDone_framed {u : BringUp} {s t : State} (h : execMemoryTrainingDone u s = .next t) : Framed [.out, .free, .full, .err, .tel, .regs, .net, .tide, .fly, .cells, .chk, .ctxs, .slc, .frs, .mem, .rsv, .csn, .est, .edy, .wsh, .hst, .bst, .hdw, .lev] s t := by
  unfold execMemoryTrainingDone at h
  repeat' first
    | (injection h with h; subst h)
    | (injection h; done)
    | split at h
  all_goals repeat' first
    | with_reducible exact Framed.refl _ _
    | decide
    | with_reducible refine bringUpStep_frame ?_ ?_
    | with_reducible refine Framed.foldl _ (fun _ _ => ?_) _ _ _ ?_
    | with_reducible refine Framed.foldl_fst _ (fun _ _ => ?_) _ _ _ ?_
    | with_reducible refine Framed.ite (fun _ => ?_) (fun _ => ?_)
    | (with_reducible intro _)
    | dsimp only [id]
    | split

theorem execMergeWindowClose_framed {e : Fin 64} {m : Nat} {s t : State} (h : execMergeWindowClose e m s = .next t) : Framed [.now, .frs] s t := by
  unfold execMergeWindowClose at h
  repeat' first
    | (injection h with h; subst h)
    | (injection h; done)
    | split at h
  all_goals repeat' first
    | with_reducible exact Framed.refl _ _
    | decide
    | with_reducible refine modFrs_frame ?_ ?_
    | with_reducible refine releaseEntries_frame ?_ ?_
    | with_reducible refine until__frame ?_ ?_
    | with_reducible refine Framed.foldl _ (fun _ _ => ?_) _ _ _ ?_
    | with_reducible refine Framed.foldl_fst _ (fun _ _ => ?_) _ _ _ ?_
    | with_reducible refine Framed.ite (fun _ => ?_) (fun _ => ?_)
    | (with_reducible intro _)
    | dsimp only [id]
    | split

theorem execMigrateLimit_framed {site : Fin 88} {s t : State} (h : execMigrateLimit site s = .next t) : Framed [.tel, .net, .cells, .ctxs, .frs, .wsh] s t := by
  unfold execMigrateLimit at h
  repeat' first
    | (injection h with h; subst h)
    | (injection h; done)
    | split at h
  all_goals repeat' first
    | with_reducible exact Framed.refl _ _
    | decide
    | with_reducible refine freezeStart_frame ?_ ?_
    | with_reducible refine Framed.foldl _ (fun _ _ => ?_) _ _ _ ?_
    | with_reducible refine Framed.foldl_fst _ (fun _ _ => ?_) _ _ _ ?_
    | with_reducible refine Framed.ite (fun _ => ?_) (fun _ => ?_)
    | (with_reducible intro _)
    | dsimp only [id]
    | split

theorem execMove_framed {ctx : Fin 1024} {s t : State} (h : execMove ctx s = .next t) : Framed [.tel, .cells, .ctxs, .frs] s t := by
  unfold execMove at h
  repeat' first
    | (injection h with h; subst h)
    | (injection h; done)
    | split at h
  all_goals repeat' first
    | with_reducible exact Framed.refl _ _
    | decide
    | with_reducible refine cellScrub_frame ?_ ?_
    | with_reducible refine modCtx_frame ?_ ?_
    | with_reducible refine Framed.foldl _ (fun _ _ => ?_) _ _ _ ?_
    | with_reducible refine Framed.foldl_fst _ (fun _ _ => ?_) _ _ _ ?_
    | with_reducible refine Framed.ite (fun _ => ?_) (fun _ => ?_)
    | (with_reducible intro _)
    | dsimp only [id]
    | split

theorem execMoveCopyDone_framed {ctx : Fin 1024} {s t : State} (h : execMoveCopyDone ctx s = .next t) : Framed [.out, .tel, .net, .fly, .cells, .ctxs, .frs, .wsh] s t := by
  unfold execMoveCopyDone at h
  repeat' first
    | (injection h with h; subst h)
    | (injection h; done)
    | split at h
  all_goals repeat' first
    | with_reducible exact Framed.refl _ _
    | decide
    | with_reducible refine cellLeave_frame ?_ ?_
    | with_reducible refine countCtx_frame ?_ ?_
    | with_reducible refine dieClear_frame ?_ ?_
    | with_reducible refine loadGroup_frame ?_ ?_
    | with_reducible refine modCell_frame ?_ ?_
    | with_reducible refine modCtx_frame ?_ ?_
    | with_reducible refine patchAll_frame ?_ ?_
    | with_reducible refine remapAll_frame ?_ ?_
    | with_reducible refine Framed.foldl _ (fun _ _ => ?_) _ _ _ ?_
    | with_reducible refine Framed.foldl_fst _ (fun _ _ => ?_) _ _ _ ?_
    | with_reducible refine Framed.ite (fun _ => ?_) (fun _ => ?_)
    | (with_reducible intro _)
    | dsimp only [id]
    | split

theorem execObjectInstall_framed {x : RegIn} {s t : State} (h : execObjectInstall x s = .next t) : Framed [.out, .err, .tel, .regs, .net, .tide, .fly, .chk, .slc, .mem, .rsv, .csn, .wsh, .hst, .own, .bst, .hdw, .lev] s t := by
  unfold execObjectInstall at h
  repeat' first
    | (injection h with h; subst h)
    | (injection h; done)
    | split at h
  all_goals repeat' first
    | with_reducible exact Framed.refl _ _
    | decide
    | with_reducible refine writeCommand_frame ?_ ?_
    | with_reducible refine Framed.foldl _ (fun _ _ => ?_) _ _ _ ?_
    | with_reducible refine Framed.foldl_fst _ (fun _ _ => ?_) _ _ _ ?_
    | with_reducible refine Framed.ite (fun _ => ?_) (fun _ => ?_)
    | (with_reducible intro _)
    | dsimp only [id]
    | split

theorem execObjectVerifyDone_framed {stored : Bool} {s t : State} (h : execObjectVerifyDone stored s = .next t) : Framed [.out, .err, .tel, .hdw] s t := by
  unfold execObjectVerifyDone at h
  repeat' first
    | (injection h with h; subst h)
    | (injection h; done)
    | split at h
  all_goals repeat' first
    | with_reducible exact Framed.refl _ _
    | decide
    | with_reducible refine modHdw_frame ?_ ?_
    | with_reducible refine objTake_frame ?_ ?_
    | with_reducible refine raise_frame ?_ ?_
    | with_reducible refine Framed.foldl _ (fun _ _ => ?_) _ _ _ ?_
    | with_reducible refine Framed.foldl_fst _ (fun _ _ => ?_) _ _ _ ?_
    | with_reducible refine Framed.ite (fun _ => ?_) (fun _ => ?_)
    | (with_reducible intro _)
    | dsimp only [id]
    | split

theorem execOpen_framed {e : Fin 64} {i : Nat} {s t : State} (h : execOpen e i s = .next t) : Framed [.out, .tel, .csn] s t := by
  unfold execOpen at h
  repeat' first
    | (injection h with h; subst h)
    | (injection h; done)
    | split at h
  all_goals repeat' first
    | with_reducible exact Framed.refl _ _
    | decide
    | with_reducible refine count_frame ?_ ?_
    | with_reducible refine csnCtl_frame ?_ ?_
    | with_reducible refine csnTake_frame ?_ ?_
    | with_reducible refine modEng_frame ?_ ?_
    | with_reducible refine Framed.foldl _ (fun _ _ => ?_) _ _ _ ?_
    | with_reducible refine Framed.foldl_fst _ (fun _ _ => ?_) _ _ _ ?_
    | with_reducible refine Framed.ite (fun _ => ?_) (fun _ => ?_)
    | (with_reducible intro _)
    | dsimp only [id]
    | split

theorem execOpenRetry_framed {e : Fin 64} {k : Nat} {s t : State} (h : execOpenRetry e k s = .next t) : Framed [.now, .out, .tel, .csn] s t := by
  unfold execOpenRetry at h
  repeat' first
    | (injection h with h; subst h)
    | (injection h; done)
    | split at h
  all_goals repeat' first
    | with_reducible exact Framed.refl _ _
    | decide
    | with_reducible refine openAsk_frame ?_ ?_
    | with_reducible refine until__frame ?_ ?_
    | with_reducible refine Framed.foldl _ (fun _ _ => ?_) _ _ _ ?_
    | with_reducible refine Framed.foldl_fst _ (fun _ _ => ?_) _ _ _ ?_
    | with_reducible refine Framed.ite (fun _ => ?_) (fun _ => ?_)
    | (with_reducible intro _)
    | dsimp only [id]
    | split

theorem execOpticalWaitDone_framed {s t : State} (h : execOpticalWaitDone s = .next t) : Framed [.out, .err, .tel, .regs, .frs, .mem, .hst, .bst, .hdw] s t := by
  unfold execOpticalWaitDone at h
  repeat' first
    | (injection h with h; subst h)
    | (injection h; done)
    | split at h
  all_goals repeat' first
    | with_reducible exact Framed.refl _ _
    | decide
    | with_reducible refine bringUpJudge_frame ?_ ?_
    | with_reducible refine Framed.foldl _ (fun _ _ => ?_) _ _ _ ?_
    | with_reducible refine Framed.foldl_fst _ (fun _ _ => ?_) _ _ _ ?_
    | with_reducible refine Framed.ite (fun _ => ?_) (fun _ => ?_)
    | (with_reducible intro _)
    | dsimp only [id]
    | split

theorem execOutcomeReport_framed {ctx : Fin 1024} {step : Nat} {node : BitVec 16} {eng : Fin 64} {ok : Bool} {s t : State} (h : execOutcomeReport ctx step node eng ok s = .next t) : Framed [.est] s t := by
  unfold execOutcomeReport at h
  repeat' first
    | (injection h with h; subst h)
    | (injection h; done)
    | split at h
  all_goals repeat' first
    | with_reducible exact Framed.refl _ _
    | decide
    | with_reducible refine modMod_frame ?_ ?_
    | with_reducible refine Framed.foldl _ (fun _ _ => ?_) _ _ _ ?_
    | with_reducible refine Framed.foldl_fst _ (fun _ _ => ?_) _ _ _ ?_
    | with_reducible refine Framed.ite (fun _ => ?_) (fun _ => ?_)
    | (with_reducible intro _)
    | dsimp only [id]
    | split

theorem execOvercurrent_framed {hard : Bool} {s t : State} (h : execOvercurrent hard s = .next t) : Framed [.now, .out, .err, .tel, .regs, .net, .tide, .fly, .cells, .chk, .ctxs, .slc, .frs, .mem, .rsv, .csn, .est, .edy, .wsh, .hst, .own, .bst, .hdw, .lev] s t := by
  unfold execOvercurrent at h
  repeat' first
    | (injection h with h; subst h)
    | (injection h; done)
    | split at h
  all_goals repeat' first
    | with_reducible exact Framed.refl _ _
    | decide
    | with_reducible refine hotSwapOpen_frame ?_ ?_
    | with_reducible refine throttleUp_frame ?_ ?_
    | with_reducible refine until__frame ?_ ?_
    | with_reducible refine Framed.foldl _ (fun _ _ => ?_) _ _ _ ?_
    | with_reducible refine Framed.foldl_fst _ (fun _ _ => ?_) _ _ _ ?_
    | with_reducible refine Framed.ite (fun _ => ?_) (fun _ => ?_)
    | (with_reducible intro _)
    | dsimp only [id]
    | split

theorem execOvervoltage_framed {s t : State} (h : execOvervoltage s = .next t) : Framed [.now, .out, .err, .tel, .regs, .net, .tide, .fly, .cells, .chk, .ctxs, .slc, .frs, .mem, .rsv, .csn, .est, .edy, .wsh, .hst, .own, .bst, .hdw, .lev] s t := by
  unfold execOvervoltage at h
  repeat' first
    | (injection h with h; subst h)
    | (injection h; done)
    | split at h
  all_goals repeat' first
    | with_reducible exact Framed.refl _ _
    | decide
    | with_reducible refine hotSwapOpen_frame ?_ ?_
    | with_reducible refine until__frame ?_ ?_
    | with_reducible refine Framed.foldl _ (fun _ _ => ?_) _ _ _ ?_
    | with_reducible refine Framed.foldl_fst _ (fun _ _ => ?_) _ _ _ ?_
    | with_reducible refine Framed.ite (fun _ => ?_) (fun _ => ?_)
    | (with_reducible intro _)
    | dsimp only [id]
    | split

theorem execOwnershipQuery_framed {x : OwnIn} {s t : State} (h : execOwnershipQuery x s = .next t) : Framed [.out, .err, .tel, .csn, .own] s t := by
  unfold execOwnershipQuery at h
  repeat' first
    | (injection h with h; subst h)
    | (injection h; done)
    | split at h
  all_goals repeat' first
    | with_reducible exact Framed.refl _ _
    | decide
    | with_reducible refine ownCommand_frame ?_ ?_
    | with_reducible refine Framed.foldl _ (fun _ _ => ?_) _ _ _ ?_
    | with_reducible refine Framed.foldl_fst _ (fun _ _ => ?_) _ _ _ ?_
    | with_reducible refine Framed.ite (fun _ => ?_) (fun _ => ?_)
    | (with_reducible intro _)
    | dsimp only [id]
    | split

theorem execPacketArrival_framed {p : PktIn} {s t : State} (h : execPacketArrival p s = .next t) : Framed [.out, .err, .tel, .fly] s t := by
  unfold execPacketArrival at h
  repeat' first
    | (injection h with h; subst h)
    | (injection h; done)
    | split at h
  all_goals repeat' first
    | with_reducible exact Framed.refl _ _
    | decide
    | with_reducible refine packetAcross_frame ?_ ?_
    | with_reducible refine packetDrop_frame ?_ ?_
    | with_reducible refine packetInDie_frame ?_ ?_
    | with_reducible refine send_frame ?_ ?_
    | with_reducible refine unfly_frame ?_ ?_
    | with_reducible refine Framed.foldl _ (fun _ _ => ?_) _ _ _ ?_
    | with_reducible refine Framed.foldl_fst _ (fun _ _ => ?_) _ _ _ ?_
    | with_reducible refine Framed.ite (fun _ => ?_) (fun _ => ?_)
    | (with_reducible intro _)
    | dsimp only [id]
    | split

theorem execPassEnd_framed {e : Fin 64} {pass : Nat} {s t : State} (h : execPassEnd e pass s = .next t) : Framed [.tel, .cells, .frs] s t := by
  unfold execPassEnd at h
  repeat' first
    | (injection h with h; subst h)
    | (injection h; done)
    | split at h
  all_goals repeat' first
    | with_reducible exact Framed.refl _ _
    | decide
    | with_reducible refine countGrp_frame ?_ ?_
    | with_reducible refine countPass_frame ?_ ?_
    | with_reducible refine modCell_frame ?_ ?_
    | with_reducible refine modFrs_frame ?_ ?_
    | with_reducible refine scrubSlots_frame ?_ ?_
    | with_reducible refine Framed.foldl _ (fun _ _ => ?_) _ _ _ ?_
    | with_reducible refine Framed.foldl_fst _ (fun _ _ => ?_) _ _ _ ?_
    | with_reducible refine Framed.ite (fun _ => ?_) (fun _ => ?_)
    | (with_reducible intro _)
    | dsimp only [id]
    | split

end Sys2Proof.Machine
end

