-- ==== Sys2Proof/Laws/ExecC.lean ====
section
/-! SUPPORT. The frame of each command's meaning, PassOwnerScrub to SensorSample: which parts of the state it may touch, and what it keeps. -/
set_option Elab.async false
namespace Sys2Proof.Machine

theorem execPassOwnerScrub_framed {e : Fin 64} {pass : Nat} {s t : State} (h : execPassOwnerScrub e pass s = .next t) : Framed [.tel, .cells, .frs] s t := by
  unfold execPassOwnerScrub at h
  repeat' first
    | (injection h with h; subst h)
    | (injection h; done)
    | split at h
  all_goals repeat' first
    | with_reducible exact Framed.refl _ _
    | decide
    | with_reducible refine scrubSlots_frame ?_ ?_
    | with_reducible refine Framed.foldl _ (fun _ _ => ?_) _ _ _ ?_
    | with_reducible refine Framed.foldl_fst _ (fun _ _ => ?_) _ _ _ ?_
    | with_reducible refine Framed.ite (fun _ => ?_) (fun _ => ?_)
    | (with_reducible intro _)
    | dsimp only [id]
    | split

theorem execPassRecord_framed {e : Fin 64} {rec : Bytes} {s t : State} (h : execPassRecord e rec s = .next t) : Framed [.out, .err, .tel, .ctxs, .slc, .frs] s t := by
  unfold execPassRecord at h
  repeat' first
    | (injection h with h; subst h)
    | (injection h; done)
    | split at h
  all_goals repeat' first
    | with_reducible exact Framed.refl _ _
    | decide
    | with_reducible refine lateEvent_frame ?_ ?_
    | with_reducible refine modFrs_frame ?_ ?_
    | with_reducible refine passRefuse_frame ?_ ?_
    | with_reducible refine Framed.foldl _ (fun _ _ => ?_) _ _ _ ?_
    | with_reducible refine Framed.foldl_fst _ (fun _ _ => ?_) _ _ _ ?_
    | with_reducible refine Framed.ite (fun _ => ?_) (fun _ => ?_)
    | (with_reducible intro _)
    | dsimp only [id]
    | split

theorem execPassStart_framed {e : Fin 64} {pass : Nat} {s t : State} (h : execPassStart e pass s = .next t) : Framed [.frs] s t := by
  unfold execPassStart at h
  repeat' first
    | (injection h with h; subst h)
    | (injection h; done)
    | split at h
  all_goals repeat' first
    | with_reducible exact Framed.refl _ _
    | decide
    | with_reducible refine modPass_frame ?_ ?_
    | with_reducible refine Framed.foldl _ (fun _ _ => ?_) _ _ _ ?_
    | with_reducible refine Framed.foldl_fst _ (fun _ _ => ?_) _ _ _ ?_
    | with_reducible refine Framed.ite (fun _ => ?_) (fun _ => ?_)
    | (with_reducible intro _)
    | dsimp only [id]
    | split

theorem execPatrolRead_framed {l : Fin 1024000} {e : Ecc} {s t : State} (h : execPatrolRead l e s = .next t) : Framed [.out, .err, .tel, .fly, .cells, .ctxs, .slc, .bst] s t := by
  unfold execPatrolRead at h
  repeat' first
    | (injection h with h; subst h)
    | (injection h; done)
    | split at h
  all_goals repeat' first
    | with_reducible exact Framed.refl _ _
    | decide
    | with_reducible refine eccRead_frame ?_ ?_
    | with_reducible refine eccRead_of (by assumption) ?_ ?_
    | with_reducible refine modCell_frame ?_ ?_
    | with_reducible refine Framed.foldl _ (fun _ _ => ?_) _ _ _ ?_
    | with_reducible refine Framed.foldl_fst _ (fun _ _ => ?_) _ _ _ ?_
    | with_reducible refine Framed.ite (fun _ => ?_) (fun _ => ?_)
    | (with_reducible intro _)
    | dsimp only [id]
    | split

theorem execPerst_framed {s t : State} (h : execPerst s = .next t) : Framed [.now, .out, .err, .tel, .regs, .fly, .cells, .chk, .slc, .mem, .rsv, .hst] s t := by
  unfold execPerst at h
  repeat' first
    | (injection h with h; subst h)
    | (injection h; done)
    | split at h
  all_goals repeat' first
    | with_reducible exact Framed.refl _ _
    | decide
    | with_reducible refine modHst_frame ?_ ?_
    | with_reducible refine portReturn_frame ?_ ?_
    | with_reducible refine until__frame ?_ ?_
    | with_reducible refine Framed.foldl _ (fun _ _ => ?_) _ _ _ ?_
    | with_reducible refine Framed.foldl_fst _ (fun _ _ => ?_) _ _ _ ?_
    | with_reducible refine Framed.ite (fun _ => ?_) (fun _ => ?_)
    | (with_reducible intro _)
    | dsimp only [id]
    | split

theorem execPerstRelease_framed {s t : State} (h : execPerstRelease s = .next t) : Framed [.hst] s t := by
  unfold execPerstRelease at h
  repeat' first
    | (injection h with h; subst h)
    | (injection h; done)
    | split at h
  all_goals repeat' first
    | with_reducible exact Framed.refl _ _
    | decide
    | with_reducible refine linkTrain_frame ?_ ?_
    | with_reducible refine modHst_frame ?_ ?_
    | with_reducible refine Framed.foldl _ (fun _ _ => ?_) _ _ _ ?_
    | with_reducible refine Framed.foldl_fst _ (fun _ _ => ?_) _ _ _ ?_
    | with_reducible refine Framed.ite (fun _ => ?_) (fun _ => ?_)
    | (with_reducible intro _)
    | dsimp only [id]
    | split

theorem execPllLockDone_framed {u : BringUp} {s t : State} (h : execPllLockDone u s = .next t) : Framed [.out, .free, .full, .err, .tel, .regs, .net, .tide, .fly, .cells, .chk, .ctxs, .slc, .frs, .mem, .rsv, .csn, .est, .edy, .wsh, .hst, .bst, .hdw, .lev] s t := by
  unfold execPllLockDone at h
  repeat' first
    | (injection h with h; subst h)
    | (injection h; done)
    | split at h
  all_goals repeat' first
    | with_reducible exact Framed.refl _ _
    | decide
    | with_reducible refine bringUpStep_frame ?_ ?_
    | with_reducible refine Framed.foldl _ (fun _ _ => ?_) _ _ _ ?_
    | with_reducible refine Framed.foldl_fst _ (fun _ _ => ?_) _ _ _ ?_
    | with_reducible refine Framed.ite (fun _ => ?_) (fun _ => ?_)
    | (with_reducible intro _)
    | dsimp only [id]
    | split

theorem execPllLockLoss_framed {site : Fin 88} {s t : State} (h : execPllLockLoss site s = .next t) : Framed [.out, .err, .tel, .net, .fly, .cells, .ctxs, .frs, .wsh, .bst, .lev] s t := by
  unfold execPllLockLoss at h
  repeat' first
    | (injection h with h; subst h)
    | (injection h; done)
    | split at h
  all_goals repeat' first
    | with_reducible exact Framed.refl _ _
    | decide
    | with_reducible refine raise_frame ?_ ?_
    | with_reducible refine siteLost_frame ?_ ?_
    | with_reducible refine testAsk_frame ?_ ?_
    | with_reducible refine Framed.foldl _ (fun _ _ => ?_) _ _ _ ?_
    | with_reducible refine Framed.foldl_fst _ (fun _ _ => ?_) _ _ _ ?_
    | with_reducible refine Framed.ite (fun _ => ?_) (fun _ => ?_)
    | (with_reducible intro _)
    | dsimp only [id]
    | split

theorem execPllStop_framed {site : Fin 88} {s t : State} (h : execPllStop site s = .next t) : Framed [.now, .out, .net, .lev] s t := by
  unfold execPllStop at h
  repeat' first
    | (injection h with h; subst h)
    | (injection h; done)
    | split at h
  all_goals repeat' first
    | with_reducible exact Framed.refl _ _
    | decide
    | with_reducible refine emit_frame ?_ ?_
    | with_reducible refine modNet_frame ?_ ?_
    | with_reducible refine until__frame ?_ ?_
    | with_reducible refine Framed.foldl _ (fun _ _ => ?_) _ _ _ ?_
    | with_reducible refine Framed.foldl_fst _ (fun _ _ => ?_) _ _ _ ?_
    | with_reducible refine Framed.ite (fun _ => ?_) (fun _ => ?_)
    | (with_reducible intro _)
    | dsimp only [id]
    | split
  all_goals try (with_reducible apply Framed.upd rfl <;> first | exact Or.inl (by decide) | with_reducible exact Or.inr rfl | with_reducible exact Or.inr ⟨rfl, rfl⟩ | with_reducible exact Or.inl ⟨by decide, fun h => h⟩ | with_reducible exact Or.inl ⟨by decide, Nat.le_refl _⟩ | exact Or.inl ⟨by decide, fun h => bwrite_wf _ _ _ h⟩ | exact Or.inl ⟨by decide, fun h => bzero_wf _ _ _ h⟩ | exact Or.inl ⟨by decide, fun _ => rfl⟩ | exact Or.inl ⟨by decide, Err.bounded_q rfl (fun h => by rw [lmod_length]; exact h)⟩ | exact Or.inl ⟨by decide, Err.bounded_q rfl (fun h => h)⟩ | exact Or.inl ⟨by decide, Err.bounded_q rfl (fun h => by rw [List.length_map]; exact h)⟩ | exact Or.inl ⟨by decide, Nat.le_succ _⟩ | exact Or.inl ⟨by decide, Err.bounded_put rfl (fun h => Err.bounded_unit h _) (fun h => h)⟩ | skip)
  all_goals repeat' first
    | with_reducible exact Framed.refl _ _
    | decide
    | with_reducible refine emit_frame ?_ ?_
    | with_reducible refine modNet_frame ?_ ?_
    | with_reducible refine until__frame ?_ ?_
    | with_reducible refine Framed.foldl _ (fun _ _ => ?_) _ _ _ ?_
    | with_reducible refine Framed.foldl_fst _ (fun _ _ => ?_) _ _ _ ?_
    | with_reducible refine Framed.ite (fun _ => ?_) (fun _ => ?_)
    | (with_reducible intro _)
    | dsimp only [id]
    | split

theorem execPortReturn_framed {s t : State} (h : execPortReturn s = .next t) : Framed [.out, .err, .tel, .regs, .fly, .cells, .chk, .slc, .mem, .rsv, .hst] s t := by
  unfold execPortReturn at h
  repeat' first
    | (injection h with h; subst h)
    | (injection h; done)
    | split at h
  all_goals repeat' first
    | with_reducible exact Framed.refl _ _
    | decide
    | with_reducible refine linkTrain_frame ?_ ?_
    | with_reducible refine portReturn_frame ?_ ?_
    | with_reducible refine Framed.foldl _ (fun _ _ => ?_) _ _ _ ?_
    | with_reducible refine Framed.foldl_fst _ (fun _ _ => ?_) _ _ _ ?_
    | with_reducible refine Framed.ite (fun _ => ?_) (fun _ => ?_)
    | (with_reducible intro _)
    | dsimp only [id]
    | split

theorem execPowerOn_framed {pins : Fin 8} {s t : State} (h : execPowerOn pins s = .next t) : Framed [.out, .free, .err, .tel, .regs, .net, .tide, .fly, .cells, .chk, .ctxs, .slc, .frs, .mem, .rsv, .csn, .est, .edy, .wsh, .hst, .own, .bst, .hdw, .lev] s t := by
  unfold execPowerOn at h
  repeat' first
    | (injection h with h; subst h)
    | (injection h; done)
    | split at h
  all_goals repeat' first
    | with_reducible exact Framed.refl _ _
    | decide
    | with_reducible refine bringUpStart_frame ?_ ?_
    | with_reducible refine modBst_frame ?_ ?_
    | with_reducible refine Framed.foldl _ (fun _ _ => ?_) _ _ _ ?_
    | with_reducible refine Framed.foldl_fst _ (fun _ _ => ?_) _ _ _ ?_
    | with_reducible refine Framed.ite (fun _ => ?_) (fun _ => ?_)
    | (with_reducible intro _)
    | dsimp only [id]
    | split

theorem execPowerSequenceStart_framed {s t : State} (h : execPowerSequenceStart s = .next t) : Framed [.now, .lev] s t := by
  unfold execPowerSequenceStart at h
  repeat' first
    | (injection h with h; subst h)
    | (injection h; done)
    | split at h
  all_goals repeat' first
    | with_reducible exact Framed.refl _ _
    | decide
    | with_reducible refine modLev_frame ?_ ?_
    | with_reducible refine until__frame ?_ ?_
    | with_reducible refine Framed.foldl _ (fun _ _ => ?_) _ _ _ ?_
    | with_reducible refine Framed.foldl_fst _ (fun _ _ => ?_) _ _ _ ?_
    | with_reducible refine Framed.ite (fun _ => ?_) (fun _ => ?_)
    | (with_reducible intro _)
    | dsimp only [id]
    | split

theorem execPrefetchAged_framed {e : Fin 64} {pass src : Nat} {s t : State} (h : execPrefetchAged e pass src s = .next t) : Framed [.tel, .frs] s t := by
  unfold execPrefetchAged at h
  repeat' first
    | (injection h with h; subst h)
    | (injection h; done)
    | split at h
  all_goals repeat' first
    | with_reducible exact Framed.refl _ _
    | decide
    | with_reducible refine countPass_frame ?_ ?_
    | with_reducible refine dropEntry_frame ?_ ?_
    | with_reducible refine Framed.foldl _ (fun _ _ => ?_) _ _ _ ?_
    | with_reducible refine Framed.foldl_fst _ (fun _ _ => ?_) _ _ _ ?_
    | with_reducible refine Framed.ite (fun _ => ?_) (fun _ => ?_)
    | (with_reducible intro _)
    | dsimp only [id]
    | split

theorem execProfileValidate_framed {x : RegIn} {s t : State} (h : execProfileValidate x s = .next t) : Framed [.out, .err, .tel, .regs, .net, .tide, .fly, .chk, .slc, .mem, .rsv, .csn, .wsh, .hst, .own, .bst, .hdw, .lev] s t := by
  unfold execProfileValidate at h
  repeat' first
    | (injection h with h; subst h)
    | (injection h; done)
    | split at h
  all_goals repeat' first
    | with_reducible exact Framed.refl _ _
    | decide
    | with_reducible refine writeCommand_frame ?_ ?_
    | with_reducible refine Framed.foldl _ (fun _ _ => ?_) _ _ _ ?_
    | with_reducible refine Framed.foldl_fst _ (fun _ _ => ?_) _ _ _ ?_
    | with_reducible refine Framed.ite (fun _ => ?_) (fun _ => ?_)
    | (with_reducible intro _)
    | dsimp only [id]
    | split

theorem execQualificationDone_framed {u : BringUp} {s t : State} (h : execQualificationDone u s = .next t) : Framed [.out, .free, .full, .err, .tel, .regs, .net, .tide, .fly, .cells, .chk, .ctxs, .slc, .frs, .mem, .rsv, .csn, .est, .edy, .wsh, .hst, .bst, .hdw, .lev] s t := by
  unfold execQualificationDone at h
  repeat' first
    | (injection h with h; subst h)
    | (injection h; done)
    | split at h
  all_goals repeat' first
    | with_reducible exact Framed.refl _ _
    | decide
    | with_reducible refine bringUpStep_frame ?_ ?_
    | with_reducible refine Framed.foldl _ (fun _ _ => ?_) _ _ _ ?_
    | with_reducible refine Framed.foldl_fst _ (fun _ _ => ?_) _ _ _ ?_
    | with_reducible refine Framed.ite (fun _ => ?_) (fun _ => ?_)
    | (with_reducible intro _)
    | dsimp only [id]
    | split

theorem execQualifyDone_framed {e : Fin 64} {l : Fin 16} {corrected uncorrectable : Nat} {rxMin rxMax : BitVec 16} {remoteOk : Bool} {s t : State} (h : execQualifyDone e l corrected uncorrectable rxMin rxMax remoteOk s = .next t) : Framed [.now, .out, .err, .tel, .tide, .cells, .csn] s t := by
  unfold execQualifyDone at h
  repeat' first
    | (injection h with h; subst h)
    | (injection h; done)
    | split at h
  all_goals repeat' first
    | with_reducible exact Framed.refl _ _
    | decide
    | with_reducible refine corrected_frame ?_ ?_
    | with_reducible refine countN_frame ?_ ?_
    | with_reducible refine laneOut_frame ?_ ?_
    | with_reducible refine linkJudge_frame ?_ ?_
    | with_reducible refine modLane_frame ?_ ?_
    | with_reducible refine recalNext_frame ?_ ?_
    | with_reducible refine until__frame ?_ ?_
    | with_reducible refine Framed.foldl _ (fun _ _ => ?_) _ _ _ ?_
    | with_reducible refine Framed.foldl_fst _ (fun _ _ => ?_) _ _ _ ?_
    | with_reducible refine Framed.ite (fun _ => ?_) (fun _ => ?_)
    | (with_reducible intro _)
    | dsimp only [id]
    | split

theorem execQuery_framed {e : Fin 64} {i : Nat} {s t : State} (h : execQuery e i s = .next t) : Framed [.out, .err, .tel, .rsv, .csn] s t := by
  unfold execQuery at h
  repeat' first
    | (injection h with h; subst h)
    | (injection h; done)
    | split at h
  all_goals repeat' first
    | with_reducible exact Framed.refl _ _
    | decide
    | with_reducible refine csnTake_frame ?_ ?_
    | with_reducible refine peerAnswer_frame ?_ ?_
    | with_reducible refine peerDeny_frame ?_ ?_
    | with_reducible refine peerRequest_frame ?_ (fun _ _ _ _ => ?_) ?_
    | with_reducible refine peerRequest_frame ?_ ?_ ?_
    | with_reducible refine Framed.foldl _ (fun _ _ => ?_) _ _ _ ?_
    | with_reducible refine Framed.foldl_fst _ (fun _ _ => ?_) _ _ _ ?_
    | with_reducible refine Framed.ite (fun _ => ?_) (fun _ => ?_)
    | (with_reducible intro _)
    | dsimp only [id]
    | split

theorem execQueryData_framed {e : Fin 64} {i : Nat} {s t : State} (h : execQueryData e i s = .next t) : Framed [.out, .err, .tel, .fly, .cells, .chk, .mem, .rsv, .csn] s t := by
  unfold execQueryData at h
  repeat' first
    | (injection h with h; subst h)
    | (injection h; done)
    | split at h
  all_goals repeat' first
    | with_reducible exact Framed.refl _ _
    | decide
    | with_reducible refine rsvOver_frame ?_ ?_
    | with_reducible refine rsvResponse_frame ?_ (fun _ _ _ _ => ?_) ?_
    | with_reducible refine rsvResponse_frame ?_ ?_ ?_
    | with_reducible refine Framed.foldl _ (fun _ _ => ?_) _ _ _ ?_
    | with_reducible refine Framed.foldl_fst _ (fun _ _ => ?_) _ _ _ ?_
    | with_reducible refine Framed.ite (fun _ => ?_) (fun _ => ?_)
    | (with_reducible intro _)
    | dsimp only [id]
    | split

theorem execQueuePairDisable_framed {x : RegIn} {s t : State} (h : execQueuePairDisable x s = .next t) : Framed [.out, .err, .tel, .regs, .net, .tide, .fly, .chk, .slc, .mem, .rsv, .csn, .wsh, .hst, .own, .bst, .hdw, .lev] s t := by
  unfold execQueuePairDisable at h
  repeat' first
    | (injection h with h; subst h)
    | (injection h; done)
    | split at h
  all_goals repeat' first
    | with_reducible exact Framed.refl _ _
    | decide
    | with_reducible refine writeCommand_frame ?_ ?_
    | with_reducible refine Framed.foldl _ (fun _ _ => ?_) _ _ _ ?_
    | with_reducible refine Framed.foldl_fst _ (fun _ _ => ?_) _ _ _ ?_
    | with_reducible refine Framed.ite (fun _ => ?_) (fun _ => ?_)
    | (with_reducible intro _)
    | dsimp only [id]
    | split

theorem execQueuePairEnable_framed {x : RegIn} {s t : State} (h : execQueuePairEnable x s = .next t) : Framed [.out, .err, .tel, .regs, .net, .tide, .fly, .chk, .slc, .mem, .rsv, .csn, .wsh, .hst, .own, .bst, .hdw, .lev] s t := by
  unfold execQueuePairEnable at h
  repeat' first
    | (injection h with h; subst h)
    | (injection h; done)
    | split at h
  all_goals repeat' first
    | with_reducible exact Framed.refl _ _
    | decide
    | with_reducible refine writeCommand_frame ?_ ?_
    | with_reducible refine Framed.foldl _ (fun _ _ => ?_) _ _ _ ?_
    | with_reducible refine Framed.foldl_fst _ (fun _ _ => ?_) _ _ _ ?_
    | with_reducible refine Framed.ite (fun _ => ?_) (fun _ => ?_)
    | (with_reducible intro _)
    | dsimp only [id]
    | split

theorem execRampDone_framed {u : BringUp} {s t : State} (h : execRampDone u s = .next t) : Framed [.out, .free, .full, .err, .tel, .regs, .net, .tide, .fly, .cells, .chk, .ctxs, .slc, .frs, .mem, .rsv, .csn, .est, .edy, .wsh, .hst, .bst, .hdw, .lev] s t := by
  unfold execRampDone at h
  repeat' first
    | (injection h with h; subst h)
    | (injection h; done)
    | split at h
  all_goals repeat' first
    | with_reducible exact Framed.refl _ _
    | decide
    | with_reducible refine bringUpStep_frame ?_ ?_
    | with_reducible refine Framed.foldl _ (fun _ _ => ?_) _ _ _ ?_
    | with_reducible refine Framed.foldl_fst _ (fun _ _ => ?_) _ _ _ ?_
    | with_reducible refine Framed.ite (fun _ => ?_) (fun _ => ?_)
    | (with_reducible intro _)
    | dsimp only [id]
    | split

theorem execRangeDone_framed {e : Fin 64} {l : Fin 16} {rtt turn maxTurn answered ptx prx : Nat} {s t : State} (h : execRangeDone e l rtt turn maxTurn answered ptx prx s = .next t) : Framed [.out, .err, .tel, .tide, .csn] s t := by
  unfold execRangeDone at h
  repeat' first
    | (injection h with h; subst h)
    | (injection h; done)
    | split at h
  all_goals repeat' first
    | with_reducible exact Framed.refl _ _
    | decide
    | with_reducible refine flitOut_frame ?_ ?_
    | with_reducible refine laneOut_frame ?_ ?_
    | with_reducible refine modLane_frame ?_ ?_
    | with_reducible refine Framed.foldl _ (fun _ _ => ?_) _ _ _ ?_
    | with_reducible refine Framed.foldl_fst _ (fun _ _ => ?_) _ _ _ ?_
    | with_reducible refine Framed.ite (fun _ => ?_) (fun _ => ?_)
    | (with_reducible intro _)
    | dsimp only [id]
    | split

theorem execRangeProbe_framed {e : Fin 64} {l : Fin 16} {probe : Fin 1024} {turnaround : BitVec 32} {s t : State} (h : execRangeProbe e l probe turnaround s = .next t) : Framed [.out, .tel, .csn] s t := by
  unfold execRangeProbe at h
  repeat' first
    | (injection h with h; subst h)
    | (injection h; done)
    | split at h
  all_goals repeat' first
    | with_reducible exact Framed.refl _ _
    | decide
    | with_reducible refine flitOut_frame ?_ ?_
    | with_reducible refine Framed.foldl _ (fun _ _ => ?_) _ _ _ ?_
    | with_reducible refine Framed.foldl_fst _ (fun _ _ => ?_) _ _ _ ?_
    | with_reducible refine Framed.ite (fun _ => ?_) (fun _ => ?_)
    | (with_reducible intro _)
    | dsimp only [id]
    | split

theorem execRead_framed {e : Fin 64} {i : Nat} {ecc : List (Nat × MemEcc)} {s t : State} (h : execRead e i ecc s = .next t) : Framed [.out, .err, .tel, .mem, .rsv, .csn] s t := by
  unfold execRead at h
  repeat' first
    | (injection h with h; subst h)
    | (injection h; done)
    | split at h
  all_goals repeat' first
    | with_reducible exact Framed.refl _ _
    | decide
    | with_reducible refine csnTake_frame ?_ ?_
    | with_reducible refine ownLines_frame ?_ ?_
    | with_reducible refine peerAnswer_frame ?_ ?_
    | with_reducible refine peerDeny_frame ?_ ?_
    | with_reducible refine peerRequest_frame ?_ (fun _ _ _ _ => ?_) ?_
    | with_reducible refine peerRequest_frame ?_ ?_ ?_
    | with_reducible refine unitGate_frame ?_ (fun _ => ?_) ?_
    | with_reducible refine unitGate_frame ?_ ?_ ?_
    | with_reducible refine Framed.foldl _ (fun _ _ => ?_) _ _ _ ?_
    | with_reducible refine Framed.foldl_fst _ (fun _ _ => ?_) _ _ _ ?_
    | with_reducible refine Framed.ite (fun _ => ?_) (fun _ => ?_)
    | (with_reducible intro _)
    | dsimp only [id]
    | split

theorem execReadData_framed {e : Fin 64} {i : Nat} {s t : State} (h : execReadData e i s = .next t) : Framed [.out, .err, .tel, .fly, .cells, .chk, .mem, .rsv, .csn] s t := by
  unfold execReadData at h
  repeat' first
    | (injection h with h; subst h)
    | (injection h; done)
    | split at h
  all_goals repeat' first
    | with_reducible exact Framed.refl _ _
    | decide
    | with_reducible refine modRsv_frame ?_ ?_
    | with_reducible refine rsvOver_frame ?_ ?_
    | with_reducible refine rsvResponse_frame ?_ (fun _ _ _ _ => ?_) ?_
    | with_reducible refine rsvResponse_frame ?_ ?_ ?_
    | with_reducible refine Framed.foldl _ (fun _ _ => ?_) _ _ _ ?_
    | with_reducible refine Framed.foldl_fst _ (fun _ _ => ?_) _ _ _ ?_
    | with_reducible refine Framed.ite (fun _ => ?_) (fun _ => ?_)
    | (with_reducible intro _)
    | dsimp only [id]
    | split

theorem execRebaseApply_framed {s t : State} (h : execRebaseApply s = .next t) : Framed [.out, .err, .tel, .tide] s t := by
  unfold execRebaseApply at h
  repeat' first
    | (injection h with h; subst h)
    | (injection h; done)
    | split at h
  all_goals repeat' first
    | with_reducible exact Framed.refl _ _
    | decide
    | with_reducible refine judge_frame ?_ ?_
    | with_reducible refine modTide_frame ?_ ?_
    | with_reducible refine setCount_frame ?_ ?_
    | with_reducible refine Framed.foldl _ (fun _ _ => ?_) _ _ _ ?_
    | with_reducible refine Framed.foldl_fst _ (fun _ _ => ?_) _ _ _ ?_
    | with_reducible refine Framed.ite (fun _ => ?_) (fun _ => ?_)
    | (with_reducible intro _)
    | dsimp only [id]
    | split

theorem execRebaseWrite_framed {x : RegIn} {s t : State} (h : execRebaseWrite x s = .next t) : Framed [.out, .err, .tel, .regs, .net, .tide, .fly, .chk, .slc, .mem, .rsv, .csn, .wsh, .hst, .own, .bst, .hdw, .lev] s t := by
  unfold execRebaseWrite at h
  repeat' first
    | (injection h with h; subst h)
    | (injection h; done)
    | split at h
  all_goals repeat' first
    | with_reducible exact Framed.refl _ _
    | decide
    | with_reducible refine writeCommand_frame ?_ ?_
    | with_reducible refine Framed.foldl _ (fun _ _ => ?_) _ _ _ ?_
    | with_reducible refine Framed.foldl_fst _ (fun _ _ => ?_) _ _ _ ?_
    | with_reducible refine Framed.ite (fun _ => ?_) (fun _ => ?_)
    | (with_reducible intro _)
    | dsimp only [id]
    | split

theorem execRecal_framed {x : RegIn} {s t : State} (h : execRecal x s = .next t) : Framed [.out, .err, .tel, .regs, .net, .tide, .fly, .chk, .slc, .mem, .rsv, .csn, .wsh, .hst, .own, .bst, .hdw, .lev] s t := by
  unfold execRecal at h
  repeat' first
    | (injection h with h; subst h)
    | (injection h; done)
    | split at h
  all_goals repeat' first
    | with_reducible exact Framed.refl _ _
    | decide
    | with_reducible refine writeCommand_frame ?_ ?_
    | with_reducible refine Framed.foldl _ (fun _ _ => ?_) _ _ _ ?_
    | with_reducible refine Framed.foldl_fst _ (fun _ _ => ?_) _ _ _ ?_
    | with_reducible refine Framed.ite (fun _ => ?_) (fun _ => ?_)
    | (with_reducible intro _)
    | dsimp only [id]
    | split

theorem execRecoverRequest_framed {x : TestIn} {s t : State} (h : execRecoverRequest x s = .next t) : Framed [.out, .err, .tel, .regs, .net, .tide, .fly, .chk, .slc, .mem, .rsv, .csn, .wsh, .hst, .own, .bst, .hdw, .lev] s t := by
  unfold execRecoverRequest at h
  repeat' first
    | (injection h with h; subst h)
    | (injection h; done)
    | split at h
  all_goals repeat' first
    | with_reducible exact Framed.refl _ _
    | decide
    | with_reducible refine autoRecover_frame ?_ ?_
    | with_reducible refine writeCommand_frame ?_ ?_
    | with_reducible refine Framed.foldl _ (fun _ _ => ?_) _ _ _ ?_
    | with_reducible refine Framed.foldl_fst _ (fun _ _ => ?_) _ _ _ ?_
    | with_reducible refine Framed.ite (fun _ => ?_) (fun _ => ?_)
    | (with_reducible intro _)
    | dsimp only [id]
    | split

theorem execRecoveryBudgetExpiry_framed {reach : Fin 8} {s t : State} (h : execRecoveryBudgetExpiry reach s = .next t) : Framed [.out, .err, .tel, .net, .bst] s t := by
  unfold execRecoveryBudgetExpiry at h
  repeat' first
    | (injection h with h; subst h)
    | (injection h; done)
    | split at h
  all_goals repeat' first
    | with_reducible exact Framed.refl _ _
    | decide
    | with_reducible refine recoverFail_frame ?_ ?_
    | with_reducible refine Framed.foldl _ (fun _ _ => ?_) _ _ _ ?_
    | with_reducible refine Framed.foldl_fst _ (fun _ _ => ?_) _ _ _ ?_
    | with_reducible refine Framed.ite (fun _ => ?_) (fun _ => ?_)
    | (with_reducible intro _)
    | dsimp only [id]
    | split

theorem execRecoveryLoaderObject_framed {obj : Bytes} {stored : Bool} {s t : State} (h : execRecoveryLoaderObject obj stored s = .next t) : Framed [.out, .free, .err, .tel, .regs, .net, .tide, .fly, .cells, .chk, .ctxs, .slc, .frs, .mem, .rsv, .csn, .est, .edy, .wsh, .hst, .own, .bst, .hdw, .lev] s t := by
  unfold execRecoveryLoaderObject at h
  repeat' first
    | (injection h with h; subst h)
    | (injection h; done)
    | split at h
  all_goals repeat' first
    | with_reducible exact Framed.refl _ _
    | decide
    | with_reducible refine bringUpStart_frame ?_ ?_
    | with_reducible refine emit_frame ?_ ?_
    | with_reducible refine modHdw_frame ?_ ?_
    | with_reducible refine raise_frame ?_ ?_
    | with_reducible refine Framed.foldl _ (fun _ _ => ?_) _ _ _ ?_
    | with_reducible refine Framed.foldl_fst _ (fun _ _ => ?_) _ _ _ ?_
    | with_reducible refine Framed.ite (fun _ => ?_) (fun _ => ?_)
    | (with_reducible intro _)
    | dsimp only [id]
    | split

theorem execRecoveryStepEnd_framed {reach : Fin 8} {ok : Bool} {u : BringUp} {s t : State} (h : execRecoveryStepEnd reach ok u s = .next t) : Framed [.out, .err, .tel, .net, .cells, .ctxs, .slc, .bst] s t := by
  unfold execRecoveryStepEnd at h
  repeat' first
    | (injection h with h; subst h)
    | (injection h; done)
    | split at h
  all_goals repeat' first
    | with_reducible exact Framed.refl _ _
    | decide
    | with_reducible refine addDie_frame ?_ ?_
    | with_reducible refine addHoles_frame ?_ ?_
    | with_reducible refine count_frame ?_ ?_
    | with_reducible refine emit_frame ?_ ?_
    | with_reducible refine modBst_frame ?_ ?_
    | with_reducible refine modNet_frame ?_ ?_
    | with_reducible refine recoverFail_frame ?_ ?_
    | with_reducible refine siteOut_frame ?_ ?_
    | with_reducible refine Framed.foldl _ (fun _ _ => ?_) _ _ _ ?_
    | with_reducible refine Framed.foldl_fst _ (fun _ _ => ?_) _ _ _ ?_
    | with_reducible refine Framed.ite (fun _ => ?_) (fun _ => ?_)
    | (with_reducible intro _)
    | dsimp only [id]
    | split

theorem execRefetchRequest_framed {e : Fin 64} {m : Nat} {s t : State} (h : execRefetchRequest e m s = .next t) : Framed [.tel, .fly, .frs, .rsv] s t := by
  unfold execRefetchRequest at h
  repeat' first
    | (injection h with h; subst h)
    | (injection h; done)
    | split at h
  all_goals repeat' first
    | with_reducible exact Framed.refl _ _
    | decide
    | with_reducible refine countGrp_frame ?_ ?_
    | with_reducible refine modFrs_frame ?_ ?_
    | with_reducible refine putDel_frame ?_ ?_
    | with_reducible refine readSource_frame ?_ ?_
    | with_reducible refine send_frame ?_ ?_
    | with_reducible refine unfly_frame ?_ ?_
    | with_reducible refine Framed.foldl _ (fun _ _ => ?_) _ _ _ ?_
    | with_reducible refine Framed.foldl_fst _ (fun _ _ => ?_) _ _ _ ?_
    | with_reducible refine Framed.ite (fun _ => ?_) (fun _ => ?_)
    | (with_reducible intro _)
    | dsimp only [id]
    | split

theorem execRegRead_framed {x : RegIn} {s t : State} (h : execRegRead x s = .next t) : Framed [.out, .err, .tel, .regs, .csn, .own] s t := by
  unfold execRegRead at h
  repeat' first
    | (injection h with h; subst h)
    | (injection h; done)
    | split at h
  all_goals repeat' first
    | with_reducible exact Framed.refl _ _
    | decide
    | with_reducible refine readCommand_frame ?_ ?_
    | with_reducible refine Framed.foldl _ (fun _ _ => ?_) _ _ _ ?_
    | with_reducible refine Framed.foldl_fst _ (fun _ _ => ?_) _ _ _ ?_
    | with_reducible refine Framed.ite (fun _ => ?_) (fun _ => ?_)
    | (with_reducible intro _)
    | dsimp only [id]
    | split

theorem execRegWrite_framed {x : RegIn} {s t : State} (h : execRegWrite x s = .next t) : Framed [.out, .err, .tel, .regs, .net, .tide, .fly, .chk, .slc, .mem, .rsv, .csn, .wsh, .hst, .own, .bst, .hdw, .lev] s t := by
  unfold execRegWrite at h
  repeat' first
    | (injection h with h; subst h)
    | (injection h; done)
    | split at h
  all_goals repeat' first
    | with_reducible exact Framed.refl _ _
    | decide
    | with_reducible refine writeCommand_frame ?_ ?_
    | with_reducible refine Framed.foldl _ (fun _ _ => ?_) _ _ _ ?_
    | with_reducible refine Framed.foldl_fst _ (fun _ _ => ?_) _ _ _ ?_
    | with_reducible refine Framed.ite (fun _ => ?_) (fun _ => ?_)
    | (with_reducible intro _)
    | dsimp only [id]
    | split

theorem execRegionFault_framed {region : Fin 164} {value : Word} {s t : State} (h : execRegionFault region value s = .next t) : Framed [.out, .err, .tel, .net, .fly, .cells, .chk, .ctxs, .frs, .mem, .rsv, .csn, .est, .edy, .wsh, .hst, .bst, .lev] s t := by
  unfold execRegionFault at h
  repeat' first
    | (injection h with h; subst h)
    | (injection h; done)
    | split at h
  all_goals repeat' first
    | with_reducible exact Framed.refl _ _
    | decide
    | with_reducible refine addDie_frame ?_ ?_
    | with_reducible refine chipLost_frame ?_ ?_
    | with_reducible refine count_frame ?_ ?_
    | with_reducible refine emit_frame ?_ ?_
    | with_reducible refine modBst_frame ?_ ?_
    | with_reducible refine modLev_frame ?_ ?_
    | with_reducible refine raise_frame ?_ ?_
    | with_reducible refine reachLost_frame ?_ ?_
    | with_reducible refine rillSend_frame ?_ ?_
    | with_reducible refine shutdownStart_frame ?_ ?_
    | with_reducible refine siteLost_frame ?_ ?_
    | with_reducible refine Framed.foldl _ (fun _ _ => ?_) _ _ _ ?_
    | with_reducible refine Framed.foldl_fst _ (fun _ _ => ?_) _ _ _ ?_
    | with_reducible refine Framed.ite (fun _ => ?_) (fun _ => ?_)
    | (with_reducible intro _)
    | dsimp only [id]
    | split

theorem execRegionOnRequest_framed {x : RegIn} {s t : State} (h : execRegionOnRequest x s = .next t) : Framed [.out, .err, .tel, .regs, .net, .tide, .fly, .chk, .slc, .mem, .rsv, .csn, .wsh, .hst, .own, .bst, .hdw, .lev] s t := by
  unfold execRegionOnRequest at h
  repeat' first
    | (injection h with h; subst h)
    | (injection h; done)
    | split at h
  all_goals repeat' first
    | with_reducible exact Framed.refl _ _
    | decide
    | with_reducible refine writeCommand_frame ?_ ?_
    | with_reducible refine Framed.foldl _ (fun _ _ => ?_) _ _ _ ?_
    | with_reducible refine Framed.foldl_fst _ (fun _ _ => ?_) _ _ _ ?_
    | with_reducible refine Framed.ite (fun _ => ?_) (fun _ => ?_)
    | (with_reducible intro _)
    | dsimp only [id]
    | split

theorem execRegisterWrite_framed {x : RegIn} {s t : State} (h : execRegisterWrite x s = .next t) : Framed [.out, .err, .tel, .regs, .net, .tide, .fly, .chk, .slc, .mem, .rsv, .csn, .wsh, .hst, .own, .bst, .hdw, .lev] s t := by
  unfold execRegisterWrite at h
  repeat' first
    | (injection h with h; subst h)
    | (injection h; done)
    | split at h
  all_goals repeat' first
    | with_reducible exact Framed.refl _ _
    | decide
    | with_reducible refine bar2Store_frame ?_ ?_
    | with_reducible refine cfgStore_frame ?_ ?_
    | with_reducible refine writeCommand_frame ?_ ?_
    | with_reducible refine Framed.foldl _ (fun _ _ => ?_) _ _ _ ?_
    | with_reducible refine Framed.foldl_fst _ (fun _ _ => ?_) _ _ _ ?_
    | with_reducible refine Framed.ite (fun _ => ?_) (fun _ => ?_)
    | (with_reducible intro _)
    | dsimp only [id]
    | split

theorem execRekeyRequestRead_framed {s t : State} (h : execRekeyRequestRead s = .next t) : Framed [.out, .hst, .hdw] s t := by
  unfold execRekeyRequestRead at h
  repeat' first
    | (injection h with h; subst h)
    | (injection h; done)
    | split at h
  all_goals repeat' first
    | with_reducible exact Framed.refl _ _
    | decide
    | with_reducible refine attAnswer_frame ?_ ?_
    | with_reducible refine attest_frame ?_ (fun _ _ => ?_) ?_
    | with_reducible refine attest_frame ?_ ?_ ?_
    | with_reducible refine Framed.foldl _ (fun _ _ => ?_) _ _ _ ?_
    | with_reducible refine Framed.foldl_fst _ (fun _ _ => ?_) _ _ _ ?_
    | with_reducible refine Framed.ite (fun _ => ?_) (fun _ => ?_)
    | (with_reducible intro _)
    | dsimp only [id]
    | split

theorem execRekeyStart_framed {x : RegIn} {s t : State} (h : execRekeyStart x s = .next t) : Framed [.out, .err, .tel, .regs, .net, .tide, .fly, .chk, .slc, .mem, .rsv, .csn, .wsh, .hst, .own, .bst, .hdw, .lev] s t := by
  unfold execRekeyStart at h
  repeat' first
    | (injection h with h; subst h)
    | (injection h; done)
    | split at h
  all_goals repeat' first
    | with_reducible exact Framed.refl _ _
    | decide
    | with_reducible refine writeCommand_frame ?_ ?_
    | with_reducible refine Framed.foldl _ (fun _ _ => ?_) _ _ _ ?_
    | with_reducible refine Framed.foldl_fst _ (fun _ _ => ?_) _ _ _ ?_
    | with_reducible refine Framed.ite (fun _ => ?_) (fun _ => ?_)
    | (with_reducible intro _)
    | dsimp only [id]
    | split

theorem execRekeyTreeDone_framed {bad : Nat} {s t : State} (h : execRekeyTreeDone bad s = .next t) : Framed [.out, .err, .tel, .hdw] s t := by
  unfold execRekeyTreeDone at h
  repeat' first
    | (injection h with h; subst h)
    | (injection h; done)
    | split at h
  all_goals repeat' first
    | with_reducible exact Framed.refl _ _
    | decide
    | with_reducible refine indexTake_frame ?_ ?_
    | with_reducible refine indexTake_of (by assumption) ?_ ?_
    | with_reducible refine modHdw_frame ?_ ?_
    | with_reducible refine Framed.foldl _ (fun _ _ => ?_) _ _ _ ?_
    | with_reducible refine Framed.foldl_fst _ (fun _ _ => ?_) _ _ _ ?_
    | with_reducible refine Framed.ite (fun _ => ?_) (fun _ => ?_)
    | (with_reducible intro _)
    | dsimp only [id]
    | split

theorem execRelease_framed {x : OwnIn} {s t : State} (h : execRelease x s = .next t) : Framed [.out, .err, .tel, .csn, .own] s t := by
  unfold execRelease at h
  repeat' first
    | (injection h with h; subst h)
    | (injection h; done)
    | split at h
  all_goals repeat' first
    | with_reducible exact Framed.refl _ _
    | decide
    | with_reducible refine ownCommand_frame ?_ ?_
    | with_reducible refine Framed.foldl _ (fun _ _ => ?_) _ _ _ ?_
    | with_reducible refine Framed.foldl_fst _ (fun _ _ => ?_) _ _ _ ?_
    | with_reducible refine Framed.ite (fun _ => ?_) (fun _ => ?_)
    | (with_reducible intro _)
    | dsimp only [id]
    | split

theorem execRemoteReadServe_framed {m : Nat} {e : Ecc} {s t : State} (h : execRemoteReadServe m e s = .next t) : Framed [.out, .err, .tel, .fly, .cells, .ctxs, .slc, .bst] s t := by
  unfold execRemoteReadServe at h
  repeat' first
    | (injection h with h; subst h)
    | (injection h; done)
    | split at h
  all_goals repeat' first
    | with_reducible exact Framed.refl _ _
    | decide
    | with_reducible refine cellDrop_frame ?_ ?_
    | with_reducible refine cellStall_frame ?_ ?_
    | with_reducible refine eccRead_frame ?_ ?_
    | with_reducible refine eccRead_of (by assumption) ?_ ?_
    | with_reducible refine refly_frame ?_ ?_
    | with_reducible refine send_frame ?_ ?_
    | with_reducible refine unfly_frame ?_ ?_
    | with_reducible refine Framed.foldl _ (fun _ _ => ?_) _ _ _ ?_
    | with_reducible refine Framed.foldl_fst _ (fun _ _ => ?_) _ _ _ ?_
    | with_reducible refine Framed.ite (fun _ => ?_) (fun _ => ?_)
    | (with_reducible intro _)
    | dsimp only [id]
    | split

theorem execRemoteRefusal_framed {m : Nat} {s t : State} (h : execRemoteRefusal m s = .next t) : Framed [.out, .err, .tel, .fly, .cells, .ctxs, .slc] s t := by
  unfold execRemoteRefusal at h
  repeat' first
    | (injection h with h; subst h)
    | (injection h; done)
    | split at h
  all_goals repeat' first
    | with_reducible exact Framed.refl _ _
    | decide
    | with_reducible refine refuseOp_frame ?_ ?_
    | with_reducible refine unfly_frame ?_ ?_
    | with_reducible refine Framed.foldl _ (fun _ _ => ?_) _ _ _ ?_
    | with_reducible refine Framed.foldl_fst _ (fun _ _ => ?_) _ _ _ ?_
    | with_reducible refine Framed.ite (fun _ => ?_) (fun _ => ?_)
    | (with_reducible intro _)
    | dsimp only [id]
    | split

theorem execRenew_framed {x : OwnIn} {s t : State} (h : execRenew x s = .next t) : Framed [.out, .err, .tel, .csn, .own] s t := by
  unfold execRenew at h
  repeat' first
    | (injection h with h; subst h)
    | (injection h; done)
    | split at h
  all_goals repeat' first
    | with_reducible exact Framed.refl _ _
    | decide
    | with_reducible refine ownCommand_frame ?_ ?_
    | with_reducible refine Framed.foldl _ (fun _ _ => ?_) _ _ _ ?_
    | with_reducible refine Framed.foldl_fst _ (fun _ _ => ?_) _ _ _ ?_
    | with_reducible refine Framed.ite (fun _ => ?_) (fun _ => ?_)
    | (with_reducible intro _)
    | dsimp only [id]
    | split

theorem execReplan_framed {ctx : Fin 1024} {a : Admission} {s t : State} (h : execReplan ctx a s = .next t) : Framed [.out, .err, .tel, .ctxs, .slc, .frs, .mem, .rsv, .hst] s t := by
  unfold execReplan at h
  repeat' first
    | (injection h with h; subst h)
    | (injection h; done)
    | split at h
  all_goals repeat' first
    | with_reducible exact Framed.refl _ _
    | decide
    | with_reducible refine countCtx_frame ?_ ?_
    | with_reducible refine holdDue_frame ?_ ?_
    | with_reducible refine memWrite_frame ?_ ?_
    | with_reducible refine modCtx_frame ?_ ?_
    | with_reducible refine raise_frame ?_ ?_
    | with_reducible refine settle_frame ?_ ?_
    | with_reducible refine stepFail_frame ?_ ?_
    | with_reducible refine writeReport_frame ?_ ?_
    | with_reducible refine Framed.foldl _ (fun _ _ => ?_) _ _ _ ?_
    | with_reducible refine Framed.foldl_fst _ (fun _ _ => ?_) _ _ _ ?_
    | with_reducible refine Framed.ite (fun _ => ?_) (fun _ => ?_)
    | (with_reducible intro _)
    | dsimp only [id]
    | split

theorem execReplayTimeout_framed {e : Fin 64} {l : Fin 16} {s t : State} (h : execReplayTimeout e l s = .next t) : Framed [.now, .out, .err, .tel, .tide, .csn] s t := by
  unfold execReplayTimeout at h
  repeat' first
    | (injection h with h; subst h)
    | (injection h; done)
    | split at h
  all_goals repeat' first
    | with_reducible exact Framed.refl _ _
    | decide
    | with_reducible refine resend_frame ?_ ?_
    | with_reducible refine until__frame ?_ ?_
    | with_reducible refine Framed.foldl _ (fun _ _ => ?_) _ _ _ ?_
    | with_reducible refine Framed.foldl_fst _ (fun _ _ => ?_) _ _ _ ?_
    | with_reducible refine Framed.ite (fun _ => ?_) (fun _ => ?_)
    | (with_reducible intro _)
    | dsimp only [id]
    | split

theorem execReportTimeout_framed {ctx : Fin 1024} {step : Nat} {s t : State} (h : execReportTimeout ctx step s = .next t) : Framed [.out, .tel, .csn, .est] s t := by
  unfold execReportTimeout at h
  repeat' first
    | (injection h with h; subst h)
    | (injection h; done)
    | split at h
  all_goals repeat' first
    | with_reducible exact Framed.refl _ _
    | decide
    | with_reducible refine fanOut_frame ?_ ?_
    | with_reducible refine Framed.foldl _ (fun _ _ => ?_) _ _ _ ?_
    | with_reducible refine Framed.foldl_fst _ (fun _ _ => ?_) _ _ _ ?_
    | with_reducible refine Framed.ite (fun _ => ?_) (fun _ => ?_)
    | (with_reducible intro _)
    | dsimp only [id]
    | split

theorem execReskewDone_framed {ctx : Fin 1024} {s t : State} (h : execReskewDone ctx s = .next t) : Framed [.out, .err, .tel, .ctxs, .frs, .mem, .rsv, .edy, .wsh, .hst] s t := by
  unfold execReskewDone at h
  repeat' first
    | (injection h with h; subst h)
    | (injection h; done)
    | split at h
  all_goals repeat' first
    | with_reducible exact Framed.refl _ _
    | decide
    | with_reducible refine countCtx_frame ?_ ?_
    | with_reducible refine memWrite_frame ?_ ?_
    | with_reducible refine modCtx_frame ?_ ?_
    | with_reducible refine modWsh_frame ?_ ?_
    | with_reducible refine writeReport_frame ?_ ?_
    | with_reducible refine Framed.foldl _ (fun _ _ => ?_) _ _ _ ?_
    | with_reducible refine Framed.foldl_fst _ (fun _ _ => ?_) _ _ _ ?_
    | with_reducible refine Framed.ite (fun _ => ?_) (fun _ => ?_)
    | (with_reducible intro _)
    | dsimp only [id]
    | split
  all_goals try (with_reducible apply Framed.upd rfl <;> first | exact Or.inl (by decide) | with_reducible exact Or.inr rfl | with_reducible exact Or.inr ⟨rfl, rfl⟩ | with_reducible exact Or.inl ⟨by decide, fun h => h⟩ | with_reducible exact Or.inl ⟨by decide, Nat.le_refl _⟩ | exact Or.inl ⟨by decide, fun h => bwrite_wf _ _ _ h⟩ | exact Or.inl ⟨by decide, fun h => bzero_wf _ _ _ h⟩ | exact Or.inl ⟨by decide, fun _ => rfl⟩ | exact Or.inl ⟨by decide, Err.bounded_q rfl (fun h => by rw [lmod_length]; exact h)⟩ | exact Or.inl ⟨by decide, Err.bounded_q rfl (fun h => h)⟩ | exact Or.inl ⟨by decide, Err.bounded_q rfl (fun h => by rw [List.length_map]; exact h)⟩ | exact Or.inl ⟨by decide, Nat.le_succ _⟩ | exact Or.inl ⟨by decide, Err.bounded_put rfl (fun h => Err.bounded_unit h _) (fun h => h)⟩ | skip)
  all_goals repeat' first
    | with_reducible exact Framed.refl _ _
    | decide
    | with_reducible refine countCtx_frame ?_ ?_
    | with_reducible refine memWrite_frame ?_ ?_
    | with_reducible refine modCtx_frame ?_ ?_
    | with_reducible refine modWsh_frame ?_ ?_
    | with_reducible refine writeReport_frame ?_ ?_
    | with_reducible refine Framed.foldl _ (fun _ _ => ?_) _ _ _ ?_
    | with_reducible refine Framed.foldl_fst _ (fun _ _ => ?_) _ _ _ ?_
    | with_reducible refine Framed.ite (fun _ => ?_) (fun _ => ?_)
    | (with_reducible intro _)
    | dsimp only [id]
    | split

theorem execReskewStart_framed {ctx : Fin 1024} {tensor : Nat} {src dst : BitVec 48} {bytes : Nat} {s t : State} (h : execReskewStart ctx tensor src dst bytes s = .next t) : Framed [.mem, .wsh] s t := by
  unfold execReskewStart at h
  repeat' first
    | (injection h with h; subst h)
    | (injection h; done)
    | split at h
  all_goals repeat' first
    | with_reducible exact Framed.refl _ _
    | decide
    | with_reducible refine Framed.foldl _ (fun _ _ => ?_) _ _ _ ?_
    | with_reducible refine Framed.foldl_fst _ (fun _ _ => ?_) _ _ _ ?_
    | with_reducible refine Framed.ite (fun _ => ?_) (fun _ => ?_)
    | (with_reducible intro _)
    | dsimp only [id]
    | split
  all_goals try (with_reducible apply Framed.upd rfl <;> first | exact Or.inl (by decide) | with_reducible exact Or.inr rfl | with_reducible exact Or.inr ⟨rfl, rfl⟩ | with_reducible exact Or.inl ⟨by decide, fun h => h⟩ | with_reducible exact Or.inl ⟨by decide, Nat.le_refl _⟩ | exact Or.inl ⟨by decide, fun h => bwrite_wf _ _ _ h⟩ | exact Or.inl ⟨by decide, fun h => bzero_wf _ _ _ h⟩ | exact Or.inl ⟨by decide, fun _ => rfl⟩ | exact Or.inl ⟨by decide, Err.bounded_q rfl (fun h => by rw [lmod_length]; exact h)⟩ | exact Or.inl ⟨by decide, Err.bounded_q rfl (fun h => h)⟩ | exact Or.inl ⟨by decide, Err.bounded_q rfl (fun h => by rw [List.length_map]; exact h)⟩ | exact Or.inl ⟨by decide, Nat.le_succ _⟩ | exact Or.inl ⟨by decide, Err.bounded_put rfl (fun h => Err.bounded_unit h _) (fun h => h)⟩ | skip)
  all_goals repeat' first
    | with_reducible exact Framed.refl _ _
    | decide
    | with_reducible refine Framed.foldl _ (fun _ _ => ?_) _ _ _ ?_
    | with_reducible refine Framed.foldl_fst _ (fun _ _ => ?_) _ _ _ ?_
    | with_reducible refine Framed.ite (fun _ => ?_) (fun _ => ?_)
    | (with_reducible intro _)
    | dsimp only [id]
    | split

theorem execResume_framed {q : Fin 64} {a : Admission} {s t : State} (h : execResume q a s = .next t) : Framed [.out, .err, .tel, .cells, .ctxs, .slc, .frs, .mem, .rsv, .hst] s t := by
  unfold execResume at h
  repeat' first
    | (injection h with h; subst h)
    | (injection h; done)
    | split at h
  all_goals repeat' first
    | with_reducible exact Framed.refl _ _
    | decide
    | with_reducible refine cellLeave_frame ?_ ?_
    | with_reducible refine dispatch_frame ?_ (fun _ _ _ => ?_) ?_
    | with_reducible refine dispatch_frame ?_ ?_ ?_
    | with_reducible refine done_frame ?_ ?_
    | with_reducible refine dropQueued_frame ?_ ?_
    | with_reducible refine loadAll_frame ?_ ?_
    | with_reducible refine memWrite_frame ?_ ?_
    | with_reducible refine modCtx_frame ?_ ?_
    | with_reducible refine postDesc_frame ?_ ?_
    | with_reducible refine quitCells_frame ?_ ?_
    | with_reducible refine writeReport_frame ?_ ?_
    | with_reducible refine Framed.foldl _ (fun _ _ => ?_) _ _ _ ?_
    | with_reducible refine Framed.foldl_fst _ (fun _ _ => ?_) _ _ _ ?_
    | with_reducible refine Framed.ite (fun _ => ?_) (fun _ => ?_)
    | (with_reducible intro _)
    | dsimp only [id]
    | split

theorem execRetrainDone_framed {stk : Fin 64} {ok : Bool} {s t : State} (h : execRetrainDone stk ok s = .next t) : Framed [.out, .err, .tel, .net, .fly, .mem, .hst, .lev] s t := by
  unfold execRetrainDone at h
  repeat' first
    | (injection h with h; subst h)
    | (injection h; done)
    | split at h
  all_goals repeat' first
    | with_reducible exact Framed.refl _ _
    | decide
    | with_reducible refine modStk_frame ?_ ?_
    | with_reducible refine raise_frame ?_ ?_
    | with_reducible refine stackLost_frame ?_ ?_
    | with_reducible refine Framed.foldl _ (fun _ _ => ?_) _ _ _ ?_
    | with_reducible refine Framed.foldl_fst _ (fun _ _ => ?_) _ _ _ ?_
    | with_reducible refine Framed.ite (fun _ => ?_) (fun _ => ?_)
    | (with_reducible intro _)
    | dsimp only [id]
    | split
  all_goals try (with_reducible apply Framed.upd rfl <;> first | exact Or.inl (by decide) | with_reducible exact Or.inr rfl | with_reducible exact Or.inr ⟨rfl, rfl⟩ | with_reducible exact Or.inl ⟨by decide, fun h => h⟩ | with_reducible exact Or.inl ⟨by decide, Nat.le_refl _⟩ | exact Or.inl ⟨by decide, fun h => bwrite_wf _ _ _ h⟩ | exact Or.inl ⟨by decide, fun h => bzero_wf _ _ _ h⟩ | exact Or.inl ⟨by decide, fun _ => rfl⟩ | exact Or.inl ⟨by decide, Err.bounded_q rfl (fun h => by rw [lmod_length]; exact h)⟩ | exact Or.inl ⟨by decide, Err.bounded_q rfl (fun h => h)⟩ | exact Or.inl ⟨by decide, Err.bounded_q rfl (fun h => by rw [List.length_map]; exact h)⟩ | exact Or.inl ⟨by decide, Nat.le_succ _⟩ | exact Or.inl ⟨by decide, Err.bounded_put rfl (fun h => Err.bounded_unit h _) (fun h => h)⟩ | skip)
  all_goals repeat' first
    | with_reducible exact Framed.refl _ _
    | decide
    | with_reducible refine modStk_frame ?_ ?_
    | with_reducible refine raise_frame ?_ ?_
    | with_reducible refine stackLost_frame ?_ ?_
    | with_reducible refine Framed.foldl _ (fun _ _ => ?_) _ _ _ ?_
    | with_reducible refine Framed.foldl_fst _ (fun _ _ => ?_) _ _ _ ?_
    | with_reducible refine Framed.ite (fun _ => ?_) (fun _ => ?_)
    | (with_reducible intro _)
    | dsimp only [id]
    | split

theorem execRetrainRequest_framed {x : RegIn} {s t : State} (h : execRetrainRequest x s = .next t) : Framed [.out, .err, .tel, .regs, .net, .tide, .fly, .chk, .slc, .mem, .rsv, .csn, .wsh, .hst, .own, .bst, .hdw, .lev] s t := by
  unfold execRetrainRequest at h
  repeat' first
    | (injection h with h; subst h)
    | (injection h; done)
    | split at h
  all_goals repeat' first
    | with_reducible exact Framed.refl _ _
    | decide
    | with_reducible refine writeCommand_frame ?_ ?_
    | with_reducible refine Framed.foldl _ (fun _ _ => ?_) _ _ _ ?_
    | with_reducible refine Framed.foldl_fst _ (fun _ _ => ?_) _ _ _ ?_
    | with_reducible refine Framed.ite (fun _ => ?_) (fun _ => ?_)
    | (with_reducible intro _)
    | dsimp only [id]
    | split

theorem execRetrainStart_framed {stk : Fin 64} {s t : State} (h : execRetrainStart stk s = .next t) : Framed [.mem] s t := by
  unfold execRetrainStart at h
  repeat' first
    | (injection h with h; subst h)
    | (injection h; done)
    | split at h
  all_goals repeat' first
    | with_reducible exact Framed.refl _ _
    | decide
    | with_reducible refine modStk_frame ?_ ?_
    | with_reducible refine Framed.foldl _ (fun _ _ => ?_) _ _ _ ?_
    | with_reducible refine Framed.foldl_fst _ (fun _ _ => ?_) _ _ _ ?_
    | with_reducible refine Framed.ite (fun _ => ?_) (fun _ => ?_)
    | (with_reducible intro _)
    | dsimp only [id]
    | split

theorem execRfmIssue_framed {stk : Fin 64} {bank : Fin 4096} {s t : State} (h : execRfmIssue stk bank s = .next t) : Framed [.tel, .mem] s t := by
  unfold execRfmIssue at h
  repeat' first
    | (injection h with h; subst h)
    | (injection h; done)
    | split at h
  all_goals repeat' first
    | with_reducible exact Framed.refl _ _
    | decide
    | with_reducible refine count_frame ?_ ?_
    | with_reducible refine modStk_frame ?_ ?_
    | with_reducible refine Framed.foldl _ (fun _ _ => ?_) _ _ _ ?_
    | with_reducible refine Framed.foldl_fst _ (fun _ _ => ?_) _ _ _ ?_
    | with_reducible refine Framed.ite (fun _ => ?_) (fun _ => ?_)
    | (with_reducible intro _)
    | dsimp only [id]
    | split

theorem execRillMessage_framed {m : Nat} {got : Option (List Word)} {s t : State} (h : execRillMessage m got s = .next t) : Framed [.tel, .net, .fly, .rsv, .edy] s t := by
  unfold execRillMessage at h
  repeat' first
    | (injection h with h; subst h)
    | (injection h; done)
    | split at h
  all_goals repeat' first
    | with_reducible exact Framed.refl _ _
    | decide
    | with_reducible refine count_frame ?_ ?_
    | with_reducible refine rillDigest_frame ?_ ?_
    | with_reducible refine rillRelease_frame ?_ ?_
    | with_reducible refine unfly_frame ?_ ?_
    | with_reducible refine Framed.foldl _ (fun _ _ => ?_) _ _ _ ?_
    | with_reducible refine Framed.foldl_fst _ (fun _ _ => ?_) _ _ _ ?_
    | with_reducible refine Framed.ite (fun _ => ?_) (fun _ => ?_)
    | (with_reducible intro _)
    | dsimp only [id]
    | split

theorem execRingEnable_framed {x : RegIn} {s t : State} (h : execRingEnable x s = .next t) : Framed [.out, .err, .tel, .regs, .net, .tide, .fly, .chk, .slc, .mem, .rsv, .csn, .wsh, .hst, .own, .bst, .hdw, .lev] s t := by
  unfold execRingEnable at h
  repeat' first
    | (injection h with h; subst h)
    | (injection h; done)
    | split at h
  all_goals repeat' first
    | with_reducible exact Framed.refl _ _
    | decide
    | with_reducible refine writeCommand_frame ?_ ?_
    | with_reducible refine Framed.foldl _ (fun _ _ => ?_) _ _ _ ?_
    | with_reducible refine Framed.foldl_fst _ (fun _ _ => ?_) _ _ _ ?_
    | with_reducible refine Framed.ite (fun _ => ?_) (fun _ => ?_)
    | (with_reducible intro _)
    | dsimp only [id]
    | split

theorem execRollback_framed {ctx : Fin 1024} {s t : State} (h : execRollback ctx s = .next t) : Framed [.out, .tel, .cells, .ctxs, .frs, .mem, .est, .edy, .hst] s t := by
  unfold execRollback at h
  repeat' first
    | (injection h with h; subst h)
    | (injection h; done)
    | split at h
  all_goals repeat' first
    | with_reducible exact Framed.refl _ _
    | decide
    | with_reducible refine rollback_frame ?_ ?_
    | with_reducible refine Framed.foldl _ (fun _ _ => ?_) _ _ _ ?_
    | with_reducible refine Framed.foldl_fst _ (fun _ _ => ?_) _ _ _ ?_
    | with_reducible refine Framed.ite (fun _ => ?_) (fun _ => ?_)
    | (with_reducible intro _)
    | dsimp only [id]
    | split

theorem execRoundStart_framed {ctx : Fin 1024} {s t : State} (h : execRoundStart ctx s = .next t) : Framed [.tel, .cells, .chk, .ctxs, .slc, .rsv, .edy] s t := by
  unfold execRoundStart at h
  repeat' first
    | (injection h with h; subst h)
    | (injection h; done)
    | split at h
  all_goals repeat' first
    | with_reducible exact Framed.refl _ _
    | decide
    | with_reducible refine countCtx_frame ?_ ?_
    | with_reducible refine modCtx_frame ?_ ?_
    | with_reducible refine startStep_frame ?_ ?_
    | with_reducible refine Framed.foldl _ (fun _ _ => ?_) _ _ _ ?_
    | with_reducible refine Framed.foldl_fst _ (fun _ _ => ?_) _ _ _ ?_
    | with_reducible refine Framed.ite (fun _ => ?_) (fun _ => ?_)
    | (with_reducible intro _)
    | dsimp only [id]
    | split
  all_goals try (with_reducible apply Framed.upd rfl <;> first | exact Or.inl (by decide) | with_reducible exact Or.inr rfl | with_reducible exact Or.inr ⟨rfl, rfl⟩ | with_reducible exact Or.inl ⟨by decide, fun h => h⟩ | with_reducible exact Or.inl ⟨by decide, Nat.le_refl _⟩ | exact Or.inl ⟨by decide, fun h => bwrite_wf _ _ _ h⟩ | exact Or.inl ⟨by decide, fun h => bzero_wf _ _ _ h⟩ | exact Or.inl ⟨by decide, fun _ => rfl⟩ | exact Or.inl ⟨by decide, Err.bounded_q rfl (fun h => by rw [lmod_length]; exact h)⟩ | exact Or.inl ⟨by decide, Err.bounded_q rfl (fun h => h)⟩ | exact Or.inl ⟨by decide, Err.bounded_q rfl (fun h => by rw [List.length_map]; exact h)⟩ | exact Or.inl ⟨by decide, Nat.le_succ _⟩ | exact Or.inl ⟨by decide, Err.bounded_put rfl (fun h => Err.bounded_unit h _) (fun h => h)⟩ | skip)
  all_goals repeat' first
    | with_reducible exact Framed.refl _ _
    | decide
    | with_reducible refine countCtx_frame ?_ ?_
    | with_reducible refine modCtx_frame ?_ ?_
    | with_reducible refine startStep_frame ?_ ?_
    | with_reducible refine Framed.foldl _ (fun _ _ => ?_) _ _ _ ?_
    | with_reducible refine Framed.foldl_fst _ (fun _ _ => ?_) _ _ _ ?_
    | with_reducible refine Framed.ite (fun _ => ?_) (fun _ => ?_)
    | (with_reducible intro _)
    | dsimp only [id]
    | split

theorem execRouteCommit_framed {s t : State} (h : execRouteCommit s = .next t) : Framed [.out, .tel, .regs, .net, .frs, .mem, .hst, .lev] s t := by
  unfold execRouteCommit at h
  repeat' first
    | (injection h with h; subst h)
    | (injection h; done)
    | split at h
  all_goals repeat' first
    | with_reducible exact Framed.refl _ _
    | decide
    | with_reducible refine cutJudge_frame ?_ ?_
    | with_reducible refine exportRewrite_frame ?_ ?_
    | with_reducible refine modNet_frame ?_ ?_
    | with_reducible refine siteOut_frame ?_ ?_
    | with_reducible refine Framed.foldl _ (fun _ _ => ?_) _ _ _ ?_
    | with_reducible refine Framed.foldl_fst _ (fun _ _ => ?_) _ _ _ ?_
    | with_reducible refine Framed.ite (fun _ => ?_) (fun _ => ?_)
    | (with_reducible intro _)
    | dsimp only [id]
    | split
  all_goals try (with_reducible apply Framed.upd rfl <;> first | exact Or.inl (by decide) | with_reducible exact Or.inr rfl | with_reducible exact Or.inr ⟨rfl, rfl⟩ | with_reducible exact Or.inl ⟨by decide, fun h => h⟩ | with_reducible exact Or.inl ⟨by decide, Nat.le_refl _⟩ | exact Or.inl ⟨by decide, fun h => bwrite_wf _ _ _ h⟩ | exact Or.inl ⟨by decide, fun h => bzero_wf _ _ _ h⟩ | exact Or.inl ⟨by decide, fun _ => rfl⟩ | exact Or.inl ⟨by decide, Err.bounded_q rfl (fun h => by rw [lmod_length]; exact h)⟩ | exact Or.inl ⟨by decide, Err.bounded_q rfl (fun h => h)⟩ | exact Or.inl ⟨by decide, Err.bounded_q rfl (fun h => by rw [List.length_map]; exact h)⟩ | exact Or.inl ⟨by decide, Nat.le_succ _⟩ | exact Or.inl ⟨by decide, Err.bounded_put rfl (fun h => Err.bounded_unit h _) (fun h => h)⟩ | skip)
  all_goals repeat' first
    | with_reducible exact Framed.refl _ _
    | decide
    | with_reducible refine cutJudge_frame ?_ ?_
    | with_reducible refine exportRewrite_frame ?_ ?_
    | with_reducible refine modNet_frame ?_ ?_
    | with_reducible refine siteOut_frame ?_ ?_
    | with_reducible refine Framed.foldl _ (fun _ _ => ?_) _ _ _ ?_
    | with_reducible refine Framed.foldl_fst _ (fun _ _ => ?_) _ _ _ ?_
    | with_reducible refine Framed.ite (fun _ => ?_) (fun _ => ?_)
    | (with_reducible intro _)
    | dsimp only [id]
    | split

theorem execRouteTableLoad_framed {site : Fin 88} {ver : Nat} {hops : List (Fin 6 × Fin 4)} {s t : State} (h : execRouteTableLoad site ver hops s = .next t) : Framed [.net] s t := by
  unfold execRouteTableLoad at h
  repeat' first
    | (injection h with h; subst h)
    | (injection h; done)
    | split at h
  all_goals repeat' first
    | with_reducible exact Framed.refl _ _
    | decide
    | with_reducible refine modNet_frame ?_ ?_
    | with_reducible refine Framed.foldl _ (fun _ _ => ?_) _ _ _ ?_
    | with_reducible refine Framed.foldl_fst _ (fun _ _ => ?_) _ _ _ ?_
    | with_reducible refine Framed.ite (fun _ => ?_) (fun _ => ?_)
    | (with_reducible intro _)
    | dsimp only [id]
    | split

theorem execRoutersEmpty_framed {site : Fin 88} {s t : State} (h : execRoutersEmpty site s = .next t) : Framed [.out, .net] s t := by
  unfold execRoutersEmpty at h
  repeat' first
    | (injection h with h; subst h)
    | (injection h; done)
    | split at h
  all_goals repeat' first
    | with_reducible exact Framed.refl _ _
    | decide
    | with_reducible refine emit_frame ?_ ?_
    | with_reducible refine modNet_frame ?_ ?_
    | with_reducible refine Framed.foldl _ (fun _ _ => ?_) _ _ _ ?_
    | with_reducible refine Framed.foldl_fst _ (fun _ _ => ?_) _ _ _ ?_
    | with_reducible refine Framed.ite (fun _ => ?_) (fun _ => ?_)
    | (with_reducible intro _)
    | dsimp only [id]
    | split

theorem execRoutesReady_framed {slot : BitVec 50} {s t : State} (h : execRoutesReady slot s = .next t) : Framed [.out, .net, .fly] s t := by
  unfold execRoutesReady at h
  repeat' first
    | (injection h with h; subst h)
    | (injection h; done)
    | split at h
  all_goals repeat' first
    | with_reducible exact Framed.refl _ _
    | decide
    | with_reducible refine modNet_frame ?_ ?_
    | with_reducible refine rillSend_frame ?_ ?_
    | with_reducible refine Framed.foldl _ (fun _ _ => ?_) _ _ _ ?_
    | with_reducible refine Framed.foldl_fst _ (fun _ _ => ?_) _ _ _ ?_
    | with_reducible refine Framed.ite (fun _ => ?_) (fun _ => ?_)
    | (with_reducible intro _)
    | dsimp only [id]
    | split

theorem execRowRetireDone_framed {stk : Fin 64} {row : Nat} {ppr : Bool} {s t : State} (h : execRowRetireDone stk row ppr s = .next t) : Framed [.out, .err, .tel, .mem] s t := by
  unfold execRowRetireDone at h
  repeat' first
    | (injection h with h; subst h)
    | (injection h; done)
    | split at h
  all_goals repeat' first
    | with_reducible exact Framed.refl _ _
    | decide
    | with_reducible refine count_frame ?_ ?_
    | with_reducible refine modStk_frame ?_ ?_
    | with_reducible refine raise_frame ?_ ?_
    | with_reducible refine Framed.foldl _ (fun _ _ => ?_) _ _ _ ?_
    | with_reducible refine Framed.foldl_fst _ (fun _ _ => ?_) _ _ _ ?_
    | with_reducible refine Framed.ite (fun _ => ?_) (fun _ => ?_)
    | (with_reducible intro _)
    | dsimp only [id]
    | split

theorem execRsvBusyRetry_framed {agent : Fin 64} {slot : Fin 1024} {s t : State} (h : execRsvBusyRetry agent slot s = .next t) : Framed [.now, .out, .tel, .rsv, .csn] s t := by
  unfold execRsvBusyRetry at h
  repeat' first
    | (injection h with h; subst h)
    | (injection h; done)
    | split at h
  all_goals repeat' first
    | with_reducible exact Framed.refl _ _
    | decide
    | with_reducible refine rsvAgain_frame ?_ ?_
    | with_reducible refine until__frame ?_ ?_
    | with_reducible refine Framed.foldl _ (fun _ _ => ?_) _ _ _ ?_
    | with_reducible refine Framed.foldl_fst _ (fun _ _ => ?_) _ _ _ ?_
    | with_reducible refine Framed.ite (fun _ => ?_) (fun _ => ?_)
    | (with_reducible intro _)
    | dsimp only [id]
    | split

theorem execRsvRequestIssue_framed {agent : Fin 64} {i : Nat} {s t : State} (h : execRsvRequestIssue agent i s = .next t) : Framed [.out, .err, .tel, .fly, .cells, .chk, .mem, .rsv, .csn] s t := by
  unfold execRsvRequestIssue at h
  repeat' first
    | (injection h with h; subst h)
    | (injection h; done)
    | split at h
  all_goals repeat' first
    | with_reducible exact Framed.refl _ _
    | decide
    | with_reducible refine countCtx_frame ?_ ?_
    | with_reducible refine memDiscard_frame ?_ ?_
    | with_reducible refine rsvBind_frame ?_ ?_
    | with_reducible refine rsvEmit_frame ?_ ?_
    | with_reducible refine rsvOver_frame ?_ ?_
    | with_reducible refine Framed.foldl _ (fun _ _ => ?_) _ _ _ ?_
    | with_reducible refine Framed.foldl_fst _ (fun _ _ => ?_) _ _ _ ?_
    | with_reducible refine Framed.ite (fun _ => ?_) (fun _ => ?_)
    | (with_reducible intro _)
    | dsimp only [id]
    | split
  all_goals try (with_reducible apply Framed.upd rfl <;> first | exact Or.inl (by decide) | with_reducible exact Or.inr rfl | with_reducible exact Or.inr ⟨rfl, rfl⟩ | with_reducible exact Or.inl ⟨by decide, fun h => h⟩ | with_reducible exact Or.inl ⟨by decide, Nat.le_refl _⟩ | exact Or.inl ⟨by decide, fun h => bwrite_wf _ _ _ h⟩ | exact Or.inl ⟨by decide, fun h => bzero_wf _ _ _ h⟩ | exact Or.inl ⟨by decide, fun _ => rfl⟩ | exact Or.inl ⟨by decide, Err.bounded_q rfl (fun h => by rw [lmod_length]; exact h)⟩ | exact Or.inl ⟨by decide, Err.bounded_q rfl (fun h => h)⟩ | exact Or.inl ⟨by decide, Err.bounded_q rfl (fun h => by rw [List.length_map]; exact h)⟩ | exact Or.inl ⟨by decide, Nat.le_succ _⟩ | exact Or.inl ⟨by decide, Err.bounded_put rfl (fun h => Err.bounded_unit h _) (fun h => h)⟩ | skip)
  all_goals repeat' first
    | with_reducible exact Framed.refl _ _
    | decide
    | with_reducible refine countCtx_frame ?_ ?_
    | with_reducible refine memDiscard_frame ?_ ?_
    | with_reducible refine rsvBind_frame ?_ ?_
    | with_reducible refine rsvEmit_frame ?_ ?_
    | with_reducible refine rsvOver_frame ?_ ?_
    | with_reducible refine Framed.foldl _ (fun _ _ => ?_) _ _ _ ?_
    | with_reducible refine Framed.foldl_fst _ (fun _ _ => ?_) _ _ _ ?_
    | with_reducible refine Framed.ite (fun _ => ?_) (fun _ => ?_)
    | (with_reducible intro _)
    | dsimp only [id]
    | split
  all_goals try (with_reducible apply Framed.upd rfl <;> first | exact Or.inl (by decide) | with_reducible exact Or.inr rfl | with_reducible exact Or.inr ⟨rfl, rfl⟩ | with_reducible exact Or.inl ⟨by decide, fun h => h⟩ | with_reducible exact Or.inl ⟨by decide, Nat.le_refl _⟩ | exact Or.inl ⟨by decide, fun h => bwrite_wf _ _ _ h⟩ | exact Or.inl ⟨by decide, fun h => bzero_wf _ _ _ h⟩ | exact Or.inl ⟨by decide, fun _ => rfl⟩ | exact Or.inl ⟨by decide, Err.bounded_q rfl (fun h => by rw [lmod_length]; exact h)⟩ | exact Or.inl ⟨by decide, Err.bounded_q rfl (fun h => h)⟩ | exact Or.inl ⟨by decide, Err.bounded_q rfl (fun h => by rw [List.length_map]; exact h)⟩ | exact Or.inl ⟨by decide, Nat.le_succ _⟩ | exact Or.inl ⟨by decide, Err.bounded_put rfl (fun h => Err.bounded_unit h _) (fun h => h)⟩ | skip)
  all_goals repeat' first
    | with_reducible exact Framed.refl _ _
    | decide
    | with_reducible refine countCtx_frame ?_ ?_
    | with_reducible refine memDiscard_frame ?_ ?_
    | with_reducible refine rsvBind_frame ?_ ?_
    | with_reducible refine rsvEmit_frame ?_ ?_
    | with_reducible refine rsvOver_frame ?_ ?_
    | with_reducible refine Framed.foldl _ (fun _ _ => ?_) _ _ _ ?_
    | with_reducible refine Framed.foldl_fst _ (fun _ _ => ?_) _ _ _ ?_
    | with_reducible refine Framed.ite (fun _ => ?_) (fun _ => ?_)
    | (with_reducible intro _)
    | dsimp only [id]
    | split

theorem execRsvTimeout_framed {agent : Fin 64} {slot : Fin 1024} {s t : State} (h : execRsvTimeout agent slot s = .next t) : Framed [.now, .out, .err, .tel, .fly, .cells, .chk, .mem, .rsv, .csn] s t := by
  unfold execRsvTimeout at h
  repeat' first
    | (injection h with h; subst h)
    | (injection h; done)
    | split at h
  all_goals repeat' first
    | with_reducible exact Framed.refl _ _
    | decide
    | with_reducible refine countCtx_frame ?_ ?_
    | with_reducible refine rsvAbortMsg_frame ?_ ?_
    | with_reducible refine rsvAgain_frame ?_ ?_
    | with_reducible refine rsvFail_frame ?_ ?_
    | with_reducible refine until__frame ?_ ?_
    | with_reducible refine Framed.foldl _ (fun _ _ => ?_) _ _ _ ?_
    | with_reducible refine Framed.foldl_fst _ (fun _ _ => ?_) _ _ _ ?_
    | with_reducible refine Framed.ite (fun _ => ?_) (fun _ => ?_)
    | (with_reducible intro _)
    | dsimp only [id]
    | split
  all_goals try (with_reducible apply Framed.upd rfl <;> first | exact Or.inl (by decide) | with_reducible exact Or.inr rfl | with_reducible exact Or.inr ⟨rfl, rfl⟩ | with_reducible exact Or.inl ⟨by decide, fun h => h⟩ | with_reducible exact Or.inl ⟨by decide, Nat.le_refl _⟩ | exact Or.inl ⟨by decide, fun h => bwrite_wf _ _ _ h⟩ | exact Or.inl ⟨by decide, fun h => bzero_wf _ _ _ h⟩ | exact Or.inl ⟨by decide, fun _ => rfl⟩ | exact Or.inl ⟨by decide, Err.bounded_q rfl (fun h => by rw [lmod_length]; exact h)⟩ | exact Or.inl ⟨by decide, Err.bounded_q rfl (fun h => h)⟩ | exact Or.inl ⟨by decide, Err.bounded_q rfl (fun h => by rw [List.length_map]; exact h)⟩ | exact Or.inl ⟨by decide, Nat.le_succ _⟩ | exact Or.inl ⟨by decide, Err.bounded_put rfl (fun h => Err.bounded_unit h _) (fun h => h)⟩ | skip)
  all_goals repeat' first
    | with_reducible exact Framed.refl _ _
    | decide
    | with_reducible refine countCtx_frame ?_ ?_
    | with_reducible refine rsvAbortMsg_frame ?_ ?_
    | with_reducible refine rsvAgain_frame ?_ ?_
    | with_reducible refine rsvFail_frame ?_ ?_
    | with_reducible refine until__frame ?_ ?_
    | with_reducible refine Framed.foldl _ (fun _ _ => ?_) _ _ _ ?_
    | with_reducible refine Framed.foldl_fst _ (fun _ _ => ?_) _ _ _ ?_
    | with_reducible refine Framed.ite (fun _ => ?_) (fun _ => ?_)
    | (with_reducible intro _)
    | dsimp only [id]
    | split

theorem execScanEntry_framed {s t : State} (h : execScanEntry s = .next t) : Framed [.fly, .cells, .ctxs, .slc, .frs, .mem, .rsv, .est, .edy, .wsh, .hst, .hdw] s t := by
  unfold execScanEntry at h
  repeat' first
    | (injection h with h; subst h)
    | (injection h; done)
    | split at h
  all_goals repeat' first
    | with_reducible exact Framed.refl _ _
    | decide
    | with_reducible refine done_frame ?_ ?_
    | with_reducible refine modHdw_frame ?_ ?_
    | with_reducible refine Framed.foldl _ (fun _ _ => ?_) _ _ _ ?_
    | with_reducible refine Framed.foldl_fst _ (fun _ _ => ?_) _ _ _ ?_
    | with_reducible refine Framed.ite (fun _ => ?_) (fun _ => ?_)
    | (with_reducible intro _)
    | dsimp only [id]
    | split
  all_goals try (with_reducible apply Framed.upd rfl <;> first | exact Or.inl (by decide) | with_reducible exact Or.inr rfl | with_reducible exact Or.inr ⟨rfl, rfl⟩ | with_reducible exact Or.inl ⟨by decide, fun h => h⟩ | with_reducible exact Or.inl ⟨by decide, Nat.le_refl _⟩ | exact Or.inl ⟨by decide, fun h => bwrite_wf _ _ _ h⟩ | exact Or.inl ⟨by decide, fun h => bzero_wf _ _ _ h⟩ | exact Or.inl ⟨by decide, fun _ => rfl⟩ | exact Or.inl ⟨by decide, Err.bounded_q rfl (fun h => by rw [lmod_length]; exact h)⟩ | exact Or.inl ⟨by decide, Err.bounded_q rfl (fun h => h)⟩ | exact Or.inl ⟨by decide, Err.bounded_q rfl (fun h => by rw [List.length_map]; exact h)⟩ | exact Or.inl ⟨by decide, Nat.le_succ _⟩ | exact Or.inl ⟨by decide, Err.bounded_put rfl (fun h => Err.bounded_unit h _) (fun h => h)⟩ | skip)
  all_goals repeat' first
    | with_reducible exact Framed.refl _ _
    | decide
    | with_reducible refine done_frame ?_ ?_
    | with_reducible refine modHdw_frame ?_ ?_
    | with_reducible refine Framed.foldl _ (fun _ _ => ?_) _ _ _ ?_
    | with_reducible refine Framed.foldl_fst _ (fun _ _ => ?_) _ _ _ ?_
    | with_reducible refine Framed.ite (fun _ => ?_) (fun _ => ?_)
    | (with_reducible intro _)
    | dsimp only [id]
    | split

theorem execScrubCommand_framed {l : Fin 1024000} {slots : List (Fin 255)} {owner : Fin 2048} {s t : State} (h : execScrubCommand l slots owner s = .next t) : Framed [.tel, .cells, .frs] s t := by
  unfold execScrubCommand at h
  repeat' first
    | (injection h with h; subst h)
    | (injection h; done)
    | split at h
  all_goals repeat' first
    | with_reducible exact Framed.refl _ _
    | decide
    | with_reducible refine scrubSlots_frame ?_ ?_
    | with_reducible refine Framed.foldl _ (fun _ _ => ?_) _ _ _ ?_
    | with_reducible refine Framed.foldl_fst _ (fun _ _ => ?_) _ _ _ ?_
    | with_reducible refine Framed.ite (fun _ => ?_) (fun _ => ?_)
    | (with_reducible intro _)
    | dsimp only [id]
    | split

theorem execScrubDone_framed {l : Fin 1024000} {s t : State} (h : execScrubDone l s = .next t) : Framed [.out, .net, .fly, .cells, .ctxs] s t := by
  unfold execScrubDone at h
  repeat' first
    | (injection h with h; subst h)
    | (injection h; done)
    | split at h
  all_goals repeat' first
    | with_reducible exact Framed.refl _ _
    | decide
    | with_reducible refine killReport_frame ?_ ?_
    | with_reducible refine modCell_frame ?_ ?_
    | with_reducible refine rillSend_frame ?_ ?_
    | with_reducible refine Framed.foldl _ (fun _ _ => ?_) _ _ _ ?_
    | with_reducible refine Framed.foldl_fst _ (fun _ _ => ?_) _ _ _ ?_
    | with_reducible refine Framed.ite (fun _ => ?_) (fun _ => ?_)
    | (with_reducible intro _)
    | dsimp only [id]
    | split

theorem execSend_framed {l : Fin 1024000} {th : Fin 4} {ra rl : Fin 32} {len : Fin 8} {cnt : Fin 16} {rel : Bool} {e : Ecc} {s t : State} (h : execSend l th ra rl len cnt rel e s = .next t) : Framed [.out, .err, .tel, .fly, .cells, .ctxs, .slc, .bst] s t := by
  unfold execSend at h
  repeat' first
    | (injection h with h; subst h)
    | (injection h; done)
    | split at h
  all_goals repeat' first
    | with_reducible exact Framed.refl _ _
    | decide
    | with_reducible refine issue_frame ?_ ?_
    | with_reducible refine Framed.foldl _ (fun _ _ => ?_) _ _ _ ?_
    | with_reducible refine Framed.foldl_fst _ (fun _ _ => ?_) _ _ _ ?_
    | with_reducible refine Framed.ite (fun _ => ?_) (fun _ => ?_)
    | (with_reducible intro _)
    | dsimp only [id]
    | split

theorem execSendByBoundary_framed {e : Fin 64} {ctx : Fin 1024} {step : Nat} {s t : State} (h : execSendByBoundary e ctx step s = .next t) : Framed [.out, .err, .tel, .net, .fly, .cells, .frs, .mem, .csn, .est, .hst] s t := by
  unfold execSendByBoundary at h
  repeat' first
    | (injection h with h; subst h)
    | (injection h; done)
    | split at h
  all_goals repeat' first
    | with_reducible exact Framed.refl _ _
    | decide
    | with_reducible refine tileDone_frame ?_ ?_
    | with_reducible refine unitGate_frame ?_ (fun _ => ?_) ?_
    | with_reducible refine unitGate_frame ?_ ?_ ?_
    | with_reducible refine Framed.foldl _ (fun _ _ => ?_) _ _ _ ?_
    | with_reducible refine Framed.foldl_fst _ (fun _ _ => ?_) _ _ _ ?_
    | with_reducible refine Framed.ite (fun _ => ?_) (fun _ => ?_)
    | (with_reducible intro _)
    | dsimp only [id]
    | split

theorem execSendDeliver_framed {m : Nat} {e : Ecc} {s t : State} (h : execSendDeliver m e s = .next t) : Framed [.out, .err, .tel, .fly, .cells, .ctxs, .slc, .bst] s t := by
  unfold execSendDeliver at h
  repeat' first
    | (injection h with h; subst h)
    | (injection h; done)
    | split at h
  all_goals repeat' first
    | with_reducible exact Framed.refl _ _
    | decide
    | with_reducible refine cellDrop_frame ?_ ?_
    | with_reducible refine cellStall_frame ?_ ?_
    | with_reducible refine count_frame ?_ ?_
    | with_reducible refine dropOp_frame ?_ ?_
    | with_reducible refine modCell_frame ?_ ?_
    | with_reducible refine modOp_frame ?_ ?_
    | with_reducible refine readSend_frame ?_ ?_
    | with_reducible refine readSend_of (by assumption) ?_ ?_
    | with_reducible refine refly_frame ?_ ?_
    | with_reducible refine send_frame ?_ ?_
    | with_reducible refine unfly_frame ?_ ?_
    | with_reducible refine Framed.foldl _ (fun _ _ => ?_) _ _ _ ?_
    | with_reducible refine Framed.foldl_fst _ (fun _ _ => ?_) _ _ _ ?_
    | with_reducible refine Framed.ite (fun _ => ?_) (fun _ => ?_)
    | (with_reducible intro _)
    | dsimp only [id]
    | split

theorem execSendDone_framed {l : Fin 1024000} {op : Nat} {s t : State} (h : execSendDone l op s = .next t) : Framed [.out, .err, .tel, .cells, .ctxs, .slc] s t := by
  unfold execSendDone at h
  repeat' first
    | (injection h with h; subst h)
    | (injection h; done)
    | split at h
  all_goals repeat' first
    | with_reducible exact Framed.refl _ _
    | decide
    | with_reducible refine dropOp_frame ?_ ?_
    | with_reducible refine modCell_frame ?_ ?_
    | with_reducible refine opTrap_frame ?_ ?_
    | with_reducible refine Framed.foldl _ (fun _ _ => ?_) _ _ _ ?_
    | with_reducible refine Framed.foldl_fst _ (fun _ _ => ?_) _ _ _ ?_
    | with_reducible refine Framed.ite (fun _ => ?_) (fun _ => ?_)
    | (with_reducible intro _)
    | dsimp only [id]
    | split

theorem execSensorSample_framed {k : Sensor} {v : Int} {s t : State} (h : execSensorSample k v s = .next t) : Framed [.out, .err, .tel, .lev] s t := by
  unfold execSensorSample at h
  repeat' first
    | (injection h with h; subst h)
    | (injection h; done)
    | split at h
  all_goals repeat' first
    | with_reducible exact Framed.refl _ _
    | decide
    | with_reducible refine conds_frame ?_ ?_
    | with_reducible refine sensorFail_frame ?_ ?_
    | with_reducible refine setReading_frame ?_ ?_
    | with_reducible refine Framed.foldl _ (fun _ _ => ?_) _ _ _ ?_
    | with_reducible refine Framed.foldl_fst _ (fun _ _ => ?_) _ _ _ ?_
    | with_reducible refine Framed.ite (fun _ => ?_) (fun _ => ?_)
    | (with_reducible intro _)
    | dsimp only [id]
    | split

end Sys2Proof.Machine
end

