-- ==== Sys2Proof/Laws/ExecD.lean ====
section
/-! SUPPORT. The frame of each command's meaning, SensorTimeout to WriteAck: which parts of the state it may touch, and what it keeps. -/
set_option Elab.async false
namespace Sys2Proof.Machine

theorem execSensorTimeout_framed {k : Sensor} {s t : State} (h : execSensorTimeout k s = .next t) : Framed [.now, .out, .err, .tel, .lev] s t := by
  unfold execSensorTimeout at h
  repeat' first
    | (injection h with h; subst h)
    | (injection h; done)
    | split at h
  all_goals repeat' first
    | with_reducible exact Framed.refl _ _
    | decide
    | with_reducible refine conds_frame ?_ ?_
    | with_reducible refine sensorFail_frame ?_ ?_
    | with_reducible refine setReading_frame ?_ ?_
    | with_reducible refine until__frame ?_ ?_
    | with_reducible refine Framed.foldl _ (fun _ _ => ?_) _ _ _ ?_
    | with_reducible refine Framed.foldl_fst _ (fun _ _ => ?_) _ _ _ ?_
    | with_reducible refine Framed.ite (fun _ => ?_) (fun _ => ?_)
    | (with_reducible intro _)
    | dsimp only [id]
    | split

theorem execShadowLatch_framed {s t : State} (h : execShadowLatch s = .next t) : Framed [.out, .err, .tel, .regs, .csn] s t := by
  unfold execShadowLatch at h
  repeat' first
    | (injection h with h; subst h)
    | (injection h; done)
    | split at h
  all_goals repeat' first
    | with_reducible exact Framed.refl _ _
    | decide
    | with_reducible refine latchOne_frame ?_ ?_
    | with_reducible refine Framed.foldl _ (fun _ _ => ?_) _ _ _ ?_
    | with_reducible refine Framed.foldl_fst _ (fun _ _ => ?_) _ _ _ ?_
    | with_reducible refine Framed.ite (fun _ => ?_) (fun _ => ?_)
    | (with_reducible intro _)
    | dsimp only [id]
    | split
  all_goals try (with_reducible apply Framed.upd rfl <;> first | exact Or.inl (by decide) | with_reducible exact Or.inr rfl | with_reducible exact Or.inr ⟨rfl, rfl⟩ | with_reducible exact Or.inl ⟨by decide, fun h => h⟩ | with_reducible exact Or.inl ⟨by decide, Nat.le_refl _⟩ | exact Or.inl ⟨by decide, fun h => bwrite_wf _ _ _ h⟩ | exact Or.inl ⟨by decide, fun h => bzero_wf _ _ _ h⟩ | exact Or.inl ⟨by decide, fun _ => rfl⟩ | exact Or.inl ⟨by decide, Err.bounded_q rfl (fun h => by rw [lmod_length]; exact h)⟩ | exact Or.inl ⟨by decide, Err.bounded_q rfl (fun h => h)⟩ | exact Or.inl ⟨by decide, Err.bounded_q rfl (fun h => by rw [List.length_map]; exact h)⟩ | exact Or.inl ⟨by decide, Nat.le_succ _⟩ | exact Or.inl ⟨by decide, Err.bounded_put rfl (fun h => Err.bounded_unit h _) (fun h => h)⟩ | skip)
  all_goals repeat' first
    | with_reducible exact Framed.refl _ _
    | decide
    | with_reducible refine latchOne_frame ?_ ?_
    | with_reducible refine Framed.foldl _ (fun _ _ => ?_) _ _ _ ?_
    | with_reducible refine Framed.foldl_fst _ (fun _ _ => ?_) _ _ _ ?_
    | with_reducible refine Framed.ite (fun _ => ?_) (fun _ => ?_)
    | (with_reducible intro _)
    | dsimp only [id]
    | split

theorem execShardFetchTile_framed {ctx : Fin 1024} {id : Nat} {k : Option (Fin 2)} {s t : State} (h : execShardFetchTile ctx id k s = .next t) : Framed [.out, .tel, .cells, .frs, .mem, .rsv, .edy, .hst] s t := by
  unfold execShardFetchTile at h
  repeat' first
    | (injection h with h; subst h)
    | (injection h; done)
    | split at h
  all_goals repeat' first
    | with_reducible exact Framed.refl _ _
    | decide
    | with_reducible refine edyCount_frame ?_ ?_
    | with_reducible refine fetchAsk_frame ?_ ?_
    | with_reducible refine fetchTake_frame ?_ ?_
    | with_reducible refine memPutTile_frame ?_ ?_
    | with_reducible refine memWrite_frame ?_ ?_
    | with_reducible refine setCopy_frame ?_ ?_
    | with_reducible refine unitGate_frame ?_ (fun _ => ?_) ?_
    | with_reducible refine unitGate_frame ?_ ?_ ?_
    | with_reducible refine Framed.foldl _ (fun _ _ => ?_) _ _ _ ?_
    | with_reducible refine Framed.foldl_fst _ (fun _ _ => ?_) _ _ _ ?_
    | with_reducible refine Framed.ite (fun _ => ?_) (fun _ => ?_)
    | (with_reducible intro _)
    | dsimp only [id]
    | split
  all_goals try (with_reducible apply Framed.upd rfl <;> first | exact Or.inl (by decide) | with_reducible exact Or.inr rfl | with_reducible exact Or.inr ⟨rfl, rfl⟩ | with_reducible exact Or.inl ⟨by decide, fun h => h⟩ | with_reducible exact Or.inl ⟨by decide, Nat.le_refl _⟩ | exact Or.inl ⟨by decide, fun h => bwrite_wf _ _ _ h⟩ | exact Or.inl ⟨by decide, fun h => bzero_wf _ _ _ h⟩ | exact Or.inl ⟨by decide, fun _ => rfl⟩ | exact Or.inl ⟨by decide, Err.bounded_q rfl (fun h => by rw [lmod_length]; exact h)⟩ | exact Or.inl ⟨by decide, Err.bounded_q rfl (fun h => h)⟩ | exact Or.inl ⟨by decide, Err.bounded_q rfl (fun h => by rw [List.length_map]; exact h)⟩ | exact Or.inl ⟨by decide, Nat.le_succ _⟩ | exact Or.inl ⟨by decide, Err.bounded_put rfl (fun h => Err.bounded_unit h _) (fun h => h)⟩ | skip)
  all_goals repeat' first
    | with_reducible exact Framed.refl _ _
    | decide
    | with_reducible refine edyCount_frame ?_ ?_
    | with_reducible refine fetchAsk_frame ?_ ?_
    | with_reducible refine fetchTake_frame ?_ ?_
    | with_reducible refine memPutTile_frame ?_ ?_
    | with_reducible refine memWrite_frame ?_ ?_
    | with_reducible refine setCopy_frame ?_ ?_
    | with_reducible refine unitGate_frame ?_ (fun _ => ?_) ?_
    | with_reducible refine unitGate_frame ?_ ?_ ?_
    | with_reducible refine Framed.foldl _ (fun _ _ => ?_) _ _ _ ?_
    | with_reducible refine Framed.foldl_fst _ (fun _ _ => ?_) _ _ _ ?_
    | with_reducible refine Framed.ite (fun _ => ?_) (fun _ => ?_)
    | (with_reducible intro _)
    | dsimp only [id]
    | split

theorem execShardFetchVerify_framed {ctx : Fin 1024} {id : Nat} {k : Option (Fin 2)} {s t : State} (h : execShardFetchVerify ctx id k s = .next t) : Framed [.out, .err, .tel, .frs, .mem, .rsv, .est, .edy, .hst] s t := by
  unfold execShardFetchVerify at h
  repeat' first
    | (injection h with h; subst h)
    | (injection h; done)
    | split at h
  all_goals repeat' first
    | with_reducible exact Framed.refl _ _
    | decide
    | with_reducible refine copyFailed_frame ?_ ?_
    | with_reducible refine edyCount_frame ?_ ?_
    | with_reducible refine fetchAsk_frame ?_ ?_
    | with_reducible refine memWrite_frame ?_ ?_
    | with_reducible refine raise_frame ?_ ?_
    | with_reducible refine setCopy_frame ?_ ?_
    | with_reducible refine Framed.foldl _ (fun _ _ => ?_) _ _ _ ?_
    | with_reducible refine Framed.foldl_fst _ (fun _ _ => ?_) _ _ _ ?_
    | with_reducible refine Framed.ite (fun _ => ?_) (fun _ => ?_)
    | (with_reducible intro _)
    | dsimp only [id]
    | split
  all_goals try (with_reducible apply Framed.upd rfl <;> first | exact Or.inl (by decide) | with_reducible exact Or.inr rfl | with_reducible exact Or.inr ⟨rfl, rfl⟩ | with_reducible exact Or.inl ⟨by decide, fun h => h⟩ | with_reducible exact Or.inl ⟨by decide, Nat.le_refl _⟩ | exact Or.inl ⟨by decide, fun h => bwrite_wf _ _ _ h⟩ | exact Or.inl ⟨by decide, fun h => bzero_wf _ _ _ h⟩ | exact Or.inl ⟨by decide, fun _ => rfl⟩ | exact Or.inl ⟨by decide, Err.bounded_q rfl (fun h => by rw [lmod_length]; exact h)⟩ | exact Or.inl ⟨by decide, Err.bounded_q rfl (fun h => h)⟩ | exact Or.inl ⟨by decide, Err.bounded_q rfl (fun h => by rw [List.length_map]; exact h)⟩ | exact Or.inl ⟨by decide, Nat.le_succ _⟩ | exact Or.inl ⟨by decide, Err.bounded_put rfl (fun h => Err.bounded_unit h _) (fun h => h)⟩ | skip)
  all_goals repeat' first
    | with_reducible exact Framed.refl _ _
    | decide
    | with_reducible refine copyFailed_frame ?_ ?_
    | with_reducible refine edyCount_frame ?_ ?_
    | with_reducible refine fetchAsk_frame ?_ ?_
    | with_reducible refine memWrite_frame ?_ ?_
    | with_reducible refine raise_frame ?_ ?_
    | with_reducible refine setCopy_frame ?_ ?_
    | with_reducible refine Framed.foldl _ (fun _ _ => ?_) _ _ _ ?_
    | with_reducible refine Framed.foldl_fst _ (fun _ _ => ?_) _ _ _ ?_
    | with_reducible refine Framed.ite (fun _ => ?_) (fun _ => ?_)
    | (with_reducible intro _)
    | dsimp only [id]
    | split

theorem execShardNotice_framed {e : Fin 64} {i : Nat} {s t : State} (h : execShardNotice e i s = .next t) : Framed [.out, .err, .tel, .ctxs, .rsv, .csn, .edy] s t := by
  unfold execShardNotice at h
  repeat' first
    | (injection h with h; subst h)
    | (injection h; done)
    | split at h
  all_goals repeat' first
    | with_reducible exact Framed.refl _ _
    | decide
    | with_reducible refine copyNotice_frame ?_ ?_
    | with_reducible refine csnTake_frame ?_ ?_
    | with_reducible refine holdDue_frame ?_ ?_
    | with_reducible refine modShard_frame ?_ ?_
    | with_reducible refine raise_frame ?_ ?_
    | with_reducible refine setCopy_frame ?_ ?_
    | with_reducible refine Framed.foldl _ (fun _ _ => ?_) _ _ _ ?_
    | with_reducible refine Framed.foldl_fst _ (fun _ _ => ?_) _ _ _ ?_
    | with_reducible refine Framed.ite (fun _ => ?_) (fun _ => ?_)
    | (with_reducible intro _)
    | dsimp only [id]
    | split

theorem execShutdown_framed {x : RegIn} {s t : State} (h : execShutdown x s = .next t) : Framed [.out, .err, .tel, .regs, .net, .tide, .fly, .chk, .slc, .mem, .rsv, .csn, .wsh, .hst, .own, .bst, .hdw, .lev] s t := by
  unfold execShutdown at h
  repeat' first
    | (injection h with h; subst h)
    | (injection h; done)
    | split at h
  all_goals repeat' first
    | with_reducible exact Framed.refl _ _
    | decide
    | with_reducible refine writeCommand_frame ?_ ?_
    | with_reducible refine Framed.foldl _ (fun _ _ => ?_) _ _ _ ?_
    | with_reducible refine Framed.foldl_fst _ (fun _ _ => ?_) _ _ _ ?_
    | with_reducible refine Framed.ite (fun _ => ?_) (fun _ => ?_)
    | (with_reducible intro _)
    | dsimp only [id]
    | split

theorem execShutdownComplete_framed {s t : State} (h : execShutdownComplete s = .next t) : Framed [.out, .err, .tel, .regs, .net, .tide, .fly, .cells, .chk, .ctxs, .slc, .frs, .mem, .rsv, .csn, .est, .edy, .wsh, .hst, .own, .bst, .hdw, .lev] s t := by
  unfold execShutdownComplete at h
  repeat' first
    | (injection h with h; subst h)
    | (injection h; done)
    | split at h
  all_goals repeat' first
    | with_reducible exact Framed.refl _ _
    | decide
    | with_reducible refine hotSwapOpen_frame ?_ ?_
    | with_reducible refine mapDurable_frame ?_ ?_
    | with_reducible refine Framed.foldl _ (fun _ _ => ?_) _ _ _ ?_
    | with_reducible refine Framed.foldl_fst _ (fun _ _ => ?_) _ _ _ ?_
    | with_reducible refine Framed.ite (fun _ => ?_) (fun _ => ?_)
    | (with_reducible intro _)
    | dsimp only [id]
    | split

theorem execSliceAbandon_framed {cl : Fin 64000} {s t : State} (h : execSliceAbandon cl s = .next t) : Framed [.tel, .bst] s t := by
  unfold execSliceAbandon at h
  repeat' first
    | (injection h with h; subst h)
    | (injection h; done)
    | split at h
  all_goals repeat' first
    | with_reducible exact Framed.refl _ _
    | decide
    | with_reducible refine count_frame ?_ ?_
    | with_reducible refine modSlice_frame ?_ ?_
    | with_reducible refine Framed.foldl _ (fun _ _ => ?_) _ _ _ ?_
    | with_reducible refine Framed.foldl_fst _ (fun _ _ => ?_) _ _ _ ?_
    | with_reducible refine Framed.ite (fun _ => ?_) (fun _ => ?_)
    | (with_reducible intro _)
    | dsimp only [id]
    | split

theorem execSliceRelease_framed {cl : Fin 64000} {s t : State} (h : execSliceRelease cl s = .next t) : Framed [.bst] s t := by
  unfold execSliceRelease at h
  repeat' first
    | (injection h with h; subst h)
    | (injection h; done)
    | split at h
  all_goals repeat' first
    | with_reducible exact Framed.refl _ _
    | decide
    | with_reducible refine modBst_frame ?_ ?_
    | with_reducible refine Framed.foldl _ (fun _ _ => ?_) _ _ _ ?_
    | with_reducible refine Framed.foldl_fst _ (fun _ _ => ?_) _ _ _ ?_
    | with_reducible refine Framed.ite (fun _ => ?_) (fun _ => ?_)
    | (with_reducible intro _)
    | dsimp only [id]
    | split

theorem execSliceRestoreDone_framed {cl : Fin 64000} {s t : State} (h : execSliceRestoreDone cl s = .next t) : Framed [.cells, .bst] s t := by
  unfold execSliceRestoreDone at h
  repeat' first
    | (injection h with h; subst h)
    | (injection h; done)
    | split at h
  all_goals repeat' first
    | with_reducible exact Framed.refl _ _
    | decide
    | with_reducible refine modCell_frame ?_ ?_
    | with_reducible refine modSlice_frame ?_ ?_
    | with_reducible refine Framed.foldl _ (fun _ _ => ?_) _ _ _ ?_
    | with_reducible refine Framed.foldl_fst _ (fun _ _ => ?_) _ _ _ ?_
    | with_reducible refine Framed.ite (fun _ => ?_) (fun _ => ?_)
    | (with_reducible intro _)
    | dsimp only [id]
    | split

theorem execSliceSaveDone_framed {cl : Fin 64000} {s t : State} (h : execSliceSaveDone cl s = .next t) : Framed [.bst] s t := by
  unfold execSliceSaveDone at h
  repeat' first
    | (injection h with h; subst h)
    | (injection h; done)
    | split at h
  all_goals repeat' first
    | with_reducible exact Framed.refl _ _
    | decide
    | with_reducible refine modSlice_frame ?_ ?_
    | with_reducible refine Framed.foldl _ (fun _ _ => ?_) _ _ _ ?_
    | with_reducible refine Framed.foldl_fst _ (fun _ _ => ?_) _ _ _ ?_
    | with_reducible refine Framed.ite (fun _ => ?_) (fun _ => ?_)
    | (with_reducible intro _)
    | dsimp only [id]
    | split

theorem execSliceStart_framed {cl : Fin 64000} {s t : State} (h : execSliceStart cl s = .next t) : Framed [.bst] s t := by
  unfold execSliceStart at h
  repeat' first
    | (injection h with h; subst h)
    | (injection h; done)
    | split at h
  all_goals repeat' first
    | with_reducible exact Framed.refl _ _
    | decide
    | with_reducible refine modBst_frame ?_ ?_
    | with_reducible refine Framed.foldl _ (fun _ _ => ?_) _ _ _ ?_
    | with_reducible refine Framed.foldl_fst _ (fun _ _ => ?_) _ _ _ ?_
    | with_reducible refine Framed.ite (fun _ => ?_) (fun _ => ?_)
    | (with_reducible intro _)
    | dsimp only [id]
    | split

theorem execSliceTestDone_framed {cl : Fin 64000} {bad : List (Fin 16)} {s t : State} (h : execSliceTestDone cl bad s = .next t) : Framed [.out, .err, .tel, .net, .cells, .ctxs, .slc, .bst] s t := by
  unfold execSliceTestDone at h
  repeat' first
    | (injection h with h; subst h)
    | (injection h; done)
    | split at h
  all_goals repeat' first
    | with_reducible exact Framed.refl _ _
    | decide
    | with_reducible refine addHoles_frame ?_ ?_
    | with_reducible refine count_frame ?_ ?_
    | with_reducible refine modBst_frame ?_ ?_
    | with_reducible refine modSlice_frame ?_ ?_
    | with_reducible refine segPassed_frame ?_ ?_
    | with_reducible refine Framed.foldl _ (fun _ _ => ?_) _ _ _ ?_
    | with_reducible refine Framed.foldl_fst _ (fun _ _ => ?_) _ _ _ ?_
    | with_reducible refine Framed.ite (fun _ => ?_) (fun _ => ?_)
    | (with_reducible intro _)
    | dsimp only [id]
    | split

theorem execSlotBoundary_framed {overs : List (Fin 64)} {s t : State} (h : execSlotBoundary overs s = .next t) : Framed [.now, .out, .err, .tel, .regs, .net, .tide, .fly, .cells, .ctxs, .frs, .mem, .rsv, .csn, .est, .hst, .lev] s t := by
  unfold execSlotBoundary at h
  repeat' first
    | (injection h with h; subst h)
    | (injection h; done)
    | split at h
  all_goals repeat' first
    | with_reducible exact Framed.refl _ _
    | decide
    | with_reducible refine estBoundary_frame ?_ ?_
    | with_reducible refine estSlices_frame ?_ ?_
    | with_reducible refine exportClose_frame ?_ ?_
    | with_reducible refine latchCatch_frame ?_ ?_
    | with_reducible refine levBoundary_frame ?_ ?_
    | with_reducible refine modStk_frame ?_ ?_
    | with_reducible refine overrunCount_frame ?_ ?_
    | with_reducible refine readyMark_frame ?_ ?_
    | with_reducible refine telBoundary_frame ?_ ?_
    | with_reducible refine tideBoundary_frame ?_ ?_
    | with_reducible refine Framed.foldl _ (fun _ _ => ?_) _ _ _ ?_
    | with_reducible refine Framed.foldl_fst _ (fun _ _ => ?_) _ _ _ ?_
    | with_reducible refine Framed.ite (fun _ => ?_) (fun _ => ?_)
    | (with_reducible intro _)
    | dsimp only [id]
    | split
  all_goals try (with_reducible apply Framed.upd rfl <;> first | exact Or.inl (by decide) | with_reducible exact Or.inr rfl | with_reducible exact Or.inr ⟨rfl, rfl⟩ | with_reducible exact Or.inl ⟨by decide, fun h => h⟩ | with_reducible exact Or.inl ⟨by decide, Nat.le_refl _⟩ | exact Or.inl ⟨by decide, fun h => bwrite_wf _ _ _ h⟩ | exact Or.inl ⟨by decide, fun h => bzero_wf _ _ _ h⟩ | exact Or.inl ⟨by decide, fun _ => rfl⟩ | exact Or.inl ⟨by decide, Err.bounded_q rfl (fun h => by rw [lmod_length]; exact h)⟩ | exact Or.inl ⟨by decide, Err.bounded_q rfl (fun h => h)⟩ | exact Or.inl ⟨by decide, Err.bounded_q rfl (fun h => by rw [List.length_map]; exact h)⟩ | exact Or.inl ⟨by decide, Nat.le_succ _⟩ | exact Or.inl ⟨by decide, Err.bounded_put rfl (fun h => Err.bounded_unit h _) (fun h => h)⟩ | skip)
  all_goals repeat' first
    | with_reducible exact Framed.refl _ _
    | decide
    | with_reducible refine estBoundary_frame ?_ ?_
    | with_reducible refine estSlices_frame ?_ ?_
    | with_reducible refine exportClose_frame ?_ ?_
    | with_reducible refine latchCatch_frame ?_ ?_
    | with_reducible refine levBoundary_frame ?_ ?_
    | with_reducible refine modStk_frame ?_ ?_
    | with_reducible refine overrunCount_frame ?_ ?_
    | with_reducible refine readyMark_frame ?_ ?_
    | with_reducible refine telBoundary_frame ?_ ?_
    | with_reducible refine tideBoundary_frame ?_ ?_
    | with_reducible refine Framed.foldl _ (fun _ _ => ?_) _ _ _ ?_
    | with_reducible refine Framed.foldl_fst _ (fun _ _ => ?_) _ _ _ ?_
    | with_reducible refine Framed.ite (fun _ => ?_) (fun _ => ?_)
    | (with_reducible intro _)
    | dsimp only [id]
    | split

theorem execSlotMarker_framed {ep : Fin 164} {slot : BitVec 50} {len : Nat} {s t : State} (h : execSlotMarker ep slot len s = .next t) : Framed [.out, .err, .tel, .tide] s t := by
  unfold execSlotMarker at h
  repeat' first
    | (injection h with h; subst h)
    | (injection h; done)
    | split at h
  all_goals repeat' first
    | with_reducible exact Framed.refl _ _
    | decide
    | with_reducible refine modTide_frame ?_ ?_
    | with_reducible refine raise_frame ?_ ?_
    | with_reducible refine Framed.foldl _ (fun _ _ => ?_) _ _ _ ?_
    | with_reducible refine Framed.foldl_fst _ (fun _ _ => ?_) _ _ _ ?_
    | with_reducible refine Framed.ite (fun _ => ?_) (fun _ => ?_)
    | (with_reducible intro _)
    | dsimp only [id]
    | split

theorem execSlotMarkerSend_framed {s t : State} (h : execSlotMarkerSend s = .next t) : Framed [.now, .out, .net, .tide, .fly] s t := by
  unfold execSlotMarkerSend at h
  repeat' first
    | (injection h with h; subst h)
    | (injection h; done)
    | split at h
  all_goals repeat' first
    | with_reducible exact Framed.refl _ _
    | decide
    | with_reducible refine modTide_frame ?_ ?_
    | with_reducible refine rillSend_frame ?_ ?_
    | with_reducible refine until__frame ?_ ?_
    | with_reducible refine Framed.foldl _ (fun _ _ => ?_) _ _ _ ?_
    | with_reducible refine Framed.foldl_fst _ (fun _ _ => ?_) _ _ _ ?_
    | with_reducible refine Framed.ite (fun _ => ?_) (fun _ => ?_)
    | (with_reducible intro _)
    | dsimp only [id]
    | split

theorem execSlotProgramStart_framed {l : Fin 1024000} {s t : State} (h : execSlotProgramStart l s = .next t) : Framed [.tel, .cells] s t := by
  unfold execSlotProgramStart at h
  repeat' first
    | (injection h with h; subst h)
    | (injection h; done)
    | split at h
  all_goals repeat' first
    | with_reducible exact Framed.refl _ _
    | decide
    | with_reducible refine modCell_frame ?_ ?_
    | with_reducible refine telStarted_frame ?_ ?_
    | with_reducible refine Framed.foldl _ (fun _ _ => ?_) _ _ _ ?_
    | with_reducible refine Framed.foldl_fst _ (fun _ _ => ?_) _ _ _ ?_
    | with_reducible refine Framed.ite (fun _ => ?_) (fun _ => ?_)
    | (with_reducible intro _)
    | dsimp only [id]
    | split

theorem execSlotSelection_framed {cl : Fin 64000} {slot : BitVec 50} {picks : List (Fin 1024 × Option (Fin 16))} {ps : List Contrib} {s t : State} (h : execSlotSelection cl slot picks ps s = .next t) : Framed [.cells] s t := by
  unfold execSlotSelection at h
  repeat' first
    | (injection h with h; subst h)
    | (injection h; done)
    | split at h
  all_goals repeat' first
    | with_reducible exact Framed.refl _ _
    | decide
    | with_reducible refine modCell_frame ?_ ?_
    | with_reducible refine Framed.foldl _ (fun _ _ => ?_) _ _ _ ?_
    | with_reducible refine Framed.foldl_fst _ (fun _ _ => ?_) _ _ _ ?_
    | with_reducible refine Framed.ite (fun _ => ?_) (fun _ => ?_)
    | (with_reducible intro _)
    | dsimp only [id]
    | split

theorem execSmBatchIssue_framed {stk : Fin 64} {bank : Fin 4096} {s t : State} (h : execSmBatchIssue stk bank s = .next t) : Framed [.now, .tel, .mem] s t := by
  unfold execSmBatchIssue at h
  repeat' first
    | (injection h with h; subst h)
    | (injection h; done)
    | split at h
  all_goals repeat' first
    | with_reducible exact Framed.refl _ _
    | decide
    | with_reducible refine count_frame ?_ ?_
    | with_reducible refine countCtx_frame ?_ ?_
    | with_reducible refine modStk_frame ?_ ?_
    | with_reducible refine until__frame ?_ ?_
    | with_reducible refine Framed.foldl _ (fun _ _ => ?_) _ _ _ ?_
    | with_reducible refine Framed.foldl_fst _ (fun _ _ => ?_) _ _ _ ?_
    | with_reducible refine Framed.ite (fun _ => ?_) (fun _ => ?_)
    | (with_reducible intro _)
    | dsimp only [id]
    | split

theorem execSourceReadIssue_framed {e : Fin 64} {pass src : Nat} {s t : State} (h : execSourceReadIssue e pass src s = .next t) : Framed [.tel, .frs, .rsv] s t := by
  unfold execSourceReadIssue at h
  repeat' first
    | (injection h with h; subst h)
    | (injection h; done)
    | split at h
  all_goals repeat' first
    | with_reducible exact Framed.refl _ _
    | decide
    | with_reducible refine modPass_frame ?_ ?_
    | with_reducible refine readSource_frame ?_ ?_
    | with_reducible refine Framed.foldl _ (fun _ _ => ?_) _ _ _ ?_
    | with_reducible refine Framed.foldl_fst _ (fun _ _ => ?_) _ _ _ ?_
    | with_reducible refine Framed.ite (fun _ => ?_) (fun _ => ?_)
    | (with_reducible intro _)
    | dsimp only [id]
    | split

theorem execSourceReadReturn_framed {e : Fin 64} {pass src : Nat} {alter : Option Bytes} {ecc : List (Nat × MemEcc)} {s t : State} (h : execSourceReadReturn e pass src alter ecc s = .next t) : Framed [.out, .err, .tel, .cells, .frs, .mem, .rsv] s t := by
  unfold execSourceReadReturn at h
  repeat' first
    | (injection h with h; subst h)
    | (injection h; done)
    | split at h
  all_goals repeat' first
    | with_reducible exact Framed.refl _ _
    | decide
    | with_reducible refine chkEng_frame ?_ ?_
    | with_reducible refine countPass_frame ?_ ?_
    | with_reducible refine memDiscard_frame ?_ ?_
    | with_reducible refine modFrs_frame ?_ ?_
    | with_reducible refine ownLines_frame ?_ ?_
    | with_reducible refine raise_frame ?_ ?_
    | with_reducible refine readSource_frame ?_ ?_
    | with_reducible refine releaseEntries_frame ?_ ?_
    | with_reducible refine rsvTake_frame ?_ ?_
    | with_reducible refine unitGate_frame ?_ (fun _ => ?_) ?_
    | with_reducible refine unitGate_frame ?_ ?_ ?_
    | with_reducible refine Framed.foldl _ (fun _ _ => ?_) _ _ _ ?_
    | with_reducible refine Framed.foldl_fst _ (fun _ _ => ?_) _ _ _ ?_
    | with_reducible refine Framed.ite (fun _ => ?_) (fun _ => ?_)
    | (with_reducible intro _)
    | dsimp only [id]
    | split

theorem execSrcSelApply_framed {s t : State} (h : execSrcSelApply s = .next t) : Framed [.out, .err, .tel, .tide] s t := by
  unfold execSrcSelApply at h
  repeat' first
    | (injection h with h; subst h)
    | (injection h; done)
    | split at h
  all_goals repeat' first
    | with_reducible exact Framed.refl _ _
    | decide
    | with_reducible refine enterTide_frame ?_ ?_
    | with_reducible refine modTide_frame ?_ ?_
    | with_reducible refine Framed.foldl _ (fun _ _ => ?_) _ _ _ ?_
    | with_reducible refine Framed.foldl_fst _ (fun _ _ => ?_) _ _ _ ?_
    | with_reducible refine Framed.ite (fun _ => ?_) (fun _ => ?_)
    | (with_reducible intro _)
    | dsimp only [id]
    | split

theorem execSrcSelWrite_framed {x : RegIn} {s t : State} (h : execSrcSelWrite x s = .next t) : Framed [.out, .err, .tel, .regs, .net, .tide, .fly, .chk, .slc, .mem, .rsv, .csn, .wsh, .hst, .own, .bst, .hdw, .lev] s t := by
  unfold execSrcSelWrite at h
  repeat' first
    | (injection h with h; subst h)
    | (injection h; done)
    | split at h
  all_goals repeat' first
    | with_reducible exact Framed.refl _ _
    | decide
    | with_reducible refine writeCommand_frame ?_ ?_
    | with_reducible refine Framed.foldl _ (fun _ _ => ?_) _ _ _ ?_
    | with_reducible refine Framed.foldl_fst _ (fun _ _ => ?_) _ _ _ ?_
    | with_reducible refine Framed.ite (fun _ => ?_) (fun _ => ?_)
    | (with_reducible intro _)
    | dsimp only [id]
    | split

theorem execStackCooldown_framed {stk : Fin 64} {s t : State} (h : execStackCooldown stk s = .next t) : Framed [.now, .mem] s t := by
  unfold execStackCooldown at h
  repeat' first
    | (injection h with h; subst h)
    | (injection h; done)
    | split at h
  all_goals repeat' first
    | with_reducible exact Framed.refl _ _
    | decide
    | with_reducible refine modStk_frame ?_ ?_
    | with_reducible refine until__frame ?_ ?_
    | with_reducible refine Framed.foldl _ (fun _ _ => ?_) _ _ _ ?_
    | with_reducible refine Framed.foldl_fst _ (fun _ _ => ?_) _ _ _ ?_
    | with_reducible refine Framed.ite (fun _ => ?_) (fun _ => ?_)
    | (with_reducible intro _)
    | dsimp only [id]
    | split

theorem execStackOverheat_framed {stk : Fin 64} {s t : State} (h : execStackOverheat stk s = .next t) : Framed [.now, .out, .err, .tel, .net, .fly, .mem, .hst, .lev] s t := by
  unfold execStackOverheat at h
  repeat' first
    | (injection h with h; subst h)
    | (injection h; done)
    | split at h
  all_goals repeat' first
    | with_reducible exact Framed.refl _ _
    | decide
    | with_reducible refine modLev_frame ?_ ?_
    | with_reducible refine stackLost_frame ?_ ?_
    | with_reducible refine until__frame ?_ ?_
    | with_reducible refine Framed.foldl _ (fun _ _ => ?_) _ _ _ ?_
    | with_reducible refine Framed.foldl_fst _ (fun _ _ => ?_) _ _ _ ?_
    | with_reducible refine Framed.ite (fun _ => ?_) (fun _ => ?_)
    | (with_reducible intro _)
    | dsimp only [id]
    | split

theorem execStartupTestDone_framed {u : BringUp} {s t : State} (h : execStartupTestDone u s = .next t) : Framed [.out, .free, .full, .err, .tel, .regs, .net, .tide, .fly, .cells, .chk, .ctxs, .slc, .frs, .mem, .rsv, .csn, .est, .edy, .wsh, .hst, .bst, .hdw, .lev] s t := by
  unfold execStartupTestDone at h
  repeat' first
    | (injection h with h; subst h)
    | (injection h; done)
    | split at h
  all_goals repeat' first
    | with_reducible exact Framed.refl _ _
    | decide
    | with_reducible refine bringUpStep_frame ?_ ?_
    | with_reducible refine Framed.foldl _ (fun _ _ => ?_) _ _ _ ?_
    | with_reducible refine Framed.foldl_fst _ (fun _ _ => ?_) _ _ _ ?_
    | with_reducible refine Framed.ite (fun _ => ?_) (fun _ => ?_)
    | (with_reducible intro _)
    | dsimp only [id]
    | split

theorem execStep_framed {q : Fin 64} {s t : State} (h : execStep q s = .next t) : Framed [.out, .err, .tel, .ctxs, .slc, .hst] s t := by
  unfold execStep at h
  repeat' first
    | (injection h with h; subst h)
    | (injection h; done)
    | split at h
  all_goals repeat' first
    | with_reducible exact Framed.refl _ _
    | decide
    | with_reducible refine dispatch_frame ?_ (fun _ _ _ => ?_) ?_
    | with_reducible refine dispatch_frame ?_ ?_ ?_
    | with_reducible refine modCtx_frame ?_ ?_
    | with_reducible refine Framed.foldl _ (fun _ _ => ?_) _ _ _ ?_
    | with_reducible refine Framed.foldl_fst _ (fun _ _ => ?_) _ _ _ ?_
    | with_reducible refine Framed.ite (fun _ => ?_) (fun _ => ?_)
    | (with_reducible intro _)
    | dsimp only [id]
    | split

theorem execStepComplete_framed {ctx : Fin 1024} {s t : State} (h : execStepComplete ctx s = .next t) : Framed [.out, .err, .tel, .ctxs, .slc, .est, .edy] s t := by
  unfold execStepComplete at h
  repeat' first
    | (injection h with h; subst h)
    | (injection h; done)
    | split at h
  all_goals repeat' first
    | with_reducible exact Framed.refl _ _
    | decide
    | with_reducible refine holdDue_frame ?_ ?_
    | with_reducible refine modCtx_frame ?_ ?_
    | with_reducible refine modStrm_frame ?_ ?_
    | with_reducible refine postStep_frame ?_ ?_
    | with_reducible refine settle_frame ?_ ?_
    | with_reducible refine Framed.foldl _ (fun _ _ => ?_) _ _ _ ?_
    | with_reducible refine Framed.foldl_fst _ (fun _ _ => ?_) _ _ _ ?_
    | with_reducible refine Framed.ite (fun _ => ?_) (fun _ => ?_)
    | (with_reducible intro _)
    | dsimp only [id]
    | split
  all_goals try (with_reducible apply Framed.upd rfl <;> first | exact Or.inl (by decide) | with_reducible exact Or.inr rfl | with_reducible exact Or.inr ⟨rfl, rfl⟩ | with_reducible exact Or.inl ⟨by decide, fun h => h⟩ | with_reducible exact Or.inl ⟨by decide, Nat.le_refl _⟩ | exact Or.inl ⟨by decide, fun h => bwrite_wf _ _ _ h⟩ | exact Or.inl ⟨by decide, fun h => bzero_wf _ _ _ h⟩ | exact Or.inl ⟨by decide, fun _ => rfl⟩ | exact Or.inl ⟨by decide, Err.bounded_q rfl (fun h => by rw [lmod_length]; exact h)⟩ | exact Or.inl ⟨by decide, Err.bounded_q rfl (fun h => h)⟩ | exact Or.inl ⟨by decide, Err.bounded_q rfl (fun h => by rw [List.length_map]; exact h)⟩ | exact Or.inl ⟨by decide, Nat.le_succ _⟩ | exact Or.inl ⟨by decide, Err.bounded_put rfl (fun h => Err.bounded_unit h _) (fun h => h)⟩ | skip)
  all_goals repeat' first
    | with_reducible exact Framed.refl _ _
    | decide
    | with_reducible refine holdDue_frame ?_ ?_
    | with_reducible refine modCtx_frame ?_ ?_
    | with_reducible refine modStrm_frame ?_ ?_
    | with_reducible refine postStep_frame ?_ ?_
    | with_reducible refine settle_frame ?_ ?_
    | with_reducible refine Framed.foldl _ (fun _ _ => ?_) _ _ _ ?_
    | with_reducible refine Framed.foldl_fst _ (fun _ _ => ?_) _ _ _ ?_
    | with_reducible refine Framed.ite (fun _ => ?_) (fun _ => ?_)
    | (with_reducible intro _)
    | dsimp only [id]
    | split

theorem execStepStart_framed {ctx : Fin 1024} {s t : State} (h : execStepStart ctx s = .next t) : Framed [.tel, .cells, .chk, .ctxs, .slc, .rsv, .edy] s t := by
  unfold execStepStart at h
  repeat' first
    | (injection h with h; subst h)
    | (injection h; done)
    | split at h
  all_goals repeat' first
    | with_reducible exact Framed.refl _ _
    | decide
    | with_reducible refine startStep_frame ?_ ?_
    | with_reducible refine Framed.foldl _ (fun _ _ => ?_) _ _ _ ?_
    | with_reducible refine Framed.foldl_fst _ (fun _ _ => ?_) _ _ _ ?_
    | with_reducible refine Framed.ite (fun _ => ?_) (fun _ => ?_)
    | (with_reducible intro _)
    | dsimp only [id]
    | split

theorem execStn_framed {l : Fin 1024000} {th : Fin 4} {rt rb : Fin 32} {sz : Fin 4} {off : BitVec 12} {e : Ecc} {s t : State} (h : execStn l th rt rb sz off e s = .next t) : Framed [.out, .err, .tel, .fly, .cells, .ctxs, .slc, .bst] s t := by
  unfold execStn at h
  repeat' first
    | (injection h with h; subst h)
    | (injection h; done)
    | split at h
  all_goals repeat' first
    | with_reducible exact Framed.refl _ _
    | decide
    | with_reducible refine issue_frame ?_ ?_
    | with_reducible refine Framed.foldl _ (fun _ _ => ?_) _ _ _ ?_
    | with_reducible refine Framed.foldl_fst _ (fun _ _ => ?_) _ _ _ ?_
    | with_reducible refine Framed.ite (fun _ => ?_) (fun _ => ?_)
    | (with_reducible intro _)
    | dsimp only [id]
    | split

theorem execStreamBufferSpace_framed {ctx : Fin 1024} {s t : State} (h : execStreamBufferSpace ctx s = .next t) : Framed [.tel, .edy] s t := by
  unfold execStreamBufferSpace at h
  repeat' first
    | (injection h with h; subst h)
    | (injection h; done)
    | split at h
  all_goals repeat' first
    | with_reducible exact Framed.refl _ _
    | decide
    | with_reducible refine modStrm_frame ?_ ?_
    | with_reducible refine strmPut_frame ?_ ?_
    | with_reducible refine strmPut_of (by assumption) ?_ ?_
    | with_reducible refine strmRefill_frame ?_ ?_
    | with_reducible refine strmWaited_frame ?_ ?_
    | with_reducible refine Framed.foldl _ (fun _ _ => ?_) _ _ _ ?_
    | with_reducible refine Framed.foldl_fst _ (fun _ _ => ?_) _ _ _ ?_
    | with_reducible refine Framed.ite (fun _ => ?_) (fun _ => ?_)
    | (with_reducible intro _)
    | dsimp only [id]
    | split

theorem execStreamControlUpdate_framed {ctx : Fin 1024} {consumed : BitVec 64} {s t : State} (h : execStreamControlUpdate ctx consumed s = .next t) : Framed [.out, .err, .tel, .edy, .hst] s t := by
  unfold execStreamControlUpdate at h
  repeat' first
    | (injection h with h; subst h)
    | (injection h; done)
    | split at h
  all_goals repeat' first
    | with_reducible exact Framed.refl _ _
    | decide
    | with_reducible refine cacheAdd_frame ?_ ?_
    | with_reducible refine modStrm_frame ?_ ?_
    | with_reducible refine raise_frame ?_ ?_
    | with_reducible refine Framed.foldl _ (fun _ _ => ?_) _ _ _ ?_
    | with_reducible refine Framed.foldl_fst _ (fun _ _ => ?_) _ _ _ ?_
    | with_reducible refine Framed.ite (fun _ => ?_) (fun _ => ?_)
    | (with_reducible intro _)
    | dsimp only [id]
    | split

theorem execStreamExport_framed {ctx : Fin 1024} {s t : State} (h : execStreamExport ctx s = .next t) : Framed [.out, .mem, .rsv, .edy] s t := by
  unfold execStreamExport at h
  repeat' first
    | (injection h with h; subst h)
    | (injection h; done)
    | split at h
  all_goals repeat' first
    | with_reducible exact Framed.refl _ _
    | decide
    | with_reducible refine emit_frame ?_ ?_
    | with_reducible refine modStrm_frame ?_ ?_
    | with_reducible refine sinkPut_frame ?_ ?_
    | with_reducible refine Framed.foldl _ (fun _ _ => ?_) _ _ _ ?_
    | with_reducible refine Framed.foldl_fst _ (fun _ _ => ?_) _ _ _ ?_
    | with_reducible refine Framed.ite (fun _ => ?_) (fun _ => ?_)
    | (with_reducible intro _)
    | dsimp only [id]
    | split

theorem execStreamStallLimit_framed {e : Fin 64} {ctx : Fin 1024} {s t : State} (h : execStreamStallLimit e ctx s = .next t) : Framed [.out, .err, .tel, .edy] s t := by
  unfold execStreamStallLimit at h
  repeat' first
    | (injection h with h; subst h)
    | (injection h; done)
    | split at h
  all_goals repeat' first
    | with_reducible exact Framed.refl _ _
    | decide
    | with_reducible refine edyCount_frame ?_ ?_
    | with_reducible refine modStrm_frame ?_ ?_
    | with_reducible refine modSweep_frame ?_ ?_
    | with_reducible refine raise_frame ?_ ?_
    | with_reducible refine strmWaited_frame ?_ ?_
    | with_reducible refine Framed.foldl _ (fun _ _ => ?_) _ _ _ ?_
    | with_reducible refine Framed.foldl_fst _ (fun _ _ => ?_) _ _ _ ?_
    | with_reducible refine Framed.ite (fun _ => ?_) (fun _ => ?_)
    | (with_reducible intro _)
    | dsimp only [id]
    | split

theorem execSubstitutionDone_framed {s t : State} (h : execSubstitutionDone s = .next t) : Framed [.out, .free, .full, .err, .tel, .regs, .net, .tide, .fly, .cells, .chk, .ctxs, .slc, .frs, .mem, .rsv, .csn, .est, .edy, .wsh, .hst, .bst, .hdw, .lev] s t := by
  unfold execSubstitutionDone at h
  repeat' first
    | (injection h with h; subst h)
    | (injection h; done)
    | split at h
  all_goals repeat' first
    | with_reducible exact Framed.refl _ _
    | decide
    | with_reducible refine bringUpStep_frame ?_ ?_
    | with_reducible refine Framed.foldl _ (fun _ _ => ?_) _ _ _ ?_
    | with_reducible refine Framed.foldl_fst _ (fun _ _ => ?_) _ _ _ ?_
    | with_reducible refine Framed.ite (fun _ => ?_) (fun _ => ?_)
    | (with_reducible intro _)
    | dsimp only [id]
    | split

theorem execSweepComplete_framed {e : Fin 64} {ctx : Fin 1024} {s t : State} (h : execSweepComplete e ctx s = .next t) : Framed [.out, .err, .tel, .net, .fly, .cells, .ctxs, .slc, .frs, .mem, .rsv, .csn, .edy, .hst] s t := by
  unfold execSweepComplete at h
  repeat' first
    | (injection h with h; subst h)
    | (injection h; done)
    | split at h
  all_goals repeat' first
    | with_reducible exact Framed.refl _ _
    | decide
    | with_reducible refine edyAdvance_frame ?_ ?_
    | with_reducible refine modSweep_frame ?_ ?_
    | with_reducible refine sweepEnd_frame ?_ ?_
    | with_reducible refine Framed.foldl _ (fun _ _ => ?_) _ _ _ ?_
    | with_reducible refine Framed.foldl_fst _ (fun _ _ => ?_) _ _ _ ?_
    | with_reducible refine Framed.ite (fun _ => ?_) (fun _ => ?_)
    | (with_reducible intro _)
    | dsimp only [id]
    | split

theorem execSweepNaming_framed {ctx : Fin 1024} {s t : State} (h : execSweepNaming ctx s = .next t) : Framed [.ctxs] s t := by
  unfold execSweepNaming at h
  repeat' first
    | (injection h with h; subst h)
    | (injection h; done)
    | split at h
  all_goals repeat' first
    | with_reducible exact Framed.refl _ _
    | decide
    | with_reducible refine modCtx_frame ?_ ?_
    | with_reducible refine Framed.foldl _ (fun _ _ => ?_) _ _ _ ?_
    | with_reducible refine Framed.foldl_fst _ (fun _ _ => ?_) _ _ _ ?_
    | with_reducible refine Framed.ite (fun _ => ?_) (fun _ => ?_)
    | (with_reducible intro _)
    | dsimp only [id]
    | split

theorem execSweepStart_framed {ctx : Fin 1024} {s t : State} (h : execSweepStart ctx s = .next t) : Framed [.out, .err, .tel, .ctxs, .frs, .mem, .rsv, .edy, .hst] s t := by
  unfold execSweepStart at h
  repeat' first
    | (injection h with h; subst h)
    | (injection h; done)
    | split at h
  all_goals repeat' first
    | with_reducible exact Framed.refl _ _
    | decide
    | with_reducible refine askAhead_frame ?_ ?_
    | with_reducible refine lateEvent_frame ?_ ?_
    | with_reducible refine modCtx_frame ?_ ?_
    | with_reducible refine modEdy_frame ?_ ?_
    | with_reducible refine raise_frame ?_ ?_
    | with_reducible refine recPut_frame ?_ ?_
    | with_reducible refine sweepEnd_frame ?_ ?_
    | with_reducible refine Framed.foldl _ (fun _ _ => ?_) _ _ _ ?_
    | with_reducible refine Framed.foldl_fst _ (fun _ _ => ?_) _ _ _ ?_
    | with_reducible refine Framed.ite (fun _ => ?_) (fun _ => ?_)
    | (with_reducible intro _)
    | dsimp only [id]
    | split

theorem execSwitchoffNotice_framed {s t : State} (h : execSwitchoffNotice s = .next t) : Framed [.out, .net, .fly, .ctxs, .wsh] s t := by
  unfold execSwitchoffNotice at h
  repeat' first
    | (injection h with h; subst h)
    | (injection h; done)
    | split at h
  all_goals repeat' first
    | with_reducible exact Framed.refl _ _
    | decide
    | with_reducible refine dieClear_frame ?_ ?_
    | with_reducible refine modCtx_frame ?_ ?_
    | with_reducible refine modWsh_frame ?_ ?_
    | with_reducible refine Framed.foldl _ (fun _ _ => ?_) _ _ _ ?_
    | with_reducible refine Framed.foldl_fst _ (fun _ _ => ?_) _ _ _ ?_
    | with_reducible refine Framed.ite (fun _ => ?_) (fun _ => ?_)
    | (with_reducible intro _)
    | dsimp only [id]
    | split
  all_goals try (with_reducible apply Framed.upd rfl <;> first | exact Or.inl (by decide) | with_reducible exact Or.inr rfl | with_reducible exact Or.inr ⟨rfl, rfl⟩ | with_reducible exact Or.inl ⟨by decide, fun h => h⟩ | with_reducible exact Or.inl ⟨by decide, Nat.le_refl _⟩ | exact Or.inl ⟨by decide, fun h => bwrite_wf _ _ _ h⟩ | exact Or.inl ⟨by decide, fun h => bzero_wf _ _ _ h⟩ | exact Or.inl ⟨by decide, fun _ => rfl⟩ | exact Or.inl ⟨by decide, Err.bounded_q rfl (fun h => by rw [lmod_length]; exact h)⟩ | exact Or.inl ⟨by decide, Err.bounded_q rfl (fun h => h)⟩ | exact Or.inl ⟨by decide, Err.bounded_q rfl (fun h => by rw [List.length_map]; exact h)⟩ | exact Or.inl ⟨by decide, Nat.le_succ _⟩ | exact Or.inl ⟨by decide, Err.bounded_put rfl (fun h => Err.bounded_unit h _) (fun h => h)⟩ | skip)
  all_goals repeat' first
    | with_reducible exact Framed.refl _ _
    | decide
    | with_reducible refine dieClear_frame ?_ ?_
    | with_reducible refine modCtx_frame ?_ ?_
    | with_reducible refine modWsh_frame ?_ ?_
    | with_reducible refine Framed.foldl _ (fun _ _ => ?_) _ _ _ ?_
    | with_reducible refine Framed.foldl_fst _ (fun _ _ => ?_) _ _ _ ?_
    | with_reducible refine Framed.ite (fun _ => ?_) (fun _ => ?_)
    | (with_reducible intro _)
    | dsimp only [id]
    | split

theorem execSwitchoffRequest_framed {x : RegIn} {s t : State} (h : execSwitchoffRequest x s = .next t) : Framed [.out, .err, .tel, .regs, .net, .tide, .fly, .chk, .slc, .mem, .rsv, .csn, .wsh, .hst, .own, .bst, .hdw, .lev] s t := by
  unfold execSwitchoffRequest at h
  repeat' first
    | (injection h with h; subst h)
    | (injection h; done)
    | split at h
  all_goals repeat' first
    | with_reducible exact Framed.refl _ _
    | decide
    | with_reducible refine writeCommand_frame ?_ ?_
    | with_reducible refine Framed.foldl _ (fun _ _ => ?_) _ _ _ ?_
    | with_reducible refine Framed.foldl_fst _ (fun _ _ => ?_) _ _ _ ?_
    | with_reducible refine Framed.ite (fun _ => ?_) (fun _ => ?_)
    | (with_reducible intro _)
    | dsimp only [id]
    | split

theorem execTelDump_framed {x : RegIn} {s t : State} (h : execTelDump x s = .next t) : Framed [.out, .err, .tel, .regs, .net, .tide, .fly, .chk, .slc, .mem, .rsv, .csn, .wsh, .hst, .own, .bst, .hdw, .lev] s t := by
  unfold execTelDump at h
  repeat' first
    | (injection h with h; subst h)
    | (injection h; done)
    | split at h
  all_goals repeat' first
    | with_reducible exact Framed.refl _ _
    | decide
    | with_reducible refine writeCommand_frame ?_ ?_
    | with_reducible refine Framed.foldl _ (fun _ _ => ?_) _ _ _ ?_
    | with_reducible refine Framed.foldl_fst _ (fun _ _ => ?_) _ _ _ ?_
    | with_reducible refine Framed.ite (fun _ => ?_) (fun _ => ?_)
    | (with_reducible intro _)
    | dsimp only [id]
    | split

theorem execTelDumpDone_framed {s t : State} (h : execTelDumpDone s = .next t) : Framed [.out, .tel, .frs, .mem, .hst] s t := by
  unfold execTelDumpDone at h
  repeat' first
    | (injection h with h; subst h)
    | (injection h; done)
    | split at h
  all_goals repeat' first
    | with_reducible exact Framed.refl _ _
    | decide
    | with_reducible refine telWrite_frame ?_ ?_
    | with_reducible refine Framed.foldl _ (fun _ _ => ?_) _ _ _ ?_
    | with_reducible refine Framed.foldl_fst _ (fun _ _ => ?_) _ _ _ ?_
    | with_reducible refine Framed.ite (fun _ => ?_) (fun _ => ?_)
    | (with_reducible intro _)
    | dsimp only [id]
    | split
  all_goals try (with_reducible apply Framed.upd rfl <;> first | exact Or.inl (by decide) | with_reducible exact Or.inr rfl | with_reducible exact Or.inr ⟨rfl, rfl⟩ | with_reducible exact Or.inl ⟨by decide, fun h => h⟩ | with_reducible exact Or.inl ⟨by decide, Nat.le_refl _⟩ | exact Or.inl ⟨by decide, fun h => bwrite_wf _ _ _ h⟩ | exact Or.inl ⟨by decide, fun h => bzero_wf _ _ _ h⟩ | exact Or.inl ⟨by decide, fun _ => rfl⟩ | exact Or.inl ⟨by decide, Err.bounded_q rfl (fun h => by rw [lmod_length]; exact h)⟩ | exact Or.inl ⟨by decide, Err.bounded_q rfl (fun h => h)⟩ | exact Or.inl ⟨by decide, Err.bounded_q rfl (fun h => by rw [List.length_map]; exact h)⟩ | exact Or.inl ⟨by decide, Nat.le_succ _⟩ | exact Or.inl ⟨by decide, Err.bounded_put rfl (fun h => Err.bounded_unit h _) (fun h => h)⟩ | skip)
  all_goals repeat' first
    | with_reducible exact Framed.refl _ _
    | decide
    | with_reducible refine telWrite_frame ?_ ?_
    | with_reducible refine Framed.foldl _ (fun _ _ => ?_) _ _ _ ?_
    | with_reducible refine Framed.foldl_fst _ (fun _ _ => ?_) _ _ _ ?_
    | with_reducible refine Framed.ite (fun _ => ?_) (fun _ => ?_)
    | (with_reducible intro _)
    | dsimp only [id]
    | split

theorem execTelValueRead_framed {x : RegIn} {s t : State} (h : execTelValueRead x s = .next t) : Framed [.out, .err, .tel, .regs, .csn, .own] s t := by
  unfold execTelValueRead at h
  repeat' first
    | (injection h with h; subst h)
    | (injection h; done)
    | split at h
  all_goals repeat' first
    | with_reducible exact Framed.refl _ _
    | decide
    | with_reducible refine readCommand_frame ?_ ?_
    | with_reducible refine Framed.foldl _ (fun _ _ => ?_) _ _ _ ?_
    | with_reducible refine Framed.foldl_fst _ (fun _ _ => ?_) _ _ _ ?_
    | with_reducible refine Framed.ite (fun _ => ?_) (fun _ => ?_)
    | (with_reducible intro _)
    | dsimp only [id]
    | split

theorem execTfull_framed {l : Fin 1024000} {th : Fin 4} {rs rc : Fin 32} {n : Fin 16} {slot : BitVec 8} {e : Ecc} {s t : State} (h : execTfull l th rs rc n slot e s = .next t) : Framed [.out, .err, .tel, .fly, .cells, .ctxs, .slc, .bst] s t := by
  unfold execTfull at h
  repeat' first
    | (injection h with h; subst h)
    | (injection h; done)
    | split at h
  all_goals repeat' first
    | with_reducible exact Framed.refl _ _
    | decide
    | with_reducible refine issue_frame ?_ ?_
    | with_reducible refine Framed.foldl _ (fun _ _ => ?_) _ _ _ ?_
    | with_reducible refine Framed.foldl_fst _ (fun _ _ => ?_) _ _ _ ?_
    | with_reducible refine Framed.ite (fun _ => ?_) (fun _ => ?_)
    | (with_reducible intro _)
    | dsimp only [id]
    | split

theorem execThrottleLower_framed {s t : State} (h : execThrottleLower s = .next t) : Framed [.lev] s t := by
  unfold execThrottleLower at h
  repeat' first
    | (injection h with h; subst h)
    | (injection h; done)
    | split at h
  all_goals repeat' first
    | with_reducible exact Framed.refl _ _
    | decide
    | with_reducible refine modLev_frame ?_ ?_
    | with_reducible refine Framed.foldl _ (fun _ _ => ?_) _ _ _ ?_
    | with_reducible refine Framed.foldl_fst _ (fun _ _ => ?_) _ _ _ ?_
    | with_reducible refine Framed.ite (fun _ => ?_) (fun _ => ?_)
    | (with_reducible intro _)
    | dsimp only [id]
    | split

theorem execThrottleRaise_framed {s t : State} (h : execThrottleRaise s = .next t) : Framed [.lev] s t := by
  unfold execThrottleRaise at h
  repeat' first
    | (injection h with h; subst h)
    | (injection h; done)
    | split at h
  all_goals repeat' first
    | with_reducible exact Framed.refl _ _
    | decide
    | with_reducible refine modLev_frame ?_ ?_
    | with_reducible refine shutdownStart_frame ?_ ?_
    | with_reducible refine throttleUp_frame ?_ ?_
    | with_reducible refine Framed.foldl _ (fun _ _ => ?_) _ _ _ ?_
    | with_reducible refine Framed.foldl_fst _ (fun _ _ => ?_) _ _ _ ?_
    | with_reducible refine Framed.ite (fun _ => ?_) (fun _ => ?_)
    | (with_reducible intro _)
    | dsimp only [id]
    | split

theorem execTideEdgeLoss_framed {s t : State} (h : execTideEdgeLoss s = .next t) : Framed [.now, .out, .err, .tel, .tide, .csn] s t := by
  unfold execTideEdgeLoss at h
  repeat' first
    | (injection h with h; subst h)
    | (injection h; done)
    | split at h
  all_goals repeat' first
    | with_reducible exact Framed.refl _ _
    | decide
    | with_reducible refine inputFail_frame ?_ ?_
    | with_reducible refine until__frame ?_ ?_
    | with_reducible refine Framed.foldl _ (fun _ _ => ?_) _ _ _ ?_
    | with_reducible refine Framed.foldl_fst _ (fun _ _ => ?_) _ _ _ ?_
    | with_reducible refine Framed.ite (fun _ => ?_) (fun _ => ?_)
    | (with_reducible intro _)
    | dsimp only [id]
    | split

theorem execTideFlitReceive_framed {e : Fin 64} {l : Fin 16} {flit : Bytes} {stamp : Nat} {s t : State} (h : execTideFlitReceive e l flit stamp s = .next t) : Framed [.out, .err, .tel, .tide, .csn] s t := by
  unfold execTideFlitReceive at h
  repeat' first
    | (injection h with h; subst h)
    | (injection h; done)
    | split at h
  all_goals repeat' first
    | with_reducible exact Framed.refl _ _
    | decide
    | with_reducible refine count_frame ?_ ?_
    | with_reducible refine inputSlot_frame ?_ ?_
    | with_reducible refine modLane_frame ?_ ?_
    | with_reducible refine modTide_frame ?_ ?_
    | with_reducible refine Framed.foldl _ (fun _ _ => ?_) _ _ _ ?_
    | with_reducible refine Framed.foldl_fst _ (fun _ _ => ?_) _ _ _ ?_
    | with_reducible refine Framed.ite (fun _ => ?_) (fun _ => ?_)
    | (with_reducible intro _)
    | dsimp only [id]
    | split

theorem execTideFlitSend_framed {s t : State} (h : execTideFlitSend s = .next t) : Framed [.now, .out, .free, .tel, .tide, .csn] s t := by
  unfold execTideFlitSend at h
  repeat' first
    | (injection h with h; subst h)
    | (injection h; done)
    | split at h
  all_goals repeat' first
    | with_reducible exact Framed.refl _ _
    | decide
    | with_reducible refine flitOut_frame ?_ ?_
    | with_reducible refine modLane_frame ?_ ?_
    | with_reducible refine modTide_frame ?_ ?_
    | with_reducible refine until__frame ?_ ?_
    | with_reducible refine Framed.foldl _ (fun _ _ => ?_) _ _ _ ?_
    | with_reducible refine Framed.foldl_fst _ (fun _ _ => ?_) _ _ _ ?_
    | with_reducible refine Framed.ite (fun _ => ?_) (fun _ => ?_)
    | (with_reducible intro _)
    | dsimp only [id]
    | split
  all_goals try (with_reducible apply Framed.upd rfl <;> first | exact Or.inl (by decide) | with_reducible exact Or.inr rfl | with_reducible exact Or.inr ⟨rfl, rfl⟩ | with_reducible exact Or.inl ⟨by decide, fun h => h⟩ | with_reducible exact Or.inl ⟨by decide, Nat.le_refl _⟩ | exact Or.inl ⟨by decide, fun h => bwrite_wf _ _ _ h⟩ | exact Or.inl ⟨by decide, fun h => bzero_wf _ _ _ h⟩ | exact Or.inl ⟨by decide, fun _ => rfl⟩ | exact Or.inl ⟨by decide, Err.bounded_q rfl (fun h => by rw [lmod_length]; exact h)⟩ | exact Or.inl ⟨by decide, Err.bounded_q rfl (fun h => h)⟩ | exact Or.inl ⟨by decide, Err.bounded_q rfl (fun h => by rw [List.length_map]; exact h)⟩ | exact Or.inl ⟨by decide, Nat.le_succ _⟩ | exact Or.inl ⟨by decide, Err.bounded_put rfl (fun h => Err.bounded_unit h _) (fun h => h)⟩ | skip)
  all_goals repeat' first
    | with_reducible exact Framed.refl _ _
    | decide
    | with_reducible refine flitOut_frame ?_ ?_
    | with_reducible refine modLane_frame ?_ ?_
    | with_reducible refine modTide_frame ?_ ?_
    | with_reducible refine until__frame ?_ ?_
    | with_reducible refine Framed.foldl _ (fun _ _ => ?_) _ _ _ ?_
    | with_reducible refine Framed.foldl_fst _ (fun _ _ => ?_) _ _ _ ?_
    | with_reducible refine Framed.ite (fun _ => ?_) (fun _ => ?_)
    | (with_reducible intro _)
    | dsimp only [id]
    | split

theorem execTideFrame_framed {syms : List TideSym} {capture : BitVec 64} {s t : State} (h : execTideFrame syms capture s = .next t) : Framed [.out, .err, .tel, .tide, .csn] s t := by
  unfold execTideFrame at h
  repeat' first
    | (injection h with h; subst h)
    | (injection h; done)
    | split at h
  all_goals repeat' first
    | with_reducible exact Framed.refl _ _
    | decide
    | with_reducible refine inputSlot_frame ?_ ?_
    | with_reducible refine Framed.foldl _ (fun _ _ => ?_) _ _ _ ?_
    | with_reducible refine Framed.foldl_fst _ (fun _ _ => ?_) _ _ _ ?_
    | with_reducible refine Framed.ite (fun _ => ?_) (fun _ => ?_)
    | (with_reducible intro _)
    | dsimp only [id]
    | split

theorem execTideMessageAbsent_framed {s t : State} (h : execTideMessageAbsent s = .next t) : Framed [.now, .out, .err, .tel, .tide, .csn] s t := by
  unfold execTideMessageAbsent at h
  repeat' first
    | (injection h with h; subst h)
    | (injection h; done)
    | split at h
  all_goals repeat' first
    | with_reducible exact Framed.refl _ _
    | decide
    | with_reducible refine inputFail_frame ?_ ?_
    | with_reducible refine until__frame ?_ ?_
    | with_reducible refine Framed.foldl _ (fun _ _ => ?_) _ _ _ ?_
    | with_reducible refine Framed.foldl_fst _ (fun _ _ => ?_) _ _ _ ?_
    | with_reducible refine Framed.ite (fun _ => ?_) (fun _ => ?_)
    | (with_reducible intro _)
    | dsimp only [id]
    | split

theorem execTpin_framed {l : Fin 1024000} {th : Fin 4} {rs : Fin 32} {n : Fin 16} {slot : BitVec 8} {e : Ecc} {s t : State} (h : execTpin l th rs n slot e s = .next t) : Framed [.out, .err, .tel, .fly, .cells, .ctxs, .slc, .bst] s t := by
  unfold execTpin at h
  repeat' first
    | (injection h with h; subst h)
    | (injection h; done)
    | split at h
  all_goals repeat' first
    | with_reducible exact Framed.refl _ _
    | decide
    | with_reducible refine issue_frame ?_ ?_
    | with_reducible refine Framed.foldl _ (fun _ _ => ?_) _ _ _ ?_
    | with_reducible refine Framed.foldl_fst _ (fun _ _ => ?_) _ _ _ ?_
    | with_reducible refine Framed.ite (fun _ => ?_) (fun _ => ?_)
    | (with_reducible intro _)
    | dsimp only [id]
    | split

theorem execTrail_framed {l : Fin 1024000} {th : Fin 4} {n : Fin 32} {e : Ecc} {s t : State} (h : execTrail l th n e s = .next t) : Framed [.out, .err, .tel, .fly, .cells, .ctxs, .slc, .bst] s t := by
  unfold execTrail at h
  repeat' first
    | (injection h with h; subst h)
    | (injection h; done)
    | split at h
  all_goals repeat' first
    | with_reducible exact Framed.refl _ _
    | decide
    | with_reducible refine done_frame ?_ ?_
    | with_reducible refine plain_frame ?_ (fun _ _ => ?_) ?_
    | with_reducible refine plain_frame ?_ ?_ ?_
    | with_reducible refine Framed.foldl _ (fun _ _ => ?_) _ _ _ ?_
    | with_reducible refine Framed.foldl_fst _ (fun _ _ => ?_) _ _ _ ?_
    | with_reducible refine Framed.ite (fun _ => ?_) (fun _ => ?_)
    | (with_reducible intro _)
    | dsimp only [id]
    | split

theorem execTrainDone_framed {e : Fin 64} {l : Fin 16} {s t : State} (h : execTrainDone e l s = .next t) : Framed [.out, .tel, .csn] s t := by
  unfold execTrainDone at h
  repeat' first
    | (injection h with h; subst h)
    | (injection h; done)
    | split at h
  all_goals repeat' first
    | with_reducible exact Framed.refl _ _
    | decide
    | with_reducible refine flitRun_frame ?_ ?_
    | with_reducible refine modLane_frame ?_ ?_
    | with_reducible refine Framed.foldl _ (fun _ _ => ?_) _ _ _ ?_
    | with_reducible refine Framed.foldl_fst _ (fun _ _ => ?_) _ _ _ ?_
    | with_reducible refine Framed.ite (fun _ => ?_) (fun _ => ?_)
    | (with_reducible intro _)
    | dsimp only [id]
    | split

theorem execTrel_framed {l : Fin 1024000} {th : Fin 4} {rs : Fin 32} {n : Fin 16} {slot : BitVec 8} {e : Ecc} {s t : State} (h : execTrel l th rs n slot e s = .next t) : Framed [.out, .err, .tel, .fly, .cells, .ctxs, .slc, .bst] s t := by
  unfold execTrel at h
  repeat' first
    | (injection h with h; subst h)
    | (injection h; done)
    | split at h
  all_goals repeat' first
    | with_reducible exact Framed.refl _ _
    | decide
    | with_reducible refine issue_frame ?_ ?_
    | with_reducible refine Framed.foldl _ (fun _ _ => ?_) _ _ _ ?_
    | with_reducible refine Framed.foldl_fst _ (fun _ _ => ?_) _ _ _ ?_
    | with_reducible refine Framed.ite (fun _ => ?_) (fun _ => ?_)
    | (with_reducible intro _)
    | dsimp only [id]
    | split

theorem execTstat_framed {l : Fin 1024000} {th : Fin 4} {rs rc : Fin 32} {n : Fin 16} {slot : BitVec 8} {e : Ecc} {s t : State} (h : execTstat l th rs rc n slot e s = .next t) : Framed [.out, .err, .tel, .fly, .cells, .ctxs, .slc, .bst] s t := by
  unfold execTstat at h
  repeat' first
    | (injection h with h; subst h)
    | (injection h; done)
    | split at h
  all_goals repeat' first
    | with_reducible exact Framed.refl _ _
    | decide
    | with_reducible refine issue_frame ?_ ?_
    | with_reducible refine Framed.foldl _ (fun _ _ => ?_) _ _ _ ?_
    | with_reducible refine Framed.foldl_fst _ (fun _ _ => ?_) _ _ _ ?_
    | with_reducible refine Framed.ite (fun _ => ?_) (fun _ => ?_)
    | (with_reducible intro _)
    | dsimp only [id]
    | split

theorem execTunpin_framed {l : Fin 1024000} {th : Fin 4} {rs : Fin 32} {n : Fin 16} {slot : BitVec 8} {e : Ecc} {s t : State} (h : execTunpin l th rs n slot e s = .next t) : Framed [.out, .err, .tel, .fly, .cells, .ctxs, .slc, .bst] s t := by
  unfold execTunpin at h
  repeat' first
    | (injection h with h; subst h)
    | (injection h; done)
    | split at h
  all_goals repeat' first
    | with_reducible exact Framed.refl _ _
    | decide
    | with_reducible refine issue_frame ?_ ?_
    | with_reducible refine Framed.foldl _ (fun _ _ => ?_) _ _ _ ?_
    | with_reducible refine Framed.foldl_fst _ (fun _ _ => ?_) _ _ _ ?_
    | with_reducible refine Framed.ite (fun _ => ?_) (fun _ => ?_)
    | (with_reducible intro _)
    | dsimp only [id]
    | split

theorem execTwait_framed {l : Fin 1024000} {th : Fin 4} {rs : Fin 32} {n : Fin 16} {slot : BitVec 8} {e : Ecc} {s t : State} (h : execTwait l th rs n slot e s = .next t) : Framed [.out, .err, .tel, .fly, .cells, .ctxs, .slc, .bst] s t := by
  unfold execTwait at h
  repeat' first
    | (injection h with h; subst h)
    | (injection h; done)
    | split at h
  all_goals repeat' first
    | with_reducible exact Framed.refl _ _
    | decide
    | with_reducible refine issue_frame ?_ ?_
    | with_reducible refine Framed.foldl _ (fun _ _ => ?_) _ _ _ ?_
    | with_reducible refine Framed.foldl_fst _ (fun _ _ => ?_) _ _ _ ?_
    | with_reducible refine Framed.ite (fun _ => ?_) (fun _ => ?_)
    | (with_reducible intro _)
    | dsimp only [id]
    | split

theorem execTwaite_framed {l : Fin 1024000} {th : Fin 4} {rs : Fin 32} {n : Fin 16} {slot : BitVec 8} {e : Ecc} {s t : State} (h : execTwaite l th rs n slot e s = .next t) : Framed [.out, .err, .tel, .fly, .cells, .ctxs, .slc, .bst] s t := by
  unfold execTwaite at h
  repeat' first
    | (injection h with h; subst h)
    | (injection h; done)
    | split at h
  all_goals repeat' first
    | with_reducible exact Framed.refl _ _
    | decide
    | with_reducible refine issue_frame ?_ ?_
    | with_reducible refine Framed.foldl _ (fun _ _ => ?_) _ _ _ ?_
    | with_reducible refine Framed.foldl_fst _ (fun _ _ => ?_) _ _ _ ?_
    | with_reducible refine Framed.ite (fun _ => ?_) (fun _ => ?_)
    | (with_reducible intro _)
    | dsimp only [id]
    | split

theorem execUndervoltage_framed {deep : Bool} {s t : State} (h : execUndervoltage deep s = .next t) : Framed [.now, .out, .err, .tel, .lev] s t := by
  unfold execUndervoltage at h
  repeat' first
    | (injection h with h; subst h)
    | (injection h; done)
    | split at h
  all_goals repeat' first
    | with_reducible exact Framed.refl _ _
    | decide
    | with_reducible refine raise_frame ?_ ?_
    | with_reducible refine shutdownStart_frame ?_ ?_
    | with_reducible refine until__frame ?_ ?_
    | with_reducible refine Framed.foldl _ (fun _ _ => ?_) _ _ _ ?_
    | with_reducible refine Framed.foldl_fst _ (fun _ _ => ?_) _ _ _ ?_
    | with_reducible refine Framed.ite (fun _ => ?_) (fun _ => ?_)
    | (with_reducible intro _)
    | dsimp only [id]
    | split

theorem execUnitRunApply_framed {x : RegIn} {s t : State} (h : execUnitRunApply x s = .next t) : Framed [.out, .err, .tel, .regs, .net, .tide, .fly, .chk, .slc, .mem, .rsv, .csn, .wsh, .hst, .own, .bst, .hdw, .lev] s t := by
  unfold execUnitRunApply at h
  repeat' first
    | (injection h with h; subst h)
    | (injection h; done)
    | split at h
  all_goals repeat' first
    | with_reducible exact Framed.refl _ _
    | decide
    | with_reducible refine writeCommand_frame ?_ ?_
    | with_reducible refine Framed.foldl _ (fun _ _ => ?_) _ _ _ ?_
    | with_reducible refine Framed.foldl_fst _ (fun _ _ => ?_) _ _ _ ?_
    | with_reducible refine Framed.ite (fun _ => ?_) (fun _ => ?_)
    | (with_reducible intro _)
    | dsimp only [id]
    | split

theorem execVectorArith_framed {l : Fin 1024000} {th : Fin 4} {op : VOp} {half : Bool} {vd va vb vc : Fin 8} {e : Ecc} {s t : State} (h : execVectorArith l th op half vd va vb vc e s = .next t) : Framed [.out, .free, .err, .tel, .fly, .cells, .ctxs, .slc, .bst] s t := by
  unfold execVectorArith at h
  repeat' first
    | (injection h with h; subst h)
    | (injection h; done)
    | split at h
  all_goals repeat' first
    | with_reducible exact Framed.refl _ _
    | decide
    | with_reducible refine done_frame ?_ ?_
    | with_reducible refine plain_frame ?_ (fun _ _ => ?_) ?_
    | with_reducible refine plain_frame ?_ ?_ ?_
    | with_reducible refine Framed.foldl _ (fun _ _ => ?_) _ _ _ ?_
    | with_reducible refine Framed.foldl_fst _ (fun _ _ => ?_) _ _ _ ?_
    | with_reducible refine Framed.ite (fun _ => ?_) (fun _ => ?_)
    | (with_reducible intro _)
    | dsimp only [id]
    | split
  all_goals try (with_reducible apply Framed.upd rfl <;> first | exact Or.inl (by decide) | with_reducible exact Or.inr rfl | with_reducible exact Or.inr ⟨rfl, rfl⟩ | with_reducible exact Or.inl ⟨by decide, fun h => h⟩ | with_reducible exact Or.inl ⟨by decide, Nat.le_refl _⟩ | exact Or.inl ⟨by decide, fun h => bwrite_wf _ _ _ h⟩ | exact Or.inl ⟨by decide, fun h => bzero_wf _ _ _ h⟩ | exact Or.inl ⟨by decide, fun _ => rfl⟩ | exact Or.inl ⟨by decide, Err.bounded_q rfl (fun h => by rw [lmod_length]; exact h)⟩ | exact Or.inl ⟨by decide, Err.bounded_q rfl (fun h => h)⟩ | exact Or.inl ⟨by decide, Err.bounded_q rfl (fun h => by rw [List.length_map]; exact h)⟩ | exact Or.inl ⟨by decide, Nat.le_succ _⟩ | exact Or.inl ⟨by decide, Err.bounded_put rfl (fun h => Err.bounded_unit h _) (fun h => h)⟩ | skip)
  all_goals repeat' first
    | with_reducible exact Framed.refl _ _
    | decide
    | with_reducible refine done_frame ?_ ?_
    | with_reducible refine plain_frame ?_ (fun _ _ => ?_) ?_
    | with_reducible refine plain_frame ?_ ?_ ?_
    | with_reducible refine Framed.foldl _ (fun _ _ => ?_) _ _ _ ?_
    | with_reducible refine Framed.foldl_fst _ (fun _ _ => ?_) _ _ _ ?_
    | with_reducible refine Framed.ite (fun _ => ?_) (fun _ => ?_)
    | (with_reducible intro _)
    | dsimp only [id]
    | split

theorem execVectorConvert_framed {l : Fin 1024000} {th : Fin 4} {cv : VConv} {sr : Bool} {vd va : Fin 8} {e : Ecc} {s t : State} (h : execVectorConvert l th cv sr vd va e s = .next t) : Framed [.out, .err, .tel, .fly, .cells, .ctxs, .slc, .bst] s t := by
  unfold execVectorConvert at h
  repeat' first
    | (injection h with h; subst h)
    | (injection h; done)
    | split at h
  all_goals repeat' first
    | with_reducible exact Framed.refl _ _
    | decide
    | with_reducible refine countN_frame ?_ ?_
    | with_reducible refine done_frame ?_ ?_
    | with_reducible refine flagRead_frame ?_ ?_
    | with_reducible refine modCell_frame ?_ ?_
    | with_reducible refine plain_frame ?_ (fun _ _ => ?_) ?_
    | with_reducible refine plain_frame ?_ ?_ ?_
    | with_reducible refine trap_frame ?_ ?_
    | with_reducible refine Framed.foldl _ (fun _ _ => ?_) _ _ _ ?_
    | with_reducible refine Framed.foldl_fst _ (fun _ _ => ?_) _ _ _ ?_
    | with_reducible refine Framed.ite (fun _ => ?_) (fun _ => ?_)
    | (with_reducible intro _)
    | dsimp only [id]
    | split

theorem execVerdictTimeout_framed {ctx : Fin 1024} {step : Nat} {s t : State} (h : execVerdictTimeout ctx step s = .next t) : Framed [.out, .err, .tel, .ctxs, .slc, .est] s t := by
  unfold execVerdictTimeout at h
  repeat' first
    | (injection h with h; subst h)
    | (injection h; done)
    | split at h
  all_goals repeat' first
    | with_reducible exact Framed.refl _ _
    | decide
    | with_reducible refine windowFailed_frame ?_ ?_
    | with_reducible refine Framed.foldl _ (fun _ _ => ?_) _ _ _ ?_
    | with_reducible refine Framed.foldl_fst _ (fun _ _ => ?_) _ _ _ ?_
    | with_reducible refine Framed.ite (fun _ => ?_) (fun _ => ?_)
    | (with_reducible intro _)
    | dsimp only [id]
    | split

theorem execVld_framed {l : Fin 1024000} {th : Fin 4} {vt : Fin 8} {rb : Fin 32} {rel : Bool} {off : BitVec 10} {e : Ecc} {s t : State} (h : execVld l th vt rb rel off e s = .next t) : Framed [.out, .err, .tel, .fly, .cells, .ctxs, .slc, .bst] s t := by
  unfold execVld at h
  repeat' first
    | (injection h with h; subst h)
    | (injection h; done)
    | split at h
  all_goals repeat' first
    | with_reducible exact Framed.refl _ _
    | decide
    | with_reducible refine issue_frame ?_ ?_
    | with_reducible refine Framed.foldl _ (fun _ _ => ?_) _ _ _ ?_
    | with_reducible refine Framed.foldl_fst _ (fun _ _ => ?_) _ _ _ ?_
    | with_reducible refine Framed.ite (fun _ => ?_) (fun _ => ?_)
    | (with_reducible intro _)
    | dsimp only [id]
    | split

theorem execVst_framed {l : Fin 1024000} {th : Fin 4} {vt : Fin 8} {rb : Fin 32} {off : BitVec 10} {e : Ecc} {s t : State} (h : execVst l th vt rb off e s = .next t) : Framed [.out, .err, .tel, .fly, .cells, .ctxs, .slc, .bst] s t := by
  unfold execVst at h
  repeat' first
    | (injection h with h; subst h)
    | (injection h; done)
    | split at h
  all_goals repeat' first
    | with_reducible exact Framed.refl _ _
    | decide
    | with_reducible refine issue_frame ?_ ?_
    | with_reducible refine Framed.foldl _ (fun _ _ => ?_) _ _ _ ?_
    | with_reducible refine Framed.foldl_fst _ (fun _ _ => ?_) _ _ _ ?_
    | with_reducible refine Framed.ite (fun _ => ?_) (fun _ => ?_)
    | (with_reducible intro _)
    | dsimp only [id]
    | split

theorem execWaitLimit_framed {w : Waiter} {s t : State} (h : execWaitLimit w s = .next t) : Framed [.out, .err, .tel, .fly, .cells, .ctxs, .slc, .frs] s t := by
  unfold execWaitLimit at h
  repeat' first
    | (injection h with h; subst h)
    | (injection h; done)
    | split at h
  all_goals repeat' first
    | with_reducible exact Framed.refl _ _
    | decide
    | with_reducible refine countDel_frame ?_ ?_
    | with_reducible refine delDropped_frame ?_ ?_
    | with_reducible refine fillOver_frame ?_ ?_
    | with_reducible refine modCell_frame ?_ ?_
    | with_reducible refine refuseOp_frame ?_ ?_
    | with_reducible refine send_frame ?_ ?_
    | with_reducible refine streamTrap_frame ?_ ?_
    | with_reducible refine trap_frame ?_ ?_
    | with_reducible refine unfly_frame ?_ ?_
    | with_reducible refine Framed.foldl _ (fun _ _ => ?_) _ _ _ ?_
    | with_reducible refine Framed.foldl_fst _ (fun _ _ => ?_) _ _ _ ?_
    | with_reducible refine Framed.ite (fun _ => ?_) (fun _ => ?_)
    | (with_reducible intro _)
    | dsimp only [id]
    | split

theorem execWindowClose_framed {w : Fin 64} {s t : State} (h : execWindowClose w s = .next t) : Framed [.rsv] s t := by
  unfold execWindowClose at h
  repeat' first
    | (injection h with h; subst h)
    | (injection h; done)
    | split at h
  all_goals repeat' first
    | with_reducible exact Framed.refl _ _
    | decide
    | with_reducible refine Framed.foldl _ (fun _ _ => ?_) _ _ _ ?_
    | with_reducible refine Framed.foldl_fst _ (fun _ _ => ?_) _ _ _ ?_
    | with_reducible refine Framed.ite (fun _ => ?_) (fun _ => ?_)
    | (with_reducible intro _)
    | dsimp only [id]
    | split
  all_goals try (with_reducible apply Framed.upd rfl <;> first | exact Or.inl (by decide) | with_reducible exact Or.inr rfl | with_reducible exact Or.inr ⟨rfl, rfl⟩ | with_reducible exact Or.inl ⟨by decide, fun h => h⟩ | with_reducible exact Or.inl ⟨by decide, Nat.le_refl _⟩ | exact Or.inl ⟨by decide, fun h => bwrite_wf _ _ _ h⟩ | exact Or.inl ⟨by decide, fun h => bzero_wf _ _ _ h⟩ | exact Or.inl ⟨by decide, fun _ => rfl⟩ | exact Or.inl ⟨by decide, Err.bounded_q rfl (fun h => by rw [lmod_length]; exact h)⟩ | exact Or.inl ⟨by decide, Err.bounded_q rfl (fun h => h)⟩ | exact Or.inl ⟨by decide, Err.bounded_q rfl (fun h => by rw [List.length_map]; exact h)⟩ | exact Or.inl ⟨by decide, Nat.le_succ _⟩ | exact Or.inl ⟨by decide, Err.bounded_put rfl (fun h => Err.bounded_unit h _) (fun h => h)⟩ | skip)
  all_goals repeat' first
    | with_reducible exact Framed.refl _ _
    | decide
    | with_reducible refine Framed.foldl _ (fun _ _ => ?_) _ _ _ ?_
    | with_reducible refine Framed.foldl_fst _ (fun _ _ => ?_) _ _ _ ?_
    | with_reducible refine Framed.ite (fun _ => ?_) (fun _ => ?_)
    | (with_reducible intro _)
    | dsimp only [id]
    | split

theorem execWindowDeadline_framed {e : Fin 64} {ctx : Fin 1024} {step : Nat} {s t : State} (h : execWindowDeadline e ctx step s = .next t) : Framed [.out, .err, .tel, .net, .fly, .cells, .frs, .mem, .csn, .est, .hst] s t := by
  unfold execWindowDeadline at h
  repeat' first
    | (injection h with h; subst h)
    | (injection h; done)
    | split at h
  all_goals repeat' first
    | with_reducible exact Framed.refl _ _
    | decide
    | with_reducible refine dropWin_frame ?_ ?_
    | with_reducible refine estReport_frame ?_ ?_
    | with_reducible refine remember_frame ?_ ?_
    | with_reducible refine tileDone_frame ?_ ?_
    | with_reducible refine unitGate_frame ?_ (fun _ => ?_) ?_
    | with_reducible refine unitGate_frame ?_ ?_ ?_
    | with_reducible refine Framed.foldl _ (fun _ _ => ?_) _ _ _ ?_
    | with_reducible refine Framed.foldl_fst _ (fun _ _ => ?_) _ _ _ ?_
    | with_reducible refine Framed.ite (fun _ => ?_) (fun _ => ?_)
    | (with_reducible intro _)
    | dsimp only [id]
    | split

theorem execWindowRecord_framed {e : Fin 64} {rec : Bytes} {s t : State} (h : execWindowRecord e rec s = .next t) : Framed [.out, .err, .tel, .ctxs, .slc, .est] s t := by
  unfold execWindowRecord at h
  repeat' first
    | (injection h with h; subst h)
    | (injection h; done)
    | split at h
  all_goals repeat' first
    | with_reducible exact Framed.refl _ _
    | decide
    | with_reducible refine lateEvent_frame ?_ ?_
    | with_reducible refine modEst_frame ?_ ?_
    | with_reducible refine raise_frame ?_ ?_
    | with_reducible refine remember_frame ?_ ?_
    | with_reducible refine stepFail_frame ?_ ?_
    | with_reducible refine Framed.foldl _ (fun _ _ => ?_) _ _ _ ?_
    | with_reducible refine Framed.foldl_fst _ (fun _ _ => ?_) _ _ _ ?_
    | with_reducible refine Framed.ite (fun _ => ?_) (fun _ => ?_)
    | (with_reducible intro _)
    | dsimp only [id]
    | split
  all_goals try (with_reducible apply Framed.upd rfl <;> first | exact Or.inl (by decide) | with_reducible exact Or.inr rfl | with_reducible exact Or.inr ⟨rfl, rfl⟩ | with_reducible exact Or.inl ⟨by decide, fun h => h⟩ | with_reducible exact Or.inl ⟨by decide, Nat.le_refl _⟩ | exact Or.inl ⟨by decide, fun h => bwrite_wf _ _ _ h⟩ | exact Or.inl ⟨by decide, fun h => bzero_wf _ _ _ h⟩ | exact Or.inl ⟨by decide, fun _ => rfl⟩ | exact Or.inl ⟨by decide, Err.bounded_q rfl (fun h => by rw [lmod_length]; exact h)⟩ | exact Or.inl ⟨by decide, Err.bounded_q rfl (fun h => h)⟩ | exact Or.inl ⟨by decide, Err.bounded_q rfl (fun h => by rw [List.length_map]; exact h)⟩ | exact Or.inl ⟨by decide, Nat.le_succ _⟩ | exact Or.inl ⟨by decide, Err.bounded_put rfl (fun h => Err.bounded_unit h _) (fun h => h)⟩ | skip)
  all_goals repeat' first
    | with_reducible exact Framed.refl _ _
    | decide
    | with_reducible refine lateEvent_frame ?_ ?_
    | with_reducible refine modEst_frame ?_ ?_
    | with_reducible refine raise_frame ?_ ?_
    | with_reducible refine remember_frame ?_ ?_
    | with_reducible refine stepFail_frame ?_ ?_
    | with_reducible refine Framed.foldl _ (fun _ _ => ?_) _ _ _ ?_
    | with_reducible refine Framed.foldl_fst _ (fun _ _ => ?_) _ _ _ ?_
    | with_reducible refine Framed.ite (fun _ => ?_) (fun _ => ?_)
    | (with_reducible intro _)
    | dsimp only [id]
    | split

theorem execWindowValidate_framed {x : RegIn} {s t : State} (h : execWindowValidate x s = .next t) : Framed [.out, .err, .tel, .regs, .net, .tide, .fly, .chk, .slc, .mem, .rsv, .csn, .wsh, .hst, .own, .bst, .hdw, .lev] s t := by
  unfold execWindowValidate at h
  repeat' first
    | (injection h with h; subst h)
    | (injection h; done)
    | split at h
  all_goals repeat' first
    | with_reducible exact Framed.refl _ _
    | decide
    | with_reducible refine writeCommand_frame ?_ ?_
    | with_reducible refine Framed.foldl _ (fun _ _ => ?_) _ _ _ ?_
    | with_reducible refine Framed.foldl_fst _ (fun _ _ => ?_) _ _ _ ?_
    | with_reducible refine Framed.ite (fun _ => ?_) (fun _ => ?_)
    | (with_reducible intro _)
    | dsimp only [id]
    | split

theorem execWrite_framed {e : Fin 64} {i : Nat} {s t : State} (h : execWrite e i s = .next t) : Framed [.out, .err, .tel, .frs, .mem, .rsv, .csn, .hst] s t := by
  unfold execWrite at h
  repeat' first
    | (injection h with h; subst h)
    | (injection h; done)
    | split at h
  all_goals repeat' first
    | with_reducible exact Framed.refl _ _
    | decide
    | with_reducible refine csnTake_frame ?_ ?_
    | with_reducible refine guardRecord_frame ?_ ?_
    | with_reducible refine memWrite_frame ?_ ?_
    | with_reducible refine peerAnswer_frame ?_ ?_
    | with_reducible refine peerDeny_frame ?_ ?_
    | with_reducible refine peerRequest_frame ?_ (fun _ _ _ _ => ?_) ?_
    | with_reducible refine peerRequest_frame ?_ ?_ ?_
    | with_reducible refine peerSet_frame ?_ ?_
    | with_reducible refine Framed.foldl _ (fun _ _ => ?_) _ _ _ ?_
    | with_reducible refine Framed.foldl_fst _ (fun _ _ => ?_) _ _ _ ?_
    | with_reducible refine Framed.ite (fun _ => ?_) (fun _ => ?_)
    | (with_reducible intro _)
    | dsimp only [id]
    | split

theorem execWriteAck_framed {e : Fin 64} {i : Nat} {s t : State} (h : execWriteAck e i s = .next t) : Framed [.out, .err, .tel, .fly, .cells, .chk, .mem, .rsv, .csn] s t := by
  unfold execWriteAck at h
  repeat' first
    | (injection h with h; subst h)
    | (injection h; done)
    | split at h
  all_goals repeat' first
    | with_reducible exact Framed.refl _ _
    | decide
    | with_reducible refine rsvOver_frame ?_ ?_
    | with_reducible refine rsvResponse_frame ?_ (fun _ _ _ _ => ?_) ?_
    | with_reducible refine rsvResponse_frame ?_ ?_ ?_
    | with_reducible refine Framed.foldl _ (fun _ _ => ?_) _ _ _ ?_
    | with_reducible refine Framed.foldl_fst _ (fun _ _ => ?_) _ _ _ ?_
    | with_reducible refine Framed.ite (fun _ => ?_) (fun _ => ?_)
    | (with_reducible intro _)
    | dsimp only [id]
    | split

end Sys2Proof.Machine
end

