-- ==== Sys2Proof/Laws/Tiles.lean ====
section
/-! SUPPORT. Laws of tiles and their trailers: a field read back from the bytes that hold it, and R143 with R146: what a producer forms verifies. -/

namespace Sys2Proof.Machine

/-- A number below 256^n read back from its bytes. -/
theorem leNat_natLE (n v : Nat) (h : v < 256 ^ n) : leNat (natLE n v) = v := by
  induction n generalizing v with
  | zero => simp [natLE, leNat] at *; omega
  | succ n ih =>
    have h2 : v / 256 < 256 ^ n := by
      rw [Nat.pow_succ] at h
      exact Nat.div_lt_of_lt_mul (by omega)
    simp only [natLE, leNat, ih _ h2, BitVec.toNat_ofNat]
    omega

@[simp] theorem natLE_length (n v : Nat) : (natLE n v).length = n := by
  induction n generalizing v with
  | zero => rfl
  | succ n ih => simp [natLE, ih]

/-- A field of a structure put together from parts. -/
theorem sliceB_mid (a b c : Bytes) {o n : Nat} (ho : a.length = o) (hn : b.length = n) : sliceB (a ++ (b ++ c)) o n = b := by
  subst ho hn
  simp [sliceB]

/-- The first field of a structure put together from parts. -/
theorem sliceB_head (b c : Bytes) {n : Nat} (hn : b.length = n) : sliceB (b ++ c) 0 n = b := by
  subst hn
  simp [sliceB]

@[simp] theorem fitB_length (b : Bytes) (n : Nat) : (fitB b n).length = n := by
  simp [fitB, sliceB]; omega

@[simp] theorem fitB_fitB (b : Bytes) (n : Nat) : fitB (fitB b n) n = fitB b n := by
  have h : (fitB b n).length = n := fitB_length b n
  generalize fitB b n = x at *
  subst h
  simp [fitB, sliceB]

theorem reflectN_lt (n v : Nat) : reflectN n v < 2 ^ n := by
  induction n generalizing v with
  | zero => simp [reflectN]
  | succ n ih =>
    have := ih (v / 2)
    have h2 : v % 2 < 2 := Nat.mod_lt _ (by decide)
    simp only [reflectN, Nat.pow_succ]
    have : v % 2 * 2 ^ n ≤ 2 ^ n := by
      calc v % 2 * 2 ^ n ≤ 1 * 2 ^ n := Nat.mul_le_mul_right _ (by omega)
        _ = 2 ^ n := by omega
    omega

/-- A CRC-32C is a 32-bit number. -/
theorem crcOf_profile0_lt (b : Bytes) : crcOf profile0 b < 2 ^ 32 := by
  simp only [crcOf, crcOut, profile0, if_true]
  exact Nat.xor_lt_two_pow (reflectN_lt 32 _) (by decide)

theorem lsumTile_lt (f : Nat) (p : Bytes) : lsumTile f p < 2 ^ 64 := by
  have h : ∀ (g : Bool) (n : Nat) (b : Bytes), lsumWords g n b < lsumP := by
    intro g n b
    cases n with
    | zero => simp [lsumWords, lsumP]
    | succ n => exact Nat.mod_lt _ (by decide)
  exact Nat.lt_trans (h _ _ _) (by decide)

/-- The alive field of a formed trailer. -/
theorem formTrailer_alive (s : State) (payload : Bytes) (alive fmt ident epoch : Nat) (ha : alive < 65536) :
    trlAlive (formTrailer s payload alive fmt ident epoch) = alive := by
  rw [trlAlive, leField, formTrailer, trailerMid]
  simp only [List.append_assoc]
  rw [sliceB_mid _ (natLE 2 alive) _ (by simp) (by simp), leNat_natLE 2 alive ha]

/-- The profile of tiles depends on registers alone. -/
theorem tileProfile_regs (s u : State) (h : s.regs = u.regs) : tileProfile s = tileProfile u := by simp [tileProfile, profileOf, regL, regLive, h]

/-- R143, R146: what a producer forms passes the checks of a consumer that expects it, under CRC-32C. -/
theorem formTrailer_verifies (s u : State) (x : Expect) (payload : Bytes) (alive fmt ident epoch : Nat) (hp : tileProfile s = profile0) (hu : tileProfile u = profile0)
    (hf : fmt < 65536) (hfe : (elemOf (fmt % 256)).isSome = true) (hfl : layoutOk fmt = true) (hfo : ∀ l, x.formats = some l → l.contains fmt = true)
    (hi : ident < 2 ^ 64) (hiv : identValid ident = true) (hio : ∀ i, x.ident = some i → ident = i)
    (ha : alive < 65536) (hao : ∀ a, x.alive = some a → seqEqOrNewer 16 alive a = true)
    (he : epoch < 2 ^ 32) (heo : ∀ e, x.epoch = some e → seqEqOrNewer 32 epoch e = true) :
    verifyTile u x (fitB payload 2048) (formTrailer s payload alive fmt ident epoch) = .ok := by
  have hl := lsumTile_lt (fmt % 256) (fitB payload 2048)
  generalize hL : lsumTile (fmt % 256) (fitB payload 2048) = L at hl
  have hc := crcOf_profile0_lt (fitB payload 2048 ++ trailerMid alive fmt ident epoch L)
  generalize hC : crcOf profile0 (fitB payload 2048 ++ trailerMid alive fmt ident epoch L) = C at hc
  have ht : formTrailer s payload alive fmt ident epoch = natLE 4 C ++ (trailerMid alive fmt ident epoch L ++ natLE 4 0) := by
    simp only [formTrailer, hp, hL, hC, List.append_assoc]
  have h1 : sliceB (formTrailer s payload alive fmt ident epoch) 4 24 = trailerMid alive fmt ident epoch L := by
    rw [ht]; exact sliceB_mid _ _ _ (by simp) (by simp [trailerMid])
  have h2 : trlCheck (formTrailer s payload alive fmt ident epoch) = C := by
    rw [ht, trlCheck, leField, sliceB_head (natLE 4 C) _ (by simp), leNat_natLE 4 C hc]
  have h3 := formTrailer_alive s payload alive fmt ident epoch ha
  have h4 : trlFormat (formTrailer s payload alive fmt ident epoch) = fmt := by
    rw [ht, trlFormat, leField, trailerMid]
    simp only [List.append_assoc]
    rw [← List.append_assoc (natLE 4 C), sliceB_mid (natLE 4 C ++ natLE 2 alive) (natLE 2 fmt) _ (by simp) (by simp), leNat_natLE 2 fmt hf]
  have h5 : trlIdent (formTrailer s payload alive fmt ident epoch) = ident := by
    rw [ht, trlIdent, leField, trailerMid]
    simp only [List.append_assoc]
    rw [← List.append_assoc (natLE 4 C), ← List.append_assoc (natLE 4 C ++ natLE 2 alive),
      sliceB_mid (natLE 4 C ++ natLE 2 alive ++ natLE 2 fmt) (natLE 8 ident) _ (by simp) (by simp), leNat_natLE 8 ident hi]
  have h6 : trlEpoch (formTrailer s payload alive fmt ident epoch) = epoch := by
    rw [ht, trlEpoch, leField, trailerMid]
    simp only [List.append_assoc]
    rw [← List.append_assoc (natLE 4 C), ← List.append_assoc (natLE 4 C ++ natLE 2 alive), ← List.append_assoc (natLE 4 C ++ natLE 2 alive ++ natLE 2 fmt),
      sliceB_mid (natLE 4 C ++ natLE 2 alive ++ natLE 2 fmt ++ natLE 8 ident) (natLE 4 epoch) _ (by simp) (by simp), leNat_natLE 4 epoch he]
  have h7 : trlLsum (formTrailer s payload alive fmt ident epoch) = L := by
    rw [ht, trlLsum, leField, trailerMid]
    simp only [List.append_assoc]
    rw [← List.append_assoc (natLE 4 C), ← List.append_assoc (natLE 4 C ++ natLE 2 alive), ← List.append_assoc (natLE 4 C ++ natLE 2 alive ++ natLE 2 fmt),
      ← List.append_assoc (natLE 4 C ++ natLE 2 alive ++ natLE 2 fmt ++ natLE 8 ident),
      sliceB_mid (natLE 4 C ++ natLE 2 alive ++ natLE 2 fmt ++ natLE 8 ident ++ natLE 4 epoch) (natLE 8 L) _ (by simp) (by simp), leNat_natLE 8 L hl]
  obtain ⟨xi, xa, xe, xf⟩ := x
  simp only [verifyTile, h1, h2, h3, h4, h5, h6, h7, hu, fitB_fitB, hL, hC, hfe, hfl, hiv, bne_self_eq_false, Bool.true_and, Bool.and_true, Bool.false_eq_true, if_false]
  cases xi <;> cases xa <;> cases xf <;> cases xe <;> simp_all

/-- The running value of R153 taken byte by byte, each value looked at before the next. -/
def crcSteps (p : Profile) : Nat → Bytes → Nat
  | c, [] => c
  | c, b :: bs => if crcByte p c b = 0 then crcSteps p 0 bs else crcSteps p (crcByte p c b) bs

/-- It is the running value of R153; the form by steps is the one that evaluates on long records. -/
theorem crcSteps_eq (p : Profile) (c : Nat) (bs : Bytes) : crcSteps p c bs = crcRun p c bs := by
  induction bs generalizing c with
  | nil => rfl
  | cons b bs ih =>
    simp only [crcSteps, crcRun, List.foldl_cons]
    split
    · next h => rw [h, ih]; rfl
    · rw [ih]; rfl

theorem crcOf_steps (p : Profile) (bs : Bytes) : crcOf p bs = crcOut p (crcSteps p p.init bs) := by rw [crcOf, crcSteps_eq]

end Sys2Proof.Machine
end

