-- ==== Sys2Proof/Laws/Objects.lean ====
section
/-! SUPPORT. Signed objects (R409): an object laid out from its fields reads back as them, and passes the checks of R410 that its fields and
its signature pass. -/
namespace Sys2Proof.Machine

/-- Sixteen bytes of output or more are squeezed whole: a digest has 32 bytes. -/
@[simp] theorem digest32_length (b : Bytes) : (digest32 b).length = 32 := by
  simp [digest32, shake256]

/-- A field behind another part of a structure. -/
theorem sliceB_skip (a c : Bytes) {o n : Nat} (h : a.length ≤ o) : sliceB (a ++ c) o n = sliceB c (o - a.length) n := by
  simp [sliceB, List.drop_append, List.drop_eq_nil_of_le h]

/-- An object with its header, signature and body in their places. -/
def objOf (kind slot sub serial svn : Nat) (key sig body : Bytes) : Bytes :=
  natLE 4 0x4B585347 ++ (natLE 1 kind ++ (natLE 1 slot ++ (natLE 2 sub ++ (natLE 8 serial ++ (natLE 4 svn ++ (natLE 4 0 ++ (natLE 8 body.length ++
    (digest32 body ++ (fitB key 68 ++ (natLE 4 0 ++ (fitB sig 2820 ++ body)))))))))))

variable {kind slot sub serial svn : Nat} {key sig body : Bytes}

theorem objOf_length : (objOf kind slot sub serial svn key sig body).length = 2956 + body.length := by
  simp only [objOf, List.length_append, natLE_length, digest32_length, fitB_length]
  omega

theorem objOf_magic : leField (objOf kind slot sub serial svn key sig body) 0 4 = 0x4B585347 := by
  simp [objOf, leField, sliceB_head, leNat_natLE]

theorem objOf_kind (h : kind < 256) : oKind (objOf kind slot sub serial svn key sig body) = kind := by
  simp [oKind, objOf, leField, sliceB_skip, sliceB_head, leNat_natLE, h]

theorem objOf_slot (h : slot < 256) : oSlot (objOf kind slot sub serial svn key sig body) = slot := by
  simp [oSlot, objOf, leField, sliceB_skip, sliceB_head, leNat_natLE, h]

theorem objOf_sub (h : sub < 65536) : oSub (objOf kind slot sub serial svn key sig body) = sub := by
  simp [oSub, objOf, leField, sliceB_skip, sliceB_head, leNat_natLE, h]

theorem objOf_serial (h : serial < 2 ^ 64) : leField (objOf kind slot sub serial svn key sig body) 8 8 = serial := by
  have h' : serial < 256 ^ 8 := by simpa using h
  simp [objOf, leField, sliceB_skip, sliceB_head]
  exact leNat_natLE _ _ h'

theorem objOf_svn (h : svn < 2 ^ 32) : oSvn (objOf kind slot sub serial svn key sig body) = svn := by
  have h' : svn < 256 ^ 4 := by simpa using h
  simp [oSvn, objOf, leField, sliceB_skip, sliceB_head]
  exact leNat_natLE _ _ h'

theorem objOf_size (h : body.length < 2 ^ 64) : leField (objOf kind slot sub serial svn key sig body) 24 8 = body.length := by
  have h' : body.length < 256 ^ 8 := by simpa using h
  simp [objOf, leField, sliceB_skip, sliceB_head]
  exact leNat_natLE _ _ h'

theorem objOf_digest : sliceB (objOf kind slot sub serial svn key sig body) 32 32 = digest32 body := by
  simp [objOf, sliceB_skip, sliceB_head]

theorem objOf_key : sliceB (objOf kind slot sub serial svn key sig body) 64 68 = fitB key 68 := by
  simp [objOf, sliceB_skip, sliceB_head]

theorem objOf_zero : leField (objOf kind slot sub serial svn key sig body) 132 4 = 0 := by
  simp [objOf, leField, sliceB_skip, sliceB_head, leNat_natLE]

theorem objOf_sig : oSig (objOf kind slot sub serial svn key sig body) = fitB sig 2820 := by
  simp [oSig, objOf, sliceB_skip, sliceB_head]

theorem objOf_body : oBody (objOf kind slot sub serial svn key sig body) = body := by
  simp [oBody, objOf, List.drop_append, List.drop_eq_nil_of_le]

/-- Check 1 of an object laid out so. -/
theorem objOf_formed (hk : 1 ≤ kind ∧ kind ≤ 5) (hs : slot ≤ 3) (hu : if kind = 1 then 1 ≤ sub ∧ sub ≤ 11 else sub = 0) (hv : svn ≤ 64)
    (hn : body.length ≤ 64 * 2 ^ 20 - 2956)
    (hb : match kind with
      | 2 => body.length = 16 ∧ leField body 0 1 ≤ 1 ∧ leNat (sliceB body 1 15) = 0
      | 3 => body.length = 16
      | 4 => body.length = 112
      | 5 => body.length = 1 ∧ leField body 0 1 ≤ 3
      | _ => True) : objFormed (objOf kind slot sub serial svn key sig body) = true := by
  have hsub : sub < 65536 := by split at hu <;> omega
  have hn' : body.length < 2 ^ 64 := by omega
  simp only [objFormed, objOf_length, objOf_magic, objOf_kind (show kind < 256 by omega), objOf_slot (show slot < 256 by omega), objOf_sub hsub,
    objOf_svn (show svn < 2 ^ 32 by omega), objOf_size hn', objOf_zero, objOf_body]
  obtain ⟨h1, h5⟩ := hk
  have : kind = 1 ∨ kind = 2 ∨ kind = 3 ∨ kind = 4 ∨ kind = 5 := by omega
  rcases this with rfl | rfl | rfl | rfl | rfl <;> simp_all

/-- Checks 1 to 7 of an object laid out so, whose key a vendor slot holds and whose signature verifies. -/
theorem objOf_checked {s : State} (hk : 1 ≤ kind ∧ kind ≤ 5) (hs : slot ≤ 3) (hu : if kind = 1 then 1 ≤ sub ∧ sub ≤ 11 else sub = 0) (hv : svn ≤ 64)
    (hn : body.length ≤ 64 * 2 ^ 20 - 2956)
    (hb : match kind with
      | 2 => body.length = 16 ∧ leField body 0 1 ≤ 1 ∧ leNat (sliceB body 1 15) = 0
      | 3 => body.length = 16
      | 4 => body.length = 112
      | 5 => body.length = 1 ∧ leField body 0 1 ≤ 3
      | _ => True)
    (hkey : digest32 (fitB key 68) = Config.vendorDigest slot)
    (hsig : Config.xmssVerify (fitB key 68) (oHead (objOf kind slot sub Config.serial.toNat svn key sig body)) (fitB sig 2820) = true)
    (hm : s.hdw.minima = []) (hr : s.hdw.revoked = []) : objCheck s (objOf kind slot sub Config.serial.toNat svn key sig body) = 0 := by
  have hf := objOf_formed (serial := Config.serial.toNat) (key := key) (sig := sig) hk hs hu hv hn hb
  have hser := objOf_serial (kind := kind) (slot := slot) (sub := sub) (svn := svn) (key := key) (sig := sig) (body := body) (BitVec.isLt Config.serial)
  simp only [objCheck, hf, objOf_slot (show slot < 256 by omega), objOf_key, hkey, objOf_sig, hsig, hr, objOf_digest, objOf_body, hser]
  cases hd : objDomain (objOf kind slot sub Config.serial.toNat svn key sig body) <;> simp [svnMin, hm, tget, tget?]

end Sys2Proof.Machine
end

