-- ==== Sys2Proof/Laws/State.lean ====
section
/-! SUPPORT. The fields that each named update of the state leaves as they were, and the field that the queue's update writes. -/
namespace Sys2Proof.Machine

@[simp] theorem State.withPending_pending (s : State) (q : List Instr) : (s.withPending q).pending = q := rfl
@[simp] theorem State.withPending_now (s : State) (q : List Instr) : (s.withPending q).now = s.now := rfl
@[simp] theorem State.withPending_out (s : State) (q : List Instr) : (s.withPending q).out = s.out := rfl
@[simp] theorem State.withPending_free (s : State) (q : List Instr) : (s.withPending q).free = s.free := rfl
@[simp] theorem State.withPending_full (s : State) (q : List Instr) : (s.withPending q).full = s.full := rfl
@[simp] theorem State.withPending_err (s : State) (q : List Instr) : (s.withPending q).err = s.err := rfl
@[simp] theorem State.withPending_tel (s : State) (q : List Instr) : (s.withPending q).tel = s.tel := rfl
@[simp] theorem State.withPending_regs (s : State) (q : List Instr) : (s.withPending q).regs = s.regs := rfl
@[simp] theorem State.withPending_net (s : State) (q : List Instr) : (s.withPending q).net = s.net := rfl
@[simp] theorem State.withPending_tide (s : State) (q : List Instr) : (s.withPending q).tide = s.tide := rfl
@[simp] theorem State.withPending_fly (s : State) (q : List Instr) : (s.withPending q).fly = s.fly := rfl
@[simp] theorem State.withPending_flyNext (s : State) (q : List Instr) : (s.withPending q).flyNext = s.flyNext := rfl
@[simp] theorem State.withPending_cells (s : State) (q : List Instr) : (s.withPending q).cells = s.cells := rfl
@[simp] theorem State.withPending_chk (s : State) (q : List Instr) : (s.withPending q).chk = s.chk := rfl
@[simp] theorem State.withPending_ctxs (s : State) (q : List Instr) : (s.withPending q).ctxs = s.ctxs := rfl
@[simp] theorem State.withPending_slc (s : State) (q : List Instr) : (s.withPending q).slc = s.slc := rfl
@[simp] theorem State.withPending_frs (s : State) (q : List Instr) : (s.withPending q).frs = s.frs := rfl
@[simp] theorem State.withPending_mem (s : State) (q : List Instr) : (s.withPending q).mem = s.mem := rfl
@[simp] theorem State.withPending_rsv (s : State) (q : List Instr) : (s.withPending q).rsv = s.rsv := rfl
@[simp] theorem State.withPending_csn (s : State) (q : List Instr) : (s.withPending q).csn = s.csn := rfl
@[simp] theorem State.withPending_est (s : State) (q : List Instr) : (s.withPending q).est = s.est := rfl
@[simp] theorem State.withPending_edy (s : State) (q : List Instr) : (s.withPending q).edy = s.edy := rfl
@[simp] theorem State.withPending_wsh (s : State) (q : List Instr) : (s.withPending q).wsh = s.wsh := rfl
@[simp] theorem State.withPending_hst (s : State) (q : List Instr) : (s.withPending q).hst = s.hst := rfl
@[simp] theorem State.withPending_own (s : State) (q : List Instr) : (s.withPending q).own = s.own := rfl
@[simp] theorem State.withPending_bst (s : State) (q : List Instr) : (s.withPending q).bst = s.bst := rfl
@[simp] theorem State.withPending_hdw (s : State) (q : List Instr) : (s.withPending q).hdw = s.hdw := rfl
@[simp] theorem State.withPending_lev (s : State) (q : List Instr) : (s.withPending q).lev = s.lev := rfl

@[simp] theorem emit_pending {o : Out} (s : State) : (emit o s).pending = s.pending := rfl
@[simp] theorem emit_now {o : Out} (s : State) : (emit o s).now = s.now := rfl
@[simp] theorem emit_free {o : Out} (s : State) : (emit o s).free = s.free := rfl
@[simp] theorem emit_full {o : Out} (s : State) : (emit o s).full = s.full := rfl
@[simp] theorem emit_err {o : Out} (s : State) : (emit o s).err = s.err := rfl
@[simp] theorem emit_tel {o : Out} (s : State) : (emit o s).tel = s.tel := rfl
@[simp] theorem emit_regs {o : Out} (s : State) : (emit o s).regs = s.regs := rfl
@[simp] theorem emit_net {o : Out} (s : State) : (emit o s).net = s.net := rfl
@[simp] theorem emit_tide {o : Out} (s : State) : (emit o s).tide = s.tide := rfl
@[simp] theorem emit_fly {o : Out} (s : State) : (emit o s).fly = s.fly := rfl
@[simp] theorem emit_flyNext {o : Out} (s : State) : (emit o s).flyNext = s.flyNext := rfl
@[simp] theorem emit_cells {o : Out} (s : State) : (emit o s).cells = s.cells := rfl
@[simp] theorem emit_chk {o : Out} (s : State) : (emit o s).chk = s.chk := rfl
@[simp] theorem emit_ctxs {o : Out} (s : State) : (emit o s).ctxs = s.ctxs := rfl
@[simp] theorem emit_slc {o : Out} (s : State) : (emit o s).slc = s.slc := rfl
@[simp] theorem emit_frs {o : Out} (s : State) : (emit o s).frs = s.frs := rfl
@[simp] theorem emit_mem {o : Out} (s : State) : (emit o s).mem = s.mem := rfl
@[simp] theorem emit_rsv {o : Out} (s : State) : (emit o s).rsv = s.rsv := rfl
@[simp] theorem emit_csn {o : Out} (s : State) : (emit o s).csn = s.csn := rfl
@[simp] theorem emit_est {o : Out} (s : State) : (emit o s).est = s.est := rfl
@[simp] theorem emit_edy {o : Out} (s : State) : (emit o s).edy = s.edy := rfl
@[simp] theorem emit_wsh {o : Out} (s : State) : (emit o s).wsh = s.wsh := rfl
@[simp] theorem emit_hst {o : Out} (s : State) : (emit o s).hst = s.hst := rfl
@[simp] theorem emit_own {o : Out} (s : State) : (emit o s).own = s.own := rfl
@[simp] theorem emit_bst {o : Out} (s : State) : (emit o s).bst = s.bst := rfl
@[simp] theorem emit_hdw {o : Out} (s : State) : (emit o s).hdw = s.hdw := rfl
@[simp] theorem emit_lev {o : Out} (s : State) : (emit o s).lev = s.lev := rfl

@[simp] theorem until__pending {t : Nat} (s : State) : (until_ t s).pending = s.pending := rfl
@[simp] theorem until__out {t : Nat} (s : State) : (until_ t s).out = s.out := rfl
@[simp] theorem until__free {t : Nat} (s : State) : (until_ t s).free = s.free := rfl
@[simp] theorem until__full {t : Nat} (s : State) : (until_ t s).full = s.full := rfl
@[simp] theorem until__err {t : Nat} (s : State) : (until_ t s).err = s.err := rfl
@[simp] theorem until__tel {t : Nat} (s : State) : (until_ t s).tel = s.tel := rfl
@[simp] theorem until__regs {t : Nat} (s : State) : (until_ t s).regs = s.regs := rfl
@[simp] theorem until__net {t : Nat} (s : State) : (until_ t s).net = s.net := rfl
@[simp] theorem until__tide {t : Nat} (s : State) : (until_ t s).tide = s.tide := rfl
@[simp] theorem until__fly {t : Nat} (s : State) : (until_ t s).fly = s.fly := rfl
@[simp] theorem until__flyNext {t : Nat} (s : State) : (until_ t s).flyNext = s.flyNext := rfl
@[simp] theorem until__cells {t : Nat} (s : State) : (until_ t s).cells = s.cells := rfl
@[simp] theorem until__chk {t : Nat} (s : State) : (until_ t s).chk = s.chk := rfl
@[simp] theorem until__ctxs {t : Nat} (s : State) : (until_ t s).ctxs = s.ctxs := rfl
@[simp] theorem until__slc {t : Nat} (s : State) : (until_ t s).slc = s.slc := rfl
@[simp] theorem until__frs {t : Nat} (s : State) : (until_ t s).frs = s.frs := rfl
@[simp] theorem until__mem {t : Nat} (s : State) : (until_ t s).mem = s.mem := rfl
@[simp] theorem until__rsv {t : Nat} (s : State) : (until_ t s).rsv = s.rsv := rfl
@[simp] theorem until__csn {t : Nat} (s : State) : (until_ t s).csn = s.csn := rfl
@[simp] theorem until__est {t : Nat} (s : State) : (until_ t s).est = s.est := rfl
@[simp] theorem until__edy {t : Nat} (s : State) : (until_ t s).edy = s.edy := rfl
@[simp] theorem until__wsh {t : Nat} (s : State) : (until_ t s).wsh = s.wsh := rfl
@[simp] theorem until__hst {t : Nat} (s : State) : (until_ t s).hst = s.hst := rfl
@[simp] theorem until__own {t : Nat} (s : State) : (until_ t s).own = s.own := rfl
@[simp] theorem until__bst {t : Nat} (s : State) : (until_ t s).bst = s.bst := rfl
@[simp] theorem until__hdw {t : Nat} (s : State) : (until_ t s).hdw = s.hdw := rfl
@[simp] theorem until__lev {t : Nat} (s : State) : (until_ t s).lev = s.lev := rfl

@[simp] theorem countN_pending {block num kind inst n : Nat} (s : State) : (countN block num kind inst n s).pending = s.pending := rfl
@[simp] theorem countN_now {block num kind inst n : Nat} (s : State) : (countN block num kind inst n s).now = s.now := rfl
@[simp] theorem countN_out {block num kind inst n : Nat} (s : State) : (countN block num kind inst n s).out = s.out := rfl
@[simp] theorem countN_free {block num kind inst n : Nat} (s : State) : (countN block num kind inst n s).free = s.free := rfl
@[simp] theorem countN_full {block num kind inst n : Nat} (s : State) : (countN block num kind inst n s).full = s.full := rfl
@[simp] theorem countN_err {block num kind inst n : Nat} (s : State) : (countN block num kind inst n s).err = s.err := rfl
@[simp] theorem countN_regs {block num kind inst n : Nat} (s : State) : (countN block num kind inst n s).regs = s.regs := rfl
@[simp] theorem countN_net {block num kind inst n : Nat} (s : State) : (countN block num kind inst n s).net = s.net := rfl
@[simp] theorem countN_tide {block num kind inst n : Nat} (s : State) : (countN block num kind inst n s).tide = s.tide := rfl
@[simp] theorem countN_fly {block num kind inst n : Nat} (s : State) : (countN block num kind inst n s).fly = s.fly := rfl
@[simp] theorem countN_flyNext {block num kind inst n : Nat} (s : State) : (countN block num kind inst n s).flyNext = s.flyNext := rfl
@[simp] theorem countN_cells {block num kind inst n : Nat} (s : State) : (countN block num kind inst n s).cells = s.cells := rfl
@[simp] theorem countN_chk {block num kind inst n : Nat} (s : State) : (countN block num kind inst n s).chk = s.chk := rfl
@[simp] theorem countN_ctxs {block num kind inst n : Nat} (s : State) : (countN block num kind inst n s).ctxs = s.ctxs := rfl
@[simp] theorem countN_slc {block num kind inst n : Nat} (s : State) : (countN block num kind inst n s).slc = s.slc := rfl
@[simp] theorem countN_frs {block num kind inst n : Nat} (s : State) : (countN block num kind inst n s).frs = s.frs := rfl
@[simp] theorem countN_mem {block num kind inst n : Nat} (s : State) : (countN block num kind inst n s).mem = s.mem := rfl
@[simp] theorem countN_rsv {block num kind inst n : Nat} (s : State) : (countN block num kind inst n s).rsv = s.rsv := rfl
@[simp] theorem countN_csn {block num kind inst n : Nat} (s : State) : (countN block num kind inst n s).csn = s.csn := rfl
@[simp] theorem countN_est {block num kind inst n : Nat} (s : State) : (countN block num kind inst n s).est = s.est := rfl
@[simp] theorem countN_edy {block num kind inst n : Nat} (s : State) : (countN block num kind inst n s).edy = s.edy := rfl
@[simp] theorem countN_wsh {block num kind inst n : Nat} (s : State) : (countN block num kind inst n s).wsh = s.wsh := rfl
@[simp] theorem countN_hst {block num kind inst n : Nat} (s : State) : (countN block num kind inst n s).hst = s.hst := rfl
@[simp] theorem countN_own {block num kind inst n : Nat} (s : State) : (countN block num kind inst n s).own = s.own := rfl
@[simp] theorem countN_bst {block num kind inst n : Nat} (s : State) : (countN block num kind inst n s).bst = s.bst := rfl
@[simp] theorem countN_hdw {block num kind inst n : Nat} (s : State) : (countN block num kind inst n s).hdw = s.hdw := rfl
@[simp] theorem countN_lev {block num kind inst n : Nat} (s : State) : (countN block num kind inst n s).lev = s.lev := rfl

@[simp] theorem count_pending {block num kind inst : Nat} (s : State) : (count block num kind inst s).pending = s.pending := rfl
@[simp] theorem count_now {block num kind inst : Nat} (s : State) : (count block num kind inst s).now = s.now := rfl
@[simp] theorem count_out {block num kind inst : Nat} (s : State) : (count block num kind inst s).out = s.out := rfl
@[simp] theorem count_free {block num kind inst : Nat} (s : State) : (count block num kind inst s).free = s.free := rfl
@[simp] theorem count_full {block num kind inst : Nat} (s : State) : (count block num kind inst s).full = s.full := rfl
@[simp] theorem count_err {block num kind inst : Nat} (s : State) : (count block num kind inst s).err = s.err := rfl
@[simp] theorem count_regs {block num kind inst : Nat} (s : State) : (count block num kind inst s).regs = s.regs := rfl
@[simp] theorem count_net {block num kind inst : Nat} (s : State) : (count block num kind inst s).net = s.net := rfl
@[simp] theorem count_tide {block num kind inst : Nat} (s : State) : (count block num kind inst s).tide = s.tide := rfl
@[simp] theorem count_fly {block num kind inst : Nat} (s : State) : (count block num kind inst s).fly = s.fly := rfl
@[simp] theorem count_flyNext {block num kind inst : Nat} (s : State) : (count block num kind inst s).flyNext = s.flyNext := rfl
@[simp] theorem count_cells {block num kind inst : Nat} (s : State) : (count block num kind inst s).cells = s.cells := rfl
@[simp] theorem count_chk {block num kind inst : Nat} (s : State) : (count block num kind inst s).chk = s.chk := rfl
@[simp] theorem count_ctxs {block num kind inst : Nat} (s : State) : (count block num kind inst s).ctxs = s.ctxs := rfl
@[simp] theorem count_slc {block num kind inst : Nat} (s : State) : (count block num kind inst s).slc = s.slc := rfl
@[simp] theorem count_frs {block num kind inst : Nat} (s : State) : (count block num kind inst s).frs = s.frs := rfl
@[simp] theorem count_mem {block num kind inst : Nat} (s : State) : (count block num kind inst s).mem = s.mem := rfl
@[simp] theorem count_rsv {block num kind inst : Nat} (s : State) : (count block num kind inst s).rsv = s.rsv := rfl
@[simp] theorem count_csn {block num kind inst : Nat} (s : State) : (count block num kind inst s).csn = s.csn := rfl
@[simp] theorem count_est {block num kind inst : Nat} (s : State) : (count block num kind inst s).est = s.est := rfl
@[simp] theorem count_edy {block num kind inst : Nat} (s : State) : (count block num kind inst s).edy = s.edy := rfl
@[simp] theorem count_wsh {block num kind inst : Nat} (s : State) : (count block num kind inst s).wsh = s.wsh := rfl
@[simp] theorem count_hst {block num kind inst : Nat} (s : State) : (count block num kind inst s).hst = s.hst := rfl
@[simp] theorem count_own {block num kind inst : Nat} (s : State) : (count block num kind inst s).own = s.own := rfl
@[simp] theorem count_bst {block num kind inst : Nat} (s : State) : (count block num kind inst s).bst = s.bst := rfl
@[simp] theorem count_hdw {block num kind inst : Nat} (s : State) : (count block num kind inst s).hdw = s.hdw := rfl
@[simp] theorem count_lev {block num kind inst : Nat} (s : State) : (count block num kind inst s).lev = s.lev := rfl

@[simp] theorem telRestart_pending {c : Nat} (s : State) : (telRestart c s).pending = s.pending := rfl
@[simp] theorem telRestart_now {c : Nat} (s : State) : (telRestart c s).now = s.now := rfl
@[simp] theorem telRestart_out {c : Nat} (s : State) : (telRestart c s).out = s.out := rfl
@[simp] theorem telRestart_free {c : Nat} (s : State) : (telRestart c s).free = s.free := rfl
@[simp] theorem telRestart_full {c : Nat} (s : State) : (telRestart c s).full = s.full := rfl
@[simp] theorem telRestart_err {c : Nat} (s : State) : (telRestart c s).err = s.err := rfl
@[simp] theorem telRestart_regs {c : Nat} (s : State) : (telRestart c s).regs = s.regs := rfl
@[simp] theorem telRestart_net {c : Nat} (s : State) : (telRestart c s).net = s.net := rfl
@[simp] theorem telRestart_tide {c : Nat} (s : State) : (telRestart c s).tide = s.tide := rfl
@[simp] theorem telRestart_fly {c : Nat} (s : State) : (telRestart c s).fly = s.fly := rfl
@[simp] theorem telRestart_flyNext {c : Nat} (s : State) : (telRestart c s).flyNext = s.flyNext := rfl
@[simp] theorem telRestart_cells {c : Nat} (s : State) : (telRestart c s).cells = s.cells := rfl
@[simp] theorem telRestart_chk {c : Nat} (s : State) : (telRestart c s).chk = s.chk := rfl
@[simp] theorem telRestart_ctxs {c : Nat} (s : State) : (telRestart c s).ctxs = s.ctxs := rfl
@[simp] theorem telRestart_slc {c : Nat} (s : State) : (telRestart c s).slc = s.slc := rfl
@[simp] theorem telRestart_frs {c : Nat} (s : State) : (telRestart c s).frs = s.frs := rfl
@[simp] theorem telRestart_mem {c : Nat} (s : State) : (telRestart c s).mem = s.mem := rfl
@[simp] theorem telRestart_rsv {c : Nat} (s : State) : (telRestart c s).rsv = s.rsv := rfl
@[simp] theorem telRestart_csn {c : Nat} (s : State) : (telRestart c s).csn = s.csn := rfl
@[simp] theorem telRestart_est {c : Nat} (s : State) : (telRestart c s).est = s.est := rfl
@[simp] theorem telRestart_edy {c : Nat} (s : State) : (telRestart c s).edy = s.edy := rfl
@[simp] theorem telRestart_wsh {c : Nat} (s : State) : (telRestart c s).wsh = s.wsh := rfl
@[simp] theorem telRestart_hst {c : Nat} (s : State) : (telRestart c s).hst = s.hst := rfl
@[simp] theorem telRestart_own {c : Nat} (s : State) : (telRestart c s).own = s.own := rfl
@[simp] theorem telRestart_bst {c : Nat} (s : State) : (telRestart c s).bst = s.bst := rfl
@[simp] theorem telRestart_hdw {c : Nat} (s : State) : (telRestart c s).hdw = s.hdw := rfl
@[simp] theorem telRestart_lev {c : Nat} (s : State) : (telRestart c s).lev = s.lev := rfl

@[simp] theorem regSet_pending {off inst v : Nat} (s : State) : (regSet off inst v s).pending = s.pending := rfl
@[simp] theorem regSet_now {off inst v : Nat} (s : State) : (regSet off inst v s).now = s.now := rfl
@[simp] theorem regSet_out {off inst v : Nat} (s : State) : (regSet off inst v s).out = s.out := rfl
@[simp] theorem regSet_free {off inst v : Nat} (s : State) : (regSet off inst v s).free = s.free := rfl
@[simp] theorem regSet_full {off inst v : Nat} (s : State) : (regSet off inst v s).full = s.full := rfl
@[simp] theorem regSet_err {off inst v : Nat} (s : State) : (regSet off inst v s).err = s.err := rfl
@[simp] theorem regSet_tel {off inst v : Nat} (s : State) : (regSet off inst v s).tel = s.tel := rfl
@[simp] theorem regSet_net {off inst v : Nat} (s : State) : (regSet off inst v s).net = s.net := rfl
@[simp] theorem regSet_tide {off inst v : Nat} (s : State) : (regSet off inst v s).tide = s.tide := rfl
@[simp] theorem regSet_fly {off inst v : Nat} (s : State) : (regSet off inst v s).fly = s.fly := rfl
@[simp] theorem regSet_flyNext {off inst v : Nat} (s : State) : (regSet off inst v s).flyNext = s.flyNext := rfl
@[simp] theorem regSet_cells {off inst v : Nat} (s : State) : (regSet off inst v s).cells = s.cells := rfl
@[simp] theorem regSet_chk {off inst v : Nat} (s : State) : (regSet off inst v s).chk = s.chk := rfl
@[simp] theorem regSet_ctxs {off inst v : Nat} (s : State) : (regSet off inst v s).ctxs = s.ctxs := rfl
@[simp] theorem regSet_slc {off inst v : Nat} (s : State) : (regSet off inst v s).slc = s.slc := rfl
@[simp] theorem regSet_frs {off inst v : Nat} (s : State) : (regSet off inst v s).frs = s.frs := rfl
@[simp] theorem regSet_mem {off inst v : Nat} (s : State) : (regSet off inst v s).mem = s.mem := rfl
@[simp] theorem regSet_rsv {off inst v : Nat} (s : State) : (regSet off inst v s).rsv = s.rsv := rfl
@[simp] theorem regSet_csn {off inst v : Nat} (s : State) : (regSet off inst v s).csn = s.csn := rfl
@[simp] theorem regSet_est {off inst v : Nat} (s : State) : (regSet off inst v s).est = s.est := rfl
@[simp] theorem regSet_edy {off inst v : Nat} (s : State) : (regSet off inst v s).edy = s.edy := rfl
@[simp] theorem regSet_wsh {off inst v : Nat} (s : State) : (regSet off inst v s).wsh = s.wsh := rfl
@[simp] theorem regSet_hst {off inst v : Nat} (s : State) : (regSet off inst v s).hst = s.hst := rfl
@[simp] theorem regSet_own {off inst v : Nat} (s : State) : (regSet off inst v s).own = s.own := rfl
@[simp] theorem regSet_bst {off inst v : Nat} (s : State) : (regSet off inst v s).bst = s.bst := rfl
@[simp] theorem regSet_hdw {off inst v : Nat} (s : State) : (regSet off inst v s).hdw = s.hdw := rfl
@[simp] theorem regSet_lev {off inst v : Nat} (s : State) : (regSet off inst v s).lev = s.lev := rfl

@[simp] theorem send_pending {m : Msg} (s : State) : (send m s).pending = s.pending := rfl
@[simp] theorem send_now {m : Msg} (s : State) : (send m s).now = s.now := rfl
@[simp] theorem send_out {m : Msg} (s : State) : (send m s).out = s.out := rfl
@[simp] theorem send_free {m : Msg} (s : State) : (send m s).free = s.free := rfl
@[simp] theorem send_full {m : Msg} (s : State) : (send m s).full = s.full := rfl
@[simp] theorem send_err {m : Msg} (s : State) : (send m s).err = s.err := rfl
@[simp] theorem send_tel {m : Msg} (s : State) : (send m s).tel = s.tel := rfl
@[simp] theorem send_regs {m : Msg} (s : State) : (send m s).regs = s.regs := rfl
@[simp] theorem send_net {m : Msg} (s : State) : (send m s).net = s.net := rfl
@[simp] theorem send_tide {m : Msg} (s : State) : (send m s).tide = s.tide := rfl
@[simp] theorem send_cells {m : Msg} (s : State) : (send m s).cells = s.cells := rfl
@[simp] theorem send_chk {m : Msg} (s : State) : (send m s).chk = s.chk := rfl
@[simp] theorem send_ctxs {m : Msg} (s : State) : (send m s).ctxs = s.ctxs := rfl
@[simp] theorem send_slc {m : Msg} (s : State) : (send m s).slc = s.slc := rfl
@[simp] theorem send_frs {m : Msg} (s : State) : (send m s).frs = s.frs := rfl
@[simp] theorem send_mem {m : Msg} (s : State) : (send m s).mem = s.mem := rfl
@[simp] theorem send_rsv {m : Msg} (s : State) : (send m s).rsv = s.rsv := rfl
@[simp] theorem send_csn {m : Msg} (s : State) : (send m s).csn = s.csn := rfl
@[simp] theorem send_est {m : Msg} (s : State) : (send m s).est = s.est := rfl
@[simp] theorem send_edy {m : Msg} (s : State) : (send m s).edy = s.edy := rfl
@[simp] theorem send_wsh {m : Msg} (s : State) : (send m s).wsh = s.wsh := rfl
@[simp] theorem send_hst {m : Msg} (s : State) : (send m s).hst = s.hst := rfl
@[simp] theorem send_own {m : Msg} (s : State) : (send m s).own = s.own := rfl
@[simp] theorem send_bst {m : Msg} (s : State) : (send m s).bst = s.bst := rfl
@[simp] theorem send_hdw {m : Msg} (s : State) : (send m s).hdw = s.hdw := rfl
@[simp] theorem send_lev {m : Msg} (s : State) : (send m s).lev = s.lev := rfl

@[simp] theorem unfly_pending {i : Nat} (s : State) : (unfly i s).pending = s.pending := rfl
@[simp] theorem unfly_now {i : Nat} (s : State) : (unfly i s).now = s.now := rfl
@[simp] theorem unfly_out {i : Nat} (s : State) : (unfly i s).out = s.out := rfl
@[simp] theorem unfly_free {i : Nat} (s : State) : (unfly i s).free = s.free := rfl
@[simp] theorem unfly_full {i : Nat} (s : State) : (unfly i s).full = s.full := rfl
@[simp] theorem unfly_err {i : Nat} (s : State) : (unfly i s).err = s.err := rfl
@[simp] theorem unfly_tel {i : Nat} (s : State) : (unfly i s).tel = s.tel := rfl
@[simp] theorem unfly_regs {i : Nat} (s : State) : (unfly i s).regs = s.regs := rfl
@[simp] theorem unfly_net {i : Nat} (s : State) : (unfly i s).net = s.net := rfl
@[simp] theorem unfly_tide {i : Nat} (s : State) : (unfly i s).tide = s.tide := rfl
@[simp] theorem unfly_cells {i : Nat} (s : State) : (unfly i s).cells = s.cells := rfl
@[simp] theorem unfly_chk {i : Nat} (s : State) : (unfly i s).chk = s.chk := rfl
@[simp] theorem unfly_ctxs {i : Nat} (s : State) : (unfly i s).ctxs = s.ctxs := rfl
@[simp] theorem unfly_slc {i : Nat} (s : State) : (unfly i s).slc = s.slc := rfl
@[simp] theorem unfly_frs {i : Nat} (s : State) : (unfly i s).frs = s.frs := rfl
@[simp] theorem unfly_mem {i : Nat} (s : State) : (unfly i s).mem = s.mem := rfl
@[simp] theorem unfly_rsv {i : Nat} (s : State) : (unfly i s).rsv = s.rsv := rfl
@[simp] theorem unfly_csn {i : Nat} (s : State) : (unfly i s).csn = s.csn := rfl
@[simp] theorem unfly_est {i : Nat} (s : State) : (unfly i s).est = s.est := rfl
@[simp] theorem unfly_edy {i : Nat} (s : State) : (unfly i s).edy = s.edy := rfl
@[simp] theorem unfly_wsh {i : Nat} (s : State) : (unfly i s).wsh = s.wsh := rfl
@[simp] theorem unfly_hst {i : Nat} (s : State) : (unfly i s).hst = s.hst := rfl
@[simp] theorem unfly_own {i : Nat} (s : State) : (unfly i s).own = s.own := rfl
@[simp] theorem unfly_bst {i : Nat} (s : State) : (unfly i s).bst = s.bst := rfl
@[simp] theorem unfly_hdw {i : Nat} (s : State) : (unfly i s).hdw = s.hdw := rfl
@[simp] theorem unfly_lev {i : Nat} (s : State) : (unfly i s).lev = s.lev := rfl

@[simp] theorem refly_pending {i : Nat} {m : Msg} (s : State) : (refly i m s).pending = s.pending := rfl
@[simp] theorem refly_now {i : Nat} {m : Msg} (s : State) : (refly i m s).now = s.now := rfl
@[simp] theorem refly_out {i : Nat} {m : Msg} (s : State) : (refly i m s).out = s.out := rfl
@[simp] theorem refly_free {i : Nat} {m : Msg} (s : State) : (refly i m s).free = s.free := rfl
@[simp] theorem refly_full {i : Nat} {m : Msg} (s : State) : (refly i m s).full = s.full := rfl
@[simp] theorem refly_err {i : Nat} {m : Msg} (s : State) : (refly i m s).err = s.err := rfl
@[simp] theorem refly_tel {i : Nat} {m : Msg} (s : State) : (refly i m s).tel = s.tel := rfl
@[simp] theorem refly_regs {i : Nat} {m : Msg} (s : State) : (refly i m s).regs = s.regs := rfl
@[simp] theorem refly_net {i : Nat} {m : Msg} (s : State) : (refly i m s).net = s.net := rfl
@[simp] theorem refly_tide {i : Nat} {m : Msg} (s : State) : (refly i m s).tide = s.tide := rfl
@[simp] theorem refly_cells {i : Nat} {m : Msg} (s : State) : (refly i m s).cells = s.cells := rfl
@[simp] theorem refly_chk {i : Nat} {m : Msg} (s : State) : (refly i m s).chk = s.chk := rfl
@[simp] theorem refly_ctxs {i : Nat} {m : Msg} (s : State) : (refly i m s).ctxs = s.ctxs := rfl
@[simp] theorem refly_slc {i : Nat} {m : Msg} (s : State) : (refly i m s).slc = s.slc := rfl
@[simp] theorem refly_frs {i : Nat} {m : Msg} (s : State) : (refly i m s).frs = s.frs := rfl
@[simp] theorem refly_mem {i : Nat} {m : Msg} (s : State) : (refly i m s).mem = s.mem := rfl
@[simp] theorem refly_rsv {i : Nat} {m : Msg} (s : State) : (refly i m s).rsv = s.rsv := rfl
@[simp] theorem refly_csn {i : Nat} {m : Msg} (s : State) : (refly i m s).csn = s.csn := rfl
@[simp] theorem refly_est {i : Nat} {m : Msg} (s : State) : (refly i m s).est = s.est := rfl
@[simp] theorem refly_edy {i : Nat} {m : Msg} (s : State) : (refly i m s).edy = s.edy := rfl
@[simp] theorem refly_wsh {i : Nat} {m : Msg} (s : State) : (refly i m s).wsh = s.wsh := rfl
@[simp] theorem refly_hst {i : Nat} {m : Msg} (s : State) : (refly i m s).hst = s.hst := rfl
@[simp] theorem refly_own {i : Nat} {m : Msg} (s : State) : (refly i m s).own = s.own := rfl
@[simp] theorem refly_bst {i : Nat} {m : Msg} (s : State) : (refly i m s).bst = s.bst := rfl
@[simp] theorem refly_hdw {i : Nat} {m : Msg} (s : State) : (refly i m s).hdw = s.hdw := rfl
@[simp] theorem refly_lev {i : Nat} {m : Msg} (s : State) : (refly i m s).lev = s.lev := rfl

@[simp] theorem errAck_pending {seq : Nat} (s : State) : (errAck seq s).pending = s.pending := rfl
@[simp] theorem errAck_now {seq : Nat} (s : State) : (errAck seq s).now = s.now := rfl
@[simp] theorem errAck_out {seq : Nat} (s : State) : (errAck seq s).out = s.out := rfl
@[simp] theorem errAck_free {seq : Nat} (s : State) : (errAck seq s).free = s.free := rfl
@[simp] theorem errAck_full {seq : Nat} (s : State) : (errAck seq s).full = s.full := rfl
@[simp] theorem errAck_tel {seq : Nat} (s : State) : (errAck seq s).tel = s.tel := rfl
@[simp] theorem errAck_regs {seq : Nat} (s : State) : (errAck seq s).regs = s.regs := rfl
@[simp] theorem errAck_net {seq : Nat} (s : State) : (errAck seq s).net = s.net := rfl
@[simp] theorem errAck_tide {seq : Nat} (s : State) : (errAck seq s).tide = s.tide := rfl
@[simp] theorem errAck_fly {seq : Nat} (s : State) : (errAck seq s).fly = s.fly := rfl
@[simp] theorem errAck_flyNext {seq : Nat} (s : State) : (errAck seq s).flyNext = s.flyNext := rfl
@[simp] theorem errAck_cells {seq : Nat} (s : State) : (errAck seq s).cells = s.cells := rfl
@[simp] theorem errAck_chk {seq : Nat} (s : State) : (errAck seq s).chk = s.chk := rfl
@[simp] theorem errAck_ctxs {seq : Nat} (s : State) : (errAck seq s).ctxs = s.ctxs := rfl
@[simp] theorem errAck_slc {seq : Nat} (s : State) : (errAck seq s).slc = s.slc := rfl
@[simp] theorem errAck_frs {seq : Nat} (s : State) : (errAck seq s).frs = s.frs := rfl
@[simp] theorem errAck_mem {seq : Nat} (s : State) : (errAck seq s).mem = s.mem := rfl
@[simp] theorem errAck_rsv {seq : Nat} (s : State) : (errAck seq s).rsv = s.rsv := rfl
@[simp] theorem errAck_csn {seq : Nat} (s : State) : (errAck seq s).csn = s.csn := rfl
@[simp] theorem errAck_est {seq : Nat} (s : State) : (errAck seq s).est = s.est := rfl
@[simp] theorem errAck_edy {seq : Nat} (s : State) : (errAck seq s).edy = s.edy := rfl
@[simp] theorem errAck_wsh {seq : Nat} (s : State) : (errAck seq s).wsh = s.wsh := rfl
@[simp] theorem errAck_hst {seq : Nat} (s : State) : (errAck seq s).hst = s.hst := rfl
@[simp] theorem errAck_own {seq : Nat} (s : State) : (errAck seq s).own = s.own := rfl
@[simp] theorem errAck_bst {seq : Nat} (s : State) : (errAck seq s).bst = s.bst := rfl
@[simp] theorem errAck_hdw {seq : Nat} (s : State) : (errAck seq s).hdw = s.hdw := rfl
@[simp] theorem errAck_lev {seq : Nat} (s : State) : (errAck seq s).lev = s.lev := rfl

@[simp] theorem modCtx_pending {c : Nat} {f : Ctx → Ctx} (s : State) : (modCtx c f s).pending = s.pending := rfl
@[simp] theorem modCtx_now {c : Nat} {f : Ctx → Ctx} (s : State) : (modCtx c f s).now = s.now := rfl
@[simp] theorem modCtx_out {c : Nat} {f : Ctx → Ctx} (s : State) : (modCtx c f s).out = s.out := rfl
@[simp] theorem modCtx_free {c : Nat} {f : Ctx → Ctx} (s : State) : (modCtx c f s).free = s.free := rfl
@[simp] theorem modCtx_full {c : Nat} {f : Ctx → Ctx} (s : State) : (modCtx c f s).full = s.full := rfl
@[simp] theorem modCtx_err {c : Nat} {f : Ctx → Ctx} (s : State) : (modCtx c f s).err = s.err := rfl
@[simp] theorem modCtx_tel {c : Nat} {f : Ctx → Ctx} (s : State) : (modCtx c f s).tel = s.tel := rfl
@[simp] theorem modCtx_regs {c : Nat} {f : Ctx → Ctx} (s : State) : (modCtx c f s).regs = s.regs := rfl
@[simp] theorem modCtx_net {c : Nat} {f : Ctx → Ctx} (s : State) : (modCtx c f s).net = s.net := rfl
@[simp] theorem modCtx_tide {c : Nat} {f : Ctx → Ctx} (s : State) : (modCtx c f s).tide = s.tide := rfl
@[simp] theorem modCtx_fly {c : Nat} {f : Ctx → Ctx} (s : State) : (modCtx c f s).fly = s.fly := rfl
@[simp] theorem modCtx_flyNext {c : Nat} {f : Ctx → Ctx} (s : State) : (modCtx c f s).flyNext = s.flyNext := rfl
@[simp] theorem modCtx_cells {c : Nat} {f : Ctx → Ctx} (s : State) : (modCtx c f s).cells = s.cells := rfl
@[simp] theorem modCtx_chk {c : Nat} {f : Ctx → Ctx} (s : State) : (modCtx c f s).chk = s.chk := rfl
@[simp] theorem modCtx_slc {c : Nat} {f : Ctx → Ctx} (s : State) : (modCtx c f s).slc = s.slc := rfl
@[simp] theorem modCtx_frs {c : Nat} {f : Ctx → Ctx} (s : State) : (modCtx c f s).frs = s.frs := rfl
@[simp] theorem modCtx_mem {c : Nat} {f : Ctx → Ctx} (s : State) : (modCtx c f s).mem = s.mem := rfl
@[simp] theorem modCtx_rsv {c : Nat} {f : Ctx → Ctx} (s : State) : (modCtx c f s).rsv = s.rsv := rfl
@[simp] theorem modCtx_csn {c : Nat} {f : Ctx → Ctx} (s : State) : (modCtx c f s).csn = s.csn := rfl
@[simp] theorem modCtx_est {c : Nat} {f : Ctx → Ctx} (s : State) : (modCtx c f s).est = s.est := rfl
@[simp] theorem modCtx_edy {c : Nat} {f : Ctx → Ctx} (s : State) : (modCtx c f s).edy = s.edy := rfl
@[simp] theorem modCtx_wsh {c : Nat} {f : Ctx → Ctx} (s : State) : (modCtx c f s).wsh = s.wsh := rfl
@[simp] theorem modCtx_hst {c : Nat} {f : Ctx → Ctx} (s : State) : (modCtx c f s).hst = s.hst := rfl
@[simp] theorem modCtx_own {c : Nat} {f : Ctx → Ctx} (s : State) : (modCtx c f s).own = s.own := rfl
@[simp] theorem modCtx_bst {c : Nat} {f : Ctx → Ctx} (s : State) : (modCtx c f s).bst = s.bst := rfl
@[simp] theorem modCtx_hdw {c : Nat} {f : Ctx → Ctx} (s : State) : (modCtx c f s).hdw = s.hdw := rfl
@[simp] theorem modCtx_lev {c : Nat} {f : Ctx → Ctx} (s : State) : (modCtx c f s).lev = s.lev := rfl

@[simp] theorem modPair_pending {q : Nat} {f : Pair → Pair} (s : State) : (modPair q f s).pending = s.pending := rfl
@[simp] theorem modPair_now {q : Nat} {f : Pair → Pair} (s : State) : (modPair q f s).now = s.now := rfl
@[simp] theorem modPair_out {q : Nat} {f : Pair → Pair} (s : State) : (modPair q f s).out = s.out := rfl
@[simp] theorem modPair_free {q : Nat} {f : Pair → Pair} (s : State) : (modPair q f s).free = s.free := rfl
@[simp] theorem modPair_full {q : Nat} {f : Pair → Pair} (s : State) : (modPair q f s).full = s.full := rfl
@[simp] theorem modPair_err {q : Nat} {f : Pair → Pair} (s : State) : (modPair q f s).err = s.err := rfl
@[simp] theorem modPair_tel {q : Nat} {f : Pair → Pair} (s : State) : (modPair q f s).tel = s.tel := rfl
@[simp] theorem modPair_regs {q : Nat} {f : Pair → Pair} (s : State) : (modPair q f s).regs = s.regs := rfl
@[simp] theorem modPair_net {q : Nat} {f : Pair → Pair} (s : State) : (modPair q f s).net = s.net := rfl
@[simp] theorem modPair_tide {q : Nat} {f : Pair → Pair} (s : State) : (modPair q f s).tide = s.tide := rfl
@[simp] theorem modPair_fly {q : Nat} {f : Pair → Pair} (s : State) : (modPair q f s).fly = s.fly := rfl
@[simp] theorem modPair_flyNext {q : Nat} {f : Pair → Pair} (s : State) : (modPair q f s).flyNext = s.flyNext := rfl
@[simp] theorem modPair_cells {q : Nat} {f : Pair → Pair} (s : State) : (modPair q f s).cells = s.cells := rfl
@[simp] theorem modPair_chk {q : Nat} {f : Pair → Pair} (s : State) : (modPair q f s).chk = s.chk := rfl
@[simp] theorem modPair_ctxs {q : Nat} {f : Pair → Pair} (s : State) : (modPair q f s).ctxs = s.ctxs := rfl
@[simp] theorem modPair_frs {q : Nat} {f : Pair → Pair} (s : State) : (modPair q f s).frs = s.frs := rfl
@[simp] theorem modPair_mem {q : Nat} {f : Pair → Pair} (s : State) : (modPair q f s).mem = s.mem := rfl
@[simp] theorem modPair_rsv {q : Nat} {f : Pair → Pair} (s : State) : (modPair q f s).rsv = s.rsv := rfl
@[simp] theorem modPair_csn {q : Nat} {f : Pair → Pair} (s : State) : (modPair q f s).csn = s.csn := rfl
@[simp] theorem modPair_est {q : Nat} {f : Pair → Pair} (s : State) : (modPair q f s).est = s.est := rfl
@[simp] theorem modPair_edy {q : Nat} {f : Pair → Pair} (s : State) : (modPair q f s).edy = s.edy := rfl
@[simp] theorem modPair_wsh {q : Nat} {f : Pair → Pair} (s : State) : (modPair q f s).wsh = s.wsh := rfl
@[simp] theorem modPair_hst {q : Nat} {f : Pair → Pair} (s : State) : (modPair q f s).hst = s.hst := rfl
@[simp] theorem modPair_own {q : Nat} {f : Pair → Pair} (s : State) : (modPair q f s).own = s.own := rfl
@[simp] theorem modPair_bst {q : Nat} {f : Pair → Pair} (s : State) : (modPair q f s).bst = s.bst := rfl
@[simp] theorem modPair_hdw {q : Nat} {f : Pair → Pair} (s : State) : (modPair q f s).hdw = s.hdw := rfl
@[simp] theorem modPair_lev {q : Nat} {f : Pair → Pair} (s : State) : (modPair q f s).lev = s.lev := rfl

@[simp] theorem modCell_pending {l : Nat} {f : Cell → Cell} (s : State) : (modCell l f s).pending = s.pending := rfl
@[simp] theorem modCell_now {l : Nat} {f : Cell → Cell} (s : State) : (modCell l f s).now = s.now := rfl
@[simp] theorem modCell_out {l : Nat} {f : Cell → Cell} (s : State) : (modCell l f s).out = s.out := rfl
@[simp] theorem modCell_free {l : Nat} {f : Cell → Cell} (s : State) : (modCell l f s).free = s.free := rfl
@[simp] theorem modCell_full {l : Nat} {f : Cell → Cell} (s : State) : (modCell l f s).full = s.full := rfl
@[simp] theorem modCell_err {l : Nat} {f : Cell → Cell} (s : State) : (modCell l f s).err = s.err := rfl
@[simp] theorem modCell_tel {l : Nat} {f : Cell → Cell} (s : State) : (modCell l f s).tel = s.tel := rfl
@[simp] theorem modCell_regs {l : Nat} {f : Cell → Cell} (s : State) : (modCell l f s).regs = s.regs := rfl
@[simp] theorem modCell_net {l : Nat} {f : Cell → Cell} (s : State) : (modCell l f s).net = s.net := rfl
@[simp] theorem modCell_tide {l : Nat} {f : Cell → Cell} (s : State) : (modCell l f s).tide = s.tide := rfl
@[simp] theorem modCell_fly {l : Nat} {f : Cell → Cell} (s : State) : (modCell l f s).fly = s.fly := rfl
@[simp] theorem modCell_flyNext {l : Nat} {f : Cell → Cell} (s : State) : (modCell l f s).flyNext = s.flyNext := rfl
@[simp] theorem modCell_chk {l : Nat} {f : Cell → Cell} (s : State) : (modCell l f s).chk = s.chk := rfl
@[simp] theorem modCell_ctxs {l : Nat} {f : Cell → Cell} (s : State) : (modCell l f s).ctxs = s.ctxs := rfl
@[simp] theorem modCell_slc {l : Nat} {f : Cell → Cell} (s : State) : (modCell l f s).slc = s.slc := rfl
@[simp] theorem modCell_frs {l : Nat} {f : Cell → Cell} (s : State) : (modCell l f s).frs = s.frs := rfl
@[simp] theorem modCell_mem {l : Nat} {f : Cell → Cell} (s : State) : (modCell l f s).mem = s.mem := rfl
@[simp] theorem modCell_rsv {l : Nat} {f : Cell → Cell} (s : State) : (modCell l f s).rsv = s.rsv := rfl
@[simp] theorem modCell_csn {l : Nat} {f : Cell → Cell} (s : State) : (modCell l f s).csn = s.csn := rfl
@[simp] theorem modCell_est {l : Nat} {f : Cell → Cell} (s : State) : (modCell l f s).est = s.est := rfl
@[simp] theorem modCell_edy {l : Nat} {f : Cell → Cell} (s : State) : (modCell l f s).edy = s.edy := rfl
@[simp] theorem modCell_wsh {l : Nat} {f : Cell → Cell} (s : State) : (modCell l f s).wsh = s.wsh := rfl
@[simp] theorem modCell_hst {l : Nat} {f : Cell → Cell} (s : State) : (modCell l f s).hst = s.hst := rfl
@[simp] theorem modCell_own {l : Nat} {f : Cell → Cell} (s : State) : (modCell l f s).own = s.own := rfl
@[simp] theorem modCell_bst {l : Nat} {f : Cell → Cell} (s : State) : (modCell l f s).bst = s.bst := rfl
@[simp] theorem modCell_hdw {l : Nat} {f : Cell → Cell} (s : State) : (modCell l f s).hdw = s.hdw := rfl
@[simp] theorem modCell_lev {l : Nat} {f : Cell → Cell} (s : State) : (modCell l f s).lev = s.lev := rfl

@[simp] theorem modEng_pending {e : Nat} {f : CsnEng → CsnEng} (s : State) : (modEng e f s).pending = s.pending := rfl
@[simp] theorem modEng_now {e : Nat} {f : CsnEng → CsnEng} (s : State) : (modEng e f s).now = s.now := rfl
@[simp] theorem modEng_out {e : Nat} {f : CsnEng → CsnEng} (s : State) : (modEng e f s).out = s.out := rfl
@[simp] theorem modEng_free {e : Nat} {f : CsnEng → CsnEng} (s : State) : (modEng e f s).free = s.free := rfl
@[simp] theorem modEng_full {e : Nat} {f : CsnEng → CsnEng} (s : State) : (modEng e f s).full = s.full := rfl
@[simp] theorem modEng_err {e : Nat} {f : CsnEng → CsnEng} (s : State) : (modEng e f s).err = s.err := rfl
@[simp] theorem modEng_tel {e : Nat} {f : CsnEng → CsnEng} (s : State) : (modEng e f s).tel = s.tel := rfl
@[simp] theorem modEng_regs {e : Nat} {f : CsnEng → CsnEng} (s : State) : (modEng e f s).regs = s.regs := rfl
@[simp] theorem modEng_net {e : Nat} {f : CsnEng → CsnEng} (s : State) : (modEng e f s).net = s.net := rfl
@[simp] theorem modEng_tide {e : Nat} {f : CsnEng → CsnEng} (s : State) : (modEng e f s).tide = s.tide := rfl
@[simp] theorem modEng_fly {e : Nat} {f : CsnEng → CsnEng} (s : State) : (modEng e f s).fly = s.fly := rfl
@[simp] theorem modEng_flyNext {e : Nat} {f : CsnEng → CsnEng} (s : State) : (modEng e f s).flyNext = s.flyNext := rfl
@[simp] theorem modEng_cells {e : Nat} {f : CsnEng → CsnEng} (s : State) : (modEng e f s).cells = s.cells := rfl
@[simp] theorem modEng_chk {e : Nat} {f : CsnEng → CsnEng} (s : State) : (modEng e f s).chk = s.chk := rfl
@[simp] theorem modEng_ctxs {e : Nat} {f : CsnEng → CsnEng} (s : State) : (modEng e f s).ctxs = s.ctxs := rfl
@[simp] theorem modEng_slc {e : Nat} {f : CsnEng → CsnEng} (s : State) : (modEng e f s).slc = s.slc := rfl
@[simp] theorem modEng_frs {e : Nat} {f : CsnEng → CsnEng} (s : State) : (modEng e f s).frs = s.frs := rfl
@[simp] theorem modEng_mem {e : Nat} {f : CsnEng → CsnEng} (s : State) : (modEng e f s).mem = s.mem := rfl
@[simp] theorem modEng_rsv {e : Nat} {f : CsnEng → CsnEng} (s : State) : (modEng e f s).rsv = s.rsv := rfl
@[simp] theorem modEng_est {e : Nat} {f : CsnEng → CsnEng} (s : State) : (modEng e f s).est = s.est := rfl
@[simp] theorem modEng_edy {e : Nat} {f : CsnEng → CsnEng} (s : State) : (modEng e f s).edy = s.edy := rfl
@[simp] theorem modEng_wsh {e : Nat} {f : CsnEng → CsnEng} (s : State) : (modEng e f s).wsh = s.wsh := rfl
@[simp] theorem modEng_hst {e : Nat} {f : CsnEng → CsnEng} (s : State) : (modEng e f s).hst = s.hst := rfl
@[simp] theorem modEng_own {e : Nat} {f : CsnEng → CsnEng} (s : State) : (modEng e f s).own = s.own := rfl
@[simp] theorem modEng_bst {e : Nat} {f : CsnEng → CsnEng} (s : State) : (modEng e f s).bst = s.bst := rfl
@[simp] theorem modEng_hdw {e : Nat} {f : CsnEng → CsnEng} (s : State) : (modEng e f s).hdw = s.hdw := rfl
@[simp] theorem modEng_lev {e : Nat} {f : CsnEng → CsnEng} (s : State) : (modEng e f s).lev = s.lev := rfl

@[simp] theorem modStk_pending {n : Nat} {f : Stack → Stack} (s : State) : (modStk n f s).pending = s.pending := rfl
@[simp] theorem modStk_now {n : Nat} {f : Stack → Stack} (s : State) : (modStk n f s).now = s.now := rfl
@[simp] theorem modStk_out {n : Nat} {f : Stack → Stack} (s : State) : (modStk n f s).out = s.out := rfl
@[simp] theorem modStk_free {n : Nat} {f : Stack → Stack} (s : State) : (modStk n f s).free = s.free := rfl
@[simp] theorem modStk_full {n : Nat} {f : Stack → Stack} (s : State) : (modStk n f s).full = s.full := rfl
@[simp] theorem modStk_err {n : Nat} {f : Stack → Stack} (s : State) : (modStk n f s).err = s.err := rfl
@[simp] theorem modStk_tel {n : Nat} {f : Stack → Stack} (s : State) : (modStk n f s).tel = s.tel := rfl
@[simp] theorem modStk_regs {n : Nat} {f : Stack → Stack} (s : State) : (modStk n f s).regs = s.regs := rfl
@[simp] theorem modStk_net {n : Nat} {f : Stack → Stack} (s : State) : (modStk n f s).net = s.net := rfl
@[simp] theorem modStk_tide {n : Nat} {f : Stack → Stack} (s : State) : (modStk n f s).tide = s.tide := rfl
@[simp] theorem modStk_fly {n : Nat} {f : Stack → Stack} (s : State) : (modStk n f s).fly = s.fly := rfl
@[simp] theorem modStk_flyNext {n : Nat} {f : Stack → Stack} (s : State) : (modStk n f s).flyNext = s.flyNext := rfl
@[simp] theorem modStk_cells {n : Nat} {f : Stack → Stack} (s : State) : (modStk n f s).cells = s.cells := rfl
@[simp] theorem modStk_chk {n : Nat} {f : Stack → Stack} (s : State) : (modStk n f s).chk = s.chk := rfl
@[simp] theorem modStk_ctxs {n : Nat} {f : Stack → Stack} (s : State) : (modStk n f s).ctxs = s.ctxs := rfl
@[simp] theorem modStk_slc {n : Nat} {f : Stack → Stack} (s : State) : (modStk n f s).slc = s.slc := rfl
@[simp] theorem modStk_frs {n : Nat} {f : Stack → Stack} (s : State) : (modStk n f s).frs = s.frs := rfl
@[simp] theorem modStk_rsv {n : Nat} {f : Stack → Stack} (s : State) : (modStk n f s).rsv = s.rsv := rfl
@[simp] theorem modStk_csn {n : Nat} {f : Stack → Stack} (s : State) : (modStk n f s).csn = s.csn := rfl
@[simp] theorem modStk_est {n : Nat} {f : Stack → Stack} (s : State) : (modStk n f s).est = s.est := rfl
@[simp] theorem modStk_edy {n : Nat} {f : Stack → Stack} (s : State) : (modStk n f s).edy = s.edy := rfl
@[simp] theorem modStk_wsh {n : Nat} {f : Stack → Stack} (s : State) : (modStk n f s).wsh = s.wsh := rfl
@[simp] theorem modStk_hst {n : Nat} {f : Stack → Stack} (s : State) : (modStk n f s).hst = s.hst := rfl
@[simp] theorem modStk_own {n : Nat} {f : Stack → Stack} (s : State) : (modStk n f s).own = s.own := rfl
@[simp] theorem modStk_bst {n : Nat} {f : Stack → Stack} (s : State) : (modStk n f s).bst = s.bst := rfl
@[simp] theorem modStk_hdw {n : Nat} {f : Stack → Stack} (s : State) : (modStk n f s).hdw = s.hdw := rfl
@[simp] theorem modStk_lev {n : Nat} {f : Stack → Stack} (s : State) : (modStk n f s).lev = s.lev := rfl

@[simp] theorem modFrs_pending {e : Nat} {f : Frs → Frs} (s : State) : (modFrs e f s).pending = s.pending := rfl
@[simp] theorem modFrs_now {e : Nat} {f : Frs → Frs} (s : State) : (modFrs e f s).now = s.now := rfl
@[simp] theorem modFrs_out {e : Nat} {f : Frs → Frs} (s : State) : (modFrs e f s).out = s.out := rfl
@[simp] theorem modFrs_free {e : Nat} {f : Frs → Frs} (s : State) : (modFrs e f s).free = s.free := rfl
@[simp] theorem modFrs_full {e : Nat} {f : Frs → Frs} (s : State) : (modFrs e f s).full = s.full := rfl
@[simp] theorem modFrs_err {e : Nat} {f : Frs → Frs} (s : State) : (modFrs e f s).err = s.err := rfl
@[simp] theorem modFrs_tel {e : Nat} {f : Frs → Frs} (s : State) : (modFrs e f s).tel = s.tel := rfl
@[simp] theorem modFrs_regs {e : Nat} {f : Frs → Frs} (s : State) : (modFrs e f s).regs = s.regs := rfl
@[simp] theorem modFrs_net {e : Nat} {f : Frs → Frs} (s : State) : (modFrs e f s).net = s.net := rfl
@[simp] theorem modFrs_tide {e : Nat} {f : Frs → Frs} (s : State) : (modFrs e f s).tide = s.tide := rfl
@[simp] theorem modFrs_fly {e : Nat} {f : Frs → Frs} (s : State) : (modFrs e f s).fly = s.fly := rfl
@[simp] theorem modFrs_flyNext {e : Nat} {f : Frs → Frs} (s : State) : (modFrs e f s).flyNext = s.flyNext := rfl
@[simp] theorem modFrs_cells {e : Nat} {f : Frs → Frs} (s : State) : (modFrs e f s).cells = s.cells := rfl
@[simp] theorem modFrs_chk {e : Nat} {f : Frs → Frs} (s : State) : (modFrs e f s).chk = s.chk := rfl
@[simp] theorem modFrs_ctxs {e : Nat} {f : Frs → Frs} (s : State) : (modFrs e f s).ctxs = s.ctxs := rfl
@[simp] theorem modFrs_slc {e : Nat} {f : Frs → Frs} (s : State) : (modFrs e f s).slc = s.slc := rfl
@[simp] theorem modFrs_mem {e : Nat} {f : Frs → Frs} (s : State) : (modFrs e f s).mem = s.mem := rfl
@[simp] theorem modFrs_rsv {e : Nat} {f : Frs → Frs} (s : State) : (modFrs e f s).rsv = s.rsv := rfl
@[simp] theorem modFrs_csn {e : Nat} {f : Frs → Frs} (s : State) : (modFrs e f s).csn = s.csn := rfl
@[simp] theorem modFrs_est {e : Nat} {f : Frs → Frs} (s : State) : (modFrs e f s).est = s.est := rfl
@[simp] theorem modFrs_edy {e : Nat} {f : Frs → Frs} (s : State) : (modFrs e f s).edy = s.edy := rfl
@[simp] theorem modFrs_wsh {e : Nat} {f : Frs → Frs} (s : State) : (modFrs e f s).wsh = s.wsh := rfl
@[simp] theorem modFrs_hst {e : Nat} {f : Frs → Frs} (s : State) : (modFrs e f s).hst = s.hst := rfl
@[simp] theorem modFrs_own {e : Nat} {f : Frs → Frs} (s : State) : (modFrs e f s).own = s.own := rfl
@[simp] theorem modFrs_bst {e : Nat} {f : Frs → Frs} (s : State) : (modFrs e f s).bst = s.bst := rfl
@[simp] theorem modFrs_hdw {e : Nat} {f : Frs → Frs} (s : State) : (modFrs e f s).hdw = s.hdw := rfl
@[simp] theorem modFrs_lev {e : Nat} {f : Frs → Frs} (s : State) : (modFrs e f s).lev = s.lev := rfl

@[simp] theorem modEst_pending {e : Nat} {f : EstEng → EstEng} (s : State) : (modEst e f s).pending = s.pending := rfl
@[simp] theorem modEst_now {e : Nat} {f : EstEng → EstEng} (s : State) : (modEst e f s).now = s.now := rfl
@[simp] theorem modEst_out {e : Nat} {f : EstEng → EstEng} (s : State) : (modEst e f s).out = s.out := rfl
@[simp] theorem modEst_free {e : Nat} {f : EstEng → EstEng} (s : State) : (modEst e f s).free = s.free := rfl
@[simp] theorem modEst_full {e : Nat} {f : EstEng → EstEng} (s : State) : (modEst e f s).full = s.full := rfl
@[simp] theorem modEst_err {e : Nat} {f : EstEng → EstEng} (s : State) : (modEst e f s).err = s.err := rfl
@[simp] theorem modEst_tel {e : Nat} {f : EstEng → EstEng} (s : State) : (modEst e f s).tel = s.tel := rfl
@[simp] theorem modEst_regs {e : Nat} {f : EstEng → EstEng} (s : State) : (modEst e f s).regs = s.regs := rfl
@[simp] theorem modEst_net {e : Nat} {f : EstEng → EstEng} (s : State) : (modEst e f s).net = s.net := rfl
@[simp] theorem modEst_tide {e : Nat} {f : EstEng → EstEng} (s : State) : (modEst e f s).tide = s.tide := rfl
@[simp] theorem modEst_fly {e : Nat} {f : EstEng → EstEng} (s : State) : (modEst e f s).fly = s.fly := rfl
@[simp] theorem modEst_flyNext {e : Nat} {f : EstEng → EstEng} (s : State) : (modEst e f s).flyNext = s.flyNext := rfl
@[simp] theorem modEst_cells {e : Nat} {f : EstEng → EstEng} (s : State) : (modEst e f s).cells = s.cells := rfl
@[simp] theorem modEst_chk {e : Nat} {f : EstEng → EstEng} (s : State) : (modEst e f s).chk = s.chk := rfl
@[simp] theorem modEst_ctxs {e : Nat} {f : EstEng → EstEng} (s : State) : (modEst e f s).ctxs = s.ctxs := rfl
@[simp] theorem modEst_slc {e : Nat} {f : EstEng → EstEng} (s : State) : (modEst e f s).slc = s.slc := rfl
@[simp] theorem modEst_frs {e : Nat} {f : EstEng → EstEng} (s : State) : (modEst e f s).frs = s.frs := rfl
@[simp] theorem modEst_mem {e : Nat} {f : EstEng → EstEng} (s : State) : (modEst e f s).mem = s.mem := rfl
@[simp] theorem modEst_rsv {e : Nat} {f : EstEng → EstEng} (s : State) : (modEst e f s).rsv = s.rsv := rfl
@[simp] theorem modEst_csn {e : Nat} {f : EstEng → EstEng} (s : State) : (modEst e f s).csn = s.csn := rfl
@[simp] theorem modEst_edy {e : Nat} {f : EstEng → EstEng} (s : State) : (modEst e f s).edy = s.edy := rfl
@[simp] theorem modEst_wsh {e : Nat} {f : EstEng → EstEng} (s : State) : (modEst e f s).wsh = s.wsh := rfl
@[simp] theorem modEst_hst {e : Nat} {f : EstEng → EstEng} (s : State) : (modEst e f s).hst = s.hst := rfl
@[simp] theorem modEst_own {e : Nat} {f : EstEng → EstEng} (s : State) : (modEst e f s).own = s.own := rfl
@[simp] theorem modEst_bst {e : Nat} {f : EstEng → EstEng} (s : State) : (modEst e f s).bst = s.bst := rfl
@[simp] theorem modEst_hdw {e : Nat} {f : EstEng → EstEng} (s : State) : (modEst e f s).hdw = s.hdw := rfl
@[simp] theorem modEst_lev {e : Nat} {f : EstEng → EstEng} (s : State) : (modEst e f s).lev = s.lev := rfl

@[simp] theorem modEdy_pending {e : Nat} {f : EdyEng → EdyEng} (s : State) : (modEdy e f s).pending = s.pending := rfl
@[simp] theorem modEdy_now {e : Nat} {f : EdyEng → EdyEng} (s : State) : (modEdy e f s).now = s.now := rfl
@[simp] theorem modEdy_out {e : Nat} {f : EdyEng → EdyEng} (s : State) : (modEdy e f s).out = s.out := rfl
@[simp] theorem modEdy_free {e : Nat} {f : EdyEng → EdyEng} (s : State) : (modEdy e f s).free = s.free := rfl
@[simp] theorem modEdy_full {e : Nat} {f : EdyEng → EdyEng} (s : State) : (modEdy e f s).full = s.full := rfl
@[simp] theorem modEdy_err {e : Nat} {f : EdyEng → EdyEng} (s : State) : (modEdy e f s).err = s.err := rfl
@[simp] theorem modEdy_tel {e : Nat} {f : EdyEng → EdyEng} (s : State) : (modEdy e f s).tel = s.tel := rfl
@[simp] theorem modEdy_regs {e : Nat} {f : EdyEng → EdyEng} (s : State) : (modEdy e f s).regs = s.regs := rfl
@[simp] theorem modEdy_net {e : Nat} {f : EdyEng → EdyEng} (s : State) : (modEdy e f s).net = s.net := rfl
@[simp] theorem modEdy_tide {e : Nat} {f : EdyEng → EdyEng} (s : State) : (modEdy e f s).tide = s.tide := rfl
@[simp] theorem modEdy_fly {e : Nat} {f : EdyEng → EdyEng} (s : State) : (modEdy e f s).fly = s.fly := rfl
@[simp] theorem modEdy_flyNext {e : Nat} {f : EdyEng → EdyEng} (s : State) : (modEdy e f s).flyNext = s.flyNext := rfl
@[simp] theorem modEdy_cells {e : Nat} {f : EdyEng → EdyEng} (s : State) : (modEdy e f s).cells = s.cells := rfl
@[simp] theorem modEdy_chk {e : Nat} {f : EdyEng → EdyEng} (s : State) : (modEdy e f s).chk = s.chk := rfl
@[simp] theorem modEdy_ctxs {e : Nat} {f : EdyEng → EdyEng} (s : State) : (modEdy e f s).ctxs = s.ctxs := rfl
@[simp] theorem modEdy_slc {e : Nat} {f : EdyEng → EdyEng} (s : State) : (modEdy e f s).slc = s.slc := rfl
@[simp] theorem modEdy_frs {e : Nat} {f : EdyEng → EdyEng} (s : State) : (modEdy e f s).frs = s.frs := rfl
@[simp] theorem modEdy_mem {e : Nat} {f : EdyEng → EdyEng} (s : State) : (modEdy e f s).mem = s.mem := rfl
@[simp] theorem modEdy_rsv {e : Nat} {f : EdyEng → EdyEng} (s : State) : (modEdy e f s).rsv = s.rsv := rfl
@[simp] theorem modEdy_csn {e : Nat} {f : EdyEng → EdyEng} (s : State) : (modEdy e f s).csn = s.csn := rfl
@[simp] theorem modEdy_est {e : Nat} {f : EdyEng → EdyEng} (s : State) : (modEdy e f s).est = s.est := rfl
@[simp] theorem modEdy_wsh {e : Nat} {f : EdyEng → EdyEng} (s : State) : (modEdy e f s).wsh = s.wsh := rfl
@[simp] theorem modEdy_hst {e : Nat} {f : EdyEng → EdyEng} (s : State) : (modEdy e f s).hst = s.hst := rfl
@[simp] theorem modEdy_own {e : Nat} {f : EdyEng → EdyEng} (s : State) : (modEdy e f s).own = s.own := rfl
@[simp] theorem modEdy_bst {e : Nat} {f : EdyEng → EdyEng} (s : State) : (modEdy e f s).bst = s.bst := rfl
@[simp] theorem modEdy_hdw {e : Nat} {f : EdyEng → EdyEng} (s : State) : (modEdy e f s).hdw = s.hdw := rfl
@[simp] theorem modEdy_lev {e : Nat} {f : EdyEng → EdyEng} (s : State) : (modEdy e f s).lev = s.lev := rfl

@[simp] theorem modNet_pending {f : Net → Net} (s : State) : (modNet f s).pending = s.pending := rfl
@[simp] theorem modNet_now {f : Net → Net} (s : State) : (modNet f s).now = s.now := rfl
@[simp] theorem modNet_out {f : Net → Net} (s : State) : (modNet f s).out = s.out := rfl
@[simp] theorem modNet_free {f : Net → Net} (s : State) : (modNet f s).free = s.free := rfl
@[simp] theorem modNet_full {f : Net → Net} (s : State) : (modNet f s).full = s.full := rfl
@[simp] theorem modNet_err {f : Net → Net} (s : State) : (modNet f s).err = s.err := rfl
@[simp] theorem modNet_tel {f : Net → Net} (s : State) : (modNet f s).tel = s.tel := rfl
@[simp] theorem modNet_regs {f : Net → Net} (s : State) : (modNet f s).regs = s.regs := rfl
@[simp] theorem modNet_tide {f : Net → Net} (s : State) : (modNet f s).tide = s.tide := rfl
@[simp] theorem modNet_fly {f : Net → Net} (s : State) : (modNet f s).fly = s.fly := rfl
@[simp] theorem modNet_flyNext {f : Net → Net} (s : State) : (modNet f s).flyNext = s.flyNext := rfl
@[simp] theorem modNet_cells {f : Net → Net} (s : State) : (modNet f s).cells = s.cells := rfl
@[simp] theorem modNet_chk {f : Net → Net} (s : State) : (modNet f s).chk = s.chk := rfl
@[simp] theorem modNet_ctxs {f : Net → Net} (s : State) : (modNet f s).ctxs = s.ctxs := rfl
@[simp] theorem modNet_slc {f : Net → Net} (s : State) : (modNet f s).slc = s.slc := rfl
@[simp] theorem modNet_frs {f : Net → Net} (s : State) : (modNet f s).frs = s.frs := rfl
@[simp] theorem modNet_mem {f : Net → Net} (s : State) : (modNet f s).mem = s.mem := rfl
@[simp] theorem modNet_rsv {f : Net → Net} (s : State) : (modNet f s).rsv = s.rsv := rfl
@[simp] theorem modNet_csn {f : Net → Net} (s : State) : (modNet f s).csn = s.csn := rfl
@[simp] theorem modNet_est {f : Net → Net} (s : State) : (modNet f s).est = s.est := rfl
@[simp] theorem modNet_edy {f : Net → Net} (s : State) : (modNet f s).edy = s.edy := rfl
@[simp] theorem modNet_wsh {f : Net → Net} (s : State) : (modNet f s).wsh = s.wsh := rfl
@[simp] theorem modNet_hst {f : Net → Net} (s : State) : (modNet f s).hst = s.hst := rfl
@[simp] theorem modNet_own {f : Net → Net} (s : State) : (modNet f s).own = s.own := rfl
@[simp] theorem modNet_bst {f : Net → Net} (s : State) : (modNet f s).bst = s.bst := rfl
@[simp] theorem modNet_hdw {f : Net → Net} (s : State) : (modNet f s).hdw = s.hdw := rfl
@[simp] theorem modNet_lev {f : Net → Net} (s : State) : (modNet f s).lev = s.lev := rfl

@[simp] theorem modTide_pending {f : Tide → Tide} (s : State) : (modTide f s).pending = s.pending := rfl
@[simp] theorem modTide_now {f : Tide → Tide} (s : State) : (modTide f s).now = s.now := rfl
@[simp] theorem modTide_out {f : Tide → Tide} (s : State) : (modTide f s).out = s.out := rfl
@[simp] theorem modTide_free {f : Tide → Tide} (s : State) : (modTide f s).free = s.free := rfl
@[simp] theorem modTide_full {f : Tide → Tide} (s : State) : (modTide f s).full = s.full := rfl
@[simp] theorem modTide_err {f : Tide → Tide} (s : State) : (modTide f s).err = s.err := rfl
@[simp] theorem modTide_tel {f : Tide → Tide} (s : State) : (modTide f s).tel = s.tel := rfl
@[simp] theorem modTide_regs {f : Tide → Tide} (s : State) : (modTide f s).regs = s.regs := rfl
@[simp] theorem modTide_net {f : Tide → Tide} (s : State) : (modTide f s).net = s.net := rfl
@[simp] theorem modTide_fly {f : Tide → Tide} (s : State) : (modTide f s).fly = s.fly := rfl
@[simp] theorem modTide_flyNext {f : Tide → Tide} (s : State) : (modTide f s).flyNext = s.flyNext := rfl
@[simp] theorem modTide_cells {f : Tide → Tide} (s : State) : (modTide f s).cells = s.cells := rfl
@[simp] theorem modTide_chk {f : Tide → Tide} (s : State) : (modTide f s).chk = s.chk := rfl
@[simp] theorem modTide_ctxs {f : Tide → Tide} (s : State) : (modTide f s).ctxs = s.ctxs := rfl
@[simp] theorem modTide_slc {f : Tide → Tide} (s : State) : (modTide f s).slc = s.slc := rfl
@[simp] theorem modTide_frs {f : Tide → Tide} (s : State) : (modTide f s).frs = s.frs := rfl
@[simp] theorem modTide_mem {f : Tide → Tide} (s : State) : (modTide f s).mem = s.mem := rfl
@[simp] theorem modTide_rsv {f : Tide → Tide} (s : State) : (modTide f s).rsv = s.rsv := rfl
@[simp] theorem modTide_csn {f : Tide → Tide} (s : State) : (modTide f s).csn = s.csn := rfl
@[simp] theorem modTide_est {f : Tide → Tide} (s : State) : (modTide f s).est = s.est := rfl
@[simp] theorem modTide_edy {f : Tide → Tide} (s : State) : (modTide f s).edy = s.edy := rfl
@[simp] theorem modTide_wsh {f : Tide → Tide} (s : State) : (modTide f s).wsh = s.wsh := rfl
@[simp] theorem modTide_hst {f : Tide → Tide} (s : State) : (modTide f s).hst = s.hst := rfl
@[simp] theorem modTide_own {f : Tide → Tide} (s : State) : (modTide f s).own = s.own := rfl
@[simp] theorem modTide_bst {f : Tide → Tide} (s : State) : (modTide f s).bst = s.bst := rfl
@[simp] theorem modTide_hdw {f : Tide → Tide} (s : State) : (modTide f s).hdw = s.hdw := rfl
@[simp] theorem modTide_lev {f : Tide → Tide} (s : State) : (modTide f s).lev = s.lev := rfl

@[simp] theorem modBst_pending {f : Bst → Bst} (s : State) : (modBst f s).pending = s.pending := rfl
@[simp] theorem modBst_now {f : Bst → Bst} (s : State) : (modBst f s).now = s.now := rfl
@[simp] theorem modBst_out {f : Bst → Bst} (s : State) : (modBst f s).out = s.out := rfl
@[simp] theorem modBst_free {f : Bst → Bst} (s : State) : (modBst f s).free = s.free := rfl
@[simp] theorem modBst_full {f : Bst → Bst} (s : State) : (modBst f s).full = s.full := rfl
@[simp] theorem modBst_err {f : Bst → Bst} (s : State) : (modBst f s).err = s.err := rfl
@[simp] theorem modBst_tel {f : Bst → Bst} (s : State) : (modBst f s).tel = s.tel := rfl
@[simp] theorem modBst_regs {f : Bst → Bst} (s : State) : (modBst f s).regs = s.regs := rfl
@[simp] theorem modBst_net {f : Bst → Bst} (s : State) : (modBst f s).net = s.net := rfl
@[simp] theorem modBst_tide {f : Bst → Bst} (s : State) : (modBst f s).tide = s.tide := rfl
@[simp] theorem modBst_fly {f : Bst → Bst} (s : State) : (modBst f s).fly = s.fly := rfl
@[simp] theorem modBst_flyNext {f : Bst → Bst} (s : State) : (modBst f s).flyNext = s.flyNext := rfl
@[simp] theorem modBst_cells {f : Bst → Bst} (s : State) : (modBst f s).cells = s.cells := rfl
@[simp] theorem modBst_chk {f : Bst → Bst} (s : State) : (modBst f s).chk = s.chk := rfl
@[simp] theorem modBst_ctxs {f : Bst → Bst} (s : State) : (modBst f s).ctxs = s.ctxs := rfl
@[simp] theorem modBst_slc {f : Bst → Bst} (s : State) : (modBst f s).slc = s.slc := rfl
@[simp] theorem modBst_frs {f : Bst → Bst} (s : State) : (modBst f s).frs = s.frs := rfl
@[simp] theorem modBst_mem {f : Bst → Bst} (s : State) : (modBst f s).mem = s.mem := rfl
@[simp] theorem modBst_rsv {f : Bst → Bst} (s : State) : (modBst f s).rsv = s.rsv := rfl
@[simp] theorem modBst_csn {f : Bst → Bst} (s : State) : (modBst f s).csn = s.csn := rfl
@[simp] theorem modBst_est {f : Bst → Bst} (s : State) : (modBst f s).est = s.est := rfl
@[simp] theorem modBst_edy {f : Bst → Bst} (s : State) : (modBst f s).edy = s.edy := rfl
@[simp] theorem modBst_wsh {f : Bst → Bst} (s : State) : (modBst f s).wsh = s.wsh := rfl
@[simp] theorem modBst_hst {f : Bst → Bst} (s : State) : (modBst f s).hst = s.hst := rfl
@[simp] theorem modBst_own {f : Bst → Bst} (s : State) : (modBst f s).own = s.own := rfl
@[simp] theorem modBst_hdw {f : Bst → Bst} (s : State) : (modBst f s).hdw = s.hdw := rfl
@[simp] theorem modBst_lev {f : Bst → Bst} (s : State) : (modBst f s).lev = s.lev := rfl

@[simp] theorem modHdw_pending {f : Hdw → Hdw} (s : State) : (modHdw f s).pending = s.pending := rfl
@[simp] theorem modHdw_now {f : Hdw → Hdw} (s : State) : (modHdw f s).now = s.now := rfl
@[simp] theorem modHdw_out {f : Hdw → Hdw} (s : State) : (modHdw f s).out = s.out := rfl
@[simp] theorem modHdw_free {f : Hdw → Hdw} (s : State) : (modHdw f s).free = s.free := rfl
@[simp] theorem modHdw_full {f : Hdw → Hdw} (s : State) : (modHdw f s).full = s.full := rfl
@[simp] theorem modHdw_err {f : Hdw → Hdw} (s : State) : (modHdw f s).err = s.err := rfl
@[simp] theorem modHdw_tel {f : Hdw → Hdw} (s : State) : (modHdw f s).tel = s.tel := rfl
@[simp] theorem modHdw_regs {f : Hdw → Hdw} (s : State) : (modHdw f s).regs = s.regs := rfl
@[simp] theorem modHdw_net {f : Hdw → Hdw} (s : State) : (modHdw f s).net = s.net := rfl
@[simp] theorem modHdw_tide {f : Hdw → Hdw} (s : State) : (modHdw f s).tide = s.tide := rfl
@[simp] theorem modHdw_fly {f : Hdw → Hdw} (s : State) : (modHdw f s).fly = s.fly := rfl
@[simp] theorem modHdw_flyNext {f : Hdw → Hdw} (s : State) : (modHdw f s).flyNext = s.flyNext := rfl
@[simp] theorem modHdw_cells {f : Hdw → Hdw} (s : State) : (modHdw f s).cells = s.cells := rfl
@[simp] theorem modHdw_chk {f : Hdw → Hdw} (s : State) : (modHdw f s).chk = s.chk := rfl
@[simp] theorem modHdw_ctxs {f : Hdw → Hdw} (s : State) : (modHdw f s).ctxs = s.ctxs := rfl
@[simp] theorem modHdw_slc {f : Hdw → Hdw} (s : State) : (modHdw f s).slc = s.slc := rfl
@[simp] theorem modHdw_frs {f : Hdw → Hdw} (s : State) : (modHdw f s).frs = s.frs := rfl
@[simp] theorem modHdw_mem {f : Hdw → Hdw} (s : State) : (modHdw f s).mem = s.mem := rfl
@[simp] theorem modHdw_rsv {f : Hdw → Hdw} (s : State) : (modHdw f s).rsv = s.rsv := rfl
@[simp] theorem modHdw_csn {f : Hdw → Hdw} (s : State) : (modHdw f s).csn = s.csn := rfl
@[simp] theorem modHdw_est {f : Hdw → Hdw} (s : State) : (modHdw f s).est = s.est := rfl
@[simp] theorem modHdw_edy {f : Hdw → Hdw} (s : State) : (modHdw f s).edy = s.edy := rfl
@[simp] theorem modHdw_wsh {f : Hdw → Hdw} (s : State) : (modHdw f s).wsh = s.wsh := rfl
@[simp] theorem modHdw_hst {f : Hdw → Hdw} (s : State) : (modHdw f s).hst = s.hst := rfl
@[simp] theorem modHdw_own {f : Hdw → Hdw} (s : State) : (modHdw f s).own = s.own := rfl
@[simp] theorem modHdw_bst {f : Hdw → Hdw} (s : State) : (modHdw f s).bst = s.bst := rfl
@[simp] theorem modHdw_lev {f : Hdw → Hdw} (s : State) : (modHdw f s).lev = s.lev := rfl

@[simp] theorem modLev_pending {f : Lev → Lev} (s : State) : (modLev f s).pending = s.pending := rfl
@[simp] theorem modLev_now {f : Lev → Lev} (s : State) : (modLev f s).now = s.now := rfl
@[simp] theorem modLev_out {f : Lev → Lev} (s : State) : (modLev f s).out = s.out := rfl
@[simp] theorem modLev_free {f : Lev → Lev} (s : State) : (modLev f s).free = s.free := rfl
@[simp] theorem modLev_full {f : Lev → Lev} (s : State) : (modLev f s).full = s.full := rfl
@[simp] theorem modLev_err {f : Lev → Lev} (s : State) : (modLev f s).err = s.err := rfl
@[simp] theorem modLev_tel {f : Lev → Lev} (s : State) : (modLev f s).tel = s.tel := rfl
@[simp] theorem modLev_regs {f : Lev → Lev} (s : State) : (modLev f s).regs = s.regs := rfl
@[simp] theorem modLev_net {f : Lev → Lev} (s : State) : (modLev f s).net = s.net := rfl
@[simp] theorem modLev_tide {f : Lev → Lev} (s : State) : (modLev f s).tide = s.tide := rfl
@[simp] theorem modLev_fly {f : Lev → Lev} (s : State) : (modLev f s).fly = s.fly := rfl
@[simp] theorem modLev_flyNext {f : Lev → Lev} (s : State) : (modLev f s).flyNext = s.flyNext := rfl
@[simp] theorem modLev_cells {f : Lev → Lev} (s : State) : (modLev f s).cells = s.cells := rfl
@[simp] theorem modLev_chk {f : Lev → Lev} (s : State) : (modLev f s).chk = s.chk := rfl
@[simp] theorem modLev_ctxs {f : Lev → Lev} (s : State) : (modLev f s).ctxs = s.ctxs := rfl
@[simp] theorem modLev_slc {f : Lev → Lev} (s : State) : (modLev f s).slc = s.slc := rfl
@[simp] theorem modLev_frs {f : Lev → Lev} (s : State) : (modLev f s).frs = s.frs := rfl
@[simp] theorem modLev_mem {f : Lev → Lev} (s : State) : (modLev f s).mem = s.mem := rfl
@[simp] theorem modLev_rsv {f : Lev → Lev} (s : State) : (modLev f s).rsv = s.rsv := rfl
@[simp] theorem modLev_csn {f : Lev → Lev} (s : State) : (modLev f s).csn = s.csn := rfl
@[simp] theorem modLev_est {f : Lev → Lev} (s : State) : (modLev f s).est = s.est := rfl
@[simp] theorem modLev_edy {f : Lev → Lev} (s : State) : (modLev f s).edy = s.edy := rfl
@[simp] theorem modLev_wsh {f : Lev → Lev} (s : State) : (modLev f s).wsh = s.wsh := rfl
@[simp] theorem modLev_hst {f : Lev → Lev} (s : State) : (modLev f s).hst = s.hst := rfl
@[simp] theorem modLev_own {f : Lev → Lev} (s : State) : (modLev f s).own = s.own := rfl
@[simp] theorem modLev_bst {f : Lev → Lev} (s : State) : (modLev f s).bst = s.bst := rfl
@[simp] theorem modLev_hdw {f : Lev → Lev} (s : State) : (modLev f s).hdw = s.hdw := rfl

@[simp] theorem modOwn_pending {f : Own → Own} (s : State) : (modOwn f s).pending = s.pending := rfl
@[simp] theorem modOwn_now {f : Own → Own} (s : State) : (modOwn f s).now = s.now := rfl
@[simp] theorem modOwn_out {f : Own → Own} (s : State) : (modOwn f s).out = s.out := rfl
@[simp] theorem modOwn_free {f : Own → Own} (s : State) : (modOwn f s).free = s.free := rfl
@[simp] theorem modOwn_full {f : Own → Own} (s : State) : (modOwn f s).full = s.full := rfl
@[simp] theorem modOwn_err {f : Own → Own} (s : State) : (modOwn f s).err = s.err := rfl
@[simp] theorem modOwn_tel {f : Own → Own} (s : State) : (modOwn f s).tel = s.tel := rfl
@[simp] theorem modOwn_regs {f : Own → Own} (s : State) : (modOwn f s).regs = s.regs := rfl
@[simp] theorem modOwn_net {f : Own → Own} (s : State) : (modOwn f s).net = s.net := rfl
@[simp] theorem modOwn_tide {f : Own → Own} (s : State) : (modOwn f s).tide = s.tide := rfl
@[simp] theorem modOwn_fly {f : Own → Own} (s : State) : (modOwn f s).fly = s.fly := rfl
@[simp] theorem modOwn_flyNext {f : Own → Own} (s : State) : (modOwn f s).flyNext = s.flyNext := rfl
@[simp] theorem modOwn_cells {f : Own → Own} (s : State) : (modOwn f s).cells = s.cells := rfl
@[simp] theorem modOwn_chk {f : Own → Own} (s : State) : (modOwn f s).chk = s.chk := rfl
@[simp] theorem modOwn_ctxs {f : Own → Own} (s : State) : (modOwn f s).ctxs = s.ctxs := rfl
@[simp] theorem modOwn_slc {f : Own → Own} (s : State) : (modOwn f s).slc = s.slc := rfl
@[simp] theorem modOwn_frs {f : Own → Own} (s : State) : (modOwn f s).frs = s.frs := rfl
@[simp] theorem modOwn_mem {f : Own → Own} (s : State) : (modOwn f s).mem = s.mem := rfl
@[simp] theorem modOwn_rsv {f : Own → Own} (s : State) : (modOwn f s).rsv = s.rsv := rfl
@[simp] theorem modOwn_csn {f : Own → Own} (s : State) : (modOwn f s).csn = s.csn := rfl
@[simp] theorem modOwn_est {f : Own → Own} (s : State) : (modOwn f s).est = s.est := rfl
@[simp] theorem modOwn_edy {f : Own → Own} (s : State) : (modOwn f s).edy = s.edy := rfl
@[simp] theorem modOwn_wsh {f : Own → Own} (s : State) : (modOwn f s).wsh = s.wsh := rfl
@[simp] theorem modOwn_hst {f : Own → Own} (s : State) : (modOwn f s).hst = s.hst := rfl
@[simp] theorem modOwn_bst {f : Own → Own} (s : State) : (modOwn f s).bst = s.bst := rfl
@[simp] theorem modOwn_hdw {f : Own → Own} (s : State) : (modOwn f s).hdw = s.hdw := rfl
@[simp] theorem modOwn_lev {f : Own → Own} (s : State) : (modOwn f s).lev = s.lev := rfl

@[simp] theorem modHst_pending {f : Hst → Hst} (s : State) : (modHst f s).pending = s.pending := rfl
@[simp] theorem modHst_now {f : Hst → Hst} (s : State) : (modHst f s).now = s.now := rfl
@[simp] theorem modHst_out {f : Hst → Hst} (s : State) : (modHst f s).out = s.out := rfl
@[simp] theorem modHst_free {f : Hst → Hst} (s : State) : (modHst f s).free = s.free := rfl
@[simp] theorem modHst_full {f : Hst → Hst} (s : State) : (modHst f s).full = s.full := rfl
@[simp] theorem modHst_err {f : Hst → Hst} (s : State) : (modHst f s).err = s.err := rfl
@[simp] theorem modHst_tel {f : Hst → Hst} (s : State) : (modHst f s).tel = s.tel := rfl
@[simp] theorem modHst_regs {f : Hst → Hst} (s : State) : (modHst f s).regs = s.regs := rfl
@[simp] theorem modHst_net {f : Hst → Hst} (s : State) : (modHst f s).net = s.net := rfl
@[simp] theorem modHst_tide {f : Hst → Hst} (s : State) : (modHst f s).tide = s.tide := rfl
@[simp] theorem modHst_fly {f : Hst → Hst} (s : State) : (modHst f s).fly = s.fly := rfl
@[simp] theorem modHst_flyNext {f : Hst → Hst} (s : State) : (modHst f s).flyNext = s.flyNext := rfl
@[simp] theorem modHst_cells {f : Hst → Hst} (s : State) : (modHst f s).cells = s.cells := rfl
@[simp] theorem modHst_chk {f : Hst → Hst} (s : State) : (modHst f s).chk = s.chk := rfl
@[simp] theorem modHst_ctxs {f : Hst → Hst} (s : State) : (modHst f s).ctxs = s.ctxs := rfl
@[simp] theorem modHst_slc {f : Hst → Hst} (s : State) : (modHst f s).slc = s.slc := rfl
@[simp] theorem modHst_frs {f : Hst → Hst} (s : State) : (modHst f s).frs = s.frs := rfl
@[simp] theorem modHst_mem {f : Hst → Hst} (s : State) : (modHst f s).mem = s.mem := rfl
@[simp] theorem modHst_rsv {f : Hst → Hst} (s : State) : (modHst f s).rsv = s.rsv := rfl
@[simp] theorem modHst_csn {f : Hst → Hst} (s : State) : (modHst f s).csn = s.csn := rfl
@[simp] theorem modHst_est {f : Hst → Hst} (s : State) : (modHst f s).est = s.est := rfl
@[simp] theorem modHst_edy {f : Hst → Hst} (s : State) : (modHst f s).edy = s.edy := rfl
@[simp] theorem modHst_wsh {f : Hst → Hst} (s : State) : (modHst f s).wsh = s.wsh := rfl
@[simp] theorem modHst_own {f : Hst → Hst} (s : State) : (modHst f s).own = s.own := rfl
@[simp] theorem modHst_bst {f : Hst → Hst} (s : State) : (modHst f s).bst = s.bst := rfl
@[simp] theorem modHst_hdw {f : Hst → Hst} (s : State) : (modHst f s).hdw = s.hdw := rfl
@[simp] theorem modHst_lev {f : Hst → Hst} (s : State) : (modHst f s).lev = s.lev := rfl

@[simp] theorem modChk_pending {f : Chk → Chk} (s : State) : (modChk f s).pending = s.pending := rfl
@[simp] theorem modChk_now {f : Chk → Chk} (s : State) : (modChk f s).now = s.now := rfl
@[simp] theorem modChk_out {f : Chk → Chk} (s : State) : (modChk f s).out = s.out := rfl
@[simp] theorem modChk_free {f : Chk → Chk} (s : State) : (modChk f s).free = s.free := rfl
@[simp] theorem modChk_full {f : Chk → Chk} (s : State) : (modChk f s).full = s.full := rfl
@[simp] theorem modChk_err {f : Chk → Chk} (s : State) : (modChk f s).err = s.err := rfl
@[simp] theorem modChk_tel {f : Chk → Chk} (s : State) : (modChk f s).tel = s.tel := rfl
@[simp] theorem modChk_regs {f : Chk → Chk} (s : State) : (modChk f s).regs = s.regs := rfl
@[simp] theorem modChk_net {f : Chk → Chk} (s : State) : (modChk f s).net = s.net := rfl
@[simp] theorem modChk_tide {f : Chk → Chk} (s : State) : (modChk f s).tide = s.tide := rfl
@[simp] theorem modChk_fly {f : Chk → Chk} (s : State) : (modChk f s).fly = s.fly := rfl
@[simp] theorem modChk_flyNext {f : Chk → Chk} (s : State) : (modChk f s).flyNext = s.flyNext := rfl
@[simp] theorem modChk_cells {f : Chk → Chk} (s : State) : (modChk f s).cells = s.cells := rfl
@[simp] theorem modChk_ctxs {f : Chk → Chk} (s : State) : (modChk f s).ctxs = s.ctxs := rfl
@[simp] theorem modChk_slc {f : Chk → Chk} (s : State) : (modChk f s).slc = s.slc := rfl
@[simp] theorem modChk_frs {f : Chk → Chk} (s : State) : (modChk f s).frs = s.frs := rfl
@[simp] theorem modChk_mem {f : Chk → Chk} (s : State) : (modChk f s).mem = s.mem := rfl
@[simp] theorem modChk_rsv {f : Chk → Chk} (s : State) : (modChk f s).rsv = s.rsv := rfl
@[simp] theorem modChk_csn {f : Chk → Chk} (s : State) : (modChk f s).csn = s.csn := rfl
@[simp] theorem modChk_est {f : Chk → Chk} (s : State) : (modChk f s).est = s.est := rfl
@[simp] theorem modChk_edy {f : Chk → Chk} (s : State) : (modChk f s).edy = s.edy := rfl
@[simp] theorem modChk_wsh {f : Chk → Chk} (s : State) : (modChk f s).wsh = s.wsh := rfl
@[simp] theorem modChk_hst {f : Chk → Chk} (s : State) : (modChk f s).hst = s.hst := rfl
@[simp] theorem modChk_own {f : Chk → Chk} (s : State) : (modChk f s).own = s.own := rfl
@[simp] theorem modChk_bst {f : Chk → Chk} (s : State) : (modChk f s).bst = s.bst := rfl
@[simp] theorem modChk_hdw {f : Chk → Chk} (s : State) : (modChk f s).hdw = s.hdw := rfl
@[simp] theorem modChk_lev {f : Chk → Chk} (s : State) : (modChk f s).lev = s.lev := rfl

@[simp] theorem modWsh_pending {f : Wsh → Wsh} (s : State) : (modWsh f s).pending = s.pending := rfl
@[simp] theorem modWsh_now {f : Wsh → Wsh} (s : State) : (modWsh f s).now = s.now := rfl
@[simp] theorem modWsh_out {f : Wsh → Wsh} (s : State) : (modWsh f s).out = s.out := rfl
@[simp] theorem modWsh_free {f : Wsh → Wsh} (s : State) : (modWsh f s).free = s.free := rfl
@[simp] theorem modWsh_full {f : Wsh → Wsh} (s : State) : (modWsh f s).full = s.full := rfl
@[simp] theorem modWsh_err {f : Wsh → Wsh} (s : State) : (modWsh f s).err = s.err := rfl
@[simp] theorem modWsh_tel {f : Wsh → Wsh} (s : State) : (modWsh f s).tel = s.tel := rfl
@[simp] theorem modWsh_regs {f : Wsh → Wsh} (s : State) : (modWsh f s).regs = s.regs := rfl
@[simp] theorem modWsh_net {f : Wsh → Wsh} (s : State) : (modWsh f s).net = s.net := rfl
@[simp] theorem modWsh_tide {f : Wsh → Wsh} (s : State) : (modWsh f s).tide = s.tide := rfl
@[simp] theorem modWsh_fly {f : Wsh → Wsh} (s : State) : (modWsh f s).fly = s.fly := rfl
@[simp] theorem modWsh_flyNext {f : Wsh → Wsh} (s : State) : (modWsh f s).flyNext = s.flyNext := rfl
@[simp] theorem modWsh_cells {f : Wsh → Wsh} (s : State) : (modWsh f s).cells = s.cells := rfl
@[simp] theorem modWsh_chk {f : Wsh → Wsh} (s : State) : (modWsh f s).chk = s.chk := rfl
@[simp] theorem modWsh_ctxs {f : Wsh → Wsh} (s : State) : (modWsh f s).ctxs = s.ctxs := rfl
@[simp] theorem modWsh_slc {f : Wsh → Wsh} (s : State) : (modWsh f s).slc = s.slc := rfl
@[simp] theorem modWsh_frs {f : Wsh → Wsh} (s : State) : (modWsh f s).frs = s.frs := rfl
@[simp] theorem modWsh_mem {f : Wsh → Wsh} (s : State) : (modWsh f s).mem = s.mem := rfl
@[simp] theorem modWsh_rsv {f : Wsh → Wsh} (s : State) : (modWsh f s).rsv = s.rsv := rfl
@[simp] theorem modWsh_csn {f : Wsh → Wsh} (s : State) : (modWsh f s).csn = s.csn := rfl
@[simp] theorem modWsh_est {f : Wsh → Wsh} (s : State) : (modWsh f s).est = s.est := rfl
@[simp] theorem modWsh_edy {f : Wsh → Wsh} (s : State) : (modWsh f s).edy = s.edy := rfl
@[simp] theorem modWsh_hst {f : Wsh → Wsh} (s : State) : (modWsh f s).hst = s.hst := rfl
@[simp] theorem modWsh_own {f : Wsh → Wsh} (s : State) : (modWsh f s).own = s.own := rfl
@[simp] theorem modWsh_bst {f : Wsh → Wsh} (s : State) : (modWsh f s).bst = s.bst := rfl
@[simp] theorem modWsh_hdw {f : Wsh → Wsh} (s : State) : (modWsh f s).hdw = s.hdw := rfl
@[simp] theorem modWsh_lev {f : Wsh → Wsh} (s : State) : (modWsh f s).lev = s.lev := rfl

@[simp] theorem modMod_pending {c step : Nat} {f : WinMod → WinMod} (s : State) : (modMod c step f s).pending = s.pending := rfl
@[simp] theorem modMod_now {c step : Nat} {f : WinMod → WinMod} (s : State) : (modMod c step f s).now = s.now := rfl
@[simp] theorem modMod_out {c step : Nat} {f : WinMod → WinMod} (s : State) : (modMod c step f s).out = s.out := rfl
@[simp] theorem modMod_free {c step : Nat} {f : WinMod → WinMod} (s : State) : (modMod c step f s).free = s.free := rfl
@[simp] theorem modMod_full {c step : Nat} {f : WinMod → WinMod} (s : State) : (modMod c step f s).full = s.full := rfl
@[simp] theorem modMod_err {c step : Nat} {f : WinMod → WinMod} (s : State) : (modMod c step f s).err = s.err := rfl
@[simp] theorem modMod_tel {c step : Nat} {f : WinMod → WinMod} (s : State) : (modMod c step f s).tel = s.tel := rfl
@[simp] theorem modMod_regs {c step : Nat} {f : WinMod → WinMod} (s : State) : (modMod c step f s).regs = s.regs := rfl
@[simp] theorem modMod_net {c step : Nat} {f : WinMod → WinMod} (s : State) : (modMod c step f s).net = s.net := rfl
@[simp] theorem modMod_tide {c step : Nat} {f : WinMod → WinMod} (s : State) : (modMod c step f s).tide = s.tide := rfl
@[simp] theorem modMod_fly {c step : Nat} {f : WinMod → WinMod} (s : State) : (modMod c step f s).fly = s.fly := rfl
@[simp] theorem modMod_flyNext {c step : Nat} {f : WinMod → WinMod} (s : State) : (modMod c step f s).flyNext = s.flyNext := rfl
@[simp] theorem modMod_cells {c step : Nat} {f : WinMod → WinMod} (s : State) : (modMod c step f s).cells = s.cells := rfl
@[simp] theorem modMod_chk {c step : Nat} {f : WinMod → WinMod} (s : State) : (modMod c step f s).chk = s.chk := rfl
@[simp] theorem modMod_ctxs {c step : Nat} {f : WinMod → WinMod} (s : State) : (modMod c step f s).ctxs = s.ctxs := rfl
@[simp] theorem modMod_slc {c step : Nat} {f : WinMod → WinMod} (s : State) : (modMod c step f s).slc = s.slc := rfl
@[simp] theorem modMod_frs {c step : Nat} {f : WinMod → WinMod} (s : State) : (modMod c step f s).frs = s.frs := rfl
@[simp] theorem modMod_mem {c step : Nat} {f : WinMod → WinMod} (s : State) : (modMod c step f s).mem = s.mem := rfl
@[simp] theorem modMod_rsv {c step : Nat} {f : WinMod → WinMod} (s : State) : (modMod c step f s).rsv = s.rsv := rfl
@[simp] theorem modMod_csn {c step : Nat} {f : WinMod → WinMod} (s : State) : (modMod c step f s).csn = s.csn := rfl
@[simp] theorem modMod_edy {c step : Nat} {f : WinMod → WinMod} (s : State) : (modMod c step f s).edy = s.edy := rfl
@[simp] theorem modMod_wsh {c step : Nat} {f : WinMod → WinMod} (s : State) : (modMod c step f s).wsh = s.wsh := rfl
@[simp] theorem modMod_hst {c step : Nat} {f : WinMod → WinMod} (s : State) : (modMod c step f s).hst = s.hst := rfl
@[simp] theorem modMod_own {c step : Nat} {f : WinMod → WinMod} (s : State) : (modMod c step f s).own = s.own := rfl
@[simp] theorem modMod_bst {c step : Nat} {f : WinMod → WinMod} (s : State) : (modMod c step f s).bst = s.bst := rfl
@[simp] theorem modMod_hdw {c step : Nat} {f : WinMod → WinMod} (s : State) : (modMod c step f s).hdw = s.hdw := rfl
@[simp] theorem modMod_lev {c step : Nat} {f : WinMod → WinMod} (s : State) : (modMod c step f s).lev = s.lev := rfl

@[simp] theorem modStrm_pending {c : Nat} {f : Strm → Strm} (s : State) : (modStrm c f s).pending = s.pending := rfl
@[simp] theorem modStrm_now {c : Nat} {f : Strm → Strm} (s : State) : (modStrm c f s).now = s.now := rfl
@[simp] theorem modStrm_out {c : Nat} {f : Strm → Strm} (s : State) : (modStrm c f s).out = s.out := rfl
@[simp] theorem modStrm_free {c : Nat} {f : Strm → Strm} (s : State) : (modStrm c f s).free = s.free := rfl
@[simp] theorem modStrm_full {c : Nat} {f : Strm → Strm} (s : State) : (modStrm c f s).full = s.full := rfl
@[simp] theorem modStrm_err {c : Nat} {f : Strm → Strm} (s : State) : (modStrm c f s).err = s.err := rfl
@[simp] theorem modStrm_tel {c : Nat} {f : Strm → Strm} (s : State) : (modStrm c f s).tel = s.tel := rfl
@[simp] theorem modStrm_regs {c : Nat} {f : Strm → Strm} (s : State) : (modStrm c f s).regs = s.regs := rfl
@[simp] theorem modStrm_net {c : Nat} {f : Strm → Strm} (s : State) : (modStrm c f s).net = s.net := rfl
@[simp] theorem modStrm_tide {c : Nat} {f : Strm → Strm} (s : State) : (modStrm c f s).tide = s.tide := rfl
@[simp] theorem modStrm_fly {c : Nat} {f : Strm → Strm} (s : State) : (modStrm c f s).fly = s.fly := rfl
@[simp] theorem modStrm_flyNext {c : Nat} {f : Strm → Strm} (s : State) : (modStrm c f s).flyNext = s.flyNext := rfl
@[simp] theorem modStrm_cells {c : Nat} {f : Strm → Strm} (s : State) : (modStrm c f s).cells = s.cells := rfl
@[simp] theorem modStrm_chk {c : Nat} {f : Strm → Strm} (s : State) : (modStrm c f s).chk = s.chk := rfl
@[simp] theorem modStrm_ctxs {c : Nat} {f : Strm → Strm} (s : State) : (modStrm c f s).ctxs = s.ctxs := rfl
@[simp] theorem modStrm_slc {c : Nat} {f : Strm → Strm} (s : State) : (modStrm c f s).slc = s.slc := rfl
@[simp] theorem modStrm_frs {c : Nat} {f : Strm → Strm} (s : State) : (modStrm c f s).frs = s.frs := rfl
@[simp] theorem modStrm_mem {c : Nat} {f : Strm → Strm} (s : State) : (modStrm c f s).mem = s.mem := rfl
@[simp] theorem modStrm_rsv {c : Nat} {f : Strm → Strm} (s : State) : (modStrm c f s).rsv = s.rsv := rfl
@[simp] theorem modStrm_csn {c : Nat} {f : Strm → Strm} (s : State) : (modStrm c f s).csn = s.csn := rfl
@[simp] theorem modStrm_est {c : Nat} {f : Strm → Strm} (s : State) : (modStrm c f s).est = s.est := rfl
@[simp] theorem modStrm_wsh {c : Nat} {f : Strm → Strm} (s : State) : (modStrm c f s).wsh = s.wsh := rfl
@[simp] theorem modStrm_hst {c : Nat} {f : Strm → Strm} (s : State) : (modStrm c f s).hst = s.hst := rfl
@[simp] theorem modStrm_own {c : Nat} {f : Strm → Strm} (s : State) : (modStrm c f s).own = s.own := rfl
@[simp] theorem modStrm_bst {c : Nat} {f : Strm → Strm} (s : State) : (modStrm c f s).bst = s.bst := rfl
@[simp] theorem modStrm_hdw {c : Nat} {f : Strm → Strm} (s : State) : (modStrm c f s).hdw = s.hdw := rfl
@[simp] theorem modStrm_lev {c : Nat} {f : Strm → Strm} (s : State) : (modStrm c f s).lev = s.lev := rfl

end Sys2Proof.Machine
end

