-- ==== Sys2Proof/Tests/Slice0.lean ====
section
/-! SUPPORT. Tests: ill-formed commands are refused, worked values of the spec, and a witness that meets the hypotheses of each statement. -/
set_option Elab.async false
namespace Sys2Proof.Tests
open Sys2Proof Sys2Proof.Machine

/-! ### Ill-formed commands (`Instr.wf`): a list operand with a length that its layout does not have -/

theorem test_wf_flit : (Instr.flitReceive 0 0 (.flit (List.replicate 255 0))).wf = false ∧ (Instr.flitReceive 0 0 (.flit (List.replicate 256 0))).wf = true := by decide +kernel
theorem test_wf_frame : (Instr.tideFrame [] 0).wf = false := by decide
theorem test_wf_tideFlit : (Instr.tideFlitReceive 0 0 (List.replicate 257 0) 0).wf = false := by decide +kernel
theorem test_wf_caps : (Instr.capsDone 0 0 [1]).wf = false := by decide
theorem test_wf_windowRecord : (Instr.windowRecord 0 (List.replicate 63 0)).wf = false := by decide
theorem test_wf_passRecord : (Instr.passRecord 0 (List.replicate 64 0)).wf = false := by decide
theorem test_wf_hostWrite_empty : (Instr.hostMemWrite 0 0 0 []).wf = false := by decide
theorem test_wf_hostWrite_past : (Instr.hostMemWrite 0 0 63 [1, 2]).wf = false ∧ (Instr.hostMemWrite 0 0 62 [1, 2]).wf = true := by decide
theorem test_wf_bisnp : (Instr.bisnpResponse 0 (some [])).wf = false ∧ (Instr.bisnpResponse 0 none).wf = true := by decide
theorem test_wf_route : (Instr.routeTableLoad 0 0 []).wf = false := by decide
theorem test_wf_snoop : (Instr.doorbellSnoop 0 []).wf = false := by decide
theorem test_wf_poll : (Instr.doorbellPoll (List.replicate 64 0)).wf = false := by decide
theorem test_illFormed_faults : step { pending := [.doorbellSnoop 0 []] } = .fault .illFormed := rfl

/-! ### Values that the spec works out -/

/-- R157: the check values over the nine bytes "123456789". -/
def nine : Bytes := [0x31, 0x32, 0x33, 0x34, 0x35, 0x36, 0x37, 0x38, 0x39]
/-- A CRC profile of R157. -/
def crcProf (w poly init : Nat) (inp out inv : Bool) : Profile :=
  { width := w, poly := poly, init := init, refin := inp, refout := out, xorout := inv, linear := false, valid := true }
theorem test_crc32c : crcOf profile0 nine = 0xE3069283 := by decide +kernel
theorem test_crc64xz : crcOf profileXZ nine = 0x995DC9BBDF1939FA := by decide +kernel
theorem test_crc16ibm : crcOf profile3740 nine = 0x29B1 := by decide +kernel
theorem test_crc32hdlc : crcOf (crcProf 32 0x04C11DB7 0xFFFFFFFF true true true) nine = 0xCBF43926 := by decide +kernel
theorem test_crc32mpeg : crcOf (crcProf 32 0x04C11DB7 0xFFFFFFFF false false false) nine = 0x0376E6E7 := by decide +kernel
theorem test_crc64ecma : crcOf (crcProf 64 0x42F0E1EBA9EA3693 0 false false false) nine = 0x6C40DF5F0B497347 := by decide +kernel
theorem test_crc16arc : crcOf (crcProf 16 0x8005 0 true true false) nine = 0xBB3D := by decide +kernel
theorem test_crc8smbus : crcOf (crcProf 8 0x07 0 false false false) nine = 0xF4 := by decide +kernel
/-- R156: a CRC-8/SMBUS record sliced after its first byte. -/
theorem test_sliced_record : crcRun (crcProf 8 0x07 0 false false false) 0 [0x31] = 0x97 ∧ crcRun (crcProf 8 0x07 0 false false false) 0x97 [0x32] = 0x72 := by decide +kernel
/-- R12: the alive counts of the example. -/
theorem test_newer : seqNewer 16 0x0003 0xFFFE = true ∧ seqNewer 16 0x8001 0x0001 = false := by decide
/-- R24, R25: the decode of logical index 345,678. -/
theorem test_decode : logReach 345678 = 2 ∧ logDie 345678 = 7 ∧ logRow 345678 = 0 ∧ logCol 345678 = 78 ∧ physOf {} 345678 = 0x9C04E := by decide +kernel
/-- R123, the worked overflow: 300.0 at exp −20 and −18 with h = 4, and 3 × 2^−22 by its draw. -/
theorem test_overflow : (dbiConvert 4 (-20) 0 (.fin false 300 0)).q = 134217727 ∧ (dbiConvert 4 (-20) 0 (.fin false 300 0)).ovf = true ∧
    (dbiConvert 4 (-18) 0 (.fin false 300 0)).q = 78643200 ∧ (dbiConvert 4 (-18) 0 (.fin false 300 0)).hot = true ∧ (dbiConvert 4 (-18) 0 (.fin false 300 0)).ovf = false := by decide +kernel
theorem test_overflow_draw : (dbiConvert 4 (-20) 12582911 (.fin false 3 (-22))).q = 1 ∧ (dbiConvert 4 (-20) 12582912 (.fin false 3 (-22))).q = 0 := by decide +kernel
/-- R341: host offset 0x9_4123_4560 through entry 37 (stack 21, offset 12 GiB). -/
theorem test_host_map : hostMap { hst := { hdm := some (0, 2 ^ 39) }, regs := { live := [(regKey 0xF00C 37, 2 ^ 31 + 12 * 2 ^ 6 + 21)] } } 0x941234560 = some 0x2A301234560 := by decide +kernel
/-- R345, R351: PERST takes the link down. -/
theorem test_perst : (match exec .perst { hst := { link := .up } } with | .next t => t.hst.link == .detect && t.hst.perst | _ => false) = true := by decide +kernel
/-- No row of the table has bits: no word spells a command. -/
theorem test_decodeTableWord : decodeTableWord 32 0 = none ∧ (State.reset.withFetchWord 32 0).pending = [] := by decide +kernel

/-! ### Witnesses: each statement's hypotheses are met by a concrete state and operands -/

theorem witness_bringUpSteps :
    ({ lev := { power := .go } } : State).lev.power = .go ∧ bstStep { bst := { step := 1 } } = 1 ∧ bstStep { bst := { step := 2 } } = 2 ∧
    bstStep { bst := { step := 4 } } = 4 ∧ bstStep { bst := { step := 5 } } = 5 ∧ bstStep { bst := { step := 6 } } = 6 ∧ bstStep { bst := { step := 7 } } = 7 := by
  decide

theorem witness_bringUpEnds :
    bstStep { bst := { step := 8 } } = 8 ∧ bstStep { bst := { step := 9 } } = 9 ∧ optWaiting { bst := { step := 10 } } = false ∧
    notReady { bst := { step := 10 } } = none ∧ notReady { bst := { step := 10, storeBad := true } } = some 4 := by decide

def aPacket : Packet := { seq := 0, src := 0, cls := 1, die := 0, row0 := 3, row1 := 3, col0 := 4, col1 := 4, words := [], gen := 0, site := 0, row := 3, col := 4 }

def aCrossing : Packet :=
  { aPacket with die := 1, row := (portPos 1 (Config.stitchPort 0 1 1 1 % 40)).1, col := (portPos 1 (Config.stitchPort 0 1 1 1 % 40)).2 }

def aMesh (p : Packet) : State := { net := { active := [(0, { ver := 1, hops := List.replicate 88 (1, 0) })] }, fly := [(0, .packet p)], flyNext := 1 }

theorem witness_packets :
    (routersRun {} 0 = true ∧ physValid 0 = true ∧ physSite 0 = 0 ∧ isHole {} 0 = false) ∧
    (Tab.sorted (aMesh aPacket).fly = true ∧ routersRun (aMesh aPacket) 0 = true ∧ packetBehind (aMesh aPacket) aPacket = false ∧
      isHole (aMesh aPacket) (physAddr 0 3 4) = false ∧ isHole { aMesh aPacket with net := { holes := [physAddr 0 3 4] } } (physAddr 0 3 4) = true) ∧
    (edgeBy (aMesh aCrossing).net.active 0 1 = 1 ∧ siteAcross (aMesh aCrossing) 0 1 = some 1 ∧ siteAvail (aMesh aCrossing) 1 = true ∧
      siteAcross { aMesh aCrossing with net := { (aMesh aCrossing).net with edgeOut := [edgeNum 0 1] } } 0 1 = none) := by decide

theorem witness_crossing :
    portPos 1 (Config.stitchPort aCrossing.src aCrossing.die aCrossing.cls 1 % 40) = (aCrossing.row, aCrossing.col) ∧
    portPos 1 (Config.stitchPort 0 1 1 1 % 40) ≠ ({ aCrossing with col := 0 }.row, { aCrossing with col := 0 }.col) := by
  refine ⟨rfl, fun h => ?_⟩
  have := congrArg Prod.snd h
  simp [portPos] at this

def aCommit : Commit := { slot := 3, ver := 1, confirmed := [], leave := [], join := [] }

def aTwoSites : State :=
  let table (e : Nat) : RouteTable := { ver := 1, hops := List.replicate 88 (e, 0) }
  { net := { out := (List.range 86).map fun k => (k + 2, [.isolated]), shadow := [(0, table 1), (1, table 3)], commit := some { aCommit with confirmed := [0, 1] } }
    tide := { count := 49152 } }

theorem witness_routeCommit :
    (List.replicate 88 ((0, 0) : Fin 6 × Fin 4)).length = 88 ∧ updating {} 3 = false ∧ slotNow {} + 2 ≤ 2 ∧
    (let s : State := { net := { commit := some aCommit }, tide := { count := 32768 } }; aCommit.slot ≤ slotNow s + 1 ∧ 0 ∈ commitSites s aCommit ∧ slotNow s < 5) := by decide

theorem witness_routeCommitDue :
    let c := { aCommit with confirmed := [0, 1] }
    c.slot ≤ slotNow aTwoSites ∧ atBoundary aTwoSites = true ∧ commitSites aTwoSites c = [0, 1] ∧ routesOk aTwoSites aTwoSites.net.shadow [0, 1] = true := by decide

def aRejoin : Rejoin := { slot := 0, started := false, misses := 0, relocked := false }

theorem witness_diesLeaveAndReturn :
    tget? ({ net := { leaving := [(0, .draining), (87, .gated 5)] } } : State).net.leaving 0 = some .draining ∧
    tget? ({ net := { leaving := [(0, .draining), (87, .gated 5)] } } : State).net.leaving 87 = some (.gated 5) ∧
    pllRuns {} 86 = true ∧ aRejoin.slot ≤ slotNow {} ∧ Tab.sorted [(0, aRejoin)] = true ∧ tget? [(0, aRejoin)] 0 = some aRejoin := by decide

theorem witness_rill :
    (let r : RillMsg := { src := 0, dst := 1, pri := 1, kind := 0x40, words := [5] }
     let s : State := { fly := [(0, .rill r)], flyNext := 1, net := { rillHeld := [(0, [r])] } }
     tget? s.fly 0 = some (.rill r) ∧ Tab.sorted s.fly = true ∧ rillBehind s 0 r = false ∧ rillPath s 0 1 = true ∧ rillOut (unfly 0 s) 0 < 4) ∧
    rillGood [] = false := by decide

def owned (m : Master) : State := { bst := { ready := true, step := 10 }, hst := { link := .up, cxl := true }, own := { owner := some m, leaseEnd := 1000 } }

theorem witness_writes : Writes (.host 0x9000 4 1) (owned .host) .host 0x9000 1 (2 ^ 32 - 1) (owned .host) :=
  ⟨rfl, rfl, rfl, rfl, rfl, rfl, rfl, rfl⟩

theorem witness_owns : Owns (owned .host) .host := ⟨rfl, by decide, rfl⟩

theorem witness_tideInputs :
    (∃ b ∈ (List.replicate 52 TideSym.idle).drop 1, b ≠ .zero ∧ b ≠ .one) ∧ (∀ l, ({ last := some 4 } : TideIn).last = some l → (5 : BitVec 50).toNat = l + 1) ∧ inputUsed {} true = true ∧
    inputUsed { tide := { useTidein := false } } false = true := by
  refine ⟨⟨.idle, by decide⟩, ?_, by decide, by decide⟩
  intro l h
  cases h
  rfl

theorem witness_qualified :
    let i : TideIn := { qual := 16, off := 65 }
    let s (st : TideSt) : State := { tide := { st := st, tin := i, csn := i } }
    16 ≤ (tideIn (s .free) true).qual ∧ inputAllowed (s .holdover) true = true ∧ offsetOk (s .holdover) 64 = true ∧ offsetOk (s .holdover) 65 = false ∧
      64 < (tideIn (s .free) true).off.natAbs := by decide

theorem witness_tideUnit :
    anyRunning (owned .host) = false ∧ anyRunning { ctxs := [(3, { st := .running })] } = true ∧
    atBoundary {} = true ∧ ({ bnd := 1, srcPend := some (3, 0), rebasePend := some (7, 0) } : Tide).bnd > 0 ∧
    (let s : State := { tide := { st := .free, adopt := true, tin := { qual := 16 } } }; anyRunning s = false ∧ 16 ≤ (tideIn s s.tide.useTidein).qual) := by decide

theorem witness_boundary :
    tget? ({ tide := { eps := [(3, { slot := 4, next := none })] } } : State).tide.eps 3 = some { slot := 4, next := none } ∧
    (5 : BitVec 50).toNat = (4 + 1) % 2 ^ 50 ∧ (9 : BitVec 50).toNat ≠ (4 + 1) % 2 ^ 50 ∧
    Tab.sorted ([(0xC00C * 2 ^ 20, 1)] : Tab Nat) = true := by decide

def aCell : Cell :=
  { prog := some { num := 1, ctx := 3, idx := 0, slot := 0, gang := false, sortmerge := false },
    threads := [(0, { st := .run })],
    tags := [(0, { st := .resident, owner := 3 }), (1, { st := .full, cnt := 2, owner := 3 }), (2, { owner := 3 }), (3, { st := .resident, owner := 3 })] }

theorem witness_ready : SpelledPlain { cells := [(0, { aCell with mem := bwrite [] 0 (natLE 4 0x00000001) })] } 0 0 3 := ⟨⟨rfl, ⟨_, rfl, rfl⟩, by decide⟩, by decide⟩

def aSpelled (w : Nat) : State := { cells := [(0, { aCell with mem := bwrite [] 0 (natLE 4 w) })] }

theorem witness_words :
    sirOf 0x40208100 = some (.ldn 1 0 2 false 0x100) ∧ sirOf 0x4020C100 = some (.ldn 1 0 3 false 0x100) ∧ sirOf 0x44208200 = some (.stn 1 0 2 0x200) ∧
    sirOf 0x48808004 = some (.vld 1 0 true 4) ∧ sirOf 0x4C800008 = some (.vst 1 0 8) ∧ sirOf 0x60000001 = some (.tag 0 0 0 0 1) ∧
    sirOf 0x60012002 = some (.tag 2 0 1 0 2) ∧ sirOf 0x60007001 = some (.tag 7 0 0 0 1) := by decide

theorem witness_spelled : Spelled (aSpelled 0x40208100) 0 0 3 (.ldn 1 0 2 false 0x100) ∧ Spelled (aSpelled 0x60000001) 0 0 3 (.tag 0 0 0 0 1) ∧
    Spelled (aSpelled 0x60007001) 0 0 3 (.tag 7 0 0 0 1) :=
  ⟨⟨⟨rfl, ⟨_, rfl, rfl⟩, by decide⟩, by decide⟩, ⟨⟨rfl, ⟨_, rfl, rfl⟩, by decide⟩, by decide⟩, ⟨⟨rfl, ⟨_, rfl, rfl⟩, by decide⟩, by decide⟩⟩

theorem witness_loads :
    let h := getTh aCell 0
    (effAddr h 0 (0x100 : BitVec 12).toInt % 4 = 0 ∧ effAddr h 0 (0x100 : BitVec 12).toInt ≤ 0xFEFF ∧
      access aCell 3 (effAddr h 0 (0x100 : BitVec 12).toInt / 256) false = .ok) ∧
    effAddr h 0 (1 : BitVec 12).toInt % 2 ≠ 0 ∧ 0xFEFF < effAddr h 0 (-4 : BitVec 12).toInt ∧
    access aCell 3 (effAddr h 0 (0x200 : BitVec 12).toInt / 256) true = .ok ∧
    (effAddr h 0 (64 * (4 : BitVec 10).toInt) = 256 ∧ access aCell 3 1 false = .ok ∧ (tagOf aCell 1).st = .full) ∧
    (effAddr h 0 (64 * (12 : BitVec 10).toInt) = 768 ∧ (tagOf aCell 3).st = .resident) ∧ access aCell 3 3 false = .ok ∧ access aCell 3 2 true = .ok := by decide

theorem witness_tags :
    let h := getTh aCell 0
    (tagSpan h 0 0 1 = some [1] ∧ tagSpan h 0 0 2 = some [2] ∧ tagSpan h 0 0 3 = some [3] ∧ tagSpan h 0 1 1 = some [1, 2]) ∧
    (tagOwned aCell 3 (tagAll aCell [1]) = true ∧ tagOwned aCell 3 (tagAll aCell [2]) = true ∧ tagOwned aCell 3 (tagAll aCell [3]) = true) ∧
    (∀ k ∈ tagAll aCell [1], (tagOf aCell k).st = .full) ∧ (∀ k ∈ tagAll aCell [1], (tagOf aCell k).tile = false) ∧
    (∀ k ∈ tagAll aCell [2], (tagOf aCell k).st = .empty ∧ (tagOf aCell k).pend = false ∧ (tagOf aCell k).owner = 3) ∧
    (∀ k ∈ tagAll aCell [3], (tagOf aCell k).st = .resident ∧ (tagOf aCell k).owner = 3) ∧
    (∀ k ∈ tagAll aCell [1, 2], ((tagOf aCell k).st = .full ∨ ((tagOf aCell k).st = .empty ∧ (tagOf aCell k).pend = false)) ∧ (tagOf aCell k).owner = 3) := by decide

theorem witness_compute :
    (convOk (.narrow 2) = true ∧ convRow (.narrow 2) = none) ∧ convOk (.narrow 5) = false ∧
    (convOk (.dbi 0 24 0xFEC0) = true ∧ convRow (.dbi 0 24 0xFEC0) = some (0xFEC0, 13)) ∧ 0xFEC0 % 64 = 0 := by decide

def aRemOp (k : RemKind) (st : RemSt) : RemOp :=
  { id := 0, kind := k, th := 0, ctx := 3, pc := 0, prog := 1, remote := 0x200, loc := 0x200, len := 256, cnt := 1, rel := false, rt := 1, st := st }

theorem witness_issue :
    let h : Thread := { st := .run, g := [(2, 0x200)] }
    remLen 1 = some 256 ∧ getG h 2 % 256 = 0 ∧ remoteAddr h 4 = 0 ∧ remoteBad 0 256 = none ∧ remSpace 0 = 0 ∧ remSpace (2 ^ 60) = 1 ∧
    (∀ k ∈ slotsOf 0x200 256, (tagOf aCell k).st = .empty ∧ (tagOf aCell k).pend = false ∧ (tagOf aCell k).owner = 3) ∧
    accessAll aCell 3 (slotsOf 0x100 256) false = .ok ∧ remoteBad (remoteAddr h 4) 4 = none ∧ 0x200 + 256 ≤ 0xFF00 := by decide

theorem witness_complete :
    let f : Fill := { kind := .fetch 0, cell := 0, addr := 0x200, len := 256, cnt := 0, ctx := 3, data := [], trailer := [] }
    let s : State := { cells := [(0, aCell)], fly := [(0, .fill f [0])] }
    (tget? s.fly 0 = some (.fill f [0]) ∧ sliced s 0 = false ∧ ∀ k ∈ slotsOf f.addr f.len, (tagOf (getCell s 0) k).st = .empty ∧ (tagOf (getCell s 0) k).owner = f.ctx) ∧
    (findOp { aCell with ops := [aRemOp .ldx .asked] } 0 = some (aRemOp .ldx .asked) ∧ opFirst { aCell with ops := [aRemOp .ldx .asked] } (aRemOp .ldx .asked) = true) ∧
    (cellUsable s 0 = true ∧ accessAll aCell 3 (slotsOf 0x100 256) false = .ok ∧ accessAll aCell 4 (slotsOf 0x100 256) false = .trap .ownership) ∧
    (aRemOp .send .leaving).st = .leaving ∧ remCell (aRemOp .send .asked).remote = 0 ∧ remSpad (aRemOp .send .asked).remote = 0x200 := by decide

theorem witness_remoteWords :
    sirOf 0x50822100 = some (.fetch 4 2 1 1) ∧ sirOf 0x50823180 = some (.send 4 2 1 1 true) ∧ sirOf 0x54240000 = some (.ldx 1 4) ∧
    sirOf 0x54230000 = some (.ldx 1 3) ∧ sirOf 0x70201200 = some (.amm 1 0 2 2 false 0 false false) ∧ sirOf 0x74200000 = some (.aout 1 0 0 false 0) := by decide

theorem witness_remoteWaits :
    let s : State := { cells := [(0, { aCell with ops := [aRemOp .send .asked] })] }
    (accessAll aCell 3 (slotsOf 0x200 256) false = .wait ∧ sendAhead s 0 0 0 0 = false ∧ remoteBad (3 * 2 ^ 60) 4 = some .address) ∧
    ((tagOf aCell 3).owner = 3 ∧ (tagOf aCell 3).st ≠ .scrub ∧ (tagOf aCell 3).st ≠ .empty) ∧ (tagOf aCell 4).owner ≠ 3 ∧
    tagAll aCell (slotsOf 0x100 256) = [1] ∧ tagAll aCell (slotsOf 0x200 256) = [2] ∧
    verifyTile {} {} (fitB [] 2048) (formTrailer {} [] 0 2 0 0) = .ok :=
  ⟨by decide, by decide, by decide, by decide, by decide,
    formTrailer_verifies {} {} {} [] 0 2 0 0 (by decide) (by decide) (by decide) (by decide) (by decide) (by simp) (by decide) (by decide) (by simp) (by decide) (by simp) (by decide) (by simp)⟩

def aStream : Stream :=
  { ctx := 3, gang := false, prog := 1, pc := 0, bank := 0, a := 0x100, b := 0x300, k := 1, fmt := 0, acc := false, relA := true, relB := false, th := 0, st := .queued }

def anAout : AoutOp := { th := 0, bank := 0, dst := 0x200, ofmt := 0, pub := true, cnt := 1, srN := 0 }

theorem witness_array :
    (kOk 7 2 = true ∧ kOk 7 1 = false ∧ kOk 0 65535 = true ∧ kOk 2 33 = false ∧ kOk 0 0 = false) ∧
    (let s : State := { cells := [(0, { aCell with streams := [aStream] })] }
     ((getCell s 0).streams.find? (·.st != .running) = some aStream ∧ aStream.a + streamLen aStream ≤ 0xFF00) ∧
     (∀ o ∈ opSrcs 0 aStream, ∀ k ∈ rowSlots aStream o.base, access (getCell s o.cell) 3 k false = .ok ∧
       (o.rel = true → (tagOf (getCell s o.cell) k).st = .full ∧ (tagOf (getCell s o.cell) k).tile = false)) ∧
     (∀ k ∈ rowSlots aStream 0x100, k ∉ rowSlots aStream 0x300) ∧ 0 < elemRows aStream) ∧
    (let m : Stream := { aStream with a := 0x200, relA := false }
     (groupRows 0 m 0).map (fun r => access aCell 3 ((r.1.base + r.2) / 256) false) = [.wait, .ok]) ∧
    (access aCell 4 1 false = .trap .ownership ∧ ∀ k, access aCell 3 2 true ≠ .trap k) ∧
    (let p : Prog := { num := 1, ctx := 3, idx := 0, slot := 0, gang := false, sortmerge := false }
     let s : State := { cells := [(0, { aCell with aouts := [anAout] })] }
     aoutAccess s (gangCells false 0) p anAout = .ok ∧ aoutAccess s (gangCells false 0) p { anAout with dst := 0x300 } = .trap .tagProtocol ∧
     aoutAccess s (gangCells false 0) p { anAout with dst := 0x100 } = .wait) := by
  refine ⟨by decide, by decide, by decide, ⟨by decide, fun k => ?_⟩, by decide⟩
  have h : access aCell 3 2 true = .ok := by decide
  rw [h]; exact fun h => nomatch h

theorem witness_cellEvents :
    (let h : Thread := { st := .wait (.tag 0 0 0 0 1) 0 }
     tagSpan h 0 0 1 = some [1] ∧ ∀ k ∈ tagAll aCell [1], (tagOf aCell k).owner = 3 ∧ ((tagOf aCell k).st = .full ∨ (tagOf aCell k).st = .resident)) ∧
    (0 + waitLimit { tide := { bnd := 255 } } ≤ 255 ∧ ctxFrozen {} (some 3) = false) ∧ sliced {} 0 = false ∧ bitN (regLive {} 0x100C 0) 0 = true ∧
    (tagOf aCell 0).st ≠ .scrub ∧
    (let s : State := { ctxs := [(0, { plan := { rects := [[{ die := 0, row0 := 0, row1 := 3, col0 := 0, col1 := 3 }]] } })], lev := { power := .on } }
     cellCtx s 0 = some 0 ∧ throttled s 0 1 = false) ∧
    (let x : Cell := { mem := bwrite [] 0xFF00 [0, 16, 0, 0, 0, 0, 0, 0, 0, 2, 255, 255, 255, 255, 255, 255], sel := [(0, 0, 0), (1, 0, 1)] }
     bitN (progDesc x 0).1 12 = true ∧ bitsN (progDesc x 0).1 9 0 = 0 ∧ bitN (progDesc x 1).1 12 = false) := by decide

theorem witness_chk :
    (profileOf {} 0).valid = true ∧ checkBytes (profileOf {} 0) = 4 ∧
    tget? ({ chk := { bound := [(255, { ctx := 3, prof := 0, append := true, run := 7, done := 5 })] } } : State).chk.bound 255 =
      some { ctx := 3, prof := 0, append := true, run := 7, done := 5 } ∧ saveOk { ctxs := [(3, { save := 0 })] } 3 0 = true ∧ saveOk {} 3 (2 ^ 47) = false := by decide

def aPass : Pass :=
  { id := 0, start := 1, tiles := 1, slow := false, ctxOwned := false, ctx := 0, srcFmt := 0x20, outFmt := 0x20, alive := 0, tRows := 0, cnt := 1, due0 := 0, interval := 1, srcPay := 0, srcTrl := 4096, srcIdent := 0, grps := [{ die := 0, row0 := 0, row1 := 0, col0 := 0, col1 := 0, span0 := 30, nspans := 1, ctx := 3, all := false }], ctxs := [3] }

def aPassRec (start : Nat) : Bytes :=
  natLE 8 start ++ natLE 4 1 ++ natLE 2 0x20 ++ natLE 2 0x20 ++ natLE 2 0 ++ [0, 1, 1, 0, 0, 0] ++ natLE 4 0 ++ natLE 4 1 ++ natLE 8 0 ++ natLE 8 4096 ++
    natLE 8 0 ++ natLE 8 8192 ++ natLE 8 12288 ++ List.replicate 24 0

def aPassMem : State := { mem := { data := bwrite [] 8192 (natLE 8 (30 * 2 ^ 35 + 2 ^ 40 + 3 * 2 ^ 45)) } }

theorem witness_passRecord :
    (aPassRec 1).length = 96 ∧ passOk aPassMem {} (aPassRec 1) = true ∧ slotNow aPassMem < (passOf aPassMem 0 (aPassRec 1)).start ∧
    passOk aPassMem {} (aPassRec 0) = true ∧ (passOf aPassMem 0 (aPassRec 0)).start ≤ slotNow aPassMem ∧
    passOk {} {} (aPassRec 1) = false := by decide

def aEngine : Frs := { passes := [{ aPass with active := true }] }

theorem witness_passes :
    (0 ∈ grpLive {} { die := 0, row0 := 0, row1 := 0, col0 := 0, col1 := 0, span0 := 30, nspans := 1, ctx := 3, all := false } ∧
      (tagOf (getCell {} 0) 247).owner ≠ passOwner aPass ∧ (tagOf (getCell {} 0) 247).st ≠ .scrub) ∧
    readNext { tide := { count := 0 } } 0 { passes := [{ aPass with start := 0 }] } = some (0, 0) ∧ 0 < readCap {} 0 ∧
    passDone { passes := [aPass], dels := [{ did := 0, pass := 0, out := 0, grp := 0, acked := true }] } aPass = true ∧
    (let s : State := { now := 163840, tide := { count := 163840, slotAt := 163840 } }
     let p : Pass := { aPass with active := true }
     atBoundary s = true ∧ regL s 0x3004 0 23 20 ≤ dueBounds s p 0 ∧ dueIn s p 0 ≤ 0) ∧ passReady {} aPass = true ∧ readRoom {} 0 1 = true ∧
    (8 * 30, 0) = (240, 0) ∧
    unusedSpans { cells := [(0, { tags := [(240, { st := .full, owner := 0x7FF, tile := true })] })] } aPass =
      [(0, 30, { die := 0, row0 := 0, row1 := 0, col0 := 0, col1 := 0, span0 := 30, nspans := 1, ctx := 3, all := false })] := by decide

def aEntry : Entry := { pass := 0, src := 0 }

theorem witness_deliveries :
    (entryOf { aEngine with buf := [aEntry] } 0 0 = some aEntry ∧ passAny aEngine 0 = some { aPass with active := true } ∧
      sourceData { mem := { stks := [(0, { poison := [0] })] } } 0 aPass 0 = some none) ∧
    (let en : Entry := { aEntry with tile := some ([], []) }
     let x : Frs := { aEngine with buf := [en] }
     delFor x 0 0 (.grp 0) = some ({ aPass with active := true }, { did := 0, pass := 0, out := 0, grp := 0 }) ∧
     sourcesOf x { aPass with active := true } 0 = some [en] ∧ ringFree x { aPass with active := true } 0 0 = true) ∧
    grpSkipped {} aPass { die := 0, row0 := 0, row1 := 0, col0 := 0, col1 := 0, span0 := 30, nspans := 1, ctx := 3, all := false } 0 = false ∧
    maxAge {} 0 ≤ 255 ∧
    (let x : Frs := { aEngine with buf := [{ aEntry with tile := some ([], []) }], reports := [0] }
     0 ∈ x.reports ∧ holdsPage x 0 = true) ∧
    locate {} aEngine 0 30 0 none = none := by decide

theorem witness_refetch :
    let p : Pass := { aPass with srcFmt := 0x02, outFmt := 0x02, srcIdent := mkIdent 1 0 0 0 }
    (locate {} { passes := [p] } 0 30 (mkIdent 1 0 0 0) none).map (fun r => (r.1.id, r.2)) = some (0, 0, 0) := by decide

theorem witness_clear : Clear {} .freshet [(srcPayAt aPass 0, 2048), (srcTrlAt aPass 0, 32)] := by
  simp only [Clear, List.mem_cons, List.not_mem_nil, or_false, forall_eq_or_imp, forall_eq]; decide

def aMemReq (act : MemAct) : MemReq := { id := 7, cls := .eddy, from_ := .unit 0 0, ctx := some 3, addr := 0, len := 64, act := act, sm := false, at_ := 0 }

theorem witness_memRequest :
    (fastOk {} 0 64 = true ∧ ((getStk {} (memStack 0)).queue.filter (sameSource (aMemReq .read))).length < 64 ∧ guarded {} 0 64 = false) ∧ fastOk {} (2 ^ 45) 64 = false ∧
    guarded { ctxs := [(0, { plan := { collect := [(0, 4096)] } })] } 4032 64 = true ∧ guarded { ctxs := [(0, { plan := { collect := [(0, 4096)] } })] } 4096 64 = false := by
  decide

theorem witness_grant :
    (let s : State := { mem := { stks := [(0, { queue := [aMemReq (.write [1])] })] } }
     grantNext s 0 (getStk s 0) = some (aMemReq (.write [1]))) ∧
    (let s : State := { mem := { stks := [(0, { queue := [aMemReq .read] })] } }
     grantNext s 0 (getStk s 0) = some (aMemReq .read)) ∧
    (let r : MemReq := { aMemReq .read with from_ := .cell 0 0 }
     let x : Stack := { slots := [r] }
     serveNext x (bankOf x 0) = some r ∧ tget x.acts (bankOf x 0) 0 < 32) := by decide

theorem witness_stacks :
    (7 ∈ ({ retiring := [7], remaps := 1024 } : Stack).retiring) ∧ regL {} 0x401C 0 7 0 ≠ 0 ∧
    (let x : Stack := { concBank := [(0, 100)], concBytes := 2684354560, concRun := 7 }
     let s : State := { mem := { stks := [(0, x)] }, tide := { bnd := 16 } }
     100 * regL s 0x4018 0 6 0 < 100 * 100 ∧ regL s 0x4018 0 18 12 ≤ x.concBytes * 100 / (16 * 167772160) ∧ max (regL s 0x4018 0 11 8) 1 = 8) := by decide

theorem witness_patrolRoom : memRoom {} .internal 0 64 = true ∧ memRoom { mem := { stks := [(0, { st := .retraining })] } } .internal 0 64 = false := by decide

theorem witness_cellRequest :
    let o : RemOp := { id := 0, kind := .fetch, th := 0, ctx := 3, pc := 0, prog := 1, remote := 2 ^ 60 + 0x1000, loc := 0x200, len := 256, cnt := 1, rel := false, rt := 0, st := .asked }
    let s : State := { cells := [(0, { ops := [o] })] }
    findOp (getCell s 0) 0 = some o ∧ remSpace o.remote = 1 ∧ opFirst (getCell s 0) o = true ∧ slowAddr (remMem o.remote) = false ∧ fastOk s (remMem o.remote) 256 = true := by decide

def aRsvWin : RsvWin := { base := 2 ^ 44, size := 2 ^ 30, typ := 3, node := 5, eng := 1, engAlt := 2, altEn := true, rbase := 0, prof := 0, chkEn := false, since := 0 }

def aRsvOp (reissued : Bool) (busy : Option Nat) : RsvOp :=
  { w := { agent := 0, by_ := .unit 0 0 0, ctx := 3, addr := 2 ^ 44, len := 4, act := .read }, slot := 1023, win := 63, eng := 1, window := aRsvWin, at_ := 0, reissued := reissued, busy := busy }

def aRsvSt (ops : List RsvOp) : State :=
  { full := true, tide := { bnd := 2 }, rsv := { wins := [(63, aRsvWin)], ops := ops, want := [(aRsvOp false none).w] } }

theorem witness_agents :
    (let x : RsvWin := { aRsvWin with closing := some 1 }
     tget? ({ rsv := { wins := [(63, x)] }, tide := { bnd := 2 } } : State).rsv.wins 63 = some x ∧ 1 < 2) ∧
    (let s := aRsvSt []
     (s.rsv.want.filter (·.agent == 0))[0]? = some (aRsvOp false none).w ∧ rsvSlot s 0 = some 0 ∧
       s.rsv.wins.find? (fun e => decide (e.2.base ≤ 2 ^ 44) && decide (2 ^ 44 + 4 ≤ e.2.base + e.2.size) && winInUse s e.2 && s.full) = some (63, aRsvWin)) ∧
    (rsvOp (aRsvSt [aRsvOp true none]) 0 1023 = some (aRsvOp true none)) ∧
    rsvOp (aRsvSt [aRsvOp false (some 7)]) 0 1023 = some (aRsvOp false (some 7)) := by decide +kernel

def anActOp (a : RsvAct) : RsvOp := { aRsvOp false none with w := { (aRsvOp false none).w with act := a } }

def aRsvMsg (h : RsvHdr) (d : Bytes) : CsnMsg := { mtype := 0x20, dstEng := 0, dstNode := 0, srcNode := 5, srcEng := 0, cls := 4, ctx := 3, stream := 1, body := rsvBody none h d }

def aRsvHdr (op status : Nat) : RsvHdr := { op := op, last := true, trl := false, ack := true, tag := 1023, ctx := 3, status := status, addr := 0, len := 4, offset := 0, chkW := 0 }

def aInbox (m : CsnMsg) (ops : List RsvOp) : State := { aRsvSt ops with csn := { engs := [(0, { inbox := [m] })] } }

theorem witness_answered :
    AgentAnswered (aInbox (aRsvMsg (aRsvHdr 2 0) [1, 2, 3, 4]) [aRsvOp false none]) 0 0 2 (aRsvOp false none) (aRsvHdr 2 0) [1, 2, 3, 4] ∧
    AgentAnswered (aInbox (aRsvMsg (aRsvHdr 4 0) []) [anActOp (.write [1, 2, 3, 4])]) 0 0 4 (anActOp (.write [1, 2, 3, 4])) (aRsvHdr 4 0) [] ∧
    AgentAnswered (aInbox (aRsvMsg (aRsvHdr 4 2) []) [anActOp (.write [1, 2, 3, 4])]) 0 0 4 (anActOp (.write [1, 2, 3, 4])) (aRsvHdr 4 2) [] ∧
    AgentAnswered (aInbox (aRsvMsg (aRsvHdr 6 0) []) [anActOp .flush]) 0 0 6 (anActOp .flush) (aRsvHdr 6 0) [] ∧
    AgentAnswered (aInbox (aRsvMsg (aRsvHdr 8 0) []) [anActOp .query]) 0 0 8 (anActOp .query) (aRsvHdr 8 0) [] ∧
    AgentAnswered (aInbox (aRsvMsg (aRsvHdr 2 3) []) [aRsvOp false none]) 0 0 2 (aRsvOp false none) (aRsvHdr 2 3) [] :=
  ⟨⟨_, rfl, by decide, by decide⟩, ⟨_, rfl, by decide, by decide⟩, ⟨_, rfl, by decide, by decide⟩, ⟨_, rfl, by decide, by decide⟩,
    ⟨_, rfl, by decide, by decide⟩, ⟨_, rfl, by decide, by decide⟩⟩

theorem witness_peers :
    PeerAsks (aInbox (aRsvMsg (aRsvHdr 1 0) []) []) 0 0 1 (aRsvMsg (aRsvHdr 1 0) []) (aRsvHdr 1 0) [] ∧
    PeerAsks (aInbox (aRsvMsg (aRsvHdr 3 0) [1, 2, 3, 4]) []) 0 0 3 (aRsvMsg (aRsvHdr 3 0) [1, 2, 3, 4]) (aRsvHdr 3 0) [1, 2, 3, 4] ∧
    PeerAsks (aInbox (aRsvMsg (aRsvHdr 5 0) []) []) 0 0 5 (aRsvMsg (aRsvHdr 5 0) []) (aRsvHdr 5 0) [] ∧
    PeerAsks (aInbox (aRsvMsg (aRsvHdr 7 0) []) []) 0 0 7 (aRsvMsg (aRsvHdr 7 0) []) (aRsvHdr 7 0) [] ∧
    PeerAsks (aInbox (aRsvMsg (aRsvHdr 9 0) []) []) 0 0 9 (aRsvMsg (aRsvHdr 9 0) []) (aRsvHdr 9 0) [] ∧
    (let s : State := { aRsvSt [] with rsv := { exps := [(0, { base := 0, size := 1, node := 5, wr := true, since := 0 })] } }
     exported s 5 0 4 true = true ∧ exported s 6 0 4 false = false ∧ fastOk s 0 4 = true ∧ memRoom s .reservoir 0 4 = true ∧ memPoisoned s 0 4 = false ∧ guarded s 0 4 = false) := by
  refine ⟨⟨rfl, by decide, by decide, rfl, by decide⟩, ⟨rfl, by decide, by decide, rfl, by decide⟩, ⟨rfl, by decide, by decide, rfl, by decide⟩,
    ⟨rfl, by decide, by decide, rfl, by decide⟩, ⟨rfl, by decide, by decide, rfl, by decide⟩, by decide⟩

def aSide (attempt count : Nat) : Bytes := sideBytes 1 3 attempt false false 0 0 0 0 count

def aEstIn : EstIn := { from_ := .engine 0 1, dst := 0, payload := List.replicate 2048 0, trailer := List.replicate 32 0, side := aSide 0 1 }

def aWin : EstWin :=
  { openSlot := 1, step := 1, ctx := 3, rep := true, attempt := 0, nsteps := 1, h := 8, deadline := 2, fwd := 1, tiles := 1, tileTab := 4096, collect := 0, srcTab := 8192, fanTab := 12288, fanCount := 1, ext := some 0 }

def aWinMod : WinMod := { ctx := 3, step := 1, attempt := 0, rep := true, h := 8, dl := 3, lead := some (0, aWin), leadTile := some { verdict := false, payload := [], trailer := [], side := [] } }

theorem witness_contributions :
    (let s : State := { est := { engs := [(0, { wins := [{ aWin with attempt := 1 }], inq := [aEstIn], mesh := [aEstIn] })] }, mem := { data := bwrite [] 4104 [1] } }
     waitsAcc s 0 aEstIn = false ∧ (getEst s 0).inq.length < 256 ∧ judgeContrib s 0 aEstIn = .late ∧ armedAt s 0 = true) ∧
    judgeContrib {} 0 { aEstIn with side := [] } = .corrupt 1 ∧
    (let s : State := { tide := { count := 3 * 16384 } }; aWin.ext ≠ none ∧ winSendBy aWin ≤ slotNow s ∧ winDl aWin ≤ slotNow s) ∧
    estWinOk {} 0 (List.replicate 64 0) = false := by decide +kernel

theorem witness_decisions :
    sideOk (aSide 0 1) = true ∧ leField (aSide 0 1) 4 2 % 1024 = 3 ∧ leField (aSide 0 1) 0 4 = 1 ∧ bitsN (leField (aSide 0 1) 4 2) 13 10 = 0 ∧
    (let s : State := { est := { mods := [aWinMod], diverged := [3] }, tide := { count := 5 * 16384, bnd := 1 }, mem := { data := bwrite [] 12288 [7] } }
     winMod s 3 1 = some aWinMod ∧ (7, 0) ∈ fanPairs s aWin ∧ aWinMod.dl + 2 ≤ slotNow s ∧ 3 ∈ s.est.diverged ∧ 0 + 1 < repeatMax s) := by decide +kernel

def aEstBytes : Bytes := natLE 8 (mkIdent 2 3 9 0) ++ natLE 8 3 ++ natLE 8 0 ++ natLE 2 0 ++ [65, 0] ++ natLE 4 0

def aEstCtx : Ctx := { st := .idle, num := { headroom := 8 }, plan := { lead := (0, 5) } }

def aEstEng (filled : Nat) : EstEng := { wins := [{ aWin with rep := false, fanCount := 0, tab := [(0, { filled := filled })] }] }

def aEstTabs (filled : Nat) : State :=
  { ctxs := [(3, aEstCtx)], est := { engs := [(0, aEstEng filled)] }, mem := { data := bwrite (bwrite [] 4096 aEstBytes) 8192 (natLE 4 (1 + 2 ^ 26) ++ natLE 4 (1 + 2 ^ 26)) } }

def aEstRec : Bytes := natLE 8 1 ++ natLE 4 1 ++ natLE 2 3 ++ [1, 8] ++ natLE 2 2 ++ natLE 2 1 ++ natLE 4 1 ++ natLE 8 4096 ++ natLE 8 0 ++ natLE 8 8192 ++ natLE 8 0 ++ natLE 8 0

def aZeros : Bytes := List.replicate 2048 0

def aGoodIn : EstIn := { aEstIn with payload := aZeros, trailer := formTrailer {} aZeros 1 0x30 (mkIdent 2 3 8 0) 0 }

theorem witness_windowArms : aEstRec.length = 64 ∧ estWinOk (aEstTabs 0) 0 aEstRec = true := by decide +kernel

theorem zeros_ints : ∀ q ∈ dbiInts aZeros, q = 0 := by
  intro q hq
  obtain ⟨i, hi, rfl⟩ := List.mem_map.mp hq
  have h : i < 512 := List.mem_range.mp hi
  have : leField aZeros (4 * i) 4 = 0 := by
    rw [leField, sliceB, aZeros, List.drop_replicate, List.take_replicate, List.length_replicate, show min 4 (2048 - 4 * i) = 4 by omega, show 4 - (2048 - 4 * i) = 0 by omega]
    rfl
  rw [dbiAt, this]; rfl

theorem zeros_fit : fitB aZeros 2048 = aZeros := by decide +kernel

theorem goodIn_verifies (n : Nat) : verifyTile (aEstTabs n) { ident := some (mkIdent 2 3 8 0), formats := some [0x30] } aZeros aGoodIn.trailer = .ok := by
  have h := formTrailer_verifies {} (aEstTabs n) { ident := some (mkIdent 2 3 8 0), formats := some [0x30] } aZeros 1 0x30 (mkIdent 2 3 8 0) 0 (by decide +kernel) ((tileProfile_regs _ {} rfl).trans (by decide +kernel)) (by decide)
    (by decide) (by decide) (by decide) (by decide) (by decide) (by decide) (by decide) (by decide) (by decide) (by decide)
  rw [zeros_fit] at h
  exact h

theorem goodIn_alive : trlAlive aGoodIn.trailer = 1 := formTrailer_alive {} aZeros 1 0x30 (mkIdent 2 3 8 0) 0 (by decide)

def aEstW (filled : Nat) : EstWin := { aWin with rep := false, fanCount := 0, tab := [(0, { filled := filled })] }

theorem goodIn_tile (n : Nat) (h : n = 0 ∨ n = 1) : judgeContrib (aEstTabs n) 0 aGoodIn = judgeTile (aEstTabs n) (aEstW n) 0 aGoodIn := by
  have a : sideOk aGoodIn.side = true ∧ leField aGoodIn.side 4 2 % 1024 = 3 ∧ leField aGoodIn.side 0 4 = 1 ∧ leField aGoodIn.side 6 1 = 0 ∧
    (bitsN (leField aGoodIn.side 4 2) 13 10 != 0) = false ∧ aGoodIn.dst = 0 := by decide +kernel
  have b : winOf (aEstTabs n) 0 3 1 = some (aEstW n) ∧ tileIdx (aEstW n) 0 = some 0 ∧ bitN (entAt (aEstTabs n) (aEstW n) 0).mask 0 = true := by
    rcases h with rfl | rfl <;> decide +kernel
  have c : (aEstW n).attempt = 0 := rfl
  simp only [judgeContrib, a, b, c, Bool.not_true, Bool.false_eq_true, if_false]

theorem goodIn_fields : leField aGoodIn.side 6 1 = 0 ∧ bitN (leField aGoodIn.side 4 2) 15 = false ∧ leField aGoodIn.side 16 4 = 1 := by decide +kernel

theorem aEst_fields (n : Nat) (h : n = 0 ∨ n = 1) : ((entAt (aEstTabs n) (aEstW n) 0).role == 2) = false ∧ ((entAt (aEstTabs n) (aEstW n) 0).role == 3) = false ∧
    idBase (entAt (aEstTabs n) (aEstW n) 0).ident = 0 ∧ (srcAt (aEstTabs n) (aEstW n) 0).1 = 1 := by
  rcases h with rfl | rfl <;> decide +kernel

theorem aEst_tile (n : Nat) (h : n = 0 ∨ n = 1) : (tileAt (aEstW n) 0).done = false ∧ bitN (tileAt (aEstW n) 0).filled 0 = (n == 1) ∧
    decide (winDl (aEstW n) ≤ slotNow (aEstTabs n)) = false := by
  rcases h with rfl | rfl <;> decide +kernel

theorem goodIn_range : ((dbiInts aZeros).any fun q => decide (dbiLim 8 * ((1 : Nat) : Int) < (q.natAbs : Int))) = false := by
  simp only [List.any_eq_false, decide_eq_true_eq]
  intro q hq
  rw [zeros_ints q hq]; decide

theorem goodIn_payload : aGoodIn.payload = aZeros := by unfold aGoodIn; rfl

theorem aEstW_fields (n : Nat) : (aEstW n).ctx = 3 ∧ (aEstW n).h = 8 ∧ (aEstW n).step % 65536 = 1 := ⟨rfl, rfl, rfl⟩

theorem judgeTile_zeros (s : State) (w : EstWin) (i : EstIn) (z : Bytes) (b : Bool) (p : i.payload = z) (f : leField i.side 6 1 = 0 ∧ bitN (leField i.side 4 2) 15 = false ∧ leField i.side 16 4 = 1)
    (g : ((entAt s w 0).role == 2) = false ∧ ((entAt s w 0).role == 3) = false ∧ idBase (entAt s w 0).ident = 0 ∧ (srcAt s w 0).1 = 1)
    (k : (tileAt w 0).done = false ∧ bitN (tileAt w 0).filled 0 = b ∧ decide (winDl w ≤ slotNow s) = false) (c : w.ctx = 3 ∧ w.h = 8 ∧ w.step % 65536 = 1)
    (al : trlAlive i.trailer = 1) (r : ((dbiInts z).any fun q => decide (dbiLim 8 * ((1 : Nat) : Int) < (q.natAbs : Int))) = false)
    (v : verifyTile s { ident := some (mkIdent 2 3 8 0), formats := some [0x30] } z i.trailer = .ok) : judgeTile s w 0 i = if b then .redundant else .fills 0 := by
  simp only [judgeTile, p, f, g, c, k, al, Bool.or_self, Bool.false_and, Bool.false_eq_true, if_false, v, r]
  cases b <;> simp

theorem witness_fills : judgeContrib (aEstTabs 0) 0 aGoodIn = .fills 0 ∧ judgeContrib (aEstTabs 1) 0 aGoodIn = .redundant := by
  rw [goodIn_tile 0 (.inl rfl), goodIn_tile 1 (.inr rfl), 
    judgeTile_zeros _ _ _ aZeros _ goodIn_payload goodIn_fields (aEst_fields 0 (.inl rfl)) (aEst_tile 0 (.inl rfl)) (aEstW_fields 0) goodIn_alive goodIn_range (goodIn_verifies 0),
    judgeTile_zeros _ _ _ aZeros _ goodIn_payload goodIn_fields (aEst_fields 1 (.inr rfl)) (aEst_tile 1 (.inr rfl)) (aEstW_fields 1) goodIn_alive goodIn_range (goodIn_verifies 1)]
  exact ⟨rfl, rfl⟩

theorem witness_accepts : (getEst { aEstTabs 0 with est := { engs := [(0, { aEstEng 0 with inq := [aGoodIn] })] } } 0).inq = [] ++ aGoodIn :: [] ∧
    waitsIn { aEstTabs 0 with est := { engs := [(0, { aEstEng 0 with inq := [aGoodIn] })] } } 0 aGoodIn = false ∧
    Clear (aEstTabs 0) .estuary (contribRanges (aEstTabs 0) 0 aGoodIn) ∧ sliceMine (aEstTabs 0) 0 3 = true ∧ (tileAt (aEstW 0) 0).spilled = false ∧
    healthReady 0 (aSide 0 1) (aEstTabs 0) = true := by
  refine ⟨rfl, by decide +kernel, ?_, by decide +kernel⟩
  rw [show contribRanges (aEstTabs 0) 0 aGoodIn = [] by decide +kernel]
  intro r h; cases h

theorem witness_healthTile :
    verifyTile {} { ident := some (mkIdent 2 3 10 0), formats := some [0x31] } aZeros (formTrailer {} aZeros 1 0x31 (mkIdent 2 3 10 0) 0) = .ok ∧
    trlAlive (formTrailer {} aZeros 1 0x31 (mkIdent 2 3 10 0) 0) = 1 ∧ (∀ q ∈ dbiInts aZeros, q.natAbs ≤ dbiLim 8 * 1) ∧ (∀ q ∈ (dbiInts aZeros).drop 32, q = 0) := by
  refine ⟨?_, formTrailer_alive {} aZeros 1 0x31 (mkIdent 2 3 10 0) 0 (by decide), fun q hq => ?_, fun q hq => zeros_ints q (List.mem_of_mem_drop hq)⟩
  · have h := formTrailer_verifies {} {} { ident := some (mkIdent 2 3 10 0), formats := some [0x31] } aZeros 1 0x31 (mkIdent 2 3 10 0) 0 (by decide +kernel) ((tileProfile_regs _ {} rfl).trans (by decide +kernel)) (by decide)
      (by decide) (by decide) (by decide) (by decide) (by decide) (by decide) (by decide) (by decide) (by decide) (by decide)
    rw [zeros_fit] at h
    exact h
  · rw [zeros_ints q hq]; decide

def aTZeros : Bytes := List.replicate 2048 0

theorem tzeros_fit : fitB aTZeros 2048 = aTZeros := by decide +kernel

def aShardRec : ShardRec :=
  { id := 7, ctx := 3, delta := false, owner := true, layer := 0, nstate := 0, base := 0, elements := 5120, gblock0 := 0, wAddr := 65536, sAddr := [], sfmt := 0, prog := 0, gAddr := 131072, fpAddr := 262144, rep0 := 0, rep1 := 0, mat := 0 }

def aShard : Shard := { r := aShardRec }

def aDec : Dec := { step := 4, lam := 0, lamDef := false, tokens := 1, skip := true, failed := false, spike := false, ovf := false, hot := false, nf := false, sweepBnd := some 0 }

def aSweep : Sweep := { ctx := 3, step := 4, tide := 0, skip := false, failed := false }

def aSRec : SRec := { typ := 2, step := 4 }

def aEdy (w : Sweep) (st : Strm) (x : Shard) : Edy := { engs := [(0, { sweeps := [w] })], shards := [(3, [x])], streams := [(3, st)] }

theorem witness_sweepStart :
    (let s : State := { ctxs := [(3, { st := .idle, dec := some aDec })], edy := aEdy aSweep {} aShard, tide := { bnd := 1 } }
     (getCtx s 3).dec = some aDec ∧ 0 < s.tide.bnd ∧ sweepBehind s 3 0 = false ∧ atBoundary s = true ∧ atBoundary { s with tide := { s.tide with count := 5 } } = false ∧ (∃ x ∈ shardsOf s 3, x.r.owner = true)) ∧
    (let s : State := { ctxs := [(3, { st := .idle, dec := some aDec })], edy := aEdy { aSweep with pos := 1 } {} aShard }
     sweepOf s 0 3 = some { aSweep with pos := 1 } ∧ (ownShards s 0 3)[1]? = none ∧ Tab.sorted s.edy.engs = true ∧ ∀ p ∈ s.edy.engs, p.1 ≠ 0 → ∀ v ∈ p.2.sweeps, v.ctx = 3 → v.closed = true) ∧
    (let s : State := { edy := { aEdy { aSweep with pos := 1 } {} aShard with engs := [(0, { sweeps := [{ aSweep with pos := 1 }] }), (1, { sweeps := [aSweep] })] } }
     ∃ p ∈ s.edy.engs, p.1 ≠ 0 ∧ ∃ v ∈ p.2.sweeps, v.ctx = 3 ∧ v.closed = false) := by decide +kernel

theorem witness_streams :
    (let s : State := { edy := aEdy aSweep { sink := 1, bufBytes := 4096, tail := some aSRec } aShard }
     (strmOf s 3).tail = some aSRec ∧ (∀ p ∈ s.edy.engs, ∀ w ∈ p.2.sweeps, w.ctx = 3 → w.wait = []) ∧ strmUsed (strmOf s 3) + (recBytes s (strmOf s 3) 3 0 aSRec).length ≤ 4096) ∧
    (let s : State := { edy := aEdy { aSweep with wait := [aSRec] } {} aShard, tide := { bnd := 255 } }
     sweepOf s 0 3 = some { aSweep with wait := [aSRec] } ∧ 0 + (if regL s 0x5004 0 15 8 = 0 then 255 else regL s 0x5004 0 15 8) ≤ s.tide.bnd) ∧
    (let s : State := { edy := aEdy aSweep { sink := 1, sinkBytes := 1048576, buf := [(2, [1])] } aShard, hst := { link := .up } }
     s.hst.link = .up ∧ (strmOf s 3).buf = [(2, [1])] ∧ 0 + 1 ≤ (strmOf s 3).sinkBytes ∧ (strmOf s 3).produced + 1 ≤ (strmOf s 3).consumed + (strmOf s 3).sinkBytes) := by decide +kernel

def aNote : Bytes := natLE 4 7 ++ natLE 4 4 ++ List.replicate 38 0 ++ natLE 2 3 ++ List.replicate 16 0

def aNoticeMsg : CsnMsg := { num := 0, mtype := 0x18, dstEng := 0, dstNode := 1, srcNode := 9, srcEng := 0, cls := 4, ctx := 3, stream := 1, body := aNote ++ natLE 8 4096 ++ natLE 8 8192 }

theorem witness_notice :
    (let s : State := { csn := { engs := [(0, { inbox := [aNoticeMsg] })] }, edy := aEdy aSweep {} { aShard with r := { aShardRec with owner := false } } }
     csnMsg s 0 0 0x18 = some aNoticeMsg ∧ leField aNote 46 2 % 1024 = 3 ∧ leField aNote 0 4 = 7 ∧ (shardOf s 3 7).isSome = true ∧ 0 < qTiles aShardRec 0) ∧
    (let f : Fetch := { note := aNote, node := 9, w := 4096, fp := 8192 }
     let x : Shard := { aShard with r := { aShardRec with owner := false }, fetch := some f, from_ := some (9, 1) }
     let d (a n : Nat) : RsvDone := { by_ := fetchBy 0 a, ctx := 3, addr := a, status := 0, data := List.replicate n 0 }
     let s : State := { rsv := { done := [d 4096 2048, d (4096 + 2048 * qTiles aShardRec 0) 32, d (8192 + 64) 8] }, edy := aEdy aSweep {} x }
     shardOf s 3 7 = some x ∧ copyFetch x none = some f ∧ f.got.length < qTiles x.r 0 ∧ (fetchGot s x.r f).isSome = true ∧ x.from_ ≠ some (f.node, f.w)) := by decide +kernel

theorem witness_audit :
    (let s : State := { edy := { shards := [(3, [{ aShard with r := { aShardRec with rep0 := 2 ^ 37 }, digest := some [1], reps := [{ ready := true }, {}] }])], audits := [{ ctx := 3, shard := 7, rep := 0, digest := [2] }] }, regs := { live := [(regKey 0x5008 1, 1)] } }
     regL s 0x5008 1 15 0 ≠ 0 ∧ (getEdy s 1).sweeps = [] ∧ memStack (2 ^ 37) = 1 ∧ ((2 : Nat) ^ 37) / 2 ^ 48 = 0 ∧ homeOf aShardRec = 0 ∧
     { ctx := 3, shard := 7, rep := 0, digest := [2] } ∈ s.edy.audits ∧ (∀ l ∈ s.edy.shards, ∀ x ∈ l.2, homeOf x.r ≠ 1)) := by decide +kernel

def aTileRec : ShardRec := { aShardRec with elements := 32 }

def aTrl : Bytes := formTrailer {} aTZeros 1 0x20 (qIdent aTileRec 0 0) 0

def aTileState (trl : Bytes) : State := { mem := { data := bwrite [] 67584 trl }, edy := aEdy aSweep {} { aShard with r := aTileRec } }

theorem aTile_facts (trl : Bytes) : (sweepOf (aTileState trl) 0 3 = some aSweep ∧ (ownShards (aTileState trl) 0 3)[aSweep.pos]? = some { aShard with r := aTileRec } ∧
    anySlow aTileRec = false ∧ 0 < granules aTileRec ∧ granTiles aTileRec 0 0 = [0] ∧ qPay aTileRec 0 0 = 65536 ∧ qTrl aTileRec 0 0 = 67584) ∧
    (fastOk (aTileState trl) 65536 2048 && fastOk (aTileState trl) 67584 32 && !(memPoisoned (aTileState trl) 65536 2048) && !(memPoisoned (aTileState trl) 67584 32)) = true := by
  have h : (sweepOf (aTileState []) 0 3 = some aSweep ∧ (ownShards (aTileState []) 0 3)[aSweep.pos]? = some { aShard with r := aTileRec } ∧
    anySlow aTileRec = false ∧ 0 < granules aTileRec ∧ granTiles aTileRec 0 0 = [0] ∧ qPay aTileRec 0 0 = 65536 ∧ qTrl aTileRec 0 0 = 67584) ∧
    (fastOk (aTileState []) 65536 2048 && fastOk (aTileState []) 67584 32 && !(memPoisoned (aTileState []) 65536 2048) && !(memPoisoned (aTileState []) 67584 32)) = true := by
    decide +kernel
  exact h

theorem witness_granuleRuns : tabBack (aTileState []) bEDY 0 3 1 1 = true ∧ Clear (aTileState []) .eddy (granRanges aTileRec 0) ∧ Clear (aTileState []) .estuary (stageRanges aTileRec 0) := by
  refine ⟨by decide +kernel, ?_, ?_⟩
  · rw [show granRanges aTileRec 0 = [(65536, 2048), (67584, 32)] by decide +kernel]
    simp only [Clear, List.mem_cons, List.not_mem_nil, or_false, forall_eq_or_imp, forall_eq]; decide +kernel
  · rw [show stageRanges aTileRec 0 = [(131072, 2048), (133120, 64)] by decide +kernel]
    simp only [Clear, List.mem_cons, List.not_mem_nil, or_false, forall_eq_or_imp, forall_eq]; decide +kernel

theorem before_tile (T : Bytes) (n : Nat) (h : n ≤ 2048) : bread (bwrite [] 67584 T) 65536 n = List.replicate n 0 := by
  apply bread_zero
  intro i _ h2
  rw [bget_bwrite_outside [] T (.inl (by omega))]; rfl

theorem tile_read (T : Bytes) (n : Nat) (h : n ≤ 2048) : memRead (aTileState T) 65536 n = List.replicate n 0 := before_tile T n h

theorem trl_read (T : Bytes) (h : T.length = 32) : memRead (aTileState T) 67584 32 = T := by
  have := bread_bwrite [] 67584 T rfl
  rwa [h] at this

theorem aTile_profile (T : Bytes) : tileProfile (aTileState T) = profile0 := (tileProfile_regs (aTileState T) {} rfl).trans (by decide +kernel)

theorem aTile_verifies (T : Bytes) : verifyTile (aTileState T) { ident := some (qIdent aTileRec 0 0), alive := none, formats := some [qFmt aTileRec 0] } (fitB aTZeros 2048) aTrl = .ok :=
  formTrailer_verifies {} (aTileState T) { ident := some (qIdent aTileRec 0 0), alive := none, formats := some [qFmt aTileRec 0] } aTZeros 1 0x20 (qIdent aTileRec 0 0) 0 (by decide +kernel) (aTile_profile T) (by decide)
    (by decide) (by decide) (by decide +kernel) (by decide +kernel) (by decide +kernel) (by decide +kernel) (by decide) (by decide) (by decide) (by decide)

theorem witness_granule : ∀ i ∈ granTiles aTileRec 0 0, ∃ p tr, memTile (aTileState aTrl) (qPay aTileRec 0 i) (qTrl aTileRec 0 i) = some (p, tr) ∧
    verifyTile (aTileState aTrl) { ident := some (qIdent aTileRec 0 i), alive := none, formats := some [qFmt aTileRec 0] } p tr = .ok := by
  have hl : aTrl.length = 32 := by simp [aTrl, formTrailer, trailerMid, tileProfile]
  have hv := aTile_verifies aTrl
  rw [tzeros_fit] at hv
  generalize aTrl = T at *
  have f := aTile_facts T
  intro i hi
  rw [f.1.2.2.2.2.1] at hi
  obtain rfl := List.mem_singleton.mp hi
  refine ⟨aTZeros, T, ?_, hv⟩
  rw [memTile, f.1.2.2.2.2.2.1, f.1.2.2.2.2.2.2, f.2, tile_read T 2048 (Nat.le_refl _), trl_read T hl, if_pos rfl, aTZeros]

def aEmptyRec : ShardRec := { aShardRec with elements := 0, owner := false }

def aGoodNote : Bytes := natLE 4 7 ++ natLE 4 4 ++ shardDigest aEmptyRec 4 [] ++ List.replicate 24 0

def aEmptyShard (note : Bytes) : Shard := { aShard with r := aEmptyRec, fetch := some { note := note, node := 9, w := 4096, fp := 8192 } }

theorem witness_verify :
    (shardOf { edy := aEdy aSweep {} (aEmptyShard aNote) } 3 7).isSome = true ∧ qTiles aEmptyRec 0 ≤ 0 ∧
    shardDigest aEmptyRec (leField aGoodNote 4 4) [] = sliceB aGoodNote 8 32 ∧ shardDigest aEmptyRec (leField aNote 4 4) [] ≠ sliceB aNote 8 32 := by decide +kernel

def aWCtx : Ctx := { st := .idle, cause := 1 }

theorem witness_replan :
    (let s : State := { ctxs := [(3, aWCtx)] }
     ctxLive (getCtx s 3) = true ∧ updating s 4 = false ∧ replanOk s 3 {} = true ∧ choiceOk s 3 {} {} (movedGroups aWCtx {}) = true ∧ keepsGroups s aWCtx {} = true ∧ stepInProgress (getCtx s 3) = none ∧ aWCtx.holdDue = 0) ∧
    (let x : Ctx := { aWCtx with st := .running, steps := [{ num := 1, st := .running, numChanged := false, updChanged := false, resync := false, hold := false, batch := 0, sequences := 1, maxLen := 1, tokens := 1, tag := 0, sqHead := 0 }] }
     ctxLive x = true ∧ (stepInProgress x).isSome = true) ∧
    (let s : State := { ctxs := [(3, { aWCtx with replan := some {}, moving := some [] })] }
     replanOk s 3 {} = true ∧ ∀ e ∈ ([] : List (Nat × Nat)), sliced s e.1 = false) ∧
    replanOk { ctxs := [(3, aWCtx)] } 3 { tensors := [{ where_ := 0, copies := 0, shards := 0, shard0 := 0, addr := 0 }] } = false ∧
    dieHeld { wsh := { asked := [{ site := 4, slot := 9, why := .heat, bnd := 0 }] } } 4 = false := by decide +kernel

def aRect : Rect := { die := 0, row0 := 0, row1 := 3, col0 := 0, col1 := 3 }

def aPCtx : Ctx := { st := .idle, plan := { rects := [[aRect]] } }

theorem witness_freezes :
    (let s : State := { ctxs := [(3, aPCtx)], tide := { bnd := 300 }, wsh := { notices := [{ site := 0, slot := 9, why := .heat, bnd := 0 }], emerg := [0] } }
     s.wsh.notices.find? (·.site == 0) = some { site := 0, slot := 9, why := .heat, bnd := 0 } ∧ 0 + (if regL s 0x7000 0 15 8 = 0 then 255 else regL s 0x7000 0 15 8) ≤ s.tide.bnd ∧
     3 ∈ ctxsOn s 0 ∧ ctxLive (getCtx s 3) = true ∧ slicedDie s 0 = false) ∧
    (let s : State := { ctxs := [(3, aPCtx)], tide := { bnd := 3 }, wsh := { freezes := [{ site := 0, f := 1, ctxs := [3] }] }, cells := [(0, { prog := some { ctx := 3, slot := 0, num := 0, idx := 0, gang := false, sortmerge := false } })] }
     s.wsh.freezes.find? (·.site == 0) = some { site := 0, f := 1, ctxs := [3] } ∧ ctxRuns s 3 = true) ∧
    (let s : State := { ctxs := [(3, { st := .idle, frozen := some 1 })], tide := { bnd := 3 } }
     replanOk s 3 {} = true ∧ sameShape s 0 [] [] = true) := by decide +kernel

theorem witness_reskew :
    (let s : State := { ctxs := [(3, { st := .idle, plan := { tensors := [{ where_ := 0, copies := 0, shards := 0, shard0 := 0, addr := 0 }] } })], regs := { live := [(regKey 0x7000 0, 3)] }, mem := { conc := [{ stack := 0, tide := 0, pct := 0, banks := [], ctxs := [3], pages := [] }] } }
     bitN (regLive s 0x7000 0) 1 = true ∧ ctxLive (getCtx s 3) = true ∧ sweepsOf s 3 = [] ∧ fastOk s 0 2048 = true ∧ fastOk s 4194304 2048 = true ∧ memStack 4194304 = 0 ∧
     tget? s.wsh.skewAt (3 * 2 ^ 20) = none) ∧ bitN (regLive { regs := { live := [(regKey 0x7000 0, 0)] } } 0x7000 0) 1 = false ∧
    (let s : State := { wsh := { reskews := [{ ctx := 3, tensor := 0, src := 0, dst := 4194304, bytes := 2048 }] } }
     s.wsh.reskews.find? (·.ctx == 3) = some { ctx := 3, tensor := 0, src := 0, dst := 4194304, bytes := 2048 } ∧ stepInProgress (getCtx s 3) = none ∧ memRoom s .internal 0 64 = true ∧ memRoom s .internal 4194304 64 = true) := by decide +kernel

def aPair : Pair := { en := true, sqTail := 1 }

def aDesc (op flags : Nat) : Bytes := [BitVec.ofNat 8 op, BitVec.ofNat 8 flags, 3, 0] ++ List.replicate 60 0

def aDescState (d : Bytes) (x : Ctx) : State := { full := true, slc := { pairs := [(0, { aPair with fetched := [(d, 1)] })] }, ctxs := [(3, x)], hst := { link := .up, cxl := true } }

theorem witness_pairs :
    (let s : State := { slc := { pairs := [(0, { aPair with fetching := 1, posted := [{ tag := 0, ctx := 0, op := 0, status := 0, detail := 0, step := 0, tide := 0, flags := 0, attempts := 0, sqHead := 0 }] })] }, hst := { link := .up, cxl := true }, tide := { bnd := 255 } }
     cacheUp s = true ∧ pairUp (getPair s 0) = true ∧ RingOk (getPair s 0) (List.replicate 8 0) ∧ ¬ RingOk (getPair s 0) (List.replicate 8 255) ∧
     s.slc.pollBnd + max (regL s 0x8028 0 31 24) 1 ≤ s.tide.bnd ∧ (getPair s 0).fetching ≠ 0 ∧ cqUsed (getPair s 0) + 1 ≠ 256 ∧ cbufAll s < 4096 ∧ regL s 0x8014 0 14 14 = 0) ∧
    pairUp {} = false ∧ dOp (aDesc 2 0) = 2 ∧ (aDesc 2 0).length = 64 ∧ regL { regs := { live := [(regKey 0x8014 0, 2 ^ 14)] } } 0x8014 0 14 14 = 1 := by
  unfold RingOk; decide +kernel

theorem witness_admit : let s := aDescState (aDesc 1 0) {}
     Takes s 0 1 (aDesc 1 0) 1 [] ∧ dCtx (aDesc 1 0) = 3 ∧ leField (aDesc 1 0) 2 2 < 1024 ∧ memAddrOk (leField (aDesc 1 0) 8 8) = true ∧ fastBacked (leField (aDesc 1 0) 40 8 + 4095) = true ∧
     leNat (sliceB (aDesc 1 0) 52 12) = 0 ∧ ctxLicensed s 3 = true ∧ (getCtx s 3).st = .free ∧ ctxLicensed {} 300 = false ∧ dFlags (aDesc 1 4) = 4 := by
  unfold Takes; decide +kernel

def aStepDesc : Bytes := [2, 0, 3, 0] ++ List.replicate 16 0 ++ [1, 0, 0, 0, 1, 0, 0, 0] ++ List.replicate 36 0

theorem witness_step : let s := aDescState aStepDesc { st := .idle }
     Takes s 0 2 aStepDesc 1 [] ∧ dCtx aStepDesc = 3 ∧ leField aStepDesc 16 4 = (getCtx s 3).nextStep ∧ leField aStepDesc 20 4 = 1 ∧ leField aStepDesc 24 4 = 1 ∧ leField aStepDesc 28 8 ≤ 1 ∧
     leNat (sliceB aStepDesc 36 28) = 0 ∧ ctxLive (getCtx s 3) = true := by
  unfold Takes; decide +kernel

def aCopyDesc : Bytes := [3, 0, 3, 0] ++ List.replicate 20 0 ++ [64] ++ List.replicate 39 0

theorem witness_copy : let s := aDescState aCopyDesc { st := .idle }
     Takes s 0 3 aCopyDesc 1 [] ∧ leField aCopyDesc 24 8 = 64 ∧ fastBacked (leField aCopyDesc 16 8) = true ∧ leNat (sliceB aCopyDesc 44 20) = 0 ∧ ctxLive (getCtx s 3) = true := by
  unfold Takes; decide +kernel

theorem witness_resume : let s := aDescState (aDesc 4 1) { st := .held }
     Takes s 0 4 (aDesc 4 1) 1 [] ∧ leNat (sliceB (aDesc 4 1) 8 56) = 0 ∧ updating s 4 = false ∧ choiceOk s 3 {} {} (fun _ => true) = true ∧ replanOk s 3 {} = true ∧ imagesOk s (getCtx s 3) {} = true ∧ dFlags (aDesc 4 0) = 0 ∧ dFlags (aDesc 4 2) = 2 ∧ dFlags (aDesc 4 1) = 1 ∧ bitN 1 0 = true := by
  unfold Takes; decide +kernel

def aReadDesc : Bytes := [6, 0, 3, 0] ++ List.replicate 9 0 ++ [1] ++ List.replicate 50 0

def aReadState : State := { aDescState aReadDesc { st := .idle } with cells := [(0, { tags := [(0, { owner := 3 })] })] }

theorem witness_debugRead : Takes aReadState 0 6 aReadDesc 1 [] ∧ cellUsable aReadState (leField aReadDesc 8 4) = true ∧ leField aReadDesc 12 1 = 0 ∧ leField aReadDesc 13 1 = 1 ∧
     leNat (sliceB aReadDesc 24 40) = 0 ∧ (tagOf (getCell aReadState 0) 0).owner = 3 ∧ (tagOf (getCell aReadState 0) 0).st ≠ .poison ∧ (tagOf (getCell aReadState 0) 0).st ≠ .scrub := by
  unfold Takes; decide +kernel

theorem witness_kill : Takes (aDescState (aDesc 5 1) { st := .running }) 0 5 (aDesc 5 1) 1 [] ∧ Takes (aDescState (aDesc 5 0) {}) 0 5 (aDesc 5 0) 1 [] := by
  unfold Takes; decide +kernel

def aGraph0 (crc : Nat) : Bytes :=
  natLE 2 1 ++ natLE 2 1 ++ natLE 4 128 ++ natLE 4 crc ++ natLE 2 1 ++ [1, 0] ++ natLE 4 1 ++ natLE 4 1 ++ natLE 4 0 ++ natLE 4 0 ++ natLE 4 1 ++ natLE 4 0 ++ natLE 8 0 ++ natLE 4 0 ++
  List.replicate 12 0 ++ natLE 4 1 ++ natLE 2 0 ++ [0, 0] ++ natLE 2 1 ++ natLE 2 1 ++ natLE 4 0 ++ natLE 4 0xFFFFFFFF ++ natLE 4 352 ++ natLE 8 16384 ++
  natLE 8 (mkIdent 1 0 0 0) ++ natLE 8 32 ++ List.replicate 16 0

def aGraph : Bytes := aGraph0 474749652

def aImage0 (crc : Nat) : Bytes :=
  natLE 2 1 ++ natLE 2 1 ++ natLE 4 352 ++ natLE 4 1 ++ natLE 2 1 ++ natLE 2 0 ++ natLE 4 crc ++ natLE 4 64 ++ natLE 4 336 ++ natLE 4 337 ++ natLE 4 352 ++ natLE 4 0 ++
  List.replicate 24 0 ++ List.replicate 272 0 ++ List.replicate 16 0

def aImage : Bytes := aImage0 3407640210

def aNumBytes : Bytes :=
  natLE 8 8192 ++ natLE 8 8256 ++ natLE 4 0x3F800000 ++ natLE 4 0x3F800000 ++ natLE 4 0x40000000 ++ natLE 2 0 ++ [1, 0, 1, 0, 0, 0] ++ natLE 4 1 ++ List.replicate 24 0

def aAdmitPlan : Plan := { rects := [[{ die := 29, row0 := 0, row1 := 0, col0 := 0, col1 := 0 }]], tensors := [{ where_ := 0, copies := 0, shards := 0, shard0 := 0, addr := 0 }] }

def aAdmitMem (x y z : Bytes) : Tab Byte := bwrite (bwrite (bwrite [] 4096 x) 12288 y) 16384 z

def aAdmitState : State :=
  { full := true, ctxs := [(3, { st := .admitting, full := true, graph := 4096, numAddr := 12288, updAddr := 32768, report := 65536, save := 131072 })], mem := { data := aAdmitMem aGraph aNumBytes aImage } }

def aNumRec : NumRec := { scaleTable := 8192, healthArea := 8256, ratioWarn := 1065353216, ratioHold := 1065353216, spikeFactor := 1073741824 }

def aAdmitted : State :=
  writeReport 3 aAdmitPlan 0 0 (modCtx 3 (fun x => { x with job := graphOf aGraph, plan := aAdmitPlan }) (modCtx 3 (fun x => { x with num := aNumRec }) aAdmitState))

theorem aGraph_crc : crcOf profile0 (aGraph0 0) = 474749652 := by rw [crcOf_steps]; decide +kernel

theorem aImage_crc : crcOf profile0 (aImage0 0) = 3407640210 := by rw [crcOf_steps]; decide +kernel

theorem aGraph_plain : fitB (aGraph.take 8 ++ List.replicate 4 0 ++ aGraph.drop 12) (leField aGraph 4 4) = aGraph0 0 := by decide +kernel

theorem aImage_plain : fitB (aImage.take 16 ++ List.replicate 4 0 ++ aImage.drop 20) 352 = aImage0 0 := by decide +kernel

theorem witness_numerics : numRecOf (memRead aAdmitState 12288 64) = some aNumRec := by decide +kernel

theorem witness_graphRead : memRead aAdmitState 4096 (graphLen aAdmitState (getCtx aAdmitState 3)) = aGraph := by decide +kernel

theorem witness_head : headOk aAdmitState { getCtx aAdmitState 3 with num := aNumRec } aGraph = true := by
  unfold headOk
  simp only []
  rw [aGraph_plain, aGraph_crc]
  decide +kernel

theorem witness_plan : planOk (modCtx 3 (fun x => { x with num := aNumRec }) aAdmitState) 3 (graphOf aGraph) aAdmitPlan = true ∧ updating aAdmitState 4 = false ∧ ([(12288, 64), (4096, 64), (4096, graphLen aAdmitState (getCtx aAdmitState 3))].filter fun r => slowAddr r.1) = [] ∧ blockBound (graphOf aGraph) aAdmitPlan ≤ 2 ^ aNumRec.headroom ∧
    shardRaws aAdmitted aAdmitPlan = [] := by decide +kernel

theorem witness_choice : choiceOk (modCtx 3 (fun x => { x with num := aNumRec }) aAdmitState) 3 (graphOf aGraph) aAdmitPlan (fun _ => true) = true := by
  unfold choiceOk; rw [witness_plan.1]; decide +kernel

theorem witness_graph : graphBad (modCtx 3 (fun x => { x with num := aNumRec }) aAdmitState) 3 { getCtx aAdmitState 3 with num := aNumRec } aGraph = none := by
  have h : headOk (modCtx 3 (fun x => { x with num := aNumRec }) aAdmitState) { getCtx aAdmitState 3 with num := aNumRec } aGraph = true := witness_head
  unfold graphBad
  simp only [h]
  decide +kernel

def aGroup : GGroup := groupOf (sliceB aGraph 64 32)

theorem aGraph_groups : (graphOf aGraph).groups = [aGroup] ∧ aGroup.progAddr = 16384 ∧ aGroup.progBytes = 352 := by decide +kernel

theorem aAdmitted_image : memRead aAdmitted 16384 352 = aImage := by decide +kernel

theorem witness_imageOk : imageOk aGroup aImage = true := by
  have h := aImage_plain
  have k := aImage_crc
  rw [← aGraph_groups.2.2] at h
  unfold imageOk
  simp only [h, k]
  decide +kernel

theorem witness_image : ∀ k ∈ (graphOf aGraph).groups, imageOk k (memRead aAdmitted k.progAddr k.progBytes) = true := by
  intro k hk
  rw [aGraph_groups.1] at hk
  obtain rfl := List.mem_singleton.mp hk
  rw [aGraph_groups.2.1, aGraph_groups.2.2, aAdmitted_image]
  exact witness_imageOk

theorem witness_images : imagesOk aAdmitted (getCtx aAdmitted 3) aAdmitPlan = true := by
  have hg : (getCtx aAdmitted 3).job.groups = [aGroup] ∧ (getCtx aAdmitted 3).job.relocs = [] := by decide +kernel
  have hr : memRead aAdmitted aGroup.progAddr aGroup.progBytes = aImage := by rw [aGraph_groups.2.1, aGraph_groups.2.2, aAdmitted_image]
  have hi := witness_imageOk
  have hf : imageForm aGroup aImage = true := by decide +kernel
  simp only [imagesOk, patched, hg, List.length_singleton, List.filter_nil, List.foldl_nil]
  simp [hr, hi, hf, List.range_succ]

theorem aBytes_length : aGraph.length = 128 ∧ aNumBytes.length = 64 ∧ aImage.length = 352 := by decide +kernel

theorem aUpd_read (x y z : Bytes) (n : Nat) (hx : x.length = 128) (hy : y.length = 64) (hz : z.length = 352) :
    bread (aAdmitMem x y z) 32768 n = List.replicate n 0 := by
  unfold aAdmitMem
  apply bread_zero
  intro i h1 h2
  rw [bget_bwrite_outside _ z (.inr (by omega)), bget_bwrite_outside _ y (.inr (by omega)), bget_bwrite_outside _ x (.inr (by omega))]
  rfl

theorem aAdmit_mem : aAdmitState.mem.data = aAdmitMem aGraph aNumBytes aImage := by simp only [aAdmitState]

theorem aUpd_at (n : Nat) : memRead aAdmitState 32768 n = List.replicate n 0 := by
  rw [memRead, aAdmit_mem, aUpd_read _ _ _ n aBytes_length.1 aBytes_length.2.1 aBytes_length.2.2]

theorem witness_update : updOk aAdmitState (updRead aAdmitState 32768) = true := by
  unfold updRead
  rw [aUpd_at]; decide +kernel

theorem witness_refused : numRecOf (memRead {} 0 64) = none := by decide +kernel

def aStep (st : StepSt) : Step := { num := 1, st := st, numChanged := false, updChanged := false, resync := false, hold := false, batch := 0, sequences := 1, maxLen := 1, tokens := 1, tag := 5, sqHead := 0 }

def aBatch : Bytes := natLE 4 1 ++ natLE 4 1 ++ natLE 8 1 ++ natLE 4 1

theorem witness_batch : batchOk (aStep .reading) aBatch = true ∧ aBatch.length = 20 ∧ batchOk (aStep .reading) (List.replicate 20 0) = false ∧
    (([aStep .reading].find? fun t => t.num == 1 && t.st == .reading) = some (aStep .reading)) := by decide +kernel

theorem witness_rounds :
    (let s : State := { full := true, ctxs := [(3, { st := .idle, steps := [aStep .queued] })], slc := { roundAt := [(0, 0)] } }
     canStart s 3 = true ∧ atBoundary s = true ∧ atBoundary { s with tide := { s.tide with count := 5 } } = false ∧ cohort s (cohortOf 3 (getCtx s 3)) = [3] ∧ tget? s.slc.roundAt (cohortOf 3 (getCtx s 3)) = some s.tide.bnd ∧ nextQueued (getCtx s 3) = some (aStep .queued)) ∧
    (let s : State := { full := true, ctxs := [(3, { st := .idle, steps := [aStep .queued] }), (4, { st := .idle })], regs := { live := [(regKey 0x8028 0, 100)] } }
     (cohort s 0).filter (canStart s) = [3] ∧ 100 * 1 < max (min (regL s 0x8028 0 6 0) 100) 1 * 2) ∧
    numRecOf (memRead {} 0 64) = none ∧ lastOfWindow { firstStep := 1 } 1 = true ∧ lastOfWindow { firstStep := 1, job := { reds := [{ tensor := 0, group := 0, nsteps := 2, backup := false, conv := false, deadline := 0, fwd := 0 }] } } 1 = false := by
  decide +kernel

def aLDec : Dec := { step := 1, lam := 0, lamDef := false, tokens := 1, skip := false, failed := false, spike := false, ovf := false, hot := false, nf := false, begun := true }

theorem witness_ends :
    (let s : State := { ctxs := [(3, { st := .running, dec := some aLDec, steps := [aStep .sweeping] })] }
     sweepsOf s 3 = [] ∧ (strmOf s 3).tail = none ∧ ((getCtx s 3).steps.find? fun t => t.num == 1 && t.st == .sweeping) = some (aStep .sweeping)) ∧
    (let k : Copy := { qp := 0, tag := 0, ctx := some 3, toHost := false, form := false, host := 0, mem := 4096, bytes := 64, ident := 0, format := 0, alive := 0, sqHead := 0 }
     let s : State := { ctxs := [(3, { st := .idle, copies := [k], steps := [aStep .queued] })], hst := { link := .up } }
     ctxLive (getCtx s 3) = true ∧ (∀ t ∈ (getCtx s 3).steps, seqNewer 32 k.after t.num = false ∨ t.posted = true) ∧ fastOk s 4096 64 = true ∧ memRoom s .host 4096 64 = true) ∧
    (let k : Kill := { slot := 0, zero := false, tag := 9, qp := 0, sqHead := 0 }
     let s : State := { ctxs := [(3, { st := .killing, kill := some k, steps := [aStep .running] })] }
     k.slot ≤ slotNow s ∧ sweepsOf s 3 = []) ∧
    (let s : State := { ctxs := [(3, { st := .running, roll := some { hold := true }, steps := [aStep .running] })] }
     (∀ u ∈ (getCtx s 3).steps, u.st ≠ .sweeping) ∧ ctxLive (getCtx s 3) = true) := by decide +kernel

def aUp : State := { hst := { link := .up, cxl := true, hdm := some (0, 2 ^ 30) }, regs := { live := [(regKey 0xF00C 0, 2 ^ 31)] } }

theorem witness_hostLink :
    aUp.own.windowEnd = none ∧ aUp.own.owner = none ∧ (4 : Nat) ≤ (if regL aUp 0xF004 0 2 0 = 0 ∨ 4 < regL aUp 0xF004 0 2 0 then 4 else regL aUp 0xF004 0 2 0) ∧
    ((2 : Nat) ^ 28 % 2 ^ 28 = 0 ∧ (2 : Nat) ^ 30 ≤ 512 * 2 ^ 30) ∧ leField [2] 0 1 = 2 := by decide +kernel

theorem witness_hostMemory :
    cxlMem aUp = true ∧ tget? aUp.hst.reqs 5 = none ∧ hostMap aUp 0 = some 0 ∧ hostMap aUp (2 ^ 40) = none ∧ (getStk aUp (memStack 0)).queue = [] ∧ guarded aUp 0 64 = false ∧
    guarded { aUp with est := { engs := [(0, { wins := [{ openSlot := 1, step := 1, ctx := 3, rep := true, attempt := 0, nsteps := 1, h := 8, deadline := 2, fwd := 1, tiles := 1, tileTab := 4096, collect := 0, srcTab := 8192, fanTab := 12288, fanCount := 1, ext := some 0 }] })] } } 0 64 = true ∧
    fastOk aUp 64 64 = true := by decide +kernel

def aOwnBody (op target : Nat) : Bytes := natLE 1 op ++ natLE 1 2 ++ natLE 1 7 ++ natLE 1 target ++ natLE 12 0

theorem witness_ownsM (op : Nat) (h : op = 1 ∨ op = 2 ∨ op = 3 ∨ op = 4 ∨ op = 5) : OwnAsks (.mctp (aOwnBody op 1)) op .bmc (aOwnBody op 1) {} {} := by
  refine ⟨⟨rfl, rfl, rfl⟩, rfl, ?_, ?_, fun t h => (by cases h), fun h => (absurd rfl h), (by decide +kernel)⟩ <;> rcases h with rfl | rfl | rfl | rfl | rfl <;> decide +kernel

theorem witness_owned (op : Nat) (h : op = 1 ∨ op = 2 ∨ op = 3 ∨ op = 4 ∨ op = 5) (m : Master) :
    OwnAsks (.mctp (aOwnBody op 1)) op .bmc (aOwnBody op 1) { own := { owner := some m, leaseEnd := 9 } } { own := { owner := some m, leaseEnd := 9 } } := by
  refine ⟨⟨rfl, rfl, rfl⟩, rfl, ?_, ?_, fun t h => (by cases h), fun _ => (by decide : (0 : Nat) < 9), (by decide : 0 < 64)⟩ <;> rcases h with rfl | rfl | rfl | rfl | rfl <;> decide +kernel

theorem witness_malformed : leField (natLE 1 1) 0 1 = 1 ∧ ownLayoutOk .bmc (natLE 1 1) = false ∧ updating {} 1 = false ∧ hostMap { aUp with regs := {} } 0 = none := by decide +kernel

def aLaned (x : Lane) : State := { full := true, csn := { engs := [(0, { lanes := [(0, x)] })] }, regs := { live := [(regKey 0xC000 0, 0x00020001)] } }

theorem witness_laneEnable : 2 < { aLaned {} with bst := { step := 3 } }.bst.step ∧ engOn { aLaned {} with bst := { step := 3 } } 0 = true ∧ tideFirst (aLaned { st := .down }) 0 0 = false ∧
    tideFirst (aLaned { st := .down }) 0 1 = true ∧ (getLane (aLaned { st := .range }) 0 0).rxBlk.length < 8 ∧ engOn (aLaned {}) 0 = true ∧ engOn (aLaned { st := .down }) 0 = true ∧ nodeId (aLaned { st := .down }) ≠ 0 ∧ (getLane (aLaned { st := .down }) 0 0).hold = false ∧
    (getLane (aLaned {}) 0 0).st = .disabled ∧ (getLane {} 63 15).st = .disabled ∧ engOn { full := true } 63 = true := by decide +kernel

theorem witness_laneStates : (getLane (aLaned { st := .detect }) 0 0).st = .detect ∧ -1200 < (BitVec.ofInt 16 (-1199)).toInt ∧ (getLane (aLaned { st := .train }) 0 0).st = .train ∧
    laneAligned (getLane (aLaned { st := .range }) 0 0) = true ∧ laneAligned (getLane (aLaned { st := .retrain }) 0 0) = true ∧
    laneBudget (aLaned { st := .detect }) (getLane (aLaned { st := .detect }) 0 0) = some (msTicks 100, 1) ∧
    laneBudget (aLaned { st := .qualify }) (getLane (aLaned { st := .qualify }) 0 0) = some (msTicks 20000, 10) := by decide +kernel

theorem witness_range_good : ∃ rtt, 49 ≤ delay2 rtt 0 0 0 ∧ 5 * delay2 rtt 0 0 0 ≤ 196000 := ⟨49 + Config.txLatency.toNat + Config.rxLatency.toNat, by simp only [delay2]; omega, by simp only [delay2]; omega⟩

theorem witness_range_long : ∃ rtt, 196000 < 5 * delay2 rtt 0 0 0 := ⟨39201 + Config.txLatency.toNat + Config.rxLatency.toNat, by simp only [delay2]; omega⟩

theorem witness_range_short : delay2 0 0 0 0 < 49 := by simp only [delay2]; omega

def aCapRecord (ver : Nat) : Bytes :=
  natLE 2 ver ++ natLE 2 5 ++ natLE 1 3 ++ natLE 1 1 ++ natLE 2 0xFFFF ++ natLE 4 77 ++ natLE 4 0 ++ sliceB (capRecord (aLaned {}) 0) 16 18 ++ natLE 2 0x7F ++ natLE 4 8 ++ natLE 2 4096 ++ natLE 22 0

theorem witness_caps : (aCapRecord 1).length = 64 ∧ (aCapRecord 2).length = 64 ∧ capBad (aLaned { st := .caps }) 0 0 (aCapRecord 1) = none ∧
    capBad (aLaned { st := .caps }) 0 0 (aCapRecord 2) = some 4 := by decide +kernel

theorem witness_qualify : (getLane (aLaned { st := .qualify }) 0 0).st = .qualify ∧ (getLane (aLaned { st := .qualify }) 0 0).recal = false ∧ -700 ≤ (BitVec.ofInt 16 (-700)).toInt ∧
    (350#16).toInt ≤ 350 ∧ shortDwell (aLaned { st := .qualify }) (getLane (aLaned { st := .qualify }) 0 0) = false := by decide +kernel

theorem witness_monitor : (getLane (aLaned { st := .ready }) 0 0).st = .ready := by decide +kernel

def aDataBody (ftype off : Nat) (p : Bytes) : Bytes := natLE 2 (ftype * 4096) ++ natLE 2 0xFFF ++ natLE 1 off ++ natLE 3 0 ++ fitB p 240

def aFlit (crc ftype off : Nat) (p : Bytes) : Bytes := aDataBody ftype off p ++ natLE 8 crc

def aMsg : CsnMsg := { mtype := 3, dstEng := 0, dstNode := 1, srcNode := 5, srcEng := 3, cls := 0, ctx := 0, stream := 0, body := natLE 8 0x800000001 }

def aMsgBytes : Bytes := csnHeader aMsg ++ aMsg.body

theorem aFlit_parts (crc ftype off : Nat) (p : Bytes) : (aFlit crc ftype off p).drop 248 = natLE 8 crc ∧ (aFlit crc ftype off p).take 248 = aDataBody ftype off p ∧
    (aFlit crc ftype off p).length = 256 := by
  have h : (aDataBody ftype off p).length = 248 := by simp [aDataBody]
  exact ⟨by rw [aFlit, List.drop_left' h], by rw [aFlit, List.take_left' h], by simp [aFlit, h]⟩

theorem aNullTail : crcOf profileXZ (aDataBody 1 15 []) = 4128501329094919510 := by rw [crcOf_steps]; decide +kernel

theorem aMsgTail : crcOf profileXZ (aDataBody 1 0 aMsgBytes) = 7688324045684165994 := by rw [crcOf_steps]; decide +kernel

theorem aTideTail : crcOf profileXZ (aDataBody 3 0 (natLE 1 4 ++ natLE 1 7 ++ natLE 1 1)) = 4010442470368945996 := by rw [crcOf_steps]; decide +kernel

theorem aFlit_good (crc ftype off : Nat) (p : Bytes) (h : crcOf profileXZ (aDataBody ftype off p) = crc) (hc : crc < 2 ^ 64) :
    leNat ((aFlit crc ftype off p).drop 248) = crcOf profileXZ ((aFlit crc ftype off p).take 248) := by
  rw [(aFlit_parts crc ftype off p).1, (aFlit_parts crc ftype off p).2.1, h, leNat_natLE 8 crc (by simpa using hc)]

theorem witness_flit_good : leNat ((aFlit 4128501329094919510 1 15 []).drop 248) = crcOf profileXZ ((aFlit 4128501329094919510 1 15 []).take 248) ∧
    leNat ((aFlit 7688324045684165994 1 0 aMsgBytes).drop 248) = crcOf profileXZ ((aFlit 7688324045684165994 1 0 aMsgBytes).take 248) ∧
    leNat ((aFlit 4010442470368945996 3 0 (natLE 1 4 ++ natLE 1 7 ++ natLE 1 1)).drop 248) = crcOf profileXZ ((aFlit 4010442470368945996 3 0 (natLE 1 4 ++ natLE 1 7 ++ natLE 1 1)).take 248) :=
  ⟨aFlit_good _ _ _ _ aNullTail (by decide), aFlit_good _ _ _ _ aMsgTail (by decide), aFlit_good _ _ _ _ aTideTail (by decide)⟩

theorem witness_flit_bad : leNat ((aFlit 0 1 15 []).drop 248) ≠ crcOf profileXZ ((aFlit 0 1 15 []).take 248) := by
  rw [(aFlit_parts 0 1 15 []).1, (aFlit_parts 0 1 15 []).2.1, aNullTail]; decide

theorem witness_flit_fields : leField (aFlit 4128501329094919510 1 15 []) 0 2 / 4096 = 1 ∧ leField (aFlit 4128501329094919510 1 15 []) 0 2 % 4096 = 0 ∧
    bitN (leField (aFlit 4128501329094919510 1 15 []) 2 2) 12 = false ∧ leField (aFlit 4128501329094919510 1 15 []) 4 1 = 15 ∧ leField (aFlit 0 1 0 aMsgBytes) 4 1 = 0 ∧
    (∀ k < 16, (getLane (aLaned { st := .ready }) 0 k).recal = false) := by decide +kernel

theorem aMsg_crc : crcOf profile3740 ((csnHeader aMsg).take 14) = 42000 := by rw [crcOf_steps]; decide +kernel

theorem witness_flit_msg : leField aMsgBytes 14 2 = 42000 ∧ aMsgBytes.take 14 = (csnHeader aMsg).take 14 ∧ typeClass (leField aMsgBytes 0 1) (leField aMsgBytes 7 1 % 8) = true ∧ msgLen aMsgBytes ≤ 240 ∧
    leField ((fitB aMsgBytes 240).drop ((msgLen aMsgBytes + 15) / 16 * 16)) 0 1 = 0 ∧ (msgOf (aMsgBytes.take (msgLen aMsgBytes))).cls = 0 ∧
    (msgOf (aMsgBytes.take (msgLen aMsgBytes))).dstNode = nodeId (aLaned { st := .ready }) ∧ (msgOf (aMsgBytes.take (msgLen aMsgBytes))).mtype = 3 := by decide +kernel

theorem witness_tideFlit : leField (aFlit 0 3 0 (natLE 1 4 ++ natLE 1 7 ++ natLE 1 1)) 0 2 / 4096 = 3 ∧ leField (aFlit 0 3 0 (natLE 1 4 ++ natLE 1 7 ++ natLE 1 1)) 9 1 = 7 ∧
    leField (aFlit 0 3 0 (natLE 1 4 ++ natLE 1 7 ++ natLE 1 1)) 10 1 % 8 = 1 ∧ regL {} 0x9000 0 9 4 = 0 ∧ regL {} 0x9000 0 13 10 = 0 ∧ ({} : State).tide.flitSent = false ∧
    (getLane (aLaned { st := .ready, tideSeen := some (7, 0), partner := some (partnerOf (aCapRecord 1)) }) 0 0).tideSeen = some (7, 0) ∧ laneAligned (getLane (aLaned { st := .ready }) 0 0) = true := by decide +kernel

theorem witness_replay : (getLane (aLaned { st := .ready, resends := 7, replay := [(0, 0, { msg := aMsg, off := 0, last := true, data := [] })] }) 0 0).replay = (0, 0, { msg := aMsg, off := 0, last := true, data := [] }) :: [] ∧
    (getLane (aLaned { st := .retrain, replay := [(0, 0, { msg := aMsg, off := 0, last := true, data := [] })] }) 0 0).resends < 7 := by decide +kernel

def aStreams (mtype : Nat) (body : Bytes) (st : LaneSt) (asked : Bool) : State :=
  { full := true, csn := { engs := [(0, { lanes := [(0, { st := st })], downAt := some 0, inbox := [{ aMsg with mtype := mtype, body := body }], tx := [{ node := 5, eng := 3, cls := 1, ctx := 3, id := if asked then none else some 9, asked := asked, refused := if asked then none else some 4, sent := 1 }], rx := [{ id := 9, node := 5, eng := 3, cls := 1, ctx := 3, credit := 8, owed := 2 }] })] } }

theorem witness_open : csnMsg (aStreams 1 [1, 0, 3, 0, 0, 0, 0, 0] .ready false) 0 0 1 = some { aMsg with mtype := 1, body := [1, 0, 3, 0, 0, 0, 0, 0] } ∧ ctxLicensed (aStreams 1 [] .ready false) 3 = true ∧
    bufHeld (getEng (csnTake 0 0 (aStreams 1 [1, 0, 3, 0, 0, 0, 0, 0] .ready false)) 0) + max 8 (regL (aStreams 1 [] .ready false) 0xC004 0 27 20) ≤ 131072 ∧
    ((List.range 4096).find? fun k => k != 0 && !((getEng (csnTake 0 0 (aStreams 1 [1, 0, 3, 0, 0, 0, 0, 0] .ready false)) 0).rx.any (·.id == k))) = some 1 ∧
    csnMsg (aStreams 1 [] .ready false) 0 0 1 = some { aMsg with mtype := 1, body := [] } := by decide +kernel

theorem witness_grantN : csnMsg (aStreams 2 (natLE 2 9 ++ natLE 2 3 ++ natLE 4 8) .ready true) 0 0 2 = some { aMsg with mtype := 2, body := natLE 2 9 ++ natLE 2 3 ++ natLE 4 8 } ∧
    ((getEng (aStreams 2 [] .ready true) 0).tx.find? fun t => t.asked && t.node == aMsg.srcNode && t.eng == aMsg.srcEng && t.ctx % 1024 == leField (natLE 2 9 ++ natLE 2 3 ++ natLE 4 8) 2 2) =
      some { node := 5, eng := 3, cls := 1, ctx := 3, asked := true, sent := 1 } ∧
    leField (natLE 2 9 ++ natLE 2 3 ++ natLE 4 8) 4 4 ≠ 0 ∧ leField (natLE 2 9 ++ natLE 2 3) 4 4 = 0 := by decide +kernel

theorem witness_retry : (getEng (aStreams 2 [] .ready false) 0).tx[0]? = some { node := 5, eng := 3, cls := 1, ctx := 3, id := some 9, refused := some 4, sent := 1 } := by decide +kernel

theorem witness_credit : csnMsg (aStreams 3 (natLE 4 9 ++ natLE 4 1) .ready false) 0 0 3 = some { aMsg with mtype := 3, body := natLE 4 9 ++ natLE 4 1 } ∧ (natLE 4 9 ++ natLE 4 1 : Bytes).length = 8 ∧
    ((getEng (aStreams 3 [] .ready false) 0).tx.find? fun t => t.id == some (leField (natLE 4 9 ++ natLE 4 1) 0 2) && t.node == aMsg.srcNode && t.eng == aMsg.srcEng) =
      some { node := 5, eng := 3, cls := 1, ctx := 3, id := some 9, refused := some 4, sent := 1 } := by decide +kernel

theorem witness_return : linkReady (aStreams 3 [] .ready false) 0 = true ∧ (∃ r ∈ (getEng (aStreams 3 [] .ready false) 0).rx, 0 < r.owed) := by decide +kernel

theorem witness_close : csnMsg (aStreams 4 [9, 0, 2, 0] .ready false) 0 0 4 = some { aMsg with mtype := 4, body := [9, 0, 2, 0] } ∧ leField [9, 0, 2, 0] 2 1 = 2 ∧ leField [9, 0, 0, 0] 2 1 ≠ 2 ∧
    ((getEng (aStreams 4 [] .ready false) 0).rx.find? fun r => r.id == 9 && r.node == aMsg.srcNode && r.eng == aMsg.srcEng) = some { id := 9, node := 5, eng := 3, cls := 1, ctx := 3, credit := 8, owed := 2 } := by decide +kernel

theorem witness_link : readyLanes (aStreams 4 [] .ready false) 0 ≠ [] ∧ (getLane (aStreams 4 [] .ready false) 0 0).closing = false ∧ (getEng (aStreams 4 [] .down false) 0).downAt = some 0 ∧
    linkReady (aStreams 4 [] .down false) 0 = false := by decide +kernel

def aTesting (b : Bst) : State := { bst := { b with ready := true }, regs := { live := [(regKey 0x10004 0, 1), (regKey 0x10008 0, 1)] } }

theorem witness_durable : (aTesting { undurable := true }).bst.undurable = true := rfl

theorem witness_slice : sliceFree (aTesting {}) (headOf 0) = true ∧ sliceFree (aTesting {}) (headOf 63999) = true ∧ (aTesting {}).bst.suspect = [] := by decide +kernel

theorem witness_sliced : sliceOf (aTesting { slices := [{ head := headOf 0, bnd := 0, st := .save }] }) (headOf 0) = some { head := headOf 0, bnd := 0, st := .save } ∧
    sliceOf (aTesting { slices := [{ head := headOf 0, bnd := 0, st := .test }] }) (headOf 0) = some { head := headOf 0, bnd := 0, st := .test } ∧
    sliceOf (aTesting { slices := [{ head := headOf 0, bnd := 0, st := .restored }] }) (headOf 0) = some { head := headOf 0, bnd := 0, st := .restored } ∧
    0 + max (regL (aTesting {}) 0x10004 0 7 4) 2 ≤ 8 ∧ (∀ l ∈ ([0, 15].map fun i => (clusterCells (headOf 0)).getD i 0), physValid (physOf (aTesting {}) l) = true) ∧
    bitN (regLive (aTesting {}) 0x10004 0) 0 = true := by decide +kernel

theorem witness_dieTest : (aTesting { tests := [{ site := 3 }] }).bst.tests.find? (·.site == 3) = some { site := 3 } ∧ slicedDie (aTesting { tests := [{ site := 3 }] }) 3 = false ∧
    siteAvail (aTesting {}) 3 = true ∧ siteAvail { aTesting {} with net := { out := [(3, [.dieTest])] } } 3 = false ∧
    OutWhy.dieTest ∈ siteReasons { aTesting {} with net := { out := [(3, [.dieTest])] } } 3 := by decide +kernel

theorem witness_recover : siteDie { aTesting {} with net := { dieHoles := [3] } } 3 = some 3 ∧ siteFailed { aTesting {} with net := { dieHoles := [3] } } 3 = true ∧
    bitN (regLive (aTesting {}) 0x10008 0) 0 = true ∧ siteReasons (aTesting {}) 10 = [.oxbowIdle] ∧ dieSite (aTesting {}) 3 = 3 := by decide +kernel

theorem witness_recovery : tget? (aTesting { recov := [(0, { ldie := 3, step := 5 })] }).bst.recov 0 = some { ldie := 3, step := 5 } ∧ siteAvail (aTesting {}) 10 = false ∧
    siteAvail { aTesting {} with net := { out := [(10, [])] } } 10 = true := by decide +kernel

def aObj (kind sub : Nat) (body : Bytes) : Bytes := objOf kind 0 sub Config.serial.toNat 0 [] [] body

def aVerifying (b : Bytes) : State := { hdw := { obj := some { obj := b, act := true, slot := 0 }, rekey := some .ready } }

theorem witness_object_checked (hkey : digest32 (fitB [] 68) = Config.vendorDigest 0)
    (hsig : ∀ kind sub body, Config.xmssVerify (fitB [] 68) (oHead (aObj kind sub body)) (fitB [] 2820) = true) :
    objCheck (aVerifying (aObj 1 3 [])) (aObj 1 3 []) = 0 ∧ objCheck (aVerifying (aObj 2 0 (List.replicate 16 0))) (aObj 2 0 (List.replicate 16 0)) = 0 ∧
    objCheck (aVerifying (aObj 3 0 (List.replicate 16 0))) (aObj 3 0 (List.replicate 16 0)) = 0 ∧
    objCheck (aVerifying (aObj 4 0 (rekeyRequest (aVerifying [])))) (aObj 4 0 (rekeyRequest (aVerifying []))) = 0 ∧
    objCheck (aVerifying (aObj 5 0 [1])) (aObj 5 0 [1]) = 0 := by
  refine ⟨objOf_checked (by decide) (by decide) (by decide) (by decide) (by decide) trivial hkey (hsig _ _ _) rfl rfl,
    objOf_checked (by decide) (by decide) (by decide) (by decide) (by decide) (⟨rfl, by decide +kernel, by decide +kernel⟩) hkey (hsig _ _ _) rfl rfl,
    objOf_checked (by decide) (by decide) (by decide) (by decide) (by decide) (rfl) hkey (hsig _ _ _) rfl rfl,
    objOf_checked (by decide) (by decide) (by decide) (by decide) ?_ ?_ hkey (hsig _ _ _) rfl rfl,
    objOf_checked (by decide) (by decide) (by decide) (by decide) (by decide) (⟨rfl, by decide +kernel⟩) hkey (hsig _ _ _) rfl rfl⟩ <;> simp [rekeyRequest]

theorem witness_object_now : objNow (aVerifying []) (aObj 1 3 []) = true ∧ objFree (aVerifying []) (aObj 1 3 []) = true ∧ objNow (aVerifying []) (aObj 2 0 []) = true ∧
    objNow (aVerifying []) (aObj 5 0 [1]) = true ∧ objNow { hdw := { revoked := [0, 2, 3] } } (aObj 5 0 [1]) = false ∧ objFree { hdw := { licNext := some ([], 0) } } (aObj 2 0 []) = false := by decide +kernel

theorem witness_object_rekey : objNow (aVerifying []) (aObj 4 0 (rekeyRequest (aVerifying []))) = true := by
  simp [objNow, aObj, objOf_kind, objOf_body, aVerifying]

theorem witness_object_refused : updating (aVerifying []) 1 = false ∧ objCheck (aVerifying []) [] = 1 := by decide +kernel

def aUpdating (a : Option Nat) : State := { hdw := { updates := [(1, { bank := 1, slot := 0, bnd := 0, act := true, startAt := a })] }, tide := { bnd := 1 } }

theorem witness_updateP : tget? (aUpdating none).hdw.updates 1 = some { bank := 1, slot := 0, bnd := 0, act := true, startAt := none } ∧ activatable (aUpdating none) 1 = true ∧
    slotNow (aUpdating none) = 0 ∧ (aUpdating none).tide.bnd = 1 := by decide

theorem witness_licence : ({ hdw := { licNext := some (aObj 2 0 [1], 0) }, tide := { bnd := 1 } } : State).hdw.licNext = some (aObj 2 0 [1], 0) ∧
    leField (oBody (aObj 2 0 [1])) 0 1 = 1 ∧ leField (oBody (aObj 2 0 [0])) 0 1 ≠ 1 := ⟨rfl, by rw [aObj, objOf_body]; decide, by rw [aObj, objOf_body]; decide⟩

theorem witness_loader : ({ bst := { step := 15 }, hdw := { stopped := [1] } } : State).bst.step = 15 ∧ oKind [] ≠ 1 ∧ oKind (aObj 1 1 []) = 1 ∧ oSub (aObj 1 1 []) = 1 :=
  ⟨rfl, by decide, objOf_kind (by decide), objOf_sub (by decide)⟩

theorem witness_loader_refused : objCheck { bst := { step := 15 }, hdw := { stopped := [1] } } (natLE 4 0 ++ [1, 0, 1, 0]) = 1 ∧ oKind (natLE 4 0 ++ [1, 0, 1, 0]) = 1 ∧ oSub (natLE 4 0 ++ [1, 0, 1, 0]) = 1 := by decide +kernel

def aRekey : State := { hdw := { rekey := some (.building 0) } }

def aAsked (op : Nat) : State := { hdw := { attest := [[1, BitVec.ofNat 8 op] ++ List.replicate 38 0], rekey := some .ready, requests := [(1, [7])], next := 5 }, bst := { step := 3 } }

theorem witness_rekey : tget? aRekey.hdw.requests 1 = none ∧ aRekey.hdw.next % 64 = 0 ∧ min (64 * (aRekey.hdw.next / 64 + 3)) (2 ^ 20) < 2 ^ 20 ∧
    2 ^ 20 ≤ min (64 * (aRekey.hdw.next / 64 + 16384)) (2 ^ 20) ∧ (tget? ({ hdw := { requests := [(1, [7])] } } : State).hdw.requests 1).isSome = true := by decide

theorem witness_attest : attBad [] = true ∧ attBad ([1, 1] ++ List.replicate 38 0) = false ∧ attBad ([1, 2] ++ List.replicate 38 0) = false ∧ attBad ([1, 3] ++ List.replicate 38 0) = false ∧
    attNotReady (aAsked 1) = false ∧ attNotReady {} = true ∧ (signedDay (aAsked 1)).length < max (regL (aAsked 1) 0xB024 0 12 0) 1 ∧ (aAsked 1).hdw.next < 16383 * 64 ∧
    tget? (aAsked 3).hdw.requests 1 = some [7] ∧ max (regL { aAsked 1 with hdw := { signedAt := List.replicate 9000 0 } } 0xB024 0 12 0) 1 ≤ 9000 := by decide +kernel

theorem witness_scan : ({} : State).hdw.scan = .out ∧ ({ hdw := { scan := .clearing 0 } } : State).hdw.scan = .clearing 0 := ⟨rfl, rfl⟩

def aLev (l : Lev) : State := { lev := { l with power := .on } }

def aRead (v : Int) (failed : Bool) (good : Nat) : Reading := { val := v, at_ := 0, failed := failed, good := good }

theorem witness_sensor : plausible (.die 0 0) (reading {} (.die 0 0)) 500 0 = true ∧ sensorFailed {} (.die 0 0) = false ∧ plausible (.die 0 0) (reading {} (.die 0 0)) 1501 0 = false ∧
    reading (aLev { readings := [(.die 0 0, aRead 500 true 0)] }) (.die 0 0) = some (aRead 500 true 0) ∧ plausible (.die 0 0) (some (aRead 500 true 0)) 501 150000000 = true ∧
    0 + msTicks 1000 ≤ 150000000 ∧ reading (aLev { readings := [(.flow 0, aRead 500 false 0)] }) (.flow 0) = some (aRead 500 false 0) ∧ sensorTimeout (.flow 0) = some (msTicks 100) := by decide +kernel

theorem witness_standby : ({} : State).lev.power = .standby ∧ ({} : State).lev.gate = none ∧ ({ lev := { gate := some 0 } } : State).lev.gate = some 0 := ⟨rfl, rfl, rfl⟩

theorem witness_supply : voltNow (aLev { readings := [(.volt 0, aRead 4800 false 0)] }) = some 4800 ∧ voltNow (aLev { readings := [(.volt 0, aRead 4700 false 0)], coolant := [(6, 0)] }) = some 4700 ∧
    ampNow (aLev { readings := [(.amp 1, aRead 7201 false 0)] }) = some 7201 ∧ tget? (aLev { coolant := [(7, 0), (8, 0)] }).lev.coolant 7 = some 0 ∧ tget? (aLev { coolant := [(7, 0), (8, 0)] }).lev.coolant 8 = some 0 ∧
    tget? (aLev { coolant := [(6, 0)] }).lev.coolant 6 = some 0 := by decide +kernel

theorem witness_throttle : 8 ≤ (aLev { overs := 8 }).lev.overs ∧ 9000 < coolantLimit (aLev { overs := 8 }) ∧ coolantLimit (aLev { overs := 8, throttle := 16, flowLimit := 9000 }) ≤ 9000 ∧
    64 ≤ (aLev { under := 64 }).lev.under := by decide

theorem witness_coolant : ∀ row : Fin 6, tget? (aLev { coolant := (List.range 6).map fun k => (k, 0) }).lev.coolant row = some 0 := by decide

theorem witness_shutdown : ({ lev := { power := .stopping 0 0 }, tide := { bnd := 1 } } : State).lev.power = .stopping 0 0 ∧ (0 : Nat) < 1 ∧ ({ bst := { undurable := true } } : State).bst.undurable = true := by decide

theorem witness_rise : updating (aLev { hot := [(1, 0), (2, 7)] }) 2 = false ∧ updating (aLev { hot := [(2, 0)] }) 2 = false ∧ riseTo (aLev { hot := [(1, 0), (2, 7)] }) 0 = some (1, 1500000) ∧ riseTo (aLev { hot := [(2, 0)] }) 0 = some (2, 1500000) ∧ riseTo (aLev { hot := [(3, 0)] }) 0 = some (3, 15000) ∧
    siteAvail (aLev { hot := [(2, 0)] }) 0 = true ∧ canLose (aLev { hot := [(2, 0)] }) 0 = true ∧ riseTo (aLev { hot := [(8 * 151 + 3, 0)] }) 151 = some (3, 15000) := by decide +kernel

theorem witness_rise_kept : canLose { wsh := { asked := [{ site := 1, slot := 0, why := .heat, bnd := 0 }, { site := 2, slot := 0, why := .heat, bnd := 0 }] } } 0 = false := by decide +kernel

theorem witness_fall : tget? ({ lev := { cool := [(0, 0)] }, net := { heat := [(0, 2)] } } : State).lev.cool 0 = some 0 ∧
    forcedLevel { lev := { cool := [(0, 0)] }, net := { heat := [(0, 2)] } } 0 < heatLevel { lev := { cool := [(0, 0)] }, net := { heat := [(0, 2)] } } 0 := by decide +kernel

theorem witness_trip : tget? (aLev { hot := [(4, 0), (8 * 151 + 4, 0)] }).lev.hot 4 = some 0 ∧ heatLevel (aLev { hot := [(4, 0), (8 * 151 + 4, 0)] }) 0 ≠ 4 ∧
    tget? (aLev { hot := [(4, 0), (8 * 151 + 4, 0)] }).lev.hot (8 * 151 + 4) = some 0 := by decide +kernel

theorem witness_stack_heat : tget? (aLev { stackHot := [(0, 0)] }).lev.stackHot 0 = some 0 ∧ stackUp (aLev { stackHot := [(0, 0)] }) 0 = true ∧
    tget? (aLev { stackOk := [(0, 0)], selfRef := [0] }).lev.stackOk 0 = some 0 ∧ 0 ∈ (aLev { stackOk := [(0, 0)], selfRef := [0] }).lev.selfRef := by decide

theorem witness_fault : (aLev {}).lev.power = .on ∧ tget? (aLev {}).lev.region 0 = none ∧ isOxbow 0 = false := by decide

theorem witness_reenable : tget? (aLev { region := [(0, 1)], carrierOk := [(0, 0)], offAt := [(0, 0)], tripped := [0] }).lev.region 0 = some 1 ∧ slotNow (aLev {}) < (1#50).toNat ∧
    0 ∈ (aLev { region := [(0, 1)], carrierOk := [(0, 0)], offAt := [(0, 0)], tripped := [0] }).lev.tripped ∧ 0 ∉ (aLev { region := [(0, 1)], carrierOk := [(0, 0)], offAt := [(0, 0)] }).lev.tripped := by decide

theorem witness_host_write (s : State) (off val : Nat) (hp : pathOpen s .host = true) (ho : off < 2 ^ 24) (ha : off % 4 = 0) (hv : val < 2 ^ 32) :
    Writes (.host (BitVec.ofNat 24 off) 4 (BitVec.ofNat 64 val)) s .host off val (2 ^ 32 - 1) s := by
  have h1 : (BitVec.ofNat 24 off).toNat = off := (BitVec.toNat_ofNat off 24).trans (Nat.mod_eq_of_lt ho)
  refine ⟨rfl, hp, rfl, h1, ha, ?_, rfl, rfl⟩
  simp only [BitVec.toNat_ofNat]
  omega

def aRegWrite (off val : Nat) : Bytes := natLE 2 5 ++ natLE 2 12 ++ natLE 4 9 ++ natLE 4 off ++ natLE 4 val ++ natLE 4 0xFFFFFFFF

theorem witness_mctp_write : Writes (.mctp (aRegWrite 0x14 7)) {} .bmc 0x14 7 0xFFFFFFFF (regMsg (.mctp (aRegWrite 0x14 7)) {}).2 := by
  refine ⟨{ m := .bmc, path := none, op := 5, tag := 9, data := natLE 4 0x14 ++ natLE 4 7 ++ natLE 4 0xFFFFFFFF }, natLE 4 0x14 ++ natLE 4 7 ++ natLE 4 0xFFFFFFFF, ?_, ?_, ?_, ?_, rfl, ?_, ?_, ?_, ?_, ?_⟩ <;>
    first | decide +kernel | rfl

def ownedR (s : State) : State := { s with bst := { s.bst with ready := true, step := 10 }, hst := { link := .up, cxl := true }, own := { owner := some .host, leaseEnd := 1000 } }

theorem witness_ownedR (s : State) (h : s.now = 0) : Owns (ownedR s) .host ∧ pathOpen (ownedR s) .host = true := ⟨⟨rfl, by rw [show (ownedR s).now = 0 from h]; exact (by decide : 0 < 1000), rfl⟩, rfl⟩

theorem witness_plain : plainWrite 0x14 7 = true ∧ regAt 0x14 ≠ none ∧ regAt 0x18 = none ∧ (regAt 0x3000).map (·.view) = some true ∧ (regAt 0x14).map (·.view) = some false ∧ hostOnly 0x14 = false ∧
    hostOnly 0xF018 = true ∧ isOwner (ownClock {}) .host = false ∧ plainWrite 0x18 7 = true ∧ plainWrite 0x3000 7 = true ∧ plainWrite 0xF018 7 = true ∧ plainWrite 0x801000 7 = true ∧
    instOf (ownedR {}) .host .none = some 0 ∧ instOf { ownedR {} with regs := { view := [(0xA014 * 4 + 1, 200)] } } .host .levRegion = none := by decide +kernel

theorem witness_taken : staticNow (ownedR {}) 0x14 0 (rw' 31 0 .l 0) = false ∧ regBad (ownedR {}) 0x14 0 7 = false ∧
    regBad (ownedR {}) 0x4004 0 1999 = true ∧ (∀ f ∈ ((regAt 0x4004).map (·.fields)).getD [], staticNow (ownedR {}) 0x4004 0 f = false) ∧
    (∀ f ∈ ((regAt 0x7014).map (·.fields)).getD [], staticNow { ownedR {} with ctxs := [(0, { st := .running })] } 0x7014 0 f = true) := by decide +kernel

theorem witness_link_writes : instOf { ownedR {} with regs := { view := [(0xE004 * 4 + 1, 3)] } } .host .chkProf = some 3 ∧ bitN (regWritten (ownedR {}) 0xE008 3) 12 = false ∧
    profOk (regPut (ownedR {}) 0xE008 3 0x1720) 3 = true ∧ profOk (regPut (ownedR {}) 0xE008 3 0x1741) 3 = false ∧ instOf (ownedR {}) .host .chkUnit = some 0 ∧ tget? (ownedR {}).chk.bound 0 = none ∧
    instOf (ownedR {}) .host .memStk = some 0 ∧ (getStk (ownedR {}) 0).st ≠ .unavailable ∧ instOf (ownedR {}) .host .rsvWin = some 0 ∧ bitN (regWritten (ownedR {}) 0xD010 0) 31 = false ∧
    instOf (ownedR {}) .host .rsvExp = some 0 ∧ bitN (regWritten (ownedR {}) 0xD02C 0) 17 = false ∧ winOk (regPut (ownedR {}) 0xD010 0 (2 ^ 31)) 0 = false ∧ expOk (regPut (ownedR {}) 0xD02C 0 (2 ^ 17)) 0 = false := by decide +kernel

def aWinRegs : State := { ownedR {} with full := true, regs := { written := [(regKey 0xD008 0, 0x4000), (regKey 0xD00C 0, 1), (regKey 0xD028 0, 1)] } }

theorem witness_windows : winOk (regPut aWinRegs 0xD010 0 (2 ^ 31 + 1)) 0 = true ∧ expOk (regPut aWinRegs 0xD02C 0 (2 ^ 17)) 0 = true := by decide +kernel

theorem witness_pairsR : (getPair (ownedR {}) 0).en = false ∧ instOf (ownedR {}) .host .slcQ = some 0 ∧ (getPair { ownedR {} with slc := { pairs := [(0, { en := true })] } } 0).en = true ∧ (ownedR {}).hst.link = .up ∧
    instOf (ownedR {}) .host .csnLane = some 0 ∧ (getLane { ownedR {} with csn := { engs := [(0, { lanes := [(0, { st := .ready })] })] } } 0 0).st = .ready ∧
    bitN (regNew (ownedR {}) 0xC018 0 1 (2 ^ 32 - 1)) 1 = bitN (regWritten (ownedR {}) 0xC018 0) 1 ∧ bitN (regNew (ownedR {}) 0xC018 0 2 (2 ^ 32 - 1)) 1 ≠ bitN (regWritten (ownedR {}) 0xC018 0) 1 := by decide +kernel

theorem witness_service : bitN (0x83 &&& (2 ^ 32 - 1)) 7 = true ∧ bitsN (0x83 &&& (2 ^ 32 - 1)) 6 0 < 80 ∧ 80 ≤ bitsN (0xD0 &&& (2 ^ 32 - 1)) 6 0 ∧ siteReasons (ownedR {}) 10 = [.oxbowIdle] ∧
    siteFailed { ownedR {} with net := { dieHoles := [3] } } (dieSite { ownedR {} with net := { dieHoles := [3] } } (10 * bitsN (0x98 &&& (2 ^ 32 - 1)) 2 0 + bitsN (0x98 &&& (2 ^ 32 - 1)) 6 3)) = true ∧
    siteFailed (ownedR {}) 3 = false ∧ (ownedR {}).hdw.obj = none ∧ (ownedR {}).hdw.gen < 3 ∧ (ownedR {}).hdw.rekey = none ∧ (ownedR {}).hdw.scan = .out ∧ canLose (ownedR {}) 0 = true ∧ siteAvail (ownedR {}) 0 = true ∧
    siteAvail (ownedR {}) 10 = false ∧ instOf (ownedR {}) .host .levRegion = some 0 := by decide +kernel

theorem witness_service_more : tget? ({ ownedR {} with lev := { region := [(0, 2)] } } : State).lev.region 0 = some 2 ∧ tget? (ownedR {}).net.rejoin 0 = none ∧ (ownedR { lev := { power := .on } }).lev.power = .on ∧
    bitN (regWritten (ownedR {}) 0x11000 0) 0 = false ∧ (ownedR {}).tel.dumpArmed = false ∧ (ownedR {}).tel.snap = none ∧ fastOk (ownedR {}) 0 telBytes = true ∧ fastOk (ownedR {}) (2 ^ 63) telBytes = false := by decide +kernel

theorem witness_config : (ownedR {}).hst.link = .up ∧ barOpen (ownedR {}) = true ∧ barOpen {} = false ∧ ({} : State).hst.link ≠ .up ∧
    telHeld (.host 0x12008 4 0) { hdw := { updates := [(10, { bank := 0, slot := 0, bnd := 0, act := true, startAt := some 0 })] } } = true := by decide +kernel

theorem witness_reads : pathOpen (ownedR {}) .host = true ∧ updating (ownedR {}) 10 = false ∧ blockUp (ownClock (ownedR {})) bTID = true ∧ instOf (ownClock { ownedR {} with regs := { view := [(0x12000 * 4 + 1, bFRS)] } }) .host .tel = some (telKey bFRS 0 0 0) ∧
    pathOpen { ownedR {} with regs := { view := [(0x12000 * 4 + 1, bFRS)] } } .host = true := by decide +kernel

def aRegRead (op n : Nat) : Bytes := natLE 2 op ++ natLE 2 6 ++ natLE 4 9 ++ natLE 4 0x9010 ++ natLE 2 n

theorem witness_mctp_read : regPeek (.mctp (aRegRead 4 2)) {} = some (4, 0x9010, natLE 4 0x9010 ++ natLE 2 2) ∧ offOk 0x9010 = true ∧ offOk (0x9010 + 4 * (2 - 1)) = true := by decide +kernel

theorem witness_mctp_read_taken (op n : Nat) (h : op = 4 ∨ op = 9) (hn : n = 0 ∨ n = 2) :
    ∃ g r, regMsg (.mctp (aRegRead op n)) {} = (some g, r) ∧ g.op = op ∧ g.data = natLE 4 0x9010 ++ natLE 2 n ∧ leField g.data 0 4 = 0x9010 ∧ leField g.data 4 2 = n := by
  refine ⟨{ m := .bmc, path := none, op := op, tag := 9, data := natLE 4 0x9010 ++ natLE 2 n }, (regMsg (.mctp (aRegRead op n)) {}).2, ?_, rfl, rfl, ?_, ?_⟩ <;>
    rcases h with rfl | rfl <;> rcases hn with rfl | rfl <;> first | decide +kernel | rfl

def aErr (sev : Nat) : ErrRec := { sev := sev, block := 0, cls := 1, unit := 0 }

def aErrs (us : List ErrRec) (q : List ErrEnt) : State := { err := { units := [(0, { q := us })], q := q } }

def aOcc (sev cls : Nat) : ErrRec := { sev := sev, block := 0, cls := cls, unit := 0 }

theorem witness_merge : (tget (aErrs [aErr 1, aErr 3] []).err.units 0 {}).q[1]? = some (aErr 3) ∧ Merges (aOcc 3 1) (aErr 3) ∧ (∀ x ∈ [aErr 1], ¬Merges (aOcc 3 1) x) ∧
    (aErrs [] [{ r := aErr 3 }]).err.q[0]? = some { r := aErr 3 } ∧ Merges (aOcc 3 1) (aErr 3) ∧ (tget (aErrs [] [{ r := aErr 3 }]).err.units 0 {}).q = [] := by decide

theorem witness_queue : (tget (aErrs [] []).err.units 0 {}).q.length < 64 ∧ (aErrs [] []).err.q = [] := by decide

theorem witness_evict : (tget (aErrs (List.replicate 64 (aErr 1)) []).err.units 0 {}).q[63]? = some (aErr 1) ∧ 64 ≤ (List.replicate 64 (aErr 1)).length ∧ (aErr 1).sev < 3 ∧
    (∀ x ∈ List.replicate 64 (aErr 1), (aErr 1).sev ≤ x.sev) ∧ (List.replicate 64 (aErr 1)).drop 64 = [] ∧ (∀ x ∈ List.replicate 64 (aErr 1), ¬Merges (aOcc 3 2) x) := by decide

theorem witness_lost : ∀ x ∈ (tget (aErrs (List.replicate 64 (aErr 1)) []).err.units 0 {}).q, 1 ≤ x.sev ∧ ¬Merges (aOcc 1 2) x := by decide

theorem witness_forward : (tget (aErrs [aErr 1, aErr 4] []).err.units 0 {}).q[1]? = some (aErr 4) ∧ (∀ x ∈ [aErr 1, aErr 4], x.sev ≤ (aErr 4).sev) ∧ (∀ x ∈ [aErr 1], x.sev < (aErr 4).sev) ∧
    (aErrs [aErr 1] []).err.q.length < 1024 := by decide

theorem witness_displace : 1024 ≤ (aErrs [aErr 4] (List.replicate 1024 { r := aErr 1 })).err.q.length ∧ (aErrs [aErr 4] (List.replicate 1024 { r := aErr 1 })).err.q[1023]? = some { r := aErr 1 } ∧
    (∀ x ∈ (aErrs [aErr 4] (List.replicate 1024 { r := aErr 1 })).err.q, (aErr 1).sev ≤ x.r.sev) ∧ (aErrs [aErr 4] (List.replicate 1024 { r := aErr 1 })).err.q.drop 1024 = [] ∧ (aErr 1).sev < 4 := by
  exact ⟨by decide +kernel, by decide +kernel, fun x hx => Nat.le_of_eq (congrArg (fun e : ErrEnt => e.r.sev) (List.eq_of_mem_replicate hx)).symm, by decide +kernel, by decide⟩

theorem witness_deliver : (aErrs [] [{ r := aErr 1 }, { r := aErr 4 }]).err.q[1]? = some { r := aErr 4 } ∧ (∀ x ∈ [({ r := aErr 1 } : ErrEnt)], x.delivered = true ∨ x.r.sev < 4) ∧
    (aErrs [] [{ r := aErr 1 }]).err.q[0]? = some { r := aErr 1 } := by decide

theorem witness_record : (∃ e ∈ (aErrs [] [{ r := aErr 1 }]).err.q, e.r.seq = leNat [0, 0, 0, 0]) ∧ ((aErrs [] []).err.q = []) ∧ (List.replicate 64 (0 : Nat)).length = 64 := by decide

theorem witness_dump : bytesWf ([] : Tab Byte) = true ∧ ({ tel := { snap := some (7, [(telKey bERR 0 0 0, 5)]) } } : State).tel.snap = some (7, [(telKey bERR 0 0 0, 5)]) ∧
    (telPlace (telKey bERR 0 0 0) telRows 0).isSome = true ∧
    ∀ p ∈ [(telKey bERR 0 0 0, 5)], ∀ q ∈ [(telKey bERR 0 0 0, 5)], telPlace p.1 telRows 0 = telPlace q.1 telRows 0 → telPlace p.1 telRows 0 ≠ none → p = q := by
  refine ⟨rfl, rfl, by decide +kernel, ?_⟩
  intro p hp q hq _ _
  simp only [List.mem_singleton] at hp hq
  rw [hp, hq]

def aOwned : State := { bst := { ready := true, step := 10 }, hst := { link := .up, cxl := true }, own := { owner := some .host, leaseEnd := 1000 } }

theorem witness_bar0 : telHeld (.host 0x16 8 0) aOwned = false ∧ telHeld (.host 0x10 8 0) aOwned = false ∧ pathOpen aOwned .host = true ∧ Owns aOwned .host ∧ plainWrite 0x14 7 = true ∧ plainWrite 0x18 7 = true ∧ regAt 0x18 = none ∧ plainWrite 0x16 7 = true ∧
    regAt 0x14 = some (rg 0x14 .none [rw' 31 0 .l 0]) ∧ hostOnly 0x14 = false ∧ instOf aOwned .host .none = some 0 ∧ staticNow aOwned 0x14 0 (rw' 31 0 .l 0) = false ∧
    regBad aOwned 0x14 0 (regNew aOwned 0x14 0 7 (2 ^ 32 - 1)) = false := by
  refine ⟨by decide +kernel, by decide +kernel, by decide +kernel, ⟨rfl, by decide, rfl⟩, ?_⟩
  decide +kernel

theorem witness_stepT : ({ pending := [.flr] } : State).pending = .flr :: [] ∧ (Instr.flr).wf = true ∧ (Instr.doorbellSnoop 0 []).wf = false := by decide

theorem witness_inv : bytesWf State.reset.mem.data = true ∧ State.reset.err.bounded = true ∧ step State.reset = .next (tideTick State.reset) := ⟨rfl, rfl, rfl⟩

theorem witness_frame : exec .perst {} = .next (match exec .perst {} with | .next t => t | _ => {}) := rfl

end Sys2Proof.Tests
end

section
/-! How an occurrence finds its place in the error queues (R449, R450): one equation for each way, and O9 from them. -/
namespace Sys2Proof.Machine

/-! ### Entries of a list changed, dropped, found -/

theorem lmod_eq_set {α : Type} {l : List α} {i : Nat} {x : α} (f : α → α) (h : l[i]? = some x) : lmod l i f = l.set i (f x) := by
  induction l generalizing i with
  | nil => rfl
  | cons y l ih => cases i with
    | zero => cases h; rfl
    | succ i => simp only [lmod, List.set_cons_succ, ih (List.getElem?_cons_succ ▸ h)]

theorem ldel_eq_eraseIdx {α : Type} (l : List α) (i : Nat) : ldel l i = l.eraseIdx i := by
  induction l generalizing i with
  | nil => rfl
  | cons y l ih => cases i with
    | zero => rfl
    | succ i => simp only [ldel, List.eraseIdx_cons_succ, ih]

/-- The first entry that passes a test stands where `findIdx` looks. -/
theorem findIdx_of_first {α : Type} {l : List α} {p : α → Bool} {i : Nat} {x : α} (h : l[i]? = some x) (hx : p x = true)
    (hb : ∀ y ∈ l.take i, ¬p y = true) : l.findIdx p = i := by
  obtain ⟨hi, rfl⟩ := List.getElem?_eq_some_iff.mp h
  refine (List.findIdx_eq hi).mpr ⟨hx, fun j hj => ?_⟩
  exact Bool.eq_false_iff.mpr (hb _ (List.mem_take_iff_getElem.mpr ⟨j, by omega, rfl⟩))

/-! ### The record that a full queue gives up (R450) -/

theorem le_foldl_min {l : List Nat} {a b : Nat} : b ≤ l.foldl min a ↔ b ≤ a ∧ ∀ x ∈ l, b ≤ x := by
  induction l generalizing a with
  | nil => simp
  | cons y l ih => simp only [List.foldl_cons, ih, Nat.le_min, List.forall_mem_cons, and_assoc]

theorem foldl_min_eq {l : List Nat} {a v : Nat} (hv : v ∈ l) (ha : v ≤ a) (hm : ∀ x ∈ l, v ≤ x) : l.foldl min a = v :=
  Nat.le_antisymm ((le_foldl_min.mp (Nat.le_refl _)).2 v hv) (le_foldl_min.mpr ⟨ha, hm⟩)

/-- The last index below `n` that passes a test. -/
theorem getLast?_filter_range {n i : Nat} {p : Nat → Bool} (hi : i < n) (hp : p i = true) (ha : ∀ j, i < j → j < n → p j = false) :
    ((List.range n).filter p).getLast? = some i := by
  have split : List.range n = List.range i ++ [i] ++ (List.range (n - (i + 1))).map (i + 1 + ·) := by
    rw [← List.range_succ, ← List.range_add, Nat.add_sub_cancel' hi]
  have none_after : ((List.range (n - (i + 1))).map (i + 1 + ·)).filter p = [] := by
    simp only [List.filter_eq_nil_iff, List.mem_map, List.mem_range]
    rintro _ ⟨k, hk, rfl⟩
    simp [ha (i + 1 + k) (by omega) (by omega)]
  rw [split, List.filter_append, none_after, List.append_nil, List.filter_append, List.filter_cons_of_pos hp, List.filter_nil]
  exact List.getLast?_concat

theorem evictIdx_youngest_lowest {sevs : List Nat} {below i v : Nat} (h : sevs[i]? = some v) (hb : v < below) (h99 : v ≤ 99)
    (hm : ∀ x ∈ sevs, v ≤ x) (ha : ∀ x ∈ sevs.drop (i + 1), v < x) : evictIdx sevs below = some i := by
  obtain ⟨hi, hv⟩ := List.getElem?_eq_some_iff.mp h
  have low : sevs.foldl min 99 = v := foldl_min_eq (hv ▸ List.getElem_mem hi) h99 hm
  have above : ∀ j, i < j → j < sevs.length → (sevs.getD j 99 == v) = false := fun j hij hj => by
    have := ha sevs[j] (List.mem_drop_iff_getElem.mpr ⟨j - (i + 1), by omega, by congr 1; omega⟩)
    rw [List.getD_eq_getElem?_getD, List.getElem?_eq_getElem hj, Option.getD_some]
    exact beq_false_of_ne (Nat.ne_of_gt this)
  simp only [evictIdx, low, if_pos hb]
  exact getLast?_filter_range hi (by rw [List.getD_eq_getElem?_getD, h, Option.getD_some]; exact beq_self_eq_true v) above

theorem evictIdx_none {sevs : List Nat} {below : Nat} (hb : below ≤ 99) (h : ∀ x ∈ sevs, below ≤ x) : evictIdx sevs below = none := by
  have : ¬sevs.foldl min 99 < below := Nat.not_lt.mpr (le_foldl_min.mpr ⟨hb, h⟩)
  simp only [evictIdx, if_neg this]

/-! ### The unit queue takes a new record (R450) -/

/-- The state with a unit's queue in place. -/
def putUnit (unit : Nat) (u : UnitQ) (s : State) : State := { s with err := { s.err with units := tset s.err.units unit u } }

theorem frame_err_out (e : Err) (os : List Out) (s : State) : Frame [.out, .err] s { s with err := e, out := os } := by
  intro p hp
  cases p
  case out | err => exact absurd (by decide) hp
  case fly => exact ⟨rfl, rfl⟩
  all_goals rfl

theorem putUnit_frame (unit : Nat) (u : UnitQ) (s : State) : Frame [.err] s (putUnit unit u s) := by
  intro p hp
  cases p
  case err => exact absurd (by decide) hp
  case fly => exact ⟨rfl, rfl⟩
  all_goals rfl

theorem unitPush_room {o : ErrRec} {s : State} {u : UnitQ} (hu : tget s.err.units o.unit {} = u) (hl : u.q.length < 64) :
    unitPush o s = count bERR 0 0 o.unit (putUnit o.unit { u with q := u.q ++ [{ o with loss := u.lossNext }], lossNext := false } s) := by
  subst hu
  exact if_pos hl

theorem unitPush_evicts {o : ErrRec} {s : State} {u : UnitQ} {i : Nat} (hu : tget s.err.units o.unit {} = u) (hl : 64 ≤ u.q.length)
    (he : evictIdx (u.q.map (·.sev)) o.sev = some i) :
    unitPush o s = count bERR 0 0 o.unit (count bERR 1 0 o.unit
      (putUnit o.unit { u with q := u.q.eraseIdx i ++ [{ o with loss := true }], overflow := true, lossNext := false } s)) := by
  subst hu
  rw [← ldel_eq_eraseIdx]
  simp only [unitPush, if_neg (Nat.not_lt.mpr hl), he, putUnit]

theorem unitPush_loses {o : ErrRec} {s : State} {u : UnitQ} (hu : tget s.err.units o.unit {} = u) (hl : 64 ≤ u.q.length)
    (he : evictIdx (u.q.map (·.sev)) o.sev = none) :
    unitPush o s = count bERR 1 0 o.unit (putUnit o.unit { u with overflow := true, lossNext := true } s) := by
  subst hu
  simp only [unitPush, if_neg (Nat.not_lt.mpr hl), he, putUnit]

/-! ### An occurrence looks for its record (R449) -/

theorem errMatch_iff {o r : ErrRec} : errMatch o r = true ↔ Merges o r := by
  unfold errMatch Merges
  split <;> simp [and_assoc]

/-- A record with one more occurrence, of a severity, at a tide (R449). -/
def mergedAt (tide sev : Nat) (r : ErrRec) : ErrRec := { r with count := satAdd 32 r.count 1, last := tide, sev := max r.sev sev }

theorem raiseRec_into_unit {o r : ErrRec} {s : State} {u : UnitQ} {i : Nat} (hu : tget s.err.units o.unit {} = u) (h : u.q[i]? = some r)
    (hm : Merges o r) (hb : ∀ x ∈ u.q.take i, ¬Merges o x) :
    raiseRec o s = putUnit o.unit { u with q := u.q.set i (mergedAt s.tide.count o.sev r) } s := by
  subst hu
  simp only [← errMatch_iff] at hm hb
  have some_takes : (tget s.err.units o.unit {}).q.any (errMatch o) = true := List.any_eq_true.mpr ⟨r, List.mem_of_getElem? h, hm⟩
  have found := findIdx_of_first h hm hb
  refine (if_pos some_takes).trans ?_
  change putUnit o.unit { tget s.err.units o.unit {} with q := lmod _ (List.findIdx (errMatch o) _) _ } s = _
  rw [found, lmod_eq_set _ h]
  rfl

theorem not_any_errMatch {o : ErrRec} {q : List ErrRec} (h : ∀ x ∈ q, ¬Merges o x) : q.any (errMatch o) = false :=
  List.any_eq_false.mpr fun x hx => (not_congr errMatch_iff).mpr (h x hx)

/-- The entry of the module queue whose record takes an occurrence; it is to be signalled again if its severity rose. -/
def mergedEnt (tide sev : Nat) (e : ErrEnt) : ErrEnt :=
  { e with r := mergedAt tide sev e.r, delivered := e.delivered && (mergedAt tide sev e.r).sev == e.r.sev }

theorem emit_if (b : Bool) (o : Out) (s : State) : (if b then emit o s else s) = { s with out := (if b then [o] else []) ++ s.out } := by
  cases b <;> rfl

theorem raiseRec_into_module {o : ErrRec} {e : ErrEnt} {s : State} {i : Nat} (hn : ∀ x ∈ (tget s.err.units o.unit {}).q, ¬Merges o x)
    (h : s.err.q[i]? = some e) (hm : Merges o e.r) (hb : ∀ x ∈ s.err.q.take i, ¬Merges o x.r) :
    raiseRec o s = { s with
      err := { s.err with q := s.err.q.set i (mergedEnt s.tide.count o.sev e) }
      out := (if e.ringed then [ringWrite s (mergedAt s.tide.count o.sev e.r)] else []) ++ s.out } := by
  simp only [← errMatch_iff] at hm hb
  have some_takes : s.err.q.any (fun e => errMatch o e.r) = true := List.any_eq_true.mpr ⟨e, List.mem_of_getElem? h, hm⟩
  have found : s.err.q.findIdx (fun e => errMatch o e.r) = i := findIdx_of_first h hm hb
  have entry : s.err.q[s.err.q.findIdx (fun e => errMatch o e.r)]? = some e := found.symm ▸ h
  have changed : lmod s.err.q (s.err.q.findIdx (fun e => errMatch o e.r)) (fun _ => mergedEnt s.tide.count o.sev e) =
      s.err.q.set i (mergedEnt s.tide.count o.sev e) := by rw [found, lmod_eq_set _ h]
  rw [← changed]
  refine (if_neg (Bool.eq_false_iff.mp (not_any_errMatch hn))).trans ((if_pos some_takes).trans ?_)
  change (match s.err.q[s.err.q.findIdx (fun e => errMatch o e.r)]? with | some e => _ | none => s) = _
  rw [entry]
  exact emit_if _ _ _

/-- An occurrence as the record it starts: first and last seen now. -/
def startedAt (tide : Nat) (o : ErrRec) : ErrRec := { o with first := tide, last := tide }

theorem raiseRec_new {o : ErrRec} {s : State} (hu : ∀ x ∈ (tget s.err.units o.unit {}).q, ¬Merges o x) (hq : ∀ x ∈ s.err.q, ¬Merges o x.r) :
    raiseRec o s = unitPush (startedAt s.tide.count o) s := by
  have none_takes : ¬s.err.q.any (fun e => errMatch o e.r) = true :=
    Bool.eq_false_iff.mp (List.any_eq_false.mpr fun x hx => (not_congr errMatch_iff).mpr (hq x hx))
  exact (if_neg (Bool.eq_false_iff.mp (not_any_errMatch hu))).trans (if_neg none_takes)

/-! ### Counters -/

theorem count_counted (block num kind inst : Nat) {s t : State} (h : t.tel = s.tel) :
    Counted (telKey block num kind inst) 1 s (count block num kind inst t) := by
  simp [Counted, count, countN, h]

theorem telKey_num_ne {block num num' kind inst : Nat} (h : num ≠ num') : telKey block num kind inst ≠ telKey block num' kind inst := by
  simp only [telKey]
  omega

theorem Counted.count_other {k n : Nat} {s t : State} {block num kind inst : Nat} (hk : k ≠ telKey block num kind inst)
    (h : Counted k n s t) : Counted k n s (count block num kind inst t) := by
  simpa [Counted, count, countN, tget_tset_ne _ _ _ hk] using h

theorem Frame.count {ps : List Part} {s t : State} (block num kind inst : Nat) (hp : Part.tel ∈ ps) (h : Frame ps s t) :
    Frame ps s (count block num kind inst t) :=
  Frame.via (count_frame (ps := [.tel]) (by decide) (Framed.refl _ _)).frame (by simpa using hp) h

/-! ### The command -/

/-- R448: an occurrence of a class, of a severity that the class may carry, is raised. -/
theorem exec_errorRaise_raised {unit : Fin 165} {block cls : Fin 19} {sev : Fin 6} {ctx : Option (Fin 1024)} {transient : Bool}
    {loc0 loc1 : BitVec 64} {detail : Word} (s : State) (hc : cls ≠ 0) (hs : sev.val < 4 ∨ cls.val ∈ [0x0B, 0x0C, 0x10, 0x12]) :
    exec (.errorRaise unit block cls sev ctx transient loc0 loc1 detail) s =
      .next (raiseRec { sev := sev, ctx := ctx.map (·.val), transient := transient, block := block, cls := cls, unit := unit,
                        loc0 := loc0.toNat, loc1 := loc1.toNat, detail := detail.toNat } s) := by
  have valid : ¬(cls.val == 0 || (4 ≤ sev.val && !([0x0B, 0x0C, 0x10, 0x12].contains cls.val))) = true := by
    have nonzero : cls.val ≠ 0 := fun h => hc (Fin.ext h)
    rcases hs with hs | hs
    · simp [nonzero, Nat.not_le.mpr hs]
    · simp only [List.contains_iff_mem.mpr hs, Bool.not_true, Bool.and_false, Bool.or_false, beq_iff_eq]
      exact nonzero
  rw [exec_errorRaise, execErrorRaise, if_neg valid]

/-- Settles O9: the unit's queue is searched first, then the module's; what finds no record enters the unit's queue or is lost. -/
theorem occurrencesMergeQueueOrAreLost : Obligations.OccurrencesMergeQueueOrAreLost := by
  unfold Obligations.OccurrencesMergeQueueOrAreLost
  intro unit block cls sev ctx transient loc0 loc1 detail s hc hs o u c
  have run : exec c s = .next (raiseRec o s) := exec_errorRaise_raised s hc hs
  refine ⟨fun i r hr hm hb => ?_, fun hu => ⟨fun i e he hm hb => ?_, fun hq => ?_⟩⟩
  · exact ⟨_, run.trans (congrArg _ (raiseRec_into_unit rfl hr hm hb)), rfl, putUnit_frame _ _ _⟩
  · exact ⟨_, run.trans (congrArg _ (raiseRec_into_module hu he hm hb)), rfl, rfl, frame_err_out _ _ _⟩
  · have new : exec c s = .next (unitPush o s) := run.trans (congrArg _ (raiseRec_new hu hq))
    refine ⟨fun room => ?_, fun full => ⟨fun i r hr hlt hm ha => ?_, fun hge => ?_⟩⟩
    · refine ⟨_, new.trans (congrArg _ (unitPush_room rfl room)), rfl, count_counted _ _ _ _ rfl, ?_⟩
      exact Frame.count _ _ _ _ (by decide) ((putUnit_frame _ _ _).mono (by decide))
    · have youngest : evictIdx (u.q.map (·.sev)) sev = some i := by
        refine evictIdx_youngest_lowest (v := r.sev) (by simp [hr]) hlt (by omega) ?_ ?_
        · simpa using hm
        · simpa [← List.map_drop] using ha
      refine ⟨_, new.trans (congrArg _ (unitPush_evicts rfl full youngest)), rfl, ?_, ?_⟩
      · exact (count_counted _ _ _ _ rfl).count_other (telKey_num_ne (by decide))
      · exact Frame.count _ _ _ _ (by decide) (Frame.count _ _ _ _ (by decide) ((putUnit_frame _ _ _).mono (by decide)))
    · have kept : evictIdx (u.q.map (·.sev)) sev = none := evictIdx_none (by omega) (by simpa using hge)
      refine ⟨_, new.trans (congrArg _ (unitPush_loses rfl full kept)), rfl, count_counted _ _ _ _ rfl, ?_⟩
      exact Frame.count _ _ _ _ (by decide) ((putUnit_frame _ _ _).mono (by decide))

end Sys2Proof.Machine
end

section
/-! What the host's accesses of BAR0 do by their size and alignment (R455): loads, stores, the writes a register takes and those refused, and
O8 from them. -/
namespace Sys2Proof.Machine

/-! ### An owner's timers have not run out -/

theorem Owns.ownClock {s : State} {m : Master} (h : Owns s m) : ownClock s = s := by
  obtain ⟨-, lease, window⟩ := h
  simp [Machine.ownClock, window, ownExpire, Nat.not_le.mpr lease]

theorem Owns.isOwner {s : State} {m : Master} (h : Owns s m) : isOwner s m = true := by
  obtain ⟨owner, lease, -⟩ := h
  simp [Machine.isOwner, owner, lease]

/-! ### Loads on BAR0 -/

theorem exec_regRead_host {off : BitVec 24} {n : Nat} {v : BitVec 64} {s : State} (h : telHeld (.host off n v) s = false) :
    exec (.regRead (.host off n v)) s = .next (hostLoad off.toNat n s) := by
  have touches : ((storeOffs off.toNat n).any fun _ => true) = true := by
    unfold storeOffs
    split <;> rfl
  simp only [exec_regRead, execRegRead, h, Bool.false_eq_true, if_false, readCommand, touches, if_true]

/-- A load answers with a value, and latches what its registers latch. -/
theorem emit_regRun_answers (n off o v : Nat) (s : State) :
    let t := emit (.regRead .host o v) (regRun .host n off s).2
    t.out = .regRead .host o v :: s.out ∧ Frame [.regs, .out] s t := by
  have run : Frame [.regs] s (regRun .host n off s).2 := (regRun_frame (by decide) (Framed.refl _ s)).frame
  refine ⟨congrArg _ (run .out (by decide)), ?_⟩
  exact Frame.via (emit_frame (ps := [.out]) (by decide) (Framed.refl _ _)).frame (by decide) (run.mono (by decide))

section
variable {s : State} (hopen : pathOpen s .host = true) (owns : Owns s .host)
include hopen owns

theorem hostLoad_8 {off : Nat} (ha : off % 8 = 0) :
    hostLoad off 8 s = emit (.regRead .host off (regValue s .host off + 2 ^ 32 * regValue (regLatch .host off s) .host (off + 4)))
      (regRun .host 2 off s).2 := by
  simp [hostLoad, hopen, owns.ownClock, ha, regRun]

theorem hostLoad_4 {off : Nat} (ha : off % 4 = 0) :
    hostLoad off 4 s = emit (.regRead .host off (regValue s .host off)) (regRun .host 1 off s).2 := by
  simp [hostLoad, hopen, owns.ownClock, ha, regRun, Nat.div_mul_cancel (Nat.dvd_of_mod_eq_zero ha)]

theorem hostLoad_bytes {off n : Nat} (ha : ¬((n = 4 ∧ off % 4 = 0) ∨ (n = 8 ∧ off % 8 = 0))) :
    hostLoad off n s = emit (.regRead .host off (regValue s .host (off / 4 * 4) / 256 ^ (off % 4) % 256 ^ n))
      (regRun .host 1 (off / 4 * 4) s).2 := by
  rw [not_or] at ha
  simp [hostLoad, hopen, owns.ownClock, regRun, ha.1, ha.2]

end

/-! ### Stores on BAR0 -/

theorem exec_registerWrite_host {off : BitVec 24} {n : Nat} {v : BitVec 64} {s : State} (h : plainWrite off.toNat (v.toNat % 2 ^ 32) = true) :
    exec (.registerWrite (.host off n v)) s = .next (hostStore off.toNat n v.toNat s) := by
  have touches : ((storeOffs off.toNat n).any fun a => plainWrite a (if a == off.toNat then v.toNat % 2 ^ 32 else v.toNat / 2 ^ 32)) = true := by
    refine List.any_eq_true.mpr ⟨off.toNat, ?_, by simpa using h⟩
    unfold storeOffs
    split <;> simp
  simp only [exec_registerWrite, execRegisterWrite, writeCommand, touches, if_true]

theorem hostStore_4 {s : State} {off val : Nat} (hopen : pathOpen s .host = true) (ha : off % 4 = 0) :
    hostStore off 4 val s = (regStore .host off (val % 2 ^ 32) (2 ^ 32 - 1) s).2 := by
  simp [hostStore, hopen, ha]

/-- R455: an aligned 64-bit store is two 32-bit stores, the lower address first. -/
theorem hostStore_8 {s : State} {off val : Nat} (hopen : pathOpen s .host = true) (ha : off % 8 = 0) (hv : val < 2 ^ 64)
    (hq : pathOpen (hostStore off 4 (val % 2 ^ 32) s) .host = true) :
    hostStore off 8 val s = hostStore (off + 4) 4 (val / 2 ^ 32) (hostStore off 4 (val % 2 ^ 32) s) := by
  have upper : val / 2 ^ 32 % 2 ^ 32 = val / 2 ^ 32 := Nat.mod_eq_of_lt (by omega)
  rw [hostStore_4 hq (by omega), hostStore_4 hopen (by omega), Nat.mod_mod, upper]
  simp [hostStore, hopen, ha]

theorem toNat_low32 (v : BitVec 64) : (v &&& 0xFFFFFFFF).toNat = v.toNat % 2 ^ 32 :=
  (BitVec.toNat_and v _).trans (Nat.and_two_pow_sub_one_eq_mod v.toNat 32)

theorem toNat_high32 (v : BitVec 64) : (v >>> 32).toNat = v.toNat / 2 ^ 32 := by
  rw [BitVec.toNat_ushiftRight, Nat.shiftRight_eq_div_pow]

theorem toNat_upper_address {off : BitVec 24} (ha : off.toNat % 8 = 0) : (off + 4).toNat = off.toNat + 4 := by
  have four : (4 : BitVec 24).toNat = 4 := rfl
  have := off.isLt
  rw [BitVec.toNat_add, four]
  omega

/-- R455, of the commands: the 64-bit write is the write at the lower address, then the write at the upper one. -/
theorem exec_registerWrite_host_8 {off : BitVec 24} {v : BitVec 64} {s : State} (hopen : pathOpen s .host = true) (ha : off.toNat % 8 = 0)
    (hlo : plainWrite off.toNat (v.toNat % 2 ^ 32) = true) (hhi : plainWrite (off.toNat + 4) (v.toNat / 2 ^ 32) = true) :
    ∃ t, exec (.registerWrite (.host off 4 (v &&& 0xFFFFFFFF))) s = .next t ∧
      (pathOpen t .host = true → exec (.registerWrite (.host (off + 4) 4 (v >>> 32))) t = exec (.registerWrite (.host off 8 v)) s) := by
  have upper_fits : v.toNat / 2 ^ 32 % 2 ^ 32 = v.toNat / 2 ^ 32 := Nat.mod_eq_of_lt (by have := v.isLt; omega)
  refine ⟨hostStore off.toNat 4 (v.toNat % 2 ^ 32) s, ?_, fun hq => ?_⟩
  · rw [exec_registerWrite_host (by rw [toNat_low32, Nat.mod_mod]; exact hlo), toNat_low32]
  · rw [exec_registerWrite_host (by rw [toNat_upper_address ha, toNat_high32, upper_fits]; exact hhi), exec_registerWrite_host hlo,
      toNat_upper_address ha, toNat_high32, hostStore_8 hopen ha v.isLt hq]

theorem hostStore_misaligned {s : State} {off n val : Nat} (hopen : pathOpen s .host = true) (ho : Owns s .host) (hr : off < 0x800000 ∨ 0x810000 ≤ off)
    (ha : ¬((n = 4 ∧ off % 4 = 0) ∨ (n = 8 ∧ off % 8 = 0))) : hostStore off n val s = refuseWrite .host off val 3 s := by
  rw [not_or] at ha
  have outside : ¬(0x800000 ≤ off ∧ off < 0x810000) := by omega
  simp [hostStore, hopen, ho.ownClock, ho.isOwner, ha.1, ha.2, outside]

/-! ### Refused writes -/

theorem refuseWrite_refused (m : Master) (off val detail : Nat) (s : State) :
    WriteRefused m off detail s (refuseWrite m off val detail s) ∧ (refuseWrite m off val detail s).regs = s.regs := by
  have frame : Frame [.out, .err, .tel] s (refuseWrite m off val detail s) := (refuseWrite_frame (by decide) (Framed.refl _ s)).frame
  exact ⟨⟨⟨val, rfl⟩, frame.mono (by decide)⟩, frame .regs (by decide)⟩

/-! ### Offsets where a register stands -/

theorem regAt_off {off : Nat} {d : RegDesc} (h : regAt off = some d) : d.off = off := by simpa using List.find?_some h

/-- Each register with a command of its own is one of the map. -/
theorem regAt_of_ownRow {off : Nat} (h : ownRow off = true) : regAt off ≠ none := by
  have rows : ∀ o ∈ [0x4020, 0x8018, 0x9000, 0x901C, 0xA01C, 0xA020, 0xB00C, 0xB020, 0xC018, 0xD010, 0xD02C, 0xE008, 0xE028, 0xF004, 0x1000C, 0x10010,
    0x10030, 0x11000, 0x11010, 0x12018], regAt o ≠ none := by decide +kernel
  exact rows off (List.contains_iff_mem.mp h)

theorem plainWrite_of_undefined {off : Nat} (val : Nat) (h : regAt off = none) : plainWrite off val = true := by
  have : ownRow off = false := Bool.eq_false_iff.mpr fun g => regAt_of_ownRow g h
  simp [plainWrite, this]

theorem plainWrite_iff {off val : Nat} : plainWrite off val = true ↔
    ownRow off = false ∨ (off = 0xE008 ∧ bitN val 12 = false) ∨ (off = 0xD010 ∧ bitN val 31 = false) ∨ (off = 0xD02C ∧ bitN val 17 = false) ∨
      (off = 0x11000 ∧ bitN val 0 = false) ∨ (off = 0xA01C ∧ bitN val 0 = false ∧ bitN val 1 = false) := by
  simp [plainWrite, or_assoc, and_assoc]

/-! ### What a plain write sets off leaves the register file as it is -/

/-- Of these registers TID_STATUS, HST_OWN_STATUS, ERR_STATUS and ERR_UNIT_STATUS clear a bit, TID_REBASE_LO and BST_BOOTCFG_DATA keep the value
aside, CSN_ENG_CTRL judges a link, and HST_OWN_REQ asks for ownership. -/
theorem regAct_regs_of_not_ownRow (m : Master) {off : Nat} (i sel mask old : Nat) (s : State) (h : ownRow off = false) :
    (regAct m off i sel mask old s).regs = s.regs := by
  unfold regAct
  dsimp only
  split
  case h_4 | h_19 | h_26 | h_27 => split <;> rfl
  case h_5 | h_22 | h_29 => rfl
  case h_11 =>
    split
    · rfl
    · exact (engJudge_frame (ps := [.out, .err, .tel, .tide, .csn]) (by decide) (Framed.refl _ s)).frame .regs (by decide)
  case h_18 =>
    split
    · rfl
    · exact (ownRequest_frame (ps := [.out, .err, .tel, .csn, .own]) (by decide) (Framed.refl _ s)).frame .regs (by decide)
  all_goals exact absurd h (by decide)

/-- The bits that a plain write leaves clear are those that would set something off. -/
theorem regAct_regs_of_plainWrite (m : Master) {off i val : Nat} (sel mask old : Nat) {s : State} (hw : plainWrite off val = true)
    (hs : ∀ b, bitN sel b = true → bitN val b = true) (hn : ∀ b < 32, bitN (regWritten s off i) b = true → bitN val b = true) :
    (regAct m off i sel mask old s).regs = s.regs := by
  have sel_clear : ∀ b, bitN val b = false → bitN sel b = false := fun b hb => Bool.eq_false_iff.mpr fun g => by simp [hs b g] at hb
  have new_clear : ∀ b < 32, bitN val b = false → bitN (regWritten s off i) b = false := fun b hl hb =>
    Bool.eq_false_iff.mpr fun g => by simp [hn b hl g] at hb
  rcases plainWrite_iff.mp hw with h | ⟨rfl, h⟩ | ⟨rfl, h⟩ | ⟨rfl, h⟩ | ⟨rfl, h⟩ | ⟨rfl, h0, h1⟩
  · exact regAct_regs_of_not_ownRow m i sel mask old s h
  · simp [regAct, new_clear 12 (by decide) h]
  · simp only [regAct, new_clear 31 (by decide) h, Bool.not_false, if_true]
    split <;> rfl
  · simp only [regAct, new_clear 17 (by decide) h, Bool.not_false, if_true]
    split <;> rfl
  · simp [regAct, new_clear 0 (by decide) h]
  · simp [regAct, sel_clear 0 h0, sel_clear 1 h1]

/-! ### A register takes a write (R453) -/

theorem bitN_eq_testBit (n b : Nat) : bitN n b = n.testBit b := by
  rw [Nat.testBit_eq_decide_div_mod_eq]
  rfl

theorem bitN_of_and {x y b : Nat} (h : bitN (x &&& y) b = true) : bitN x b = true := by
  rw [bitN_eq_testBit, Nat.testBit_and, Bool.and_eq_true] at h
  rw [bitN_eq_testBit]
  exact h.1

/-- A write that selects every bit of a register leaves no bit of the old value. -/
theorem bitN_regNew_whole {s : State} {off i val b : Nat} (hb : b < 32) (h : bitN (regNew s off i val (2 ^ 32 - 1)) b = true) : bitN val b = true := by
  unfold regNew at h
  split at h
  · have h := bitN_of_and h
    have old : regWritten s off i - regWritten s off i % 2 ^ 32 = regWritten s off i / 2 ^ 32 * 2 ^ 32 := by omega
    rw [Nat.and_two_pow_sub_one_eq_mod, Nat.and_two_pow_sub_one_eq_mod, old, bitN_eq_testBit, Nat.testBit_or, Nat.testBit_mul_two_pow,
      Nat.testBit_mod_two_pow, decide_eq_false (Nat.not_le.mpr hb), decide_eq_true hb, Bool.false_and, Bool.false_or, Bool.true_and] at h
    rw [bitN_eq_testBit, h]
  · simp [bitN] at h

theorem regWritten_congr {s t : State} {off i : Nat} (h : t.regs = s.regs) : regWritten t off i = regWritten s off i := by
  rw [regWritten, regWritten, h]

/-- A register whose fields are not static, and pass their check, takes a write whole; what the write sets off comes after. -/
theorem regTake_takes (m : Master) {d : RegDesc} {i val mask : Nat} {s : State} (hd : regAt d.off = some d)
    (hp : ¬(0xE008 ≤ d.off ∧ d.off ≤ 0xE018 ∧ i = 0)) (hst : ∀ f ∈ d.fields, staticNow s d.off i f = false)
    (hbad : regBad s d.off i (regNew s d.off i val mask) = false) :
    ∃ t, regWritten t d.off i = regNew s d.off i val mask ∧ regTake m d i val mask s =
      regAct m d.off i (val &&& (mask &&& fieldMask d fun _ => true)) (mask &&& fieldMask d fun _ => true) (regWritten s d.off i) t := by
  have none_stuck : ∀ p : Field → Bool, (d.fields.filter fun f => staticNow s d.off i f && p f) = [] := fun p =>
    List.filter_eq_nil_iff.mpr fun f hf => by simp [hst f hf]
  have profile : ¬(0xE008 ≤ d.off && d.off ≤ 0xE018 && i == 0) = true := by simpa [and_assoc] using hp
  have new : regNew s d.off i val mask = ((regWritten s d.off i - (regWritten s d.off i &&& mask)) ||| (val &&& mask)) &&& fieldMask d (·.acc == .rw) := by
    simp only [regNew, hd]
  rw [new] at hbad ⊢
  simp only [regTake, if_neg profile, none_stuck, List.isEmpty_nil, List.contains_nil, Bool.not_false, Bool.and_true, Nat.sub_self,
    Nat.and_zero, Nat.or_zero, hbad, if_true, Bool.false_eq_true, if_false]
  refine ⟨_, ?_, rfl⟩
  exact tget_tset_same _ _ _ _

/-- R453: the host, as owner, writes a register with no command of its own. -/
theorem hostStore_taken {s : State} {off val i : Nat} {d : RegDesc} (hopen : pathOpen s .host = true) (owns : Owns s .host)
    (hr : off < 0x800000 ∨ 0x810000 ≤ off) (ha : off % 4 = 0) (hw : plainWrite off (val % 2 ^ 32) = true) (hd : regAt off = some d)
    (hv : d.view = false) (hi : instOf s .host d.idx = some i) (hp : ¬(0xE008 ≤ off ∧ off ≤ 0xE018 ∧ i = 0))
    (hst : ∀ f ∈ d.fields, staticNow s off i f = false) (hbad : regBad s off i (regNew s off i (val % 2 ^ 32) (2 ^ 32 - 1)) = false) :
    regWritten (hostStore off 4 val s) off i = regNew s off i (val % 2 ^ 32) (2 ^ 32 - 1) := by
  have outside : ¬(0x800000 ≤ off ∧ off < 0x810000) := by omega
  obtain rfl := regAt_off hd
  have store : hostStore d.off 4 val s = regTake .host d i (val % 2 ^ 32) (2 ^ 32 - 1) s := by
    rw [hostStore_4 hopen ha]
    simp [regStore, owns.ownClock, owns.isOwner, outside, hd, hv, hi]
  obtain ⟨t, written, take⟩ := regTake_takes .host hd hp hst hbad
  rw [store, take, ← written]
  refine regWritten_congr (regAct_regs_of_plainWrite .host _ _ _ hw (fun _ => bitN_of_and) fun b hb h => ?_)
  exact bitN_regNew_whole hb (written ▸ h)

theorem hostStore_undefined {s : State} {off val : Nat} (hopen : pathOpen s .host = true) (owns : Owns s .host)
    (hr : off < 0x800000 ∨ 0x810000 ≤ off) (ha : off % 4 = 0) (hd : regAt off = none) :
    hostStore off 4 val s = refuseWrite .host off (val % 2 ^ 32 &&& (2 ^ 32 - 1)) 4 s := by
  have outside : ¬(0x800000 ≤ off ∧ off < 0x810000) := by omega
  rw [hostStore_4 hopen ha]
  simp [regStore, owns.ownClock, owns.isOwner, outside, hd]

/-- R455: where no register stands, and no CXL component register (R482), a read answers 0. -/
theorem regValue_undefined {s : State} {off : Nat} (m : Master) (hr : off < 0x800000 ∨ 0x810000 ≤ off) (hd : regAt off = none) : regValue s m off = 0 := by
  have outside : ¬(0x801000 ≤ off ∧ off < 0x802000) := by omega
  simp [regValue, hd, outside]

/-- Settles O8: each access is brought to its load or its store, and each of these to what it does by size and alignment. -/
theorem bar0TakesAlignedAccesses : Obligations.Bar0TakesAlignedAccesses := by
  unfold Obligations.Bar0TakesAlignedAccesses
  intro off v n s hopen owns hr o aligned
  refine ⟨?_, ?_, ?_, ?_, ?_, ?_, ?_⟩
  · rintro d i rfl ha hw hd hv - - hi hp hst hbad
    exact ⟨_, exec_registerWrite_host hw, hostStore_taken hopen owns hr ha hw hd hv hi (fun ⟨l, h, z⟩ => hp l h z) hst hbad⟩
  · rintro rfl ha hlo hhi
    exact exec_registerWrite_host_8 hopen ha hlo hhi
  · rintro held rfl ha
    exact ⟨_, (exec_regRead_host held).trans (congrArg _ (hostLoad_4 hopen owns ha)), emit_regRun_answers _ _ _ _ s⟩
  · rintro held rfl ha
    exact ⟨_, (exec_regRead_host held).trans (congrArg _ (hostLoad_8 hopen owns ha)), emit_regRun_answers _ _ _ _ s⟩
  · intro ha hw
    exact ⟨_, (exec_registerWrite_host hw).trans (congrArg _ (hostStore_misaligned hopen owns hr ha)), refuseWrite_refused _ _ _ _ s⟩
  · intro held ha
    exact ⟨_, (exec_regRead_host held).trans (congrArg _ (hostLoad_bytes hopen owns ha)), emit_regRun_answers _ _ _ _ s⟩
  · intro hd
    refine ⟨regValue_undefined .host hr hd, ?_⟩
    rintro rfl ha
    exact ⟨_, (exec_registerWrite_host (plainWrite_of_undefined _ hd)).trans (congrArg _ (hostStore_undefined hopen owns hr ha hd)), refuseWrite_refused _ _ _ _ s⟩

end Sys2Proof.Machine
end
